-- ==== Sys2Proof/Word.lean ====
section
/-! DEFINITION. Word types and index types of the DQ-4160 (spec 00 R6, 01 R11, R15). -/

namespace Sys2Proof

abbrev Byte := BitVec 8
abbrev W16 := BitVec 16
abbrev W32 := BitVec 32
abbrev W64 := BitVec 64
/-- A device address (01 R25). -/
abbrev Addr := BitVec 40

/-- Station number (01 R11). -/
abbrev Stn := Fin 4
/-- Logical tile number within a station (01 R12). -/
abbrev TileNo := Fin 40
/-- Physical tile number within a station (01 R15). -/
abbrev Phys := Fin 48
/-- A matrix master (11 R304): 0 Hall, 1 to 4 queue engines, 5 DMA, 6 PCIe, 7 chain engine, 8 camera ingest. -/
abbrev Master := Fin 9
/-- A matrix target (11 R304). -/
abbrev Target := Fin 9

end Sys2Proof
end

