-- ==== Sys2Proof/Operand.lean ====
section
/-! DEFINITION. The operand types of the commands: what the world outside the block hands it with an event. -/

namespace Sys2Proof

/-- A tile unit whose operations complete later (02 R46, R48). -/
inductive UnitId where
  | alu (n : Fin 2) | mac (n : Fin 2) | shf | scu
  deriving DecidableEq, Repr

/-- A kind of pipe of a physical tile (01 R11, R13). -/
inductive PipeKind where
  | alu | mac | unspared
  deriving DecidableEq, Repr

/-- What the outside port of tile data memory does with the word of a tile's access in that bank cycle (08 R229). -/
inductive Meet where
  | none | read | write
  deriving DecidableEq, Repr

/-- State of the check bits of a word as a scrubber or a router finds it (08 R227, 07 R194). -/
inductive Upset where
  | none | single | double
  deriving DecidableEq, Repr

/-- State of a link word as the next router finds it (07 R194). -/
inductive LinkUpset where
  | none | dataSingle | dataDouble | parity
  deriving DecidableEq, Repr

/-- A memory made of banks (08 R220). -/
inductive BankMem where
  | tile (s : Stn) (t : TileNo) | station (s : Stn) | hall
  deriving DecidableEq, Repr

/-- A memory whose errors the Hall answers (15 R419, KIND 0x0005). -/
inductive FaultMem where
  | tile (s : Stn) (t : TileNo) | station (s : Stn) | hall | lp5 (n : Fin 2)
  deriving DecidableEq, Repr

/-- What the other port of an on-die bank does in the bank cycle of a matrix access (08 R229, R230). -/
inductive PortAct where
  | read | write | atomic
  deriving DecidableEq, Repr

/-- An access of the other port: n doublewords from an address on, one for an element, eight for a row. -/
structure PortMeet where
  act : PortAct
  start : Addr
  n : Nat
  deriving DecidableEq, Repr

/-- What surrounds a matrix access: the access of its bank's other port, and a peripheral that does not answer in time (11 R309). -/
structure Around where
  meet : Option PortMeet := none
  silent : Bool := false
  deriving DecidableEq, Repr

/-- A tile at its data memory, and what the outside port does in the same bank cycle (08 R231). -/
structure TileMeet where
  tile : TileNo
  meet : Meet
  deriving DecidableEq, Repr

/-- A memory node and the network cycle within the frame in which a queue word meets it (07 R195, R209). -/
structure NodeSlot where
  node : Fin 9
  slot : BitVec 10
  deriving DecidableEq, Repr

/-- An access of a DMA channel and what stands around it (11 R323). -/
structure DmaAccess where
  chan : Fin 16
  around : Around := {}
  deriving DecidableEq, Repr

/-- A memory node in a bank cycle in which the matrix side accesses the same word or not (08 R229 to R231). -/
structure NodeAccess where
  node : Fin 8
  collide : Bool := false
  deriving DecidableEq, Repr

/-- A write of a camera context and what stands around it (09 R261). -/
structure CamAccess where
  ctx : Fin 8
  around : Around := {}
  deriving DecidableEq, Repr

/-- The modulator was out of range in a sample's interval (10 R280), and what stands around the sample's writes. -/
structure LcTake where
  ovr : Bool
  around : Around := {}
  deriving DecidableEq, Repr

/-- What the pins and the flash show when a reset is released: the straps (16 R449), the boot partitions in which
reads meet an uncorrectable error (14 R402), and TESTEN (17 R471). -/
structure ReleaseInputs where
  straps : BitVec 3
  bad : BitVec 2
  testen : Bool := false
  deriving DecidableEq, Repr

/-- What a chain port shows of its module and its PCS (12 R331, R366). -/
structure PortSignals where
  los : Bool
  txFault : Bool
  lock : Bool
  deriving DecidableEq, Repr

/-- The rate and the width that a PCIe link has trained to (12 R367). -/
structure PcieTrained where
  rate : BitVec 3
  width : BitVec 3
  deriving DecidableEq, Repr

/-- One beat of a matrix request: byte enables and data (11 R306). -/
structure Beat where
  mask : W64
  data : BitVec 512
  deriving DecidableEq, Repr

/-- What a matrix request asks for (11 R306). An atomic names the doubleword of its beat. -/
inductive MxOp where
  | read | write | add (word : Fin 8) (v : W64) | swap (word : Fin 8) (v : W64)
  deriving DecidableEq, Repr

/-- A matrix request (11 R306): a start address that is a multiple of 64 and 1 to 64 beats. -/
structure MxReq where
  start : Addr
  op : MxOp
  beats : List Beat
  deriving DecidableEq, Repr

/-- A CSI-2 long packet as the receiver's PHY FIFO delivers it (09 R253, R256, R270). -/
structure LongPkt where
  vc : BitVec 2
  dt : BitVec 6
  payload : List Byte
  crcOk : Bool
  hdrCorrected : Bool
  /-- Bytes of the payload that reached the line FIFO before it overflowed, if it did. -/
  fifoCut : Option Nat
  deriving DecidableEq, Repr

/-- A chain packet (12 R337). PLEN is the number of parameter bytes. -/
structure Packet where
  dst : Byte
  src : Byte
  flags : Byte
  opcode : Byte
  seq : W16
  role : W32
  stn : Byte
  rsv : BitVec 24
  params : List Byte
  deriving DecidableEq, Repr

/-- A link frame (12 R332): the fields of its header, the bytes between header and FCS, and the FCS. -/
structure LinkFrame where
  type : Byte
  dir : Byte
  lseq : W16
  aseq : W16
  len : W16
  body : List Byte
  fcs : W32
  deriving DecidableEq, Repr

/-- A chain packet as it arrives at a port, and what stands around the register accesses that it asks for (12 R346). -/
structure PacketIn where
  pkt : Packet
  around : Around := {}
  deriving DecidableEq, Repr

/-- A link frame as it arrives at a port, and what stands around the register accesses that its packet asks for. -/
structure FrameIn where
  frame : LinkFrame
  around : Around := {}
  deriving DecidableEq, Repr

/-- Why a chain link goes down (12 R334). -/
inductive DownCause where
  | lockLost | los | stalled
  deriving DecidableEq, Repr

/-- A host access to BAR2 (12 R365): a read of some bytes, or a write of bytes, none where its byte enable is 0. -/
inductive WinOp where
  | read (n : Nat) | write (bytes : List (Option Byte))
  deriving DecidableEq, Repr

/-- A host access to BAR2 and what stands around its beats. -/
structure WinReq where
  op : WinOp
  around : Around := {}
  deriving DecidableEq, Repr

/-- What the host computer has configured in the PCIe function (12 R363; PCI Express 4.0): memory space and bus master enabled, the
power state D3hot, MSI-X enabled and masked as a whole, and the addresses of BAR0 and BAR2; and that the host-memory accesses of
the function fail (12 R364). -/
structure PciCfg where
  memSpace : Bool
  busMaster : Bool
  d3hot : Bool
  msixOn : Bool
  msixMask : Bool
  bar0 : W64
  bar2 : W64
  memFails : Bool := false
  deriving DecidableEq, Repr

/-- A command descriptor and its packet as the device reads them from host memory (12 R364). -/
structure HostCmd where
  /-- The host-memory accesses of this descriptor succeeded. -/
  accessOk : Bool
  /-- The packet itself could be read. -/
  readOk : Bool
  len : W16
  /-- PLEN of the packet's header as read. -/
  plen : W16
  pkt : Packet
  around : Around := {}
  deriving DecidableEq, Repr

/-- A firmware access to the Window in the CLK_P cycle of a terminal access (13 R377, R378). `half` 0 is the lower word. -/
inductive FwAccess where
  | none
  | read (win : Fin 8) (pair : Fin 128)
  | mirror (win : Fin 8) (pair : Fin 128) (v : W32)
  | orAlias (win : Fin 8) (pair : Fin 128) (v : W32)
  | clearAlias (win : Fin 8) (pair : Fin 128) (v : W32)
  deriving DecidableEq, Repr

/-- A terminal's write cycle: LBHE_N, and that LIOR_N is low as well at some time of it (17 R467). -/
structure WriteCycle where
  bheN : Bool
  reading : Bool := false
  deriving DecidableEq, Repr

/-- A received serial character with the errors found in it (13 R383). -/
structure RxChar where
  char : Byte
  pe : Bool
  fe : Bool
  brk : Bool
  deriving DecidableEq, Repr

/-- What ends a USB transfer, or how one poll of an interrupt pipe is answered (13 R388). `part` brings packets of an IN transfer that
goes on. -/
inductive UsbOutcome where
  | nak | data (bytes : List Byte) | part (bytes : List Byte) | acked (count : Nat) | stall | txErrors | babble | portGone | noBandwidth
  deriving DecidableEq, Repr

/-- The cells of the boundary-scan register, one for each signal ball of the 3.3 V groups and the 1.8 V group outside the data lanes
and the port's own balls, in the order of 17 R454 (17 R471): chain 12, PCIe 1, legacy bus 46, serial 144, USB 32, drawers and GPIO 48,
seal 1, clocks, reset and straps 14, TESTEN. -/
abbrev Boundary := BitVec 299

/-- What a scan in EXTEST captures at the pins, and the cells it shifts in, if it is made (17 R471). -/
structure BoundaryScan where
  pins : Boundary
  cells : Option Boundary := none
  deriving DecidableEq, Repr

/-- The answer to a ROLE_GET sent by a peer watch, if one arrives in time (15 R433). -/
inductive PollReply where
  | missing | state (st : Byte) (tag : W32)
  deriving DecidableEq, Repr

/-- What the watched device answers to step 1 of a peer failover (15 R433). -/
inductive FailoverReply where
  | missing | ok | mismatch (tag : W32)
  deriving DecidableEq, Repr

end Sys2Proof
end

