-- ==== Sys2Proof/Syntax.lean ====
section
/-! DEFINITION. The commands of the DQ-4160, one constructor per row of spec/opcode_table.json. The operands are what the
sender of a command, or the world outside the block, decides about it; the rule cited is the row's. -/

namespace Sys2Proof

/-- A command of the block. `s` is a station, `t` a logical tile, `b` the value moved to a trigger port, `sg` the segment the
instruction names (06 R178), `slot` the network cycle within the frame (07 R195), `found` the state of a word's check bits. -/
inductive Instr where
  /-- INSTRUCTION (R36). -/
  | instruction (s : Stn) (t : TileNo) (meet : Meet)
  /-- INTERRUPT_ENTRY (R146). -/
  | interruptEntry (s : Stn) (t : TileNo)
  /-- ARITH_REPORT (R158). -/
  | arithReport (s : Stn) (t : TileNo)
  /-- DEFERRAL_WINDOW_END (R147). -/
  | deferralWindowEnd (s : Stn) (t : TileNo)
  /-- IDLE_WAKE (R146). -/
  | idleWake (s : Stn) (t : TileNo)
  /-- OPERATION_COMPLETE (R46). -/
  | operationComplete (s : Stn) (t : TileNo) (u : UnitId)
  /-- ADD (R101). -/
  | add (s : Stn) (t : TileNo) (n : Fin 2) (b : W64)
  /-- ADDT (R102). -/
  | addt (s : Stn) (t : TileNo) (n : Fin 2) (b : W64)
  /-- SUB (R101). -/
  | sub (s : Stn) (t : TileNo) (n : Fin 2) (b : W64)
  /-- SUBT (R102). -/
  | subt (s : Stn) (t : TileNo) (n : Fin 2) (b : W64)
  /-- AND (R101). -/
  | and (s : Stn) (t : TileNo) (n : Fin 2) (b : W64)
  /-- OR (R101). -/
  | or (s : Stn) (t : TileNo) (n : Fin 2) (b : W64)
  /-- XOR (R101). -/
  | xor (s : Stn) (t : TileNo) (n : Fin 2) (b : W64)
  /-- ANDN (R101). -/
  | andn (s : Stn) (t : TileNo) (n : Fin 2) (b : W64)
  /-- CMPEQ (R101). -/
  | cmpeq (s : Stn) (t : TileNo) (n : Fin 2) (b : W64)
  /-- CMPNE (R101). -/
  | cmpne (s : Stn) (t : TileNo) (n : Fin 2) (b : W64)
  /-- CMPLT (R101). -/
  | cmplt (s : Stn) (t : TileNo) (n : Fin 2) (b : W64)
  /-- CMPLTU (R101). -/
  | cmpltu (s : Stn) (t : TileNo) (n : Fin 2) (b : W64)
  /-- MIN (R101). -/
  | min (s : Stn) (t : TileNo) (n : Fin 2) (b : W64)
  /-- MAX (R101). -/
  | max (s : Stn) (t : TileNo) (n : Fin 2) (b : W64)
  /-- MINU (R101). -/
  | minu (s : Stn) (t : TileNo) (n : Fin 2) (b : W64)
  /-- MAXU (R101). -/
  | maxu (s : Stn) (t : TileNo) (n : Fin 2) (b : W64)
  /-- ADDW (R101). -/
  | addw (s : Stn) (t : TileNo) (n : Fin 2) (b : W64)
  /-- SUBW (R101). -/
  | subw (s : Stn) (t : TileNo) (n : Fin 2) (b : W64)
  /-- CMPEQW (R101). -/
  | cmpeqw (s : Stn) (t : TileNo) (n : Fin 2) (b : W64)
  /-- CMPLTW (R101). -/
  | cmpltw (s : Stn) (t : TileNo) (n : Fin 2) (b : W64)
  /-- ADDH (R101). -/
  | addh (s : Stn) (t : TileNo) (n : Fin 2) (b : W64)
  /-- SUBH (R101). -/
  | subh (s : Stn) (t : TileNo) (n : Fin 2) (b : W64)
  /-- CMPEQH (R101). -/
  | cmpeqh (s : Stn) (t : TileNo) (n : Fin 2) (b : W64)
  /-- CMPLTH (R101). -/
  | cmplth (s : Stn) (t : TileNo) (n : Fin 2) (b : W64)
  /-- MLA8 (R106). -/
  | mla8 (s : Stn) (t : TileNo) (n : Fin 2) (k : Fin 4) (b : W64)
  /-- MUL8 (R106). -/
  | mul8 (s : Stn) (t : TileNo) (n : Fin 2) (k : Fin 4) (b : W64)
  /-- MLA15 (R106). -/
  | mla15 (s : Stn) (t : TileNo) (n : Fin 2) (k : Fin 4) (b : W64)
  /-- MUL15 (R106). -/
  | mul15 (s : Stn) (t : TileNo) (n : Fin 2) (k : Fin 4) (b : W64)
  /-- MLA31 (R106). -/
  | mla31 (s : Stn) (t : TileNo) (n : Fin 2) (k : Fin 4) (b : W64)
  /-- MUL31 (R106). -/
  | mul31 (s : Stn) (t : TileNo) (n : Fin 2) (k : Fin 4) (b : W64)
  /-- SHL (R103). -/
  | shl (s : Stn) (t : TileNo) (b : W64)
  /-- SHR (R103). -/
  | shr (s : Stn) (t : TileNo) (b : W64)
  /-- SAR (R103). -/
  | sar (s : Stn) (t : TileNo) (b : W64)
  /-- ROL (R103). -/
  | rol (s : Stn) (t : TileNo) (b : W64)
  /-- EXTU (R103). -/
  | extu (s : Stn) (t : TileNo) (b : W64)
  /-- EXTS (R103). -/
  | exts (s : Stn) (t : TileNo) (b : W64)
  /-- INS (R103). -/
  | ins (s : Stn) (t : TileNo) (b : W64)
  /-- PERM (R103). -/
  | perm (s : Stn) (t : TileNo) (b : W64)
  /-- GRAD (R116). -/
  | grad (s : Stn) (t : TileNo) (sg : Fin 8) (b : W64)
  /-- THR (R116). -/
  | thr (s : Stn) (t : TileNo) (sg : Fin 8) (b : W64)
  /-- CENSUS (R116). -/
  | census (s : Stn) (t : TileNo) (sg : Fin 8) (b : W64)
  /-- ABSD (R116). -/
  | absd (s : Stn) (t : TileNo) (sg : Fin 8) (b : W64)
  /-- VCFG (R115). -/
  | vcfg (s : Stn) (t : TileNo) (b : W64)
  /-- WIMG (R119). -/
  | wimg (s : Stn) (t : TileNo) (sg : Fin 8) (b : W64)
  /-- WOUT (R120). -/
  | wout (s : Stn) (t : TileNo) (sg : Fin 8) (b : W64)
  /-- WALK (R121). -/
  | walk (s : Stn) (t : TileNo) (b : W64)
  /-- WALK_SAMPLE (R123). -/
  | walkSample (s : Stn) (x : TileMeet)
  /-- LD8 (R104). -/
  | ld8 (s : Stn) (t : TileNo) (sg : Fin 8) (b : W64)
  /-- LD8S (R104). -/
  | ld8s (s : Stn) (t : TileNo) (sg : Fin 8) (b : W64)
  /-- LD16 (R104). -/
  | ld16 (s : Stn) (t : TileNo) (sg : Fin 8) (b : W64)
  /-- LD16S (R104). -/
  | ld16s (s : Stn) (t : TileNo) (sg : Fin 8) (b : W64)
  /-- LD32 (R104). -/
  | ld32 (s : Stn) (t : TileNo) (sg : Fin 8) (b : W64)
  /-- LD32S (R104). -/
  | ld32s (s : Stn) (t : TileNo) (sg : Fin 8) (b : W64)
  /-- LD64 (R104). -/
  | ld64 (s : Stn) (t : TileNo) (sg : Fin 8) (b : W64)
  /-- ST8 (R104). -/
  | st8 (s : Stn) (t : TileNo) (sg : Fin 8) (b : W64)
  /-- ST16 (R104). -/
  | st16 (s : Stn) (t : TileNo) (sg : Fin 8) (b : W64)
  /-- ST32 (R104). -/
  | st32 (s : Stn) (t : TileNo) (sg : Fin 8) (b : W64)
  /-- ST64 (R104). -/
  | st64 (s : Stn) (t : TileNo) (sg : Fin 8) (b : W64)
  /-- LREQ (R234). -/
  | lreq (s : Stn) (t : TileNo) (k : Fin 4) (sg : Fin 8) (b : W64)
  /-- SADR (R234). -/
  | sadr (s : Stn) (t : TileNo) (k : Fin 4) (sg : Fin 8) (b : W64)
  /-- WAIT (R239). -/
  | wait (s : Stn) (t : TileNo) (k : Fin 4) (b : W64)
  /-- BLK (R242). -/
  | blk (s : Stn) (t : TileNo) (sg : Fin 8) (b : W64)
  /-- AADD (R245). -/
  | aadd (s : Stn) (t : TileNo) (sg : Fin 8) (b : W64)
  /-- ASWP (R245). -/
  | aswp (s : Stn) (t : TileNo) (sg : Fin 8) (b : W64)
  /-- ELEMENT_ISSUE (R235). -/
  | elementIssue (s : Stn) (t : TileNo) (k : Fin 4)
  /-- STORE_ELEMENT_SEND (R237). -/
  | storeElementSend (s : Stn) (t : TileNo) (k : Fin 4)
  /-- BLOCK_ISSUE (R243). -/
  | blockIssue (s : Stn) (x : TileMeet) (k : Fin 4) (out : Bool)
  /-- BLOCK_DONE (R243). -/
  | blockDone (s : Stn) (x : TileMeet) (k : Fin 4) (out : Bool)
  /-- QUEUE_REQUEST_ARRIVAL (R246). -/
  | queueRequestArrival (s : Stn) (t : TileNo) (x : NodeSlot)
  /-- ATOMIC_AT_BANK (R245). -/
  | atomicAtBank (s : Stn) (x : NodeAccess)
  /-- QUEUE_RESPONSE_ARRIVAL (R235). -/
  | queueResponseArrival (s : Stn) (t : TileNo) (x : NodeSlot)
  /-- JMP (R130). -/
  | jmp (s : Stn) (t : TileNo) (b : W64)
  /-- CALL (R138). -/
  | call (s : Stn) (t : TileNo) (b : W64)
  /-- RET (R138). -/
  | ret (s : Stn) (t : TileNo)
  /-- SYS (R130). -/
  | sys (s : Stn) (t : TileNo) (b : W64)
  /-- ERET (R155). -/
  | eret (s : Stn) (t : TileNo)
  /-- SHIELD (R147). -/
  | shield (s : Stn) (t : TileNo) (b : W64)
  /-- RDCR (R131). -/
  | rdcr (s : Stn) (t : TileNo) (b : W64)
  /-- WRCR (R131). -/
  | wrcr (s : Stn) (t : TileNo) (b : W64)
  /-- IDLE (R146). -/
  | idle (s : Stn) (t : TileNo)
  /-- SEND (R201). -/
  | send (s : Stn) (t : TileNo) (c : Fin 8) (b : W64)
  /-- MDST (R206). -/
  | mdst (s : Stn) (t : TileNo) (b : W64)
  /-- MAILBOX_TAKE (R206). -/
  | mailboxTake (s : Stn) (t : TileNo) (nowait : Bool)
  /-- MAILBOX_TAKE_COMPLETE (R206). -/
  | mailboxTakeComplete (s : Stn) (t : TileNo)
  /-- MBOX (R206). -/
  | mbox (s : Stn) (t : TileNo) (b : W64)
  /-- LINE_FILL_COMPLETE (R61). -/
  | lineFillComplete (s : Stn) (t : TileNo)
  /-- TILE_START (R165). -/
  | tileStart (s : Stn) (t : TileNo)
  /-- TILE_SELF_TEST_END (R165). -/
  | tileSelfTestEnd (s : Stn) (t : TileNo)
  /-- PIPE_FAILURE (R474). -/
  | pipeFailure (s : Stn) (phys : Phys) (kind : PipeKind)
  /-- TILE_STOP_REQUEST (R168). -/
  | tileStopRequest (s : Stn) (t : TileNo)
  /-- TILE_STOP_TAKEN (R168). -/
  | tileStopTaken (s : Stn) (t : TileNo)
  /-- TILE_TEST_REQUEST (R162). -/
  | tileTestRequest (s : Stn) (t : TileNo)
  /-- TEST_ENTRY (R162). -/
  | testEntry (s : Stn) (t : TileNo)
  /-- TILE_SWI (R168). -/
  | tileSwi (s : Stn) (t : TileNo) (hall : Bool) (v : W32)
  /-- STN_RUN_START (R33). -/
  | stnRunStart (s : Stn)
  /-- STATION_START_END (R33). -/
  | stationStartEnd (s : Stn)
  /-- STN_RUN_STOP (R33). -/
  | stnRunStop (s : Stn)
  /-- STATION_STOP_END (R33). -/
  | stationStopEnd (s : Stn)
  /-- STN_RUN_FAIL (R33). -/
  | stnRunFail (s : Stn)
  /-- STN_REPAIR_GO (R422). -/
  | stnRepairGo (s : Stn) (v : W32)
  /-- COLUMN_REPAIR (R18). -/
  | columnRepair (s : Stn)
  /-- STN_TWORLD_WRITE (R172). -/
  | stnTworldWrite (s : Stn) (hi : Bool) (v : W32)
  /-- LINK_WORD_HOP (R198). -/
  | linkWordHop (s : Stn) (sel : BitVec 9) (slot : BitVec 10) (found : LinkUpset)
  /-- CHANNEL_INJECT (R202). -/
  | channelInject (s : Stn) (t : TileNo) (c : Fin 8) (slot : BitVec 10)
  /-- CHANNEL_DATA_DELIVER (R203). -/
  | channelDataDeliver (s : Stn) (t : TileNo) (slot : BitVec 10)
  /-- CREDIT_INJECT (R204). -/
  | creditInject (s : Stn) (t : TileNo) (c : Fin 8) (slot : BitVec 10)
  /-- CREDIT_DELIVER (R204). -/
  | creditDeliver (s : Stn) (t : TileNo) (slot : BitVec 10)
  /-- MAILBOX_DELIVER (R207). -/
  | mailboxDeliver (s : Stn) (node : BitVec 6) (slot : BitVec 10)
  /-- FRAME_BOUNDARY (R212). -/
  | frameBoundary (s : Stn)
  /-- FREEZE_END (R213). -/
  | freezeEnd (s : Stn)
  /-- SLOT_TABLE_SCRUB (R214). -/
  | slotTableScrub (s : Stn) (sel : BitVec 9) (entry : BitVec 10) (found : Upset)
  /-- NET_FIX_GO (R218). -/
  | netFixGo (s : Stn) (v : W32)
  /-- NET_HALT (R218). -/
  | netHalt (s : Stn) (halt : Bool)
  /-- HALL_MAILBOX_SEND (R219). -/
  | hallMailboxSend (s : Stn) (v : W32)
  /-- HALL_MAILBOX_POP (R219). -/
  | hallMailboxPop (s : Stn)
  /-- BANK_POWER_WRITE (R224). -/
  | bankPowerWrite (m : BankMem) (hi : Bool) (v : W32)
  /-- BANK_POWER_CHANGE_END (R224). -/
  | bankPowerChangeEnd (m : BankMem) (bank : Fin 32)
  /-- ZERO_FILL_START (R225). -/
  | zeroFillStart (m : BankMem) (fill : W32)
  /-- ZERO_FILL_END (R225). -/
  | zeroFillEnd (m : BankMem) (bank : Fin 32)
  /-- MEM_SCRUB (R228). -/
  | memScrub (m : BankMem) (bank : Fin 32) (found : Upset)
  /-- READ_REISSUE (R231). -/
  | readReissue (s : Stn) (x : NodeAccess)
  /-- LP5_INIT (R249). -/
  | lp5Init (n : Fin 2)
  /-- LP5_TRAINING_END (R249). -/
  | lp5TrainingEnd (n : Fin 2) (pass : Bool)
  /-- LP5_SELF_REFRESH (R248). -/
  | lp5SelfRefresh (n : Fin 2) (enter : Bool)
  /-- LP5_MR4_READ (R248). -/
  | lp5Mr4Read (n : Fin 2) (hot : Bool)
  /-- LP5_SCRUB (R250). -/
  | lp5Scrub (n : Fin 2) (found : Upset)
  /-- FRAME_START (R256). -/
  | frameStart (s : Stn) (r : Fin 4) (vc : BitVec 2) (fnum : W16)
  /-- FRAME_END (R263). -/
  | frameEnd (s : Stn) (r : Fin 4) (vc : BitVec 2)
  /-- LINE_START (R256). -/
  | lineStart (s : Stn) (r : Fin 4) (vc : BitVec 2) (line : W16)
  /-- LONG_PACKET (R256). -/
  | longPacket (s : Stn) (r : Fin 4) (p : LongPkt)
  /-- CSI_ULPS (R253). -/
  | csiUlps (s : Stn) (r : Fin 4) (enter : Bool)
  /-- INGEST_WRITE (R261). -/
  | ingestWrite (s : Stn) (x : CamAccess)
  /-- SLOT_COMPLETE (R261). -/
  | slotComplete (s : Stn) (x : CamAccess)
  /-- CONTEXT_ENABLE (R268). -/
  | contextEnable (s : Stn) (k : Fin 8) (v : W32)
  /-- CONTEXT_DISABLE (R269). -/
  | contextDisable (s : Stn) (k : Fin 8) (v : W32)
  /-- CONTEXT_ABORT (R269). -/
  | contextAbort (s : Stn) (k : Fin 8) (v : W32)
  /-- LC_SAMPLE (R280). -/
  | lcSample (c : Fin 8) (first second : List (BitVec 24)) (x : LcTake)
  /-- OPEN_WIRE (R283). -/
  | openWire (c : Fin 8) (line : Fin 6)
  /-- EXCITATION_FAULT (R283). -/
  | excitationFault (c : Fin 8)
  /-- SENSE_FAULT (R283). -/
  | senseFault (c : Fin 8)
  /-- CALSEAL_CHANGE (R287). -/
  | calsealChange (isOpen : Bool)
  /-- LOAD (R288). -/
  | lcLoad (c : Fin 8)
  /-- LC_LOAD_END (R288). -/
  | lcLoadEnd (c : Fin 8)
  /-- LC_ENABLE (R290). -/
  | lcEnable (c : Fin 8)
  /-- LC_EXCITATION (R283). -/
  | lcExcitation (c : Fin 8) (on : Bool)
  /-- LC_SETTINGS_WRITE (R288). -/
  | lcSettingsWrite (c : Fin 8) (off : Byte) (v : W32)
  /-- ARMING_EXPIRY (R295). -/
  | armingExpiry
  /-- PANTRY_NOTICE (R296). -/
  | pantryNotice (s : Stn)
  /-- COMMIT (R296). -/
  | commit
  /-- COMMIT_END (R296). -/
  | commitEnd (ok : Bool)
  /-- APPEND (R298). -/
  | append
  /-- APPEND_END (R298). -/
  | appendEnd (ok : Bool)
  /-- DISARM (R295). -/
  | disarm
  /-- MATRIX_REQUEST (R306). -/
  | matrixRequest (m : Master) (r : MxReq)
  /-- MATRIX_PIECE (R311). -/
  | matrixPiece (g : Target) (around : Around)
  /-- REMAP (R313). -/
  | remap (m : Master) (v : W32)
  /-- TIME_BASE_LATCH (R316). -/
  | timeBaseLatch (m : Master)
  /-- TIMER_ENABLE (R317). -/
  | timerEnable (n : Fin 8) (v : W32)
  /-- TIMER_START (R317). -/
  | timerStart (n : Fin 8)
  /-- TIMER_EVENT (R317). -/
  | timerEvent (n : Fin 8)
  /-- GO (R324). -/
  | dmaGo (n : Fin 16)
  /-- DMA_ABORT (R327). -/
  | dmaAbort (n : Fin 16)
  /-- DMA_DISABLE (R329). -/
  | dmaDisable (n : Fin 16)
  /-- DMA_DESCRIPTOR_FETCH (R323). -/
  | dmaDescriptorFetch (x : DmaAccess)
  /-- DMA_TRANSFER_START (R323). -/
  | dmaTransferStart (n : Fin 16)
  /-- DMA_BEAT_RESPONSE (R325). -/
  | dmaBeatResponse (x : DmaAccess)
  /-- DMA_WRITEBACK (R323). -/
  | dmaWriteback (x : DmaAccess)
  /-- DMA_IDLE_HANDOVER (R328). -/
  | dmaIdleHandover (n : Fin 16)
  /-- DMA_SHADOW_WRITE (R328). -/
  | dmaShadowWrite (n : Fin 16) (hi : Bool) (v : W32) (handover : Option Around)
  /-- LINK_DATA_FRAME (R333). -/
  | linkDataFrame (p : Fin 2) (f : FrameIn)
  /-- LINK_ACK (R333). -/
  | linkAck (p : Fin 2) (f : LinkFrame)
  /-- LINK_NAK (R333). -/
  | linkNak (p : Fin 2) (f : LinkFrame)
  /-- LINK_RETRY_TIMEOUT (R333). -/
  | linkRetryTimeout (p : Fin 2)
  /-- LINK_DOWN (R334). -/
  | linkDown (p : Fin 2) (why : DownCause)
  /-- LINK_UP (R334). -/
  | linkUp (p : Fin 2)
  /-- WRAP_REMOVE (R335). -/
  | wrapRemove (p : Fin 2)
  /-- PROBE_SEND (R359). -/
  | probeSend (p : Fin 2) (frac : W16)
  /-- PROBE (R359). -/
  | probe (p : Fin 2) (f : LinkFrame) (counts : BitVec 48) (frac : W16)
  /-- PROBE_REPLY (R359). -/
  | probeReply (p : Fin 2) (f : LinkFrame) (t4 : W64)
  /-- PING (R346). -/
  | ping (p : Fin 2) (k : Packet)
  /-- ENUMERATE (R344). -/
  | enumerate (p : Fin 2) (k : Packet)
  /-- REG_READ (R346). -/
  | regRead (p : Fin 2) (k : PacketIn)
  /-- REG_WRITE (R346). -/
  | regWrite (p : Fin 2) (k : PacketIn)
  /-- RESET (R346). -/
  | chainReset (p : Fin 2) (k : Packet)
  /-- TIME_SYNC (R360). -/
  | timeSync (p : Fin 2) (k : Packet) (residence : W64)
  /-- IMAGE_LOAD (R409). -/
  | imageLoad (p : Fin 2) (k : Packet)
  /-- STATION_START (R410). -/
  | stationStart (p : Fin 2) (k : Packet)
  /-- STATION_STOP (R348). -/
  | stationStop (p : Fin 2) (k : Packet)
  /-- ROLE_SET (R355). -/
  | roleSet (p : Fin 2) (k : Packet)
  /-- ROLE_GET (R347). -/
  | roleGet (p : Fin 2) (k : Packet)
  /-- ATTEST (R415). -/
  | attest (p : Fin 2) (k : Packet)
  /-- PANTRY_READ (R347). -/
  | pantryRead (p : Fin 2) (k : Packet)
  /-- MBOX_SEND (R347). -/
  | mboxSend (p : Fin 2) (k : Packet)
  /-- LOG_READ (R420). -/
  | logRead (p : Fin 2) (k : Packet)
  /-- CMD_TAIL_WRITE (R364). -/
  | cmdTailWrite (tail : BitVec 12) (posted : List HostCmd)
  /-- RX_TAIL_WRITE (R364). -/
  | rxTailWrite (tail : BitVec 12) (accessOk : Bool)
  /-- RX_PACKET_DISCARD (R364). -/
  | rxPacketDiscard
  /-- PCIE_WINDOW_ACCESS (R365). -/
  | pcieWindowAccess (x : BitVec 22) (op : WinReq)
  /-- LEGACY_READ (R371). -/
  | legacyRead (la : BitVec 20) (bheN : Bool) (fw : FwAccess)
  /-- LEGACY_WRITE (R375). -/
  | legacyWrite (la : BitVec 20) (x : WriteCycle) (data : W16) (fw : FwAccess)
  /-- LRESET_RISE (R379). -/
  | lresetRise
  /-- LRESET_RECORD (R379). -/
  | lresetRecord
  /-- MIRROR_WRITE (R380). -/
  | mirrorWrite (m : Master) (win : Fin 8) (pair : Fin 128) (v : W32)
  /-- SET_ALIAS_WRITE (R380). -/
  | setAliasWrite (m : Master) (win : Fin 8) (pair : Fin 128) (v : W32)
  /-- CLR_ALIAS_WRITE (R380). -/
  | clrAliasWrite (m : Master) (win : Fin 8) (pair : Fin 128) (v : W32)
  /-- TYPE_WRITE (R380). -/
  | typeWrite (m : Master) (win : Fin 8) (quad : Fin 64) (v : W32)
  /-- FIFO_PUSH (R373). -/
  | fifoPush (m : Master) (k : Fin 16) (v : W32)
  /-- FIFO_CLR (R382). -/
  | fifoClr (m : Master) (k : Fin 16)
  /-- LOG_POP (R376). -/
  | logPop
  /-- SERIAL_RX_CHAR (R383). -/
  | serialRxChar (p : Fin 20) (c : RxChar)
  /-- SERIAL_TX_CHAR (R385). -/
  | serialTxChar (p : Fin 20)
  /-- SER_DATA_READ (R386). -/
  | serDataRead (m : Master) (p : Fin 20)
  /-- SER_DATA_WRITE (R386). -/
  | serDataWrite (m : Master) (p : Fin 20) (v : W32)
  /-- RX_TIMEOUT (R386). -/
  | rxTimeout (p : Fin 20)
  /-- MODEM_CHANGE (R386). -/
  | modemChange (p : Fin 20) (lines : BitVec 4)
  /-- DE_RELEASE (R385). -/
  | deRelease (p : Fin 4)
  /-- USB_PIPE_GO (R388). -/
  | usbPipeGo (g : Fin 4) (p : Fin 16) (fits : Bool)
  /-- USB_PIPE_ABORT (R389). -/
  | usbPipeAbort (g : Fin 4) (p : Fin 16)
  /-- USB_INTERVAL_POLL (R388). -/
  | usbIntervalPoll (g : Fin 4) (p : Fin 16) (o : UsbOutcome)
  /-- USB_TRANSFER_END (R388). -/
  | usbTransferEnd (g : Fin 4) (p : Fin 16) (o : UsbOutcome)
  /-- USB_PORT_RESET (R389). -/
  | usbPortReset (g : Fin 4) (k : Fin 4)
  /-- USB_PORT_RESET_END (R389). -/
  | usbPortResetEnd (g : Fin 4) (k : Fin 4) (speed : BitVec 2)
  /-- USB_SUSPEND (R389). -/
  | usbSuspend (g : Fin 4) (k : Fin 4)
  /-- USB_RESUME (R389). -/
  | usbResume (g : Fin 4) (k : Fin 4)
  /-- USB_CONNECT_CHANGE (R389). -/
  | usbConnectChange (g : Fin 4) (k : Fin 4) (attached : Bool)
  /-- USB_OVERCURRENT (R389). -/
  | usbOvercurrent (g : Fin 4) (k : Fin 4)
  /-- FIRE (R390). -/
  | fire (m : Master) (n : Fin 8)
  /-- PULSE_END (R390). -/
  | pulseEnd (n : Fin 8)
  /-- DRAWER_SENSE_CHANGE (R390). -/
  | drawerSenseChange (n : Fin 8) (level : Bool)
  /-- GPIO_EDGE (R391). -/
  | gpioEdge (i : Fin 32) (level : Bool)
  /-- GIO_SET (R391). -/
  | gioSet (m : Master) (v : W32)
  /-- GIO_CLR (R391). -/
  | gioClr (m : Master) (v : W32)
  /-- STN_LIOEV_WRITE (R396). -/
  | stnLioevWrite (s : Stn) (hi : Bool) (v : W32)
  /-- CHAIN_BOOT (R404). -/
  | chainBoot (p : Fin 2) (k : PacketIn)
  /-- FLASH_ERASE (R407). -/
  | flashErase
  /-- FLASH_PROGRAM (R407). -/
  | flashProgram
  /-- BOOT_FLASH_OP_END (R407). -/
  | bootFlashOpEnd (ok : Bool)
  /-- HASH_INIT (R412). -/
  | hashInit
  /-- HASH_UPDATE (R412). -/
  | hashUpdate
  /-- HASH_FINAL (R412). -/
  | hashFinal
  /-- VERIFY (R412). -/
  | verify (key : Byte)
  /-- SIGN (R412). -/
  | sign
  /-- AUTH (R413). -/
  | auth
  /-- RANDOM (R412). -/
  | random
  /-- GV_ABORT (R412). -/
  | gvAbort
  /-- VAULT_COMMAND_END (R412). -/
  | vaultCommandEnd
  /-- TILE_LOST_NOTICE (R421). -/
  | tileLostNotice (s : Stn) (t : TileNo)
  /-- TILE_RESTART_NOTICE (R423). -/
  | tileRestartNotice (s : Stn) (t : TileNo)
  /-- TILE_LFIX_GO (R425). -/
  | tileLfixGo (s : Stn) (t : TileNo) (v : W32)
  /-- LINE_RELOAD_END (R425). -/
  | lineReloadEnd (s : Stn) (t : TileNo)
  /-- LINE_FAULT_NOTICE (R425). -/
  | lineFaultNotice (s : Stn) (t : TileNo)
  /-- MEM_FAULT_NOTICE (R428). -/
  | memFaultNotice (m : FaultMem) (a : Addr)
  /-- NET_FAULT_NOTICE (R428). -/
  | netFaultNotice (s : Stn)
  /-- LOCKSTEP_DIVERGENCE (R429). -/
  | lockstepDivergence
  /-- WRST (R429). -/
  | wrst
  /-- PEER_WATCH_ARM (R433). -/
  | peerWatchArm (s : Stn) (payload : BitVec 48)
  /-- PEER_WATCH_POLL (R433). -/
  | peerWatchPoll (s : Stn) (r : PollReply) (f : FailoverReply)
  /-- THERMAL_SAMPLE (R441). -/
  | thermalSample (s : Stn) (temp iod : Byte)
  /-- THERMTRIP (R443). -/
  | thermtrip
  /-- CPR_AVS_WRITE (R444). -/
  | cprAvsWrite (m : Master) (v : W32)
  /-- VID_STEP (R444). -/
  | vidStep
  /-- CPR_GATE_WRITE (R440). -/
  | cprGateWrite (m : Master) (v : W32)
  /-- POWER_ON_RESET (R446). -/
  | powerOnReset
  /-- SYSRST (R446). -/
  | sysrst
  /-- DEV (R446). -/
  | rstDev
  /-- CHAIN (R446). -/
  | rstChain
  /-- CLOCK_LOSS (R438). -/
  | clockLoss
  /-- DEVICE_RESET_ASSERT (R448). -/
  | deviceResetAssert
  /-- RESET_RELEASE (R449). -/
  | resetRelease (x : ReleaseInputs)
  /-- BYPASS (R471). -/
  | bypass
  /-- IDCODE (R471). -/
  | idcode
  /-- SAMPLE_PRELOAD (R471). -/
  | samplePreload (pins preload : Boundary)
  /-- EXTEST (R471). -/
  | extest (x : BoundaryScan)
  /-- TSEL (R471). -/
  | tsel (s : Stn) (phys : Phys)
  /-- TREAD (R471). -/
  | tread (off : BitVec 18)
  /-- THALT (R471). -/
  | thalt (halt : Bool)
  /-- REGISTER_WRITE (R8). -/
  | registerWrite (m : Master) (a : Addr) (v hw : W32)
  /-- START_OF_TRANSMISSION (R272). -/
  | startOfTransmission (s : Stn) (r : Fin 4) (recognised : Bool)
  /-- PACKET_HEADER_ERROR (R256). -/
  | packetHeaderError (s : Stn) (r : Fin 4)
  /-- VEXC_RANGE_CHANGE (R445). -/
  | vexcRangeChange (ok : Bool)
  /-- WIRE_RECONNECT (R283). -/
  | wireReconnect (c : Fin 8) (line : Fin 6)
  /-- SENSE_FAULT_END (R283). -/
  | senseFaultEnd (c : Fin 8)
  /-- LRESET_FALL (R379). -/
  | lresetFall
  /-- SFP_MODULE_CHANGE (R366). -/
  | sfpModuleChange (p : Fin 2) (present : Bool) (x : PortSignals)
  /-- PCIE_LINK_CHANGE (R367). -/
  | pcieLinkChange (x : PcieTrained) (cfg : PciCfg)
  /-- MEMORY_NODE_BANK_ACCESS (R231). -/
  | memoryNodeBankAccess (s : Stn) (g : Fin 8) (collide : Bool)
  deriving DecidableEq, Repr

end Sys2Proof
end

