-- ==== Sys2Proof/Machine/Bits.lean ====
section
/-! DEFINITION. Bit fields, sparse maps, little-endian bytes and CRC-32C (spec 00 R6, 02 R60). -/

namespace Sys2Proof.Machine

/-! ### Bit fields -/

/-- Bits [lo + w - 1 : lo] of x. -/
def bits {n : Nat} (x : BitVec n) (lo w : Nat) : BitVec w := x.extractLsb' lo w

/-- Bits [lo + w - 1 : lo] of x as a number. -/
def nat {n : Nat} (x : BitVec n) (lo w : Nat) : Nat := (x.extractLsb' lo w).toNat

/-- Bit i of x. -/
def bit {n : Nat} (x : BitVec n) (i : Nat) : Bool := x.getLsbD i

/-- A word with ones in bits [lo + w - 1 : lo]. -/
def ones {n : Nat} (lo w : Nat) : BitVec n := BitVec.ofNat n ((2 ^ w - 1) * 2 ^ lo)

/-- x with bits [lo + w - 1 : lo] replaced by the low bits of v. -/
def put {n : Nat} (x : BitVec n) (lo w v : Nat) : BitVec n :=
  (x &&& ~~~(ones lo w)) ||| BitVec.ofNat n ((v % 2 ^ w) * 2 ^ lo)

/-- x with bit i set to v. -/
def putBit {n : Nat} (x : BitVec n) (i : Nat) (v : Bool) : BitVec n := put x i 1 v.toNat

/-- A Bool as 1 or 0. -/
def flag {n : Nat} (b : Bool) : BitVec n := BitVec.ofNat n b.toNat

/-! ### Sparse maps: sorted lists of key and value, with no entry equal to the default -/

/-- The value at key k; d gives what an unlisted key holds. -/
def smGet {α : Type} (d : Nat → α) : List (Nat × α) → Nat → α
  | [], k => d k
  | (j, v) :: m, k => if j = k then v else smGet d m k

/-- The map with key k erased. -/
def smErase {α : Type} : List (Nat × α) → Nat → List (Nat × α)
  | [], _ => []
  | (j, v) :: m, k => if j = k then m else if k < j then (j, v) :: m else (j, v) :: smErase m k

/-- The map with v at key k, whether or not v is the default. -/
def smInsert {α : Type} : List (Nat × α) → Nat → α → List (Nat × α)
  | [], k, w => [(k, w)]
  | (j, v) :: m, k, w =>
    if j = k then (k, w) :: m else if k < j then (k, w) :: (j, v) :: m else (j, v) :: smInsert m k w

/-- The map with v at key k, in canonical form. -/
def smSet {α : Type} [DecidableEq α] (d : Nat → α) (m : List (Nat × α)) (k : Nat) (v : α) : List (Nat × α) :=
  if v = d k then smErase m k else smInsert m k v

/-- The canonical form: keys strictly rising, no entry equal to what its key reads as when unlisted. -/
def smWf {α : Type} [DecidableEq α] (d : Nat → α) : List (Nat × α) → Bool
  | [] => true
  | (j, v) :: m => decide (v ≠ d j) && m.all (fun e => decide (j < e.1)) && smWf d m

/-- The map without the keys from lo to hi - 1. -/
def smDrop {α : Type} (m : List (Nat × α)) (lo hi : Nat) : List (Nat × α) :=
  m.filter (fun e => decide (e.1 < lo) || decide (hi ≤ e.1))

/-! ### Bytes -/

/-- The number whose little-endian bytes are given. -/
def leNat : List Byte → Nat
  | [] => 0
  | b :: bs => b.toNat + 256 * leNat bs

/-- The n little-endian bytes of v. -/
def leBytes : Nat → Nat → List Byte
  | 0, _ => []
  | n + 1, v => BitVec.ofNat 8 v :: leBytes n (v / 256)

/-- Little-endian bytes as a bit vector. -/
def leBv (n : Nat) (bs : List Byte) : BitVec n := BitVec.ofNat n (leNat bs)

/-- Bytes of a list from position i, n of them, zero past its end. -/
def slice (bs : List Byte) (i n : Nat) : List Byte :=
  (List.range n).map fun j => bs.getD (i + j) 0

/-! ### CRC-32C (02 R60) and the CRC-32 of IEEE 802.3 (12 R331) -/

/-- k steps of the reflected shift register with a reflected polynomial. -/
def crcShift (poly : BitVec 32) : Nat → BitVec 32 → BitVec 32
  | 0, c => c
  | k + 1, c => crcShift poly k (if c.getLsbD 0 then (c >>> 1) ^^^ poly else c >>> 1)

/-- The register after one byte. -/
def crcByte (poly c : BitVec 32) (b : Byte) : BitVec 32 := crcShift poly 8 (c ^^^ b.setWidth 32)

/-- CRC-32C of bytes in ascending address order. -/
def crc32c (bs : List Byte) : BitVec 32 := ~~~(bs.foldl (crcByte 0x82F63B78) 0xFFFFFFFF)

/-- CRC-32 of IEEE 802.3, of bytes in the order sent. -/
def crc32 (bs : List Byte) : BitVec 32 := ~~~(bs.foldl (crcByte 0xEDB88320) 0xFFFFFFFF)

/-! ### Signed arithmetic -/

/-- An exact integer wrapped to n bits. -/
def wrap (n : Nat) (x : Int) : BitVec n := BitVec.ofInt n x

/-- x sign-extended to n bits. -/
def sext {m : Nat} (n : Nat) (x : BitVec m) : BitVec n := x.signExtend n

/-- x zero-extended to n bits. -/
def zext {m : Nat} (n : Nat) (x : BitVec m) : BitVec n := x.setWidth n

end Sys2Proof.Machine
end

