-- ==== Sys2Proof/Machine/RegMap.lean ====
section
/-! DEFINITION. The device's 32-bit registers: for each address its reset value and which bits are plain RW, which are W1C and
which are reserved, from the register tables of the spec; the remaining bits are RO or WO. -/

namespace Sys2Proof.Machine

/-- One register: its reset value, RW bits, W1C bits and reserved bits (00 R8, R9). -/
structure RegInfo where
  reset : W32
  rw : W32
  w1c : W32
  rsv : W32
  deriving DecidableEq, Repr

/-! ### Where the blocks lie (01 R25, R28, R30) -/

def stnBase (s : Stn) : Nat := 0x0100000000 + s.val * 0x10000000
def tileBase (s : Stn) (t : TileNo) : Nat := stnBase s + 0x8000000 + t.val * 0x40000
def tileData (s : Stn) (t : TileNo) (off : Nat) : Nat := tileBase s t + off
def tileInsn (s : Stn) (t : TileNo) (off : Nat) : Nat := tileBase s t + 0x20000 + off
def tileReg (s : Stn) (t : TileNo) (off : Nat) : Nat := tileBase s t + 0x30000 + off
def stnReg (s : Stn) (off : Nat) : Nat := stnBase s + 0xC000000 + off
def hallMem (off : Nat) : Nat := 0x0010000000 + off
def devReg (blk off : Nat) : Nat := 0x0200000000 + blk * 0x10000 + off

/-! ### Tile-control part (02 R68, 05 R168, 08 R226 R252) -/

def tileRegTable : List (Nat × RegInfo) :=
  [(0x0000, ⟨0, 0, 0, 0xFFFFFFF8⟩),              -- TILE_CTRL
   (0x0004, ⟨0, 0, 0, 0xFFFF00F0⟩),              -- TILE_STATE
   (0x0008, ⟨0, 0xFFFF, 0, 0xFFFF0000⟩),         -- TILE_START_PC
   (0x000C, ⟨0, 0xFFFF, 0, 0xFFFF0000⟩),         -- TILE_RVEC
   (0x0010, ⟨0, 0xFFFF, 0, 0xFFFF0000⟩),         -- TILE_TVEC
   (0x0014, ⟨0x100, 0x1FFF, 0, 0xFFFFE000⟩),     -- TILE_SHCAP
   (0x0018, ⟨0, 0, 0, 0xFFFF0000⟩),              -- TILE_STOPPC
   (0x001C, ⟨0, 0, 0, 0xFFFF007F⟩),              -- TILE_SWI
   (0x0200, ⟨0, 0xFFFFFFFF, 0, 0⟩),              -- TILE_CNT_INSN
   (0x0204, ⟨0, 0xFFFFFFFF, 0, 0⟩),              -- TILE_CNT_STALL
   (0x0208, ⟨0, 0xFFFFFFFF, 0, 0⟩),              -- TILE_CNT_SPLIT
   (0x020C, ⟨0, 0xFFFFFFFF, 0, 0⟩),              -- TILE_CNT_IFILL
   (0x0210, ⟨0, 0xFFFFFFFF, 0, 0⟩),              -- TILE_CNT_CE
   (0x0214, ⟨0, 0xFFFFFFFF, 0, 0⟩),              -- TILE_CNT_RETRY
   (0x0218, ⟨0, 0, 0xF, 0xC000FFF0⟩),            -- TILE_MEM_STAT
   (0x021C, ⟨0xAA, 0, 0, 0xFFFF0000⟩),           -- TILE_DPWR
   (0x0220, ⟨0x10000000, 0x300000FF, 0x10000, 0x0FFE0000⟩), -- TILE_LFIX
   (0x0224, ⟨0, 0xFFFFFFFF, 0, 0⟩),              -- TILE_LBCRC
   (0x0300, ⟨0, 0xFFFFFFFF, 0, 0⟩)]              -- TILE_IMG_CRC

def tileRegInfo (off : Nat) : Option RegInfo :=
  if 0x1000 ≤ off ∧ off < 0x1400 then some ⟨0, 0xFFFFFFFF, 0, 0⟩        -- TILE_LCRC
  else if 0x0400 ≤ off ∧ off < 0x0500 then some ⟨0, 0xFFFFFFFF, 0, 0⟩   -- TILE_LBUF
  else if 0x0800 ≤ off ∧ off < 0x0980 then some ⟨0, 0, 0, 0⟩            -- Attic windows
  else tileRegTable.lookup off

/-! ### Station registers (01 R31 R33, 02 R69, 06 R171 R181, 07 R218, 08 R226 R251) -/

def stnRegTable : List (Nat × RegInfo) :=
  [(0x000, ⟨0, 0, 0, 0x1FFFFFF8⟩),               -- STN_RUN
   (0x140, ⟨0, 0xFFFFFFFF, 0, 0⟩),               -- STN_TWORLD0
   (0x144, ⟨0, 0xFF, 0, 0xFFFFFF00⟩),            -- STN_TWORLD1
   (0x150, ⟨0, 0xFFFFFFFF, 0, 0⟩),               -- STN_BWORLD0
   (0x154, ⟨0, 0xFFFFFFFF, 0, 0⟩),               -- STN_BWORLD1
   (0x1A0, ⟨0, 0, 0, 0⟩),                        -- STN_LFLT0
   (0x1A4, ⟨0, 0, 0, 0xFFFFFF00⟩),               -- STN_LFLT1
   (0x1A8, ⟨0, 0x3F, 0, 0x3FFFFFC0⟩),            -- STN_REPAIR
   (0x190, ⟨0, 0xFFFFFFFF, 0, 0⟩),               -- STN_ROLE (12 R353)
   (0x170, ⟨0, 0, 0, 0⟩),                        -- STN_LIOEV_LO (13 R396)
   (0x174, ⟨0, 0, 0, 0xFFFFFF00⟩),               -- STN_LIOEV_HI
   (0x160, ⟨0, 0x80FFFFF8, 0, 0x7F000007⟩),      -- STN_PDB
   (0x164, ⟨0, 0, 0x80000000, 0x40000F00⟩),      -- STN_PDB_REQ
   (0x180, ⟨0, 0xFFFFFFFF, 0, 0⟩),               -- STN_STRICT0
   (0x184, ⟨0, 0xFF, 0, 0xFFFFFF00⟩),            -- STN_STRICT1
   (0x200, ⟨0, 0, 0, 0⟩),                        -- STN_BPWR0
   (0x204, ⟨0, 0, 0, 0⟩),                        -- STN_BPWR1
   (0x208, ⟨0, 0, 0, 0⟩),                        -- STN_BINIT
   (0x20C, ⟨0, 0, 0, 0⟩),                        -- STN_BINITS
   (0x210, ⟨0, 0, 0x7, 0xFFFFFFF8⟩),             -- STN_MEM_STAT
   (0x214, ⟨0, 0xFFFFFFFF, 0, 0⟩),               -- STN_MEM_CECNT
   (0x218, ⟨0, 0, 0, 0xFF000007⟩),               -- STN_MEM_UEADDR
   (0x21C, ⟨0x80000100, 0x8000FFFF, 0, 0x7FFF0000⟩), -- STN_SCRUB
   (0x220, ⟨0, 0xFFFFFFFF, 0, 0⟩),               -- STN_MEM_BUSYCNT
   (0x400, ⟨0x400, 0x807F07FF, 0, 0x7F80F800⟩),  -- STN_NET_CTRL
   (0x404, ⟨0, 0, 0xFF, 0x01FFFF00⟩),            -- STN_NET_STAT
   (0x408, ⟨0, 0, 0, 0⟩),                        -- STN_NET_FCNT
   (0x40C, ⟨0, 0, 0, 0⟩),                        -- STN_NET_FRZCNT
   (0x410, ⟨0, 0xFFFFFFFF, 0, 0⟩),               -- STN_NET_CONFCNT
   (0x414, ⟨0, 0x1FF, 0, 0xFFFFFE00⟩),           -- STN_NET_TSEL
   (0x418, ⟨0, 0x07FF03FF, 0, 0x3800FC00⟩),      -- STN_NET_FIX
   (0x420, ⟨0, 0, 0, 0⟩),                        -- STN_NET_HMBX_LO
   (0x424, ⟨0, 0, 0, 0x40FF0000⟩),               -- STN_NET_HMBX_HI
   (0x428, ⟨0, 0xFFFFFFFF, 0, 0⟩),               -- STN_NET_HSEND_LO
   (0x42C, ⟨0, 0x3F00FFFF, 0, 0x00FF0000⟩)]      -- STN_NET_HSEND_HI

def stnRegInfo (off : Nat) : Option RegInfo :=
  if 0x100 ≤ off ∧ off < 0x120 then some ⟨0, 0xF0000000, 0, 0x007C0000⟩      -- STN_COLc_MAP
  else if 0x1000 ≤ off ∧ off < 0x1A00 then some ⟨0, 0x80003F07, 0, 0x7FFFC0F8⟩ -- STN_NET_TXt_c, RXt_c
  else if 0x8000 ≤ off ∧ off < 0x8800 then some ⟨0, 0, 0, 0⟩                -- STN_NET_TBL
  else stnRegTable.lookup off

/-! ### Peripheral blocks -/

def devTable : List (Nat × RegInfo) :=
  [(0x110, ⟨0, 0, 1, 0xFFF8⟩),                   -- DEV_HALLSTAT (15 R429)
   (0x200, ⟨0, 0, 0, 0xFF00FF0F⟩),               -- DEV_BOOTSTAT (14 R405)
   (0x100, ⟨0xAAAAAAAA, 0, 0, 0⟩),               -- DEV_HPWR
   (0x104, ⟨0, 0, 0, 0⟩),                        -- DEV_HINIT
   (0x108, ⟨0, 0, 0x7, 0x0000FFF8⟩),             -- DEV_HMEM_STAT
   (0x10C, ⟨0, 0, 0, 0xFFF00007⟩)]               -- DEV_HMEM_UEADDR

def lp5Table : List (Nat × RegInfo) :=
  [(0x00, ⟨0x20C, 0x77C, 0, 0xFFFFF882⟩),        -- LPn_CTRL
   (0x04, ⟨0, 0, 0x30, 0xFFFFFF0C⟩),             -- LPn_STAT
   (0x08, ⟨0, 0xFFFFFFFF, 0, 0⟩),                -- LPn_CECNT
   (0x0C, ⟨0, 0, 0, 0⟩),                         -- LPn_UEADDR_LO
   (0x10, ⟨0, 0, 0, 0xFFFFFF00⟩)]                -- LPn_UEADDR_HI

/-- Load-cell front end (10 R301). -/
def lcRegInfo (off : Nat) : Option RegInfo :=
  let o := off % 0x100
  if off = 0 then some ⟨0, 0, 0, 0xFFFFFFF8⟩                                  -- LC_GSTAT
  else if off < 0x100 ∨ 0x900 ≤ off then none
  else if 0x80 ≤ o then some ⟨if o = 0xFC then 0x400000 else 0, 0xFFFFFF, 0, 0xFF000000⟩  -- LC_CHc_FIR[i]
  else ([(0x00, ⟨0x08000700, 0x98000770, 0, 0x07FFF88F⟩),  -- LC_CHc_CTRL
    (0x04, ⟨0x40000000, 0, 0x3F, 0x3FFFC0C0⟩),             -- LC_CHc_STAT
    (0x08, ⟨0, 0xFFFFFFFF, 0, 0⟩),                         -- LC_CHc_TRIM_OFF
    (0x0C, ⟨0x400000, 0xFFFFFFFF, 0, 0⟩),                  -- LC_CHc_TRIM_GAIN
    (0x10, ⟨0, 0x70FFFFC0, 0, 0x8F00003F⟩),                -- LC_CHc_RING
    (0x14, ⟨0, 0xFFFFFFFF, 0, 0⟩),                         -- LC_CHc_DEST_LO
    (0x18, ⟨0x100, 0xFFFF, 0, 0xFFFF0000⟩),                -- LC_CHc_DEST_HI
    (0x1C, ⟨0, 0, 0, 0xFF000000⟩)] : List (Nat × RegInfo)).lookup o  -- LC_CHc_SEQ

/-- Embedded flash controller (10 R303, 14 R407). -/
def efRegInfo (off : Nat) : Option RegInfo :=
  if (0x200 ≤ off ∧ off < 0x240) ∨ (0x400 ≤ off ∧ off < 0x500) ∨ (0x1000 ≤ off ∧ off < 0x2000) then
    some ⟨0, 0xFFFFFFFF, 0, 0⟩                             -- EF_PAUD, EF_BBUF, EF_PBUF
  else if (0x2000 ≤ off ∧ off < 0x5000) ∨ 0x8000 ≤ off then some ⟨0, 0, 0, 0⟩
  else ([(0x000, ⟨0, 0, 0, 0x3FFFFFFF⟩),                   -- EF_BCTL
    (0x004, ⟨2, 0, 0x40000000, 0x30FFFFFC⟩),               -- EF_BSTAT: nothing locked before a boot (log entry 20)
    (0x008, ⟨0, 0x3FFFFF, 0, 0xFFC00000⟩),                 -- EF_BADDR
    (0x00C, ⟨0, 0x7F, 0, 0xFFFFFF80⟩),                     -- EF_BPAGE
    (0x100, ⟨0, 0, 0, 0xFFFFFFF8⟩),                        -- EF_PCTL
    (0x104, ⟨0, 0, 0x20, 0xFFFF0010⟩),                     -- EF_PSTAT
    (0x108, ⟨0, 0, 0, 0xFFFF0000⟩),                        -- EF_PCNT
    (0x10C, ⟨0, 0, 0, 0x7FFFC000⟩),                        -- EF_AUDNEXT
    (0x110, ⟨0, 0xFF, 0, 0xFFFFFF00⟩)] : List (Nat × RegInfo)).lookup off  -- EF_AUDSEL

/-- Matrix (11 R315). -/
def mxRegInfo (off : Nat) : Option RegInfo :=
  if off = 0 then some ⟨0, 0x2, 0, 0xFFFFFFFC⟩                               -- MX_CTRL
  else if off = 4 then some ⟨0, 0, 0x80000000, 0x7FFFFFF0⟩                   -- MX_DECSTAT
  else if off = 8 then some ⟨0, 0, 0, 0⟩                                     -- MX_DECADDR_LO
  else if off = 12 then some ⟨0, 0, 0, 0xFFFFFF00⟩                           -- MX_DECADDR_HI
  else if 0x100 ≤ off ∧ off < 0x148 then
    let m := (off - 0x100) / 8
    let p : W32 := if m = 8 then 0xFFFFFFFF else if m = 0 then 0xCCCCCCCC else 0x88888888
    some (if off % 8 = 0 then ⟨p, 0xFFFFFFFF, 0, 0⟩ else ⟨p &&& 0xF, 0xF, 0, 0xFFFFFFF0⟩)  -- MX_PRI
  else if 0x200 ≤ off ∧ off < 0x210 then some ⟨0, 0x3F, 0, 0xFFFFFFC0⟩       -- MX_PQEs
  else none

/-- Time base and timers (11 R319). -/
def tmrRegInfo (off : Nat) : Option RegInfo :=
  if off = 0 ∨ off = 4 then some ⟨0, 0, 0, 0⟩                                -- TMR_TB_LO, TMR_TB_HI
  else if off = 8 then some ⟨0, 0, 0xFF, 0xFFFFFF00⟩                         -- TMR_EVT
  else if 0x100 ≤ off ∧ off < 0x200 then
    ([(0x00, ⟨0, 0xF000000F, 0, 0x0FFFFFF0⟩),                                -- TMR_Tn_CTRL
      (0x04, ⟨0, 0xFFFFFFFF, 0, 0⟩),                                         -- TMR_Tn_RELOAD
      (0x08, ⟨0, 0, 0, 0⟩),                                                  -- TMR_Tn_COUNT
      (0x0C, ⟨0, 0xFFFFFFFF, 0, 0⟩), (0x10, ⟨0, 0xFFFFFFFF, 0, 0⟩),          -- TMR_Tn_AT
      (0x14, ⟨0, 0xFFFFFFFF, 0, 0⟩), (0x18, ⟨0, 0xFF, 0, 0xFFFFFF00⟩)]       -- TMR_Tn_TILES
      : List (Nat × RegInfo)).lookup (off % 0x20)
  else none

/-- DMA (11 R329). -/
def dmaRegInfo (off : Nat) : Option RegInfo :=
  if off = 0 ∨ off = 4 then some ⟨0, 0, 0xFFFF, 0xFFFF0000⟩                  -- DMA_EOC, DMA_ERR
  else if off = 8 then some ⟨0, 0xFFFFFFFF, 0, 0⟩                            -- DMA_IEN
  else if 0x100 ≤ off ∧ off < 0x500 then
    ([(0x00, ⟨0, 0x80000000, 0, 0x7FFFFFF9⟩),                                -- CTRL
      (0x04, ⟨0, 0xDF, 0, 0xFFFFFF20⟩),                                      -- CFG
      (0x08, ⟨0, 0, 0x1F, 0x00FFFFE0⟩),                                      -- STAT
      (0x0C, ⟨0, 0xFFFFFFE0, 0, 0x1F⟩), (0x10, ⟨0, 0xFF, 0, 0xFFFFFF00⟩),    -- CUR
      (0x14, ⟨0, 0, 0, 0xFF000000⟩),                                         -- COUNT
      (0x18, ⟨0, 0xFFFFFFE0, 0, 0x1F⟩), (0x1C, ⟨0, 0x800000FF, 0, 0x7FFFFF00⟩), -- SH
      (0x20, ⟨0, 0, 0, 0xFFFF0000⟩)] : List (Nat × RegInfo)).lookup (off % 0x40)  -- HSEQ
  else none

/-- Camera ingest (09 R272). -/
def camRegInfo (off : Nat) : Option RegInfo :=
  if off = 0 then some ⟨0, 0xFF00, 0xFF, 0xFFFF0000⟩                         -- CAMs_EVT
  else if 0x10 ≤ off ∧ off < 0x50 then
    ([(0x0, ⟨0x32, 0x801F0033, 0, 0x7FE0FFCC⟩),                              -- CAMs_RXr_CTRL
      (0x4, ⟨0, 0, 0x1F, 0xFFFFFF20⟩),                                       -- CAMs_RXr_STAT
      (0x8, ⟨0, 0xFFFFFFFF, 0, 0⟩)] : List (Nat × RegInfo)).lookup (off % 0x10)  -- CAMs_RXr_ERRCNT
  else if 0x100 ≤ off ∧ off < 0x300 then
    ([(0x00, ⟨0xA80000, 0xEFFFE000, 0, 0x1FFF⟩),                             -- CAMs_CXk_CFG
      (0x04, ⟨0, 0xFFF01FFF, 0, 0xFE000⟩),                                   -- GEOM
      (0x08, ⟨0, 0xFFFFFFFF, 0, 0⟩),                                         -- SLOT
      (0x0C, ⟨0, 0xFFFFF000, 0, 0xFFF⟩), (0x10, ⟨0, 0xFF, 0, 0xFFFFFF00⟩),   -- BASE
      (0x14, ⟨0, 0xFFFFFFFF, 0, 0⟩), (0x18, ⟨0, 0x1FF, 0, 0xFFFFFE00⟩),      -- DEST
      (0x1C, ⟨0, 0, 0x3D, 0x00FFFFC2⟩),                                      -- STAT
      (0x20, ⟨0, 0, 0, 0⟩)] : List (Nat × RegInfo)).lookup (off % 0x40)      -- SEQ
  else none

/-- Clocks, power and reset (16 R451). CPR_GATE.PCIE resets to HEAD, which a release with the strap at 1 sets. -/
def cprTable : List (Nat × RegInfo) :=
  [(0x00, ⟨0, 0, 0, 0xFFFFFFFC⟩),                -- CPR_RST
   (0x04, ⟨0, 0, 0, 0xFFFFFFF8⟩),                -- CPR_RSTCAUSE
   (0x08, ⟨0, 0, 0, 0xFFFFFFF8⟩),                -- CPR_STRAP
   (0x0C, ⟨0x1F7, 0x1FF, 0, 0xFFFFFE00⟩),        -- CPR_GATE
   (0x10, ⟨0x5A6400, 0xFFFF00, 0, 0xFF0000FF⟩),  -- CPR_THCFG
   (0x14, ⟨0, 0, 0, 0xFFFFFF00⟩),                -- CPR_TIOD
   (0x20, ⟨0, 0x30, 0x10000, 0xFFFE00CC⟩), (0x24, ⟨0, 0x30, 0x10000, 0xFFFE00CC⟩),  -- CPR_THSs
   (0x28, ⟨0, 0x30, 0x10000, 0xFFFE00CC⟩), (0x2C, ⟨0, 0x30, 0x10000, 0xFFFE00CC⟩),
   (0x30, ⟨0x14, 0x3F, 0, 0xFFFFFFC0⟩)]          -- CPR_AVS

/-- Chain engine (12 R366). -/
def chTable : List (Nat × RegInfo) :=
  [(0x00, ⟨0, 0xF0B, 0, 0xFFFFF0F0⟩),            -- CH_CTRL
   (0x04, ⟨0, 0, 0x1F, 0xFFFFFCE0⟩),             -- CH_STAT
   (0x08, ⟨0, 0, 0, 0x7FFFFFC0⟩),                -- CH_ADDR
   (0x10, ⟨0, 0, 0, 0x07FFF000⟩), (0x14, ⟨0, 0, 0, 0⟩),          -- CH_LINKp_STAT, DELAY
   (0x18, ⟨0, 0xFFFFFFFF, 0, 0⟩), (0x1C, ⟨0, 0xFFFFFFFF, 0, 0⟩), -- CH_LINKp_CRCCNT, RTYCNT
   (0x30, ⟨0, 0, 0, 0x07FFF000⟩), (0x34, ⟨0, 0, 0, 0⟩),
   (0x38, ⟨0, 0xFFFFFFFF, 0, 0⟩), (0x3C, ⟨0, 0xFFFFFFFF, 0, 0⟩),
   (0x50, ⟨0, 0, 0, 0⟩), (0x54, ⟨0, 0, 0, 0⟩), (0x58, ⟨0, 0, 0, 0⟩)]  -- CH_TSLAST, CH_TSCORR

/-- PCIe (12 R367), and in BAR0 the MSI-X table, whose vectors are masked at reset, and the pending-bit array (12 R363). -/
def pciTable : List (Nat × RegInfo) :=
  ((List.range 4).flatMap fun v =>
    [(0x8000 + 16 * v, ⟨0, 0xFFFFFFFC, 0, 0⟩), (0x8004 + 16 * v, ⟨0, 0xFFFFFFFF, 0, 0⟩), (0x8008 + 16 * v, ⟨0, 0xFFFFFFFF, 0, 0⟩),
     (0x800C + 16 * v, ⟨1, 1, 0, 0⟩)]) ++
  [(0x9000, ⟨0, 0, 0, 0⟩), (0x9004, ⟨0, 0, 0, 0⟩)] ++
  [(0x00, ⟨0, 0x7, 0, 0xFFFFFFF8⟩),              -- PCI_CTRL
   (0x04, ⟨0, 0, 0x3, 0xFFFFFF00⟩),              -- PCI_STAT
   (0x08, ⟨0, 0x3FFFF, 0, 0xFFFC0000⟩),          -- PCI_WIN
   (0x10, ⟨0, 0xFFFFF000, 0, 0xFFF⟩), (0x14, ⟨0, 0xFFFFFFFF, 0, 0⟩),  -- PCI_CMD_BASE
   (0x18, ⟨4, 0xF, 0, 0xFFFFFFF0⟩), (0x1C, ⟨0, 0xFFF, 0, 0xFFFFF000⟩), (0x20, ⟨0, 0, 0, 0xFFFFF000⟩),
   (0x30, ⟨0, 0xFFFFF000, 0, 0xFFF⟩), (0x34, ⟨0, 0xFFFFFFFF, 0, 0⟩),  -- PCI_RX_BASE
   (0x38, ⟨4, 0xF, 0, 0xFFFFFFF0⟩), (0x3C, ⟨0, 0xFFF, 0, 0xFFFFF000⟩), (0x40, ⟨0, 0, 0, 0xFFFFF000⟩)]

/-- Legacy register bus (13 R380, R382). Owner fields reset to the station that 01 R24 gives. -/
def lbRegInfo (off : Nat) : Option RegInfo :=
  if off = 0x00 then some ⟨0, 0x7, 0, 0xFFFFFFF8⟩                            -- LB_CTRL
  else if off = 0x04 then some ⟨0, 0, 0xF, 0xFFFFFFE0⟩                       -- LB_STAT
  else if off = 0x08 then some ⟨0, 0xFFFFFFFF, 0, 0⟩                         -- LB_RCOLLCNT
  else if off = 0x10 ∨ off = 0x14 then some ⟨0, 0, 0, 0⟩                     -- LB_LOG_LO, LB_LOG_HI
  else if off = 0x18 then some ⟨0, 0, 0, 0xFE000000⟩                         -- LB_LOGSTAT
  else if off = 0x20 then some ⟨0, 0xF, 0, 0xFFFFFFF0⟩                       -- LB_IRQ
  else if 0x24 ≤ off ∧ off < 0x34 then some ⟨1, 0x800000FF, 0, 0x7FFFFF00⟩   -- LB_IRQk_SRC
  else if 0x40 ≤ off ∧ off < 0x60 then
    some ⟨BitVec.ofNat 32 ((off - 0x40) / 8 * 2 ^ 28), 0xF80007FF, 0, 0x07FFF800⟩  -- LB_WINn_CFG
  else if 0x80 ≤ off ∧ off < 0xC0 then some ⟨0, 0, 0, 0xFFFF0000⟩            -- LB_FIFOk_PUSH
  else if 0xC0 ≤ off ∧ off < 0x100 then some ⟨0, 0, 0x80, 0xFFFFFE00⟩        -- LB_FIFOk_STAT
  else if 0x100 ≤ off ∧ off < 0x140 then some ⟨0xFFFF, 0x7FFFF, 0, 0xFFF80000⟩  -- LB_FIFOk_CFG
  else if 0x200 ≤ off ∧ off < 0x280 then some ⟨0, 0xFFFFFFFF, 0, 0⟩          -- LB_CGg_SELi
  else if 0x1000 ≤ off ∧ off < 0x4000 then some ⟨0, 0xFFFFFFFF, 0, 0⟩        -- the mirror and its aliases
  else if 0x4000 ≤ off ∧ off < 0x4800 then some ⟨0, 0xCFCFCFCF, 0, 0x30303030⟩  -- the types
  else none

/-- Serial ports (13 R386). -/
def serRegInfo (off : Nat) : Option RegInfo :=
  let p := (off - 0x100) / 0x40
  if off = 0 then some ⟨0, 0, 0, 0xFFF00000⟩                                 -- SER_ISTAT
  else if 0x100 ≤ off ∧ off < 0x600 then
    ([(0x00, ⟨BitVec.ofNat 32 ((if p < 16 then p / 4 else p - 16) * 2 ^ 29 + 0x60001), 0xFFFE00FF, 0, 0x0001FF00⟩),  -- CTRL
      (0x04, ⟨0x04C4002D, 0xFFFF003F, 0, 0xFFC0⟩),                           -- BAUD
      (0x08, ⟨0, 0, 0, 0x7FFFF800⟩),                                         -- DATA
      (0x0C, ⟨0x8000, 0, 0xFE, 0x80800701⟩),                                 -- STAT
      (0x10, ⟨0x01000000, 0x3F3F03FE, 0, 0xC0C0FC01⟩)] : List (Nat × RegInfo)).lookup (off % 0x40)  -- IEN
  else none

/-- USB groups (13 R389), the buffer memory among them. -/
def usbRegInfo (off : Nat) : Option RegInfo :=
  let g := off / 0x4000
  let o := off % 0x4000
  if o = 0 then some ⟨BitVec.ofNat 32 (g * 2 ^ 29), 0xF00FFFFF, 0, 0x0FF00000⟩    -- USB_Gg_CTRL
  else if o = 4 then some ⟨0, 0, 0xFFFF0000, 0xF800⟩                         -- USB_Gg_STAT
  else if 0x10 ≤ o ∧ o < 0x50 ∧ o % 0x10 = 0 then some ⟨0, 0x8, 0x80, 0x03FFFF70⟩  -- USB_Gg_PORTk
  else if 0x100 ≤ o ∧ o < 0x300 then
    ([(0x00, ⟨0x8, 0xFFFFC7FF, 0, 0x3800⟩), (0x04, ⟨1, 0xFFFC00FF, 0, 0x3FF00⟩),  -- CFG, EXT
      (0x08, ⟨0, 0xFFFF1FF8, 0, 0xE007⟩), (0x0C, ⟨0, 0x30000000, 0, 0x0FFFFFFF⟩),  -- BUF, CTRL
      (0x10, ⟨0, 0, 0, 0x007F0000⟩)] : List (Nat × RegInfo)).lookup (o % 0x20)     -- STAT
  else if 0x2000 ≤ o then some ⟨0, 0xFFFFFFFF, 0, 0⟩
  else none

/-- Drawers and GPIO (13 R392). -/
def gioRegInfo (off : Nat) : Option RegInfo :=
  if off = 0x20 then some ⟨0x3210, 0x7777, 0, 0xFFFF8888⟩                    -- GIO_OWN
  else if off = 0x14 then some ⟨0, 0, 0xFFFFFFFF, 0⟩                         -- GIO_EDGE
  else if off = 0x00 ∨ off = 0x0C ∨ off = 0x10 then some ⟨0, 0, 0, 0⟩        -- GIO_IN, GIO_SET, GIO_CLR
  else if off < 0x20 then some ⟨0, 0xFFFFFFFF, 0, 0⟩                         -- GIO_OUT, GIO_DIR, GIO_RISE, GIO_FALL
  else if 0x100 ≤ off ∧ off < 0x180 then
    (if off % 0x10 = 0 then
      some ⟨BitVec.ofNat 32 ((off - 0x100) / 0x20 * 2 ^ 29 + 0x0AC86400), 0xFFFFFF06, 0, 0xF8⟩  -- GIO_DRWn_CTRL
    else if off % 0x10 = 4 then some ⟨0, 0, 0x7, 0x3FFFFFF8⟩                 -- GIO_DRWn_STAT
    else none)
  else none

/-- The Garnet vault (14 R414). GV_IN and GV_OUT hold their bytes. -/
def gvRegInfo (off : Nat) : Option RegInfo :=
  if 0x1000 ≤ off ∧ off < 0x2000 then some ⟨0, 0xFFFFFFFF, 0, 0⟩
  else if 0x2000 ≤ off ∧ off < 0x2800 then some ⟨0, 0, 0, 0⟩
  else ([(0x00, ⟨0, 0, 0, 0xFF00FF00⟩), (0x04, ⟨0, 0, 0x60000000, 0x1F00FFFF⟩), (0x08, ⟨0, 0x1FFF, 0, 0xFFFFE000⟩),
    (0x0C, ⟨0, 0, 0, 0xFFFFFF00⟩), (0x10, ⟨0, 0, 0, 0xFFFF8080⟩), (0x14, ⟨0, 0, 0, 0xFFFFFFFC⟩)]
    : List (Nat × RegInfo)).lookup off

/-- The register at an offset of a peripheral block (01 R30). -/
def blkRegInfo (blk off : Nat) : Option RegInfo :=
  match blk with
  | 0x00 => devTable.lookup off
  | 0x01 => cprTable.lookup off
  | 0x02 => dmaRegInfo off
  | 0x03 => tmrRegInfo off
  | 0x04 => mxRegInfo off
  | 0x05 => lp5Table.lookup off
  | 0x06 => lp5Table.lookup off
  | 0x07 => chTable.lookup off
  | 0x08 => pciTable.lookup off
  | 0x10 => camRegInfo off
  | 0x11 => camRegInfo off
  | 0x12 => camRegInfo off
  | 0x13 => camRegInfo off
  | 0x20 => lcRegInfo off
  | 0x21 => efRegInfo off
  | 0x30 => lbRegInfo off
  | 0x31 => serRegInfo off
  | 0x32 => usbRegInfo off
  | 0x33 => gioRegInfo off
  | _ => none

/-! ### The whole device -/

/-- The register at a device address, if the address holds one. -/
def regInfo (a : Nat) : Option RegInfo :=
  if a % 4 ≠ 0 then none
  else if 0x0100000000 ≤ a ∧ a < 0x0140000000 then
    let o := a % 0x10000000
    if 0x8000000 ≤ o ∧ o < 0x8A00000 then
      (if 0x30000 ≤ o % 0x40000 then tileRegInfo (o % 0x10000) else none)
    else if 0xC000000 ≤ o ∧ o < 0xC010000 then stnRegInfo (o % 0x10000)
    else none
  else if 0x0200000000 ≤ a ∧ a < 0x0200400000 then blkRegInfo ((a - 0x0200000000) / 0x10000) (a % 0x10000)
  else if 0x0210000000 ≤ a ∧ a < 0x0210010000 then gvRegInfo (a % 0x10000)
  else none

/-- The reset value of the register at a device address. -/
def regReset (a : Nat) : W32 := ((regInfo a).map RegInfo.reset).getD 0

end Sys2Proof.Machine
end

