-- ==== Sys2Proof/Config.lean ====
section
/-! DEFINITION. What an implementation fixes and the manual leaves open: constants without a body, so that a claim holds for
every value of them. -/

namespace Sys2Proof

/-- FREE VALUE (log entry 2). The n-th value the manual leaves undefined: general registers at tile start (02 R49), return-stack
entries and Attic contents at tile start (05 R166), data of a collided read (08 R229, R232; 13 R377, R378). -/
opaque Config.freeWord : Nat → W64

/-- Fields of the identity page, written at manufacture (10 R292): serial number, manufacture date, die lot and wafer position. -/
opaque Config.serial : W64
opaque Config.manufactured : W64
opaque Config.dieLot : BitVec 128

/-- FREE VALUE (log entry 15). Bytes of the Cellar, which the manual does not print. -/
opaque Config.cellarByte : Nat → Byte

/-- FREE VALUE (log entry 12). The modulus of the Nialnis public key, fixed in the Cellar and the vault; the manual does not print it (14 R411). -/
opaque Config.nialnisModulus : Nat

/-- FREE VALUE (log entry 12). The private exponent of the device identity key, which never leaves the vault (14 R411, R412). -/
opaque Config.identityExponent : BitVec 4096

/-- FREE VALUE (log entry 12). The identity public modulus and the Nialnis signature over serial and modulus (14 R415). -/
opaque Config.identityModulus : BitVec 4096
opaque Config.identityCertSignature : BitVec 4096

/-- FREE VALUE (log entry 54). An owner slot in which an enrolment cut short has programmed some fuses: whether it is then active, and the
modulus under which it verifies, also after a later enrolment over those fuses (14 R411, R412). -/
opaque Config.cutActive : (slot fuses modulus : Nat) → Bool
opaque Config.cutModulus : (slot fuses modulus : Nat) → Nat

/-- FREE VALUE (log entry 13). The n-th random word of the vault's generator (14 R412). -/
opaque Config.randomWord : Nat → W64

/-- FREE VALUE (log entry 21). Where the Hall firmware keeps the instruction copy of a station: the slot of its tile 0, among the 2^19
slots of 128 KiB of the LP5 memory (15 R423). -/
opaque Config.copySlot : Nat → Nat

/-- FREE VALUE (log entry 67). The SECDED check bits of a slot-table entry that is not 0; the manual names no code (07 R197). -/
opaque Config.slotCheck : BitVec 11 → BitVec 5

/-- FREE VALUE (log entry 83). The Vendor ID that PCI-SIG assigned and the revision ID of the PCIe function, not printed in the manual
(12 R363). -/
opaque Config.pciVendor : BitVec 16
opaque Config.pciRevision : BitVec 8

/-- The JEDEC manufacture identity in the IDCODE (17 R471), not printed in the manual. -/
opaque Config.jedecId : BitVec 11

end Sys2Proof
end

