-- ==== Sys2Proof/Machine/TileState.lean ====
section
/-! DEFINITION. State of one logical tile: registers, ports, units, control state, queue unit and network unit
(spec 02 to 08). Column repair moves this whole record with the tile (01 R18), which is why it is indexed by the logical tile. -/

namespace Sys2Proof.Machine

/-- Tag of an accumulator (04 R107). -/
inductive AccTag where
  | untagged | m8 | q15 | q31 | divide
  deriving DecidableEq, Repr

/-- One MAC accumulator (04 R105, R107): 192 bits in lanes, and its tag. -/
structure Acc where
  lanes : BitVec 192 := 0
  tag : AccTag := .untagged
  deriving DecidableEq, Repr

/-- MAC mode named by a trigger (03 R86). -/
inductive MacMode where
  | m8 | q15 | q31
  deriving DecidableEq, Repr

/-- What a unit operation in flight will deliver. A MAC operation keeps its operands and the fxm of its trigger (04 R110). -/
inductive FlightOp where
  | value (r : W64) (overflow : Bool)
  | mac (mode : MacMode) (acc : Bool) (k : Fin 4) (a b fxm : W64)
  deriving DecidableEq, Repr

/-- A unit operation triggered and not yet complete (02 R46): its unit, its effect, the offset of the instruction that
triggered it, and the instructions completed since (05 R158). `hold`: the next instruction waits for its check, and its report
is precise (05 R159). -/
structure Flight where
  unit : UnitId
  op : FlightOp
  trig : W16
  age : Nat
  hold : Bool
  deriving DecidableEq, Repr

/-- A pending arithmetic report (05 R152, R158). -/
structure Report where
  unit : BitVec 4
  trig : W16
  idet : W64
  late : Nat
  ilost : Bool
  imp : Bool
  deriving DecidableEq, Repr

/-- Pending control transfer (05 R136, R151 PKIND). -/
inductive PKind where
  | none | jmp | call | ret | sys | eret
  deriving DecidableEq, Repr

/-- The deferral window (05 R147): cycles of the cap and of the window still to run, and whether a `repu` opened it. -/
structure Window where
  capLeft : Nat
  left : Nat
  byRepu : Bool
  deriving DecidableEq, Repr

/-- One Attic set (05 R160). -/
structure AtticSet where
  inUse : Bool := false
  words : Vector W64 16 := .replicate 16 0
  deriving DecidableEq, Repr

/-- Where the tile is in its life, as TILE_STATE.STATE shows it (05 R168); levels are in the psw. -/
inductive TileRun where
  | stopped | selfTest | running | tileStopped | imageFailed | selfTestFailed
  deriving DecidableEq, Repr

/-- A line of the instruction buffer (02 R61, R62). -/
structure BufLine where
  line : Byte
  bad : Bool
  deriving DecidableEq, Repr

/-- A walk in progress (04 R121 to R125). `prof` is the profile so far, latest sample first; block transfers numbered below `ord`
were triggered before it (04 R118, 08 R244). `before` holds bytes of data memory that the walk's own instruction has stored over, as
the walk reads them (04 R118). -/
structure Walk where
  x : W32
  y : W32
  path : W64
  prof : List Byte
  edges : Nat
  prevP : W32
  ord : Nat
  before : List (Nat × Byte) := []
  deriving DecidableEq, Repr

/-- State of the scan unit (04 R114, R115, R119, R120). Pixel i of a row is byte i. -/
structure Scu where
  u : BitVec 256 := 0
  m : BitVec 256 := 0
  d : BitVec 256 := 0
  c : Byte := 0
  g : Byte := 0
  wimg : W64 := 0
  wout : W64 := 0
  walk : Option Walk := none
  deriving DecidableEq, Repr

/-- An open element stream of the queue unit (08 R234): what is left of it. `ord` is the order in which it was opened. -/
structure Stream where
  addr : Addr
  stride : BitVec 12
  left : Nat
  size : Fin 4
  sx : Bool
  space : BitVec 2
  ord : Nat
  deriving DecidableEq, Repr

/-- An entry of a load queue (08 R235, R236). -/
inductive LoadEntry where
  | reserved (id : Nat) (a : Addr)
  | arrived (v : W64)
  | failed (a : Addr)
  deriving DecidableEq, Repr

/-- How a target answered a request (08 R240 BEND, R246; 11 R309). -/
inductive RespStat where
  | ok | busError | notOn | uncorrectable
  deriving DecidableEq, Repr

/-- A block transfer of the queue unit (08 R242, R243). `issued` blocks have been issued, of which `inFlight` are under way
and `dones` (block numbers) have completed; `bad` is the lowest failed block; `back` holds responses not yet taken up by BLOCK_DONE. -/
structure BlockXfer where
  taddr : BitVec 17
  oaddr : Addr
  nblk : Nat
  space : BitVec 2
  ord : Nat
  issued : Nat
  inFlight : Nat
  dones : List Nat
  bad : Option (Nat × RespStat)
  back : List (Nat × RespStat × List Byte)
  deriving DecidableEq, Repr

/-- A load queue (08 R233 to R236, R242): its entries head first, its open streams, its inbound transfer, and BEND and BDONE of
the last transfer. -/
structure LoadQueue where
  entries : List LoadEntry := []
  streams : List Stream := []
  block : Option BlockXfer := none
  bend : BitVec 3 := 0
  bdone : Nat := 0
  deriving DecidableEq, Repr

/-- A store element with its address and data, not yet sent (08 R237). -/
structure ReadyElem where
  ord : Nat
  space : BitVec 2
  addr : Addr
  size : Fin 4
  v : W64
  deriving DecidableEq, Repr

/-- A store queue (08 R233, R237, R239): entries that wait for an address, elements ready to be sent, the number sent and not yet
performed, open streams, the first failed address, and its outbound transfer. -/
structure StoreQueue where
  data : List W64 := []
  ready : List ReadyElem := []
  sent : Nat := 0
  streams : List Stream := []
  failed : Option Addr := none
  block : Option BlockXfer := none
  bend : BitVec 3 := 0
  bdone : Nat := 0
  deriving DecidableEq, Repr

/-- What a queue request asks for (08 R234, R242, R245, R246). -/
inductive QOp where
  | load (k : Fin 4) (id : Nat) (size : Fin 4) (sx : Bool)
  | blockRead (k : Fin 4) (i : Nat)
  | store (k : Fin 4) (size : Fin 4) (v : W64)
  | blockWrite (k : Fin 4) (i : Nat) (data : List Byte)
  | atomic (id : Nat) (swap : Bool) (v : W64)
  deriving DecidableEq, Repr

/-- A request of a tile's queue unit: the run of the tile it belongs to (08 R247), its operation and its address. -/
structure QReq where
  tile : TileNo
  run : Nat
  op : QOp
  addr : Addr
  deriving DecidableEq, Repr

/-- A response on its way to a tile's queue unit, from the node that answered. -/
structure QResp where
  node : Fin 9
  req : QReq
  stat : RespStat
  data : List Byte
  deriving DecidableEq, Repr

/-- KIND of a link word (07 R194). -/
inductive LinkKind where
  | data | credit | request | response | mailbox | band | reserved
  deriving DecidableEq, Repr

/-- What the queue words of one message carry together (07 R209). -/
inductive QMsg where
  | req (r : QReq) | resp (r : QResp)
  deriving DecidableEq, Repr

/-- One word of a queue message: which word of how many. -/
structure QPart where
  part : Nat
  parts : Nat
  msg : QMsg
  deriving DecidableEq, Repr

/-- A link word (07 R194). A queue word names its message; the layout of its data bits is not given. -/
structure LinkWord where
  kind : LinkKind
  be : Bool
  dst : BitVec 6
  src : BitVec 6
  dch : BitVec 3 := 0
  sch : BitVec 3 := 0
  data : W64 := 0
  queue : Option QPart := none
  deriving DecidableEq, Repr

/-- The words of a queue message of n words from a node to a node, first word first, of the scheduled class (07 R209). -/
def queueWordsOf (kind : LinkKind) (src dst : BitVec 6) (n : Nat) (m : QMsg) : List LinkWord :=
  (List.range n).map fun i => { kind := kind, be := false, dst := dst, src := src, queue := some ⟨i, n, m⟩ }

/-- What `qu.r` shows (08 R240): nothing yet, the status of queue k with a block direction, an atomic in flight, or an atomic's
old value. -/
inductive QuShow where
  | zero | status (k : Fin 4) (out : Bool) | atomicPending (id : Nat) | value (v : W64)
  deriving DecidableEq, Repr

/-- State of the queue unit (08 R233 to R247). -/
structure Qu where
  lq : Vector LoadQueue 4 := .replicate 4 {}
  sq : Vector StoreQueue 4 := .replicate 4 {}
  ne : Bool := false
  wb : Bool := false
  shown : QuShow := .zero
  /-- Atomics triggered and not yet sent to their node: the number of each (its order too), swap or add, value, station offset. -/
  atomics : List (Nat × Bool × W64 × Addr) := []
  atomicFail : Option Addr := none
  /-- Word credits for nodes 40 to 48 (08 R246). -/
  credits : Vector Nat 9 := .replicate 9 16
  /-- Number of the next stream, transfer, atomic or element. -/
  next : Nat := 0
  /-- Queue words of requests sent that have not entered the network yet, oldest first (07 R209). -/
  outbox : List LinkWord := []
  deriving DecidableEq, Repr

/-- What `nu.r` shows (07 R206). -/
inductive NuShow where
  | zero | status (chan : Option (Fin 8)) | takePending | value (v : W64)
  deriving DecidableEq, Repr

/-- State of the network unit (07 R201 to R207). Each stamp is the network cycle from which its word or credit may be used, and
for `freed` the cycle in which the entry was freed. -/
structure Nu where
  send : Vector (List (Nat × W64)) 8 := .replicate 8 []
  recv : Vector (List (Nat × W64)) 8 := .replicate 8 []
  credits : Vector (List Nat) 8 := .replicate 8 []
  freed : Vector (List Nat) 8 := .replicate 8 []
  mbox : List W64 := []
  mboxSend : List (BitVec 6 × BitVec 48) := []
  mdst : BitVec 6 := 48
  movf : Bool := false
  shown : NuShow := .zero
  deriving DecidableEq, Repr

/-- A logical tile. Fields name the state of 02 R43, R45, R49, R50, R57, R61; 04 R105, R109; 05 R131 to R168; 06 R175. -/
structure Tile where
  q : Vector W64 64 := .replicate 64 0
  preds : W16 := 1
  /-- Operand ports alu0, alu1, mac0, mac1, shf, scu, lsu, cu, in socket order. -/
  opnd : Vector W64 8 := .replicate 8 0
  aluR : Vector W64 2 := .replicate 2 0
  shfR : W64 := 0
  scuR : W64 := 0
  lsuR : W64 := 0
  cuR : W64 := 0
  acc : Vector (Vector Acc 4) 2 := .replicate 2 (.replicate 4 {})
  macLast : Vector (Option (Fin 4)) 2 := .replicate 2 none
  flights : List Flight := []
  /-- Load stages 1, 2 and 3 (02 R56, R57). -/
  ld1 : Option W64 := none
  ld2 : Option W64 := none
  ld3 : Option W64 := none
  buf : List BufLine := []
  /-- Line fills not yet complete: the one in progress, then those that wait, next first (02 R61, 03 R92, R93). -/
  fills : List Byte := []
  /-- A fill was in progress when a line reload was asked for, and has not ended (15 R425). -/
  fillFirst : Bool := false
  /-- Line in which the instruction before `pc` in sequence began, where that one has just completed (03 R92). -/
  prevLine : Option Byte := none
  psw : W64 := 0x1C01
  pswNext : Option W64 := none
  epc : W16 := 0
  ecause : W64 := 0
  efaddr : W64 := 0
  tsbp : W64 := 0
  evec : W16 := 0
  rspCnt : BitVec 5 := 0
  rspPtr : BitVec 4 := 0
  rs : Vector W16 16 := .replicate 16 0
  ipend : W16 := 0
  rc : W16 := 0
  fxm : W64 := 0
  sgA : Vector W64 8 := #v[0x8580000000000000, 0, 0, 0, 0, 0, 0x8600000000020000, 0]
  sgB : Vector W64 8 := #v[0x1FFFF, 0, 0, 0, 0, 0, 0x2FFFF, 0]
  pc : W16 := 0
  /-- Delay slot the next instruction fills: 0 none, 1 or 2 (05 R135). -/
  slot : Fin 3 := 0
  pkind : PKind := .none
  pendVal : W64 := 0
  /-- The pending `eret` was triggered at recovery or test level: it restores from the Attic set in use (05 R163). -/
  eretAttic : Bool := false
  rip : Bool := false
  repu : Bool := false
  window : Option Window := none
  report : Option Report := none
  /-- Stalled in an instruction that an interrupt does not abandon: an interlock, a network wait, an `idle` (02 R46, 05 R146, 08 R241). -/
  waiting : Bool := false
  attic : Vector AtticSet 3 := .replicate 3 {}
  atticCur : Fin 3 := 0
  stopReq : Bool := false
  testReq : Bool := false
  /-- Strict-mode slot conflict charged to this tile: the SEL of the output (07 R210). -/
  conflict : Option (BitVec 9) := none
  run : TileRun := .stopped
  lastCause : Byte := 0
  scu : Scu := {}
  qu : Qu := {}
  nu : Nu := {}
  /-- Number of tile starts, which tells requests of an earlier run (08 R247). -/
  runs : Nat := 0
  deriving DecidableEq, Repr

end Sys2Proof.Machine
end

