-- ==== Sys2Proof/Machine/StnState.lean ====
section
/-! DEFINITION. State of one station beside its tiles: run state, columns, network, memory nodes and gateways (spec 01, 07, 08). -/

namespace Sys2Proof.Machine

/-- Run state of a station (01 R33). -/
inductive StnRun where
  | stopped | running | failed
  deriving DecidableEq, Repr

/-- What STN_RUN.BUSY stands for (01 R33): nothing, a start, or a stop that ends stopped or failed. -/
inductive StnPhase where
  | none | starting | stopping (fails : Bool)
  deriving DecidableEq, Repr

/-- Pipes of a physical tile that have failed (01 R13, R474): how many ALU pipes, how many MAC pipes, and an unspared unit. -/
structure PhysTile where
  alu : Nat := 0
  mac : Nat := 0
  unspared : Bool := false
  deriving DecidableEq, Repr

/-- A line in a receiver's line FIFO (09 R253): its bytes, and the contexts that have not written it yet. -/
structure LineHeld where
  bytes : Nat
  ctxs : List (Fin 8)
  deriving DecidableEq, Repr

/-- State of a station. -/
structure Station where
  run : StnRun := .stopped
  phase : StnPhase := .none
  phys : Vector PhysTile 48 := .replicate 48 {}
  /-- Column repairs due, in the order R19 gives, each a column and the position to retire. -/
  repairs : List (Fin 8 × Fin 6) := []
  /-- The repair for which the network is frozen. -/
  repairNow : Option (Fin 8 × Fin 6) := none
  /-- Columns whose apertures are closed until the Hall has the tile-restart notice (01 R21). -/
  closed : List (Fin 8) := []
  /-- The network cycle of slot 0 of the present frame, and the latest cycle in which something happened (07 R195). -/
  frameBase : Nat := 0
  cycle : Nat := 0
  frozen : Bool := false
  /-- The debug halt is in force: it was set at the boundary that began the present frozen frame (07 R212, R213). -/
  halted : Bool := false
  /-- Entries of the slot tables by 1024 × SEL + entry, bits [10:0] (07 R196, R197). -/
  tables : List (Nat × BitVec 11) := []
  /-- Slot-table entries with an error: true is uncorrectable (07 R214). -/
  tableBad : List (Nat × Bool) := []
  /-- Corrections due at the next boundary: table entry and its new value (07 R212). -/
  fixes : List (Nat × BitVec 11) := []
  /-- The rewrite of STN_NET_FIX that waits, if any: table entry and value (07 R218). -/
  fix : Option (Nat × BitVec 11) := none
  /-- Divisor requested and not yet in effect (16 R441). -/
  dueDiv : Option (BitVec 2) := none
  /-- Words on router outputs by SEL, each with its network cycle (07 R193). -/
  outs : List (Nat × (Nat × LinkWord)) := []
  /-- The network cycle from which an output is free again, by SEL: one word per link and cycle (07 R191). -/
  lastOut : List (Nat × Nat) := []
  /-- Hold buffers by SEL (07 R199). -/
  hold : List (Nat × List LinkWord) := []
  /-- Best-effort buffers, by 2 × (8 × node + port) + class (07 R208). -/
  be : List (Nat × List LinkWord) := []
  /-- Best-effort service of an output (07 R208): input served last in class c by 3 × SEL + c, class served last by 3 × SEL + 2. -/
  rr : List (Nat × Nat) := []
  /-- Hall mailbox FIFO of node 48 and the Hall's send buffer (07 R219). -/
  hallFifo : List W64 := []
  hallSend : List (BitVec 6 × BitVec 48) := []
  /-- Band-ready notices of camera ingest: destination tile and payload (09 R265). -/
  bandQueue : List (BitVec 6 × BitVec 48) := []
  /-- Line FIFOs of the receivers, oldest line first (09 R253). -/
  lines : Vector (List LineHeld) 4 := .replicate 4 []
  /-- Requests taken by the memory nodes, oldest first (08 R246). Those taken by the gateway wait in the matrix. -/
  nodeQ : Vector (List QReq) 8 := .replicate 8 []
  /-- A node's read that received busy and is to be reissued (08 R231). -/
  reissue : Vector Bool 8 := .replicate 8 false
  /-- Queue words of responses that have not left their node yet, oldest first (07 R209). -/
  resps : List LinkWord := []
  /-- Words of the present queue message that have reached a node from another, by 64 × DST + SRC. -/
  parts : List (Nat × Nat) := []
  deriving DecidableEq, Repr

end Sys2Proof.Machine
end

