-- ==== Sys2Proof/Machine/BlkState.lean ====
section
/-! DEFINITION. State of the device-level blocks that is not a register: the matrix and DMA (spec 11). -/

namespace Sys2Proof.Machine

/-! ### Matrix (11 R306 to R311) -/

/-- An error code of R309. -/
abbrev MxCode := BitVec 3

/-- A piece of a request that waits for its target: its number, its target, its first beat and its beats. -/
structure MxPart where
  idx : Nat
  target : Target
  first : Nat
  len : Nat
  deriving DecidableEq, Repr

/-- A request under way. `origin` is the queue request it carries, for a station queue engine. `err` is the piece, the beat within
it and the code of the first failed beat. -/
structure MxOpen where
  req : MxReq
  origin : Option (Stn × QReq)
  todo : List MxPart
  err : Option (Nat × Nat × MxCode)
  multi : Bool
  busy : Bool
  data : List (BitVec 512)
  deriving DecidableEq, Repr

/-- A response to a master (11 R309). -/
structure MxAnswer where
  err : Option (Nat × Nat × MxCode)
  multi : Bool
  busy : Bool
  data : List (BitVec 512)
  deriving DecidableEq, Repr

/-! ### DMA (11 R320 to R328) -/

/-- A fetched descriptor (11 R320, R321). -/
structure DmaDesc where
  src : W64
  dst : W64
  ctrl : W64
  deriving DecidableEq, Repr

/-- A request of a channel that has been issued and not yet answered: a read of beats, or a write of beats with their data
(11 R321, R323). -/
structure DmaReq where
  write : Bool
  beats : List (Nat × BitVec 512)
  deriving DecidableEq, Repr

/-- The first beat of a request. -/
def DmaReq.first (r : DmaReq) : Nat := (r.beats.head?.map (·.1)).getD 0

/-- A channel's work: its descriptor, how many beats are issued and how many answered to the end, the requests in flight in the order
of their issue, the lowest failed beat with its ECODE, and an end that allows no hand-over (11 R323 to R327). -/
structure DmaChan where
  desc : Option DmaDesc := none
  issued : Nat := 0
  done : Nat := 0
  reqs : List DmaReq := []
  fail : Option (Nat × BitVec 4) := none
  /-- The count stood at 0 when the failure was answered (11 R326). -/
  tail : Bool := false
  /-- An abort or EN = 0 landed with beats in flight, or during the write-back (11 R327). -/
  halted : Bool := false
  deriving DecidableEq, Repr

/-! ### Load cells and embedded flash (10, 14 R397 to R407) -/

/-- Excitation of a channel after an excitation fault (10 R283): none, faulted, faulted and EXC written 0 since. -/
inductive ExcFault where
  | none | faulted | released
  deriving DecidableEq, Repr

/-- A load-cell channel: what the modulator words so far add to the next two outputs of its sinc3 decimator, and the last inputs of
its FIR, newest first, both in units of 10^-12 of a modulator step (10 R278, R279); samples still to be flagged SETTLE (R282), the
sequence number of the last sample (R284), samples since the last notification and FLAGS of the last sample (R286), faults that
last (R283), a LOAD under way and the device trims it applies (R288, R293). -/
structure LcChan where
  next1 : Int := 0
  next2 : Int := 0
  hist : List Int := []
  settle : Nat := 0
  seq : BitVec 24 := 0
  since : Nat := 0
  last : Byte := 0
  excf : ExcFault := .none
  sense : Bool := false
  loading : Bool := false
  trims : List Byte := .replicate 64 0
  deriving DecidableEq, Repr

/-- A commit: the arming station and tile, the tile that the Hall answers, the set and the audit staging record as COMMIT found them
(10 R296, R298, R300). -/
structure CommitJob where
  arming : Stn × BitVec 6
  asker : Stn × BitVec 6
  set : List Byte
  aud : List Byte
  deriving DecidableEq, Repr

/-- What the flash controller does (14 R398): an erase of a sector, a program of a page, an append, or a commit past the checks
of R296: when it began, and whether its audit record is appended. -/
inductive FlashWork where
  | idle | erase (off : Nat) | program (off : Nat) (data : List Byte) | append (rec : List Byte)
  | commit (j : CommitJob) (since : W64) (recorded : Bool)
  deriving DecidableEq, Repr

/-- The flash controller: its work, a commit that waits for a boot-partition operation, the calibration event counter (10 R296),
the index of the next free audit record (R298), a commit that power cut short after step 2 (R299), results of commits that the
Hall has still to answer (R300), and boot partitions in which a read meets an uncorrectable error, A in bit 0 (14 R402). -/
structure FlashCtl where
  work : FlashWork := .idle
  waits : Option CommitJob := none
  counter : Nat := 0
  audNext : Nat := 0
  torn : Bool := false
  owed : List ((Stn × BitVec 6) × Nat) := []
  bad : BitVec 2 := 0
  deriving DecidableEq, Repr

/-! ### Camera ingest (09 R254 to R270) -/

/-- A write of ingest that waits: bytes at an address, the pixels of a row that came through a receiver's line FIFO, or the header of
the slot with a sequence number (09 R253, R259, R261). -/
inductive CamWrite where
  | bytes (addr : Nat) (data : List Byte) | row (r : Fin 4) (addr : Nat) (data : List Byte) | header (seq : W32)
  deriving DecidableEq, Repr

/-- A slot opened and not yet complete (09 R258 to R263): its sequence number and address, the frame row of its row 0, the rows that
arrived (row in the slot), timestamps of the first and last, and its FLAGS as far as known. `closed` holds NROW once it is closed. -/
structure CamSlot where
  seq : W32
  addr : Nat
  row0 : Nat
  rows : List Nat
  tfirst : W64
  tlast : W64
  err : Bool
  fs : Bool
  fe : Bool
  inc : Bool
  shortf : Bool
  longf : Bool
  fnum : W16
  tfs : W64
  lost : Nat
  closed : Option Nat
  /-- What the context's registers gave when the slot was opened: its index and bytes, DT, WIDTH and STRIDE (09 R258, R259). -/
  index : Nat
  size : Nat
  dt : Nat
  width : Nat
  stride : Nat
  deriving DecidableEq, Repr

/-- A stream context (09 R254 to R269): a disable that waits for the frame's end, the frame being captured, its number, timestamp,
long packets received, frame rows that have arrived, last LS line, packets lost, rows beyond HEIGHT; the sequence counter, slots not yet
complete, and waiting writes. -/
structure CamCtx where
  disabling : Bool := false
  active : Bool := false
  fnum : W16 := 0
  tfs : W64 := 0
  count : Nat := 0
  had : List Nat := []
  ls : Option W16 := none
  lost : Nat := 0
  longf : Bool := false
  seq : W32 := 0
  slots : List CamSlot := []
  writes : List CamWrite := []
  deriving DecidableEq, Repr

end Sys2Proof.Machine
end

