-- ==== Sys2Proof/Machine/ChainState.lean ====
section
/-! DEFINITION. State of the chain ports, of the PCIe head and of the services that the Hall firmware keeps (spec 12, 14, 15). -/

namespace Sys2Proof.Machine

/-! ### Chain (12 R332 to R336, R359) -/

/-- A chain port: the next LSEQ to send and to receive, DATA frames sent and not acknowledged, packets that wait for the retry
buffer, a NAK sent for the LSEQ expected, retransmissions in a row, the frames that the last retransmission sent again, the last results of the delay
measurement, newest first, the probe under way, a probe exchange completed since the link went down, and the last ACK, NAK, PROBE and PROBE_REPLY sent. -/
structure ChainLink where
  txSeq : BitVec 12 := 0
  rxSeq : BitVec 12 := 0
  unacked : List LinkFrame := []
  waiting : List Packet := []
  nakSent : Bool := false
  retries : Nat := 0
  resent : List LinkFrame := []
  delays : List W64 := []
  probeT1 : Option W64 := none
  probed : Bool := false
  sentAck : Option LinkFrame := none
  sentNak : Option LinkFrame := none
  sentProbe : Option LinkFrame := none
  sentReply : Option LinkFrame := none
  deriving DecidableEq, Repr

/-! ### PCIe head mode (12 R362 to R365) -/

/-- A completion of a window read (12 R365): data, Completer Abort, or Unsupported Request where the function claims no access. -/
inductive WinAnswer where
  | data (bytes : List Byte) | abort | unsupported
  deriving DecidableEq, Repr

/-- The PCIe endpoint: packets for the host that no posted buffer has taken yet, oldest first, packets written to host memory with
their descriptor index, MSI-X messages sent with their vector, address and data, the rings stopped by DMAERR, descriptors posted to
the command ring and not yet read, those done with their ERR, the last window completion, what the host has configured, and the
uncorrectable error status of AER. -/
structure Pcie where
  rxQueue : List Packet := []
  written : List (BitVec 12 × Packet) := []
  msix : List (Fin 4 × W64 × W32) := []
  cmdStopped : Bool := false
  rxStopped : Bool := false
  posted : List HostCmd := []
  cmdDone : List (BitVec 12 × Bool) := []
  winAnswer : Option WinAnswer := none
  cfg : PciCfg := ⟨false, false, false, false, false, 0, 0, false⟩
  aer : W32 := 0
  deriving DecidableEq, Repr

/-! ### Hall services (12 R339 to R358; 14 R403 to R416; 15 R419 to R433) -/

/-- What the Hall executes: nothing, the Cellar, the Cellar waiting in chain boot, or its firmware. -/
inductive HallRun where
  | off | cellar | chainBoot | firmware
  deriving DecidableEq, Repr

/-- An image being staged: TOTAL of its chunks and the ranges received, offset and length; the bytes lie in memory (14 R404, R409). -/
structure Staged where
  total : Nat
  got : List (Nat × Nat)
  deriving DecidableEq, Repr

/-- A command that arrived at a port, and the time base then. -/
structure Arrived where
  port : Fin 2
  pkt : Packet
  since : W64
  deriving DecidableEq, Repr

/-- An entry of the duplicate cache: SRC, SEQ, OPCODE, STN, and the status word (12 R341). -/
structure CacheEntry where
  src : Byte
  seq : W16
  opcode : Byte
  stn : Byte
  status : W32
  deriving DecidableEq, Repr

/-- An MBOX_SEND under way, with the words still to be placed (12 R347). -/
structure MboxJob where
  cmd : Arrived
  words : List (BitVec 6 × BitVec 48)
  deriving DecidableEq, Repr

/-- The Hall's record of a station: the staged image, the image last started with its digest, commands that wait for the one under
way, and the time base at which each tile was last restarted after a stop (12 R356; 14 R410; 15 R421). -/
structure HallStn where
  staged : Option Staged := none
  /-- Body of the image last accepted. -/
  body : List Byte := []
  measurement : Option (List Byte) := none
  /-- The digest of the image of a start under way, and the image's measurement at its end (14 R410 step 6). -/
  digest : List Byte := []
  starting : Option Arrived := none
  /-- A start has reached the self-tests of its tiles, step 5 of R410. -/
  testing : Bool := false
  stopping : Option Arrived := none
  /-- A restart of the station in place: its stop (true) or its start; and one that waits for a job of the station (15 R428). -/
  inPlace : Option Bool := none
  restartDue : Bool := false
  /-- Tiles to be retired through STN_REPAIR, oldest first (15 R421, R422). -/
  retiring : List TileNo := []
  /-- Uncorrectable slot-table entries are being rewritten (15 R428). -/
  fixing : Bool := false
  waiting : List Arrived := []
  lastFault : Vector (Option W64) 40 := .replicate 40 none
  /-- Mailbox words held while a repair of the tile's column runs (12 R358). -/
  held : List (BitVec 6 × BitVec 48) := []
  /-- Mailbox words that wait for room in the send buffer (07 R219), and an MBOX_SEND that does. -/
  out : List (BitVec 6 × BitVec 48) := []
  sending : Option MboxJob := none
  /-- A peer watch: watched device and station, polls missed in a row, last tag read (15 R433). -/
  watch : Option (BitVec 6 × BitVec 2) := none
  missed : Nat := 0
  tag : Option W32 := none
  deriving DecidableEq, Repr

/-- The Hall. -/
structure Hall where
  run : HallRun := .cellar
  stns : Vector HallStn 4 := .replicate 4 {}
  /-- The Hall firmware image staged in chain boot. -/
  boot : Option Staged := none
  measurement : Option (List Byte) := none
  entry : W32 := 0
  /-- Reasons of the partitions found by the last boot, for DEV_BOOTSTAT (14 R405). -/
  rsnA : Nat := 0
  rsnB : Nat := 0
  cache : List CacheEntry := []
  /-- The ATTEST whose report is being signed, with the report so far. -/
  attest : Option (Arrived × List Byte) := none
  /-- Sequence of the next log entry, and of the next event. -/
  logNext : Nat := 0
  events : W16 := 0
  /-- The newest epoch known of each lane (12 R357). -/
  epochs : List (Nat × Nat) := []
  deriving DecidableEq, Repr

/-! ### Vault (14 R411 to R414) -/

/-- State of an owner key slot in fuses. -/
inductive SlotState where
  | empty | active | revoked
  deriving DecidableEq, Repr

/-- A vault command in progress. -/
inductive VaultCmd where
  | hashInit | hashUpdate | hashFinal | verify (key : Byte) | sign | auth | random
  deriving DecidableEq, Repr

/-- The vault: its one-way state, with the fuses of each slot that enrolments cut short have programmed, the message of the SHA-512 under
way, the command in progress with the time base at its start, and
random words drawn. -/
structure Vault where
  slots : Vector SlotState 4 := .replicate 4 .empty
  moduli : Vector Nat 4 := .replicate 4 0
  burnt : Vector Nat 4 := .replicate 4 0
  hallMin : Nat := 0
  stnMin : Nat := 0
  lock : Bool := false
  hash : Option (List Byte) := none
  cmd : Option VaultCmd := none
  since : W64 := 0
  drawn : Nat := 0
  deriving DecidableEq, Repr

/-! ### Clocks, reset and test access (16, 17) -/

/-- A source of device reset (16 R446). -/
inductive ResetSource where
  | powerOn | pin | command | hall | clockLoss
  deriving DecidableEq, Repr

/-- Thermal manager of a station (16 R441): samples in a row below TLO and samples in a row at d = 4 with TEMP ≥ THI, and the time
base of the last step. -/
structure Thermal where
  cool : Nat := 0
  hot : Nat := 0
  lastStep : Option W64 := none
  deriving DecidableEq, Repr

/-- Instruction in the test access port (17 R471). -/
inductive TapInsn where
  | bypass | idcode | sample | extest | tsel | tread | thalt
  deriving DecidableEq, Repr

/-- The test access port: its instruction, the data register captured, pins driven, and the tile selected. -/
structure Tap where
  insn : TapInsn := .idcode
  data : List Bool := []
  preload : Boundary := 0
  driven : Option Boundary := none
  stn : Stn := 0
  phys : Phys := 0
  read : Option W32 := none
  deriving DecidableEq, Repr

/-- Clocks and reset (16): a reset that is requested, waiting or asserted, one asserted that includes the chain-port reset, THERMTRIP,
the outputs VID, and the thermal managers. -/
structure CoreCtl where
  wants : Option ResetSource := none
  asserted : Bool := false
  withChain : Bool := false
  tripped : Bool := false
  vid : BitVec 6 := 20
  therm : Vector Thermal 4 := .replicate 4 {}
  deriving DecidableEq, Repr

/-- A reset waits or is asserted: no operation of embedded flash starts (16 R443, R448). -/
def CoreCtl.holdsFlash (c : CoreCtl) : Bool := c.wants.isSome || c.asserted

end Sys2Proof.Machine
end

