-- ==== Sys2Proof/Machine/LaneState.lean ====
section
/-! DEFINITION. State of the lane I/O blocks that is not a register: the Window, the serial ports, the USB groups, drawers and GPIO
(spec 13). The mirror words and the word types are the registers of the regions of R380. -/

namespace Sys2Proof.Machine

/-- Where a lane I/O notice comes from (13 R382, R386, R389 to R391). -/
inductive LaneSrc where
  | bus | serial (p : Fin 20) | usb (g : Fin 4) | drawer (n : Fin 8) | gpio
  deriving DecidableEq, Repr

/-- What the legacy bus carries after its last access: the bytes driven on LD, if any, BNKBSY and LSEL_N (13 R368). -/
structure BusOut where
  low : Option Byte := none
  high : Option Byte := none
  bnkbsy : Bool := false
  lselN : Bool := true
  deriving DecidableEq, Repr

/-- A read FIFO of the Window and its latch (13 R373). -/
structure WinFifo where
  entries : List W16 := []
  latch : Byte := 0
  deriving DecidableEq, Repr

/-- The Window (13 R368 to R382): its FIFOs, the write log as pairs LB_LOG_LO, LB_LOG_HI, entries lost since the last marker, the
level of LRESET, a rise not yet recorded with its time base, the outputs, and what the last firmware read of a command returned. -/
structure WinState where
  fifos : Vector WinFifo 16 := .replicate 16 {}
  log : List (W32 × W32) := []
  lost : W16 := 0
  lreset : Bool := false
  rise : Option W64 := none
  out : BusOut := {}
  fwRead : Option W32 := none
  deriving DecidableEq, Repr

/-- A serial port (13 R383 to R386): FIFOs, the character being sent, RTS_N held high by AUTORTS, DE, and lines DCD, RI, DSR, CTS. -/
structure SerPort where
  rx : List RxChar := []
  tx : List Byte := []
  sending : Option Byte := none
  rtsHigh : Bool := false
  de : Bool := false
  lines : BitVec 4 := 0
  deriving DecidableEq, Repr


/-- A USB group (13 R387 to R389): bytes moved by the active transfer of each pipe, ports in reset, the frame number, and the time
base at which the frame began, while the controller runs. -/
structure UsbGroup where
  moved : Vector Nat 16 := .replicate 16 0
  inReset : Vector Bool 4 := .replicate 4 false
  frame : BitVec 11 := 0
  frameAt : Option W64 := none
  deriving DecidableEq, Repr

/-- Drawers and GPIO (13 R390, R391): the time base at which each drawer's last pulse began and ended, and the levels at the GPIO pins. -/
structure Gio where
  began : Vector (Option W64) 8 := .replicate 8 none
  ended : Vector (Option W64) 8 := .replicate 8 none
  pins : W32 := 0
  sense : Vector Bool 8 := .replicate 8 false
  senseAt : Vector W64 8 := .replicate 8 0
  deriving DecidableEq, Repr

end Sys2Proof.Machine
end

