-- ==== Sys2Proof/Machine/State.lean ====
section
/-! DEFINITION. The state of the DQ-4160, its faults and refusals, and the state after reset. -/

namespace Sys2Proof.Machine

/-- Why a step stops. -/
inductive Fault where
  /-- A command wrote a 1 to a reserved bit of a register: the manual does not define the effect (00 R9). Raised by every
  command that writes a register or a control register. Safe: the hardware goes on in some way the manual does not give. -/
  | reservedBitWritten
  deriving DecidableEq, Repr

/-- Why a step has no meaning. -/
inductive Refusal where
  /-- Raised by exec for a command without a meaning. Safe: nothing is claimed of it. -/
  | notModelled (mnemonic : String)
  deriving DecidableEq, Repr

/-- What waits for the Hall (01 R18, R474; 05 R164, R165; 08 R228; 15 R421 to R428). -/
inductive Notice where
  | tileLost (s : Stn) (t : TileNo) | imageFailed (s : Stn) (t : TileNo) | selfTestFailed (s : Stn) (t : TileNo)
  | tileRestart (s : Stn) (t : TileNo) | lineFault (s : Stn) (t : TileNo) | netFault (s : Stn)
  | decode | timer (n : Fin 8) | dmaEoc (n : Fin 16) | dmaErr (n : Fin 16)
  | camera (s : Stn) | loadCell (c : Fin 8) | pantry (s : Stn)
  | memFault (m : FaultMem) (a : Addr) (uncorrectable : Bool)
  | lane (src : LaneSrc) | thermal (s : Stn)
  deriving DecidableEq, Repr

/-- The grade, fixed by fuses (00 R2). -/
inductive Grade where
  | dq2080 | dq3120 | dq4160
  deriving DecidableEq, Repr

/-- The state of the block. -/
structure State where
  /-- Commands that wait, first in, first out. -/
  pending : List Instr := []
  /-- The number of free values read so far: the MODEL's own field (log entry 2). -/
  freeCount : Nat := 0
  /-- A 1 was written to a reserved bit during this command: the MODEL's own field (log entry 3). -/
  undef : Bool := false
  grade : Grade := .dq4160
  /-- Every device register by its device address, where it differs from its reset value. -/
  regs : List (Nat × W32) := []
  /-- Bytes of Hall SRAM, station memory, tile data memory, tile instruction memory and LP5 by device address. -/
  mem : List Host.Cell := []
  /-- Words with an ECC error by the device address of the doubleword: true is uncorrectable. -/
  ecc : List (Nat × Bool) := []
  /-- Banks between power states, by bank number: the state being reached, and a later request (08 R224). -/
  bankChange : List (Nat × (Option (BitVec 2) × Option (BitVec 2))) := []
  tiles : Vector (Vector Tile 40) 4 := .replicate 4 (.replicate 40 {})
  stns : Vector Station 4 := .replicate 4 {}
  /-- Next row that each bank's scrubber reads, by bank number, and the next line of each LP5 controller's (08 R228, R250). -/
  scrubAt : List (Nat × Nat) := []
  lp5Scrub : Vector Nat 2 := .replicate 2 0
  /-- LP5 controllers that initialise and train (08 R249). -/
  lp5Train : Vector Bool 2 := .replicate 2 false
  /-- Requests of each master under way, oldest first, the last response of each, and the master last granted at each target and
  priority, by 16 × target + priority (11 R306 to R311). -/
  mxOpen : Vector (List MxOpen) 9 := .replicate 9 []
  mxDone : Vector (Option MxAnswer) 9 := .replicate 9 none
  mxLast : List (Nat × Nat) := []
  /-- Bits [63:32] of the time base latched for each master (11 R316). -/
  tbLatch : Vector W32 9 := .replicate 9 0
  /-- Timers that run and timers armed for their AT (11 R317). -/
  tmrRun : Vector Bool 8 := .replicate 8 false
  tmrArmed : Vector Bool 8 := .replicate 8 false
  dma : Vector DmaChan 16 := .replicate 16 {}
  cam : Vector (Vector CamCtx 8) 4 := .replicate 4 (.replicate 8 {})
  lc : Vector LcChan 8 := .replicate 8 {}
  /-- Bytes of embedded flash by flash offset that differ from the erased 0xFF; the identity page is apart (14 R397). -/
  flash : List Host.Cell := []
  flashCtl : FlashCtl := {}
  window : WinState := {}
  serial : Vector SerPort 20 := .replicate 20 {}
  usb : Vector UsbGroup 4 := .replicate 4 {}
  gio : Gio := {}
  links : Vector ChainLink 2 := .replicate 2 {}
  pcie : Pcie := {}
  hall : Hall := {}
  vault : Vault := {}
  core : CoreCtl := {}
  tap : Tap := {}
  notices : List Notice := []
  timeBase : W64 := 0
  deriving DecidableEq, Repr

/-- The machine right after reset. -/
def State.reset : State := {}

end Sys2Proof.Machine
end

