-- ==== Sys2Proof/Machine/Ops.lean ====
section
/-! DEFINITION. Named operations over registers, memory, tiles and stations. -/

namespace Sys2Proof.Machine

/-! ### Tiles and stations -/

def State.tile (s : State) (st : Stn) (t : TileNo) : Tile := s.tiles[st][t]
def State.setTile (s : State) (st : Stn) (t : TileNo) (T : Tile) : State :=
  { s with tiles := s.tiles.set st (s.tiles[st].set t T) }
def State.modTile (s : State) (st : Stn) (t : TileNo) (f : Tile → Tile) : State := s.setTile st t (f (s.tile st t))

def State.stn (s : State) (st : Stn) : Station := s.stns[st]
def State.setStn (s : State) (st : Stn) (S : Station) : State := { s with stns := s.stns.set st S }
def State.modStn (s : State) (st : Stn) (f : Station → Station) : State := s.setStn st (f (s.stn st))

/-! ### Registers -/

/-- The stored value of a register. -/
def State.reg (s : State) (a : Nat) : W32 := smGet regReset s.regs a
def State.setReg (s : State) (a : Nat) (v : W32) : State := { s with regs := smSet regReset s.regs a v }
/-- The stored value of bits [lo + w - 1 : lo] of a register. -/
def State.fld (s : State) (a lo w : Nat) : Nat := nat (s.reg a) lo w
def State.rbit (s : State) (a i : Nat) : Bool := bit (s.reg a) i
def State.setFld (s : State) (a lo w v : Nat) : State := s.setReg a (put (s.reg a) lo w v)
/-- Set a flag. -/
def State.setFlag (s : State) (a i : Nat) : State := s.setFld a i 1 1
/-- Add n to a counter, modulo 2^32. -/
def State.bump (s : State) (a n : Nat) : State := s.setReg a (s.reg a + BitVec.ofNat 32 n)

/-! ### Memory -/

/-- What a byte that nothing has written reads as (log entry 1). -/
def memReset (_ : Nat) : Byte := 0

def State.byte (s : State) (a : Nat) : Byte := smGet memReset s.mem a
def State.setByte (s : State) (a : Nat) (v : Byte) : State := { s with mem := smSet memReset s.mem a v }

/-- n bytes from address a. -/
def State.bytes (s : State) (a n : Nat) : List Byte := (List.range n).map fun i => s.byte (a + i)

/-- Bytes written from address a on. -/
def State.setBytes (s : State) : Nat → List Byte → State
  | _, [] => s
  | a, b :: bs => (s.setByte a b).setBytes (a + 1) bs

/-- The n-byte little-endian number at a. -/
def State.le (s : State) (a n : Nat) : Nat := leNat (s.bytes a n)
def State.setLe (s : State) (a n v : Nat) : State := s.setBytes a (leBytes n v)

/-- Memory from lo to hi - 1 back to what unwritten memory reads as: a zero-fill, or contents lost. -/
def State.clearMem (s : State) (lo hi : Nat) : State :=
  { s with mem := smDrop s.mem lo hi, ecc := smDrop s.ecc lo hi }

/-! ### ECC -/

/-- Check bits of the doubleword that holds address a (08 R227). -/
def State.upset (s : State) (a : Nat) : Upset :=
  match s.ecc.lookup (a / 8 * 8) with
  | none => .none
  | some false => .single
  | some true => .double

def State.setUpset (s : State) (a : Nat) (u : Upset) : State :=
  match u with
  | .none => { s with ecc := smErase s.ecc (a / 8 * 8) }
  | .single => { s with ecc := smInsert s.ecc (a / 8 * 8) false }
  | .double => { s with ecc := smInsert s.ecc (a / 8 * 8) true }

/-- Counts of the time base in a millisecond: CLK_S runs at 375 MHz (16 R436). -/
def msCounts : Nat := 375000

/-! ### Free values (log entry 2) -/

/-- A fresh free value. -/
def State.free (s : State) : W64 := Config.freeWord s.freeCount
def State.useFree (s : State) (n : Nat) : State := { s with freeCount := s.freeCount + n }

/-! ### Notices -/

def State.notify (s : State) (n : Notice) : State := { s with notices := s.notices ++ [n] }

/-! ### Clock gates (16 R440) -/

def cpr (off : Nat) : Nat := devReg 1 off

/-- A device reset is asserted: every clock but REFCLK stands still and the outputs are held (16 R443, R447). -/
def State.inReset (s : State) : Bool := s.core.asserted

/-- The asserted reset includes the chain-port reset (16 R446). -/
def State.portsHeld (s : State) : Bool := s.inReset && s.core.withChain

/-- What a command does while the device's clocks run; in a reset it does nothing (16 R443). -/
def State.clocked (s : State) (f : State → State) : State := if s.inReset then s else f s

/-- The clock behind bit i of CPR_GATE is stopped. -/
def State.gated (s : State) (i : Nat) : Bool := s.inReset || !s.rbit (cpr 0xC) i

/-- Stations of a grade, and feat3.GRADE (00 R2, 06 R188). -/
def Grade.stations : Grade → Nat
  | .dq2080 => 2 | .dq3120 => 3 | .dq4160 => 4
def Grade.code : Grade → Nat
  | .dq2080 => 1 | .dq3120 => 2 | .dq4160 => 3

/-- A station is there and works: the grade enables it (00 R3), and no reset is asserted. -/
def State.fitted (s : State) (st : Stn) : Bool := !s.inReset && decide (st.val < s.grade.stations)

/-! ### Banks (08 R220 to R226) -/

/-- Number of data bank i of a tile, of bank j of a station, of bank b of Hall SRAM, in bankChange. -/
def tileBankNo (s : Stn) (t : TileNo) (i : Nat) : Nat := (s.val * 40 + t.val) * 4 + i
def stnBankNo (s : Stn) (j : Nat) : Nat := 640 + s.val * 32 + j
def hallBankNo (b : Nat) : Nat := 768 + b

def aHPWR : Nat := devReg 0 0x100
def aHINIT : Nat := devReg 0 0x104

/-- A tile data bank serves accesses: on, not between states, not zero-filling (08 R223, R225). -/
def State.tileBankOn (s : State) (st : Stn) (t : TileNo) (i : Nat) : Bool :=
  s.fld (tileReg st t 0x21C) (2 * i) 2 == 2 && !s.rbit (tileReg st t 0x21C) (12 + i) &&
  (s.bankChange.lookup (tileBankNo st t i)).isNone

def State.stnBankOn (s : State) (st : Stn) (j : Nat) : Bool :=
  s.fld (stnReg st (if j < 16 then 0x200 else 0x204)) (2 * (j % 16)) 2 == 2 && !s.rbit (stnReg st 0x20C) j &&
  (s.bankChange.lookup (stnBankNo st j)).isNone

def State.hallBankOn (s : State) (b : Nat) : Bool :=
  s.fld aHPWR (2 * b) 2 == 2 && !s.rbit aHINIT (16 + b) && (s.bankChange.lookup (hallBankNo b)).isNone

/-- Bank of a data-memory offset (02 R64). -/
def bankOf (off : Nat) : Nat := off / 8 % 4

/-! ### Tile data memory from the tile side (02 R64 to R67, 08 R227, R252) -/

/-- How an access to memory ended. -/
inductive Access where
  | ok | off | bad
  deriving DecidableEq, Repr

/-- Offsets of the doublewords that n bytes at off touch. -/
def wordsOf (off n : Nat) : List Nat := (List.range ((off + n - 1) / 8 + 1 - off / 8)).map fun i => (off / 8 + i) * 8

/-- Whether n bytes at an offset can be read by the tile: a bank that is not on, else an uncorrectable word. -/
def State.dataState (s : State) (st : Stn) (t : TileNo) (off n : Nat) : Access :=
  if (wordsOf off n).any fun w => !s.tileBankOn st t (bankOf w) then .off
  else if (wordsOf off n).any fun w => s.upset (tileData st t w) == .double then .bad
  else .ok

/-- Corrections counted for a read of n bytes (08 R227). -/
def State.countCe (s : State) (st : Stn) (t : TileNo) (off n : Nat) : State :=
  s.bump (tileReg st t 0x210) ((wordsOf off n).countP fun w => s.upset (tileData st t w) == .single)

/-- The first uncorrectable word among n bytes, recorded (08 R227, R252). -/
def State.recordUe (s : State) (st : Stn) (t : TileNo) (off n : Nat) : State :=
  match (wordsOf off n).find? fun w => s.upset (tileData st t w) == .double with
  | none => s
  | some w =>
    let a := tileReg st t 0x218
    let s := if s.rbit a 0 then s else s.setFld a 16 14 (w / 8)
    s.setFlag a 0

def State.readData (s : State) (st : Stn) (t : TileNo) (off n : Nat) : List Byte := s.bytes (tileData st t off) n

/-- Write bytes to tile data memory: words written get fresh check bits (02 R67); no correction is counted (log entry 103). -/
def State.writeData (s : State) (st : Stn) (t : TileNo) (off : Nat) (bs : List Byte) : State :=
  (wordsOf off bs.length).foldl (fun s w => s.setUpset (tileData st t w) .none) (s.setBytes (tileData st t off) bs)

end Sys2Proof.Machine
end

