-- ==== Sys2Proof/Machine/Operands.lean ====
section
/-! DEFINITION. What a trigger works on: its tile, its segment, and how it can end; the segment checks (06 R175 to R184). -/

namespace Sys2Proof.Machine

/-- How a read or a trigger of an instruction ends: done; waiting (02 R46), on a queue wait that an interrupt abandons or on
another (08 R241); or an exception with its cause and efaddr. -/
inductive TOut where
  | done (s : State)
  | stall (queueWait : Bool)
  | fault (s : State) (cause : Byte) (efaddr : W64)
  deriving DecidableEq, Repr

/-- Continue with the state a part leaves. -/
def TOut.bind : TOut → (State → TOut) → TOut
  | .done s, f => f s
  | .stall q, _ => .stall q
  | .fault s c e, _ => .fault s c e

/-- What the triggers of one instruction share: the tile, the segment override (06 R178), the state before the instruction
(04 R118, 06 R177), whether a read of it set OVS (04 R110) or NE (08 R239), the efaddr of a refused move (05 R153), and the bytes of tile data memory
that its own store writes over (04 R118). -/
structure Ctx where
  st : Stn
  t : TileNo
  seg : Option (Fin 8)
  s0 : State
  ovs : Bool
  ne : Bool
  dst : W64
  old : List (Nat × Byte) := []

def Ctx.T0 (c : Ctx) : Tile := c.s0.tile c.st c.t

/-- The context of a trigger that a command makes by itself, without an instruction around it (log entry 5). -/
def Ctx.alone (s : State) (st : Stn) (t : TileNo) (seg : Option (Fin 8)) : Ctx :=
  ⟨st, t, seg, s, false, false, zext 64 (s.tile st t).pc, []⟩

/-- The tiles of a station do not advance: a reset is asserted, or their network is frozen by a debug halt (02 R51, 07 R213; 16 R443). -/
def State.haltFrozen (s : State) (st : Stn) : Bool :=
  s.inReset || ((s.stn st).frozen && (s.stn st).halted)

/-- The outside port writes a word that the tile reads: the read is repeated and delivers the word after the write (08 R231). -/
def State.retried (s : State) (st : Stn) (t : TileNo) : State := s.bump (tileReg st t 0x214) 1

/-- The outside port reads a word that the tile writes: the write is performed and answered busy (08 R231). -/
def State.writeBusy (s : State) (st : Stn) (t : TileNo) : State := s.setFlag (tileReg st t 0x218) 1

/-- An access of the scan unit or of a block transfer meets the outside port (08 R229, R231). -/
def State.met (s : State) (st : Stn) (t : TileNo) (meet : Meet) (reads writes : Bool) : State :=
  match meet with
  | .none => s
  | .write => if reads then s.retried st t else s
  | .read => if writes then s.writeBusy st t else s

/-! ### psw fields (05 R132) -/

def pswLvl (p : W64) : Nat := nat p 0 2
def pswSealed (p : W64) : Bool := bit p 4
def pswIe (p : W64) : Bool := bit p 5
def pswPrec (p : W64) : Bool := bit p 6
def pswRsov (p : W64) : Bool := bit p 7
def pswTv (p : W64) : Bool := bit p 8
def pswTsg (p : W64) : Fin 8 := ⟨nat p 10 3, (p.extractLsb' 10 3).isLt⟩
def pswImask (p : W64) : W16 := bits p 16 16
/-- Bits of the psw that a value carries; WLD comes from the tile. -/
def pswMask : W64 := 0xFFFF1DE3
/-- A psw value as the tile takes it: reserved bits dropped, WLD kept. -/
def pswOf (old v : W64) : W64 := (v &&& pswMask) ||| (old &&& 0x10)

/-! ### Segments -/

/-- Who makes an access (06 R178, R180). -/
inductive SegKind where
  | data | qu | fetch
  deriving DecidableEq, Repr

/-- SPACE is permitted for the access, the world and the level (06 R180). -/
def spaceOk (T : Tile) (kind : SegKind) (space : Nat) : Bool :=
  match kind with
  | .qu =>
    space == 1 || (space == 2 && !pswSealed T.psw) ||
    (space == 3 && !pswSealed T.psw && decide (pswLvl T.psw ≠ 0))
  | .data => space == 0
  | .fetch => space == 0

/-- Lowest and highest address of a space (06 R180). -/
def spaceRange (space : Nat) (kind : SegKind) : Int × Int :=
  if space = 0 then (if kind == .fetch then (0x20000, 0x2FFFF) else (0, 0x1FFFF))
  else if space = 1 then (0, 0xFFFFFF)
  else if space = 2 then (0x1000000000, 0x1FFFFFFFFF)
  else (0, 0xFFFFFFFFFF)

/-- Type of station bank j (06 R181): 0 Open, 1 and 3 Sealed, 2 Outbox. -/
def State.bankType (s : State) (st : Stn) (j : Nat) : Nat :=
  s.fld (stnReg st (if j < 16 then 0x150 else 0x154)) (2 * (j % 16)) 2

/-- A station bank's type permits a tile's access (06 R182). -/
def bankPermits (type : Nat) (isSealed needW : Bool) : Bool :=
  if type = 0 then !isSealed
  else if type = 2 then isSealed || !needW
  else isSealed

/-- Every byte's world type permits the access (06 R180, R182). -/
def State.worldOk (s : State) (st : Stn) (T : Tile) (kind : SegKind) (space : Nat) (needW : Bool) (a : Int) (n : Nat) : Bool :=
  if space = 1 then
    if a < 0 then true else
    let lo := a.toNat / 0x80000
    let hi := (a.toNat + n - 1) / 0x80000
    (List.range (hi + 1 - lo)).all fun i =>
      decide (32 ≤ lo + i) || bankPermits (s.bankType st (lo + i)) (pswSealed T.psw) needW
  else if space = 0 ∧ kind = .data then decide (a + n ≤ 0x20000) || decide (0x2FFFF < a)
  else true

/-- Alignment of an access of up to 8 bytes (06 R183). -/
def alignOk (rot : Bool) (a : Int) (n : Nat) : Bool :=
  decide (a % n = 0) || (rot && decide (a % 8 + n ≤ 8))

/-- Word A and word B of a segment register. -/
def segV (A : W64) : Bool := bit A 63
def segSpace (A : W64) : Nat := nat A 61 2
def segRot (A : W64) : Bool := bit A 59

/-- Checks 1 to 6 of 06 R179 on the accesses es, each an address and a size; al is the alignment rule of the access.
The first failing check decides the cause, and efaddr is the first access that fails it. -/
def State.segCheck (s : State) (st : Stn) (T : Tile) (k : Fin 8) (kind : SegKind) (r w x : Bool)
    (al : Bool → Int → Nat → Bool) (es : List (Int × Nat)) : Option (Byte × W64) :=
  let A := T.sgA[k]
  let B := T.sgB[k]
  let first : W64 := BitVec.ofInt 64 (es.headD (0, 0)).1
  let rng := spaceRange (segSpace A) kind
  let bad6 := fun (e : Int × Nat) =>
    decide (e.1 < (nat A 0 40 : Int)) || decide ((nat B 0 40 : Int) < e.1 + e.2 - 1) ||
    decide (e.1 < rng.1) || decide (rng.2 < e.1 + e.2 - 1)
  if !(segV A && bit A 60 == pswSealed T.psw && spaceOk T kind (segSpace A)) then some (0x06, first)
  else if decide (pswLvl T.psw = 0) && !bit A 58 then some (0x06, first)
  else if (r && !bit A 55) || (w && !bit A 56) || (x && !bit A 57) then some (0x06, first)
  else match es.find? fun e => !s.worldOk st T kind (segSpace A) w e.1 e.2 with
  | some e => some (0x06, BitVec.ofInt 64 e.1)
  | none =>
    match es.find? fun e => !al (segRot A) e.1 e.2 with
    | some e => some (0x04, BitVec.ofInt 64 e.1)
    | none =>
      match es.find? bad6 with
      | some e => some (0x05, BitVec.ofInt 64 e.1)
      | none => none

/-- No alignment rule of its own. -/
def anyAlign (_ : Bool) (_ : Int) (_ : Nat) : Bool := true
/-- A multiple of m. -/
def multOf (m : Nat) (_ : Bool) (a : Int) (_ : Nat) : Bool := decide (a % m = 0)

/-! ### Blocks of a running queue transfer (08 R244) -/

/-- Block numbers of a transfer that n bytes at off touch. -/
def xferTouches (x : BlockXfer) (off n : Nat) : List Nat :=
  (List.range x.nblk).filter fun i =>
    decide (x.taddr.toNat + 64 * i < off + n) && decide (off < x.taddr.toNat + 64 * i + 64)

/-- A tile-side access must wait for a running block transfer numbered below `ord`. -/
def Tile.xferHoldsBefore (T : Tile) (ord off n : Nat) (writes : Bool) : Bool :=
  (T.qu.lq.toList.any fun q => match q.block with
    | none => false
    | some x => decide (x.ord < ord) && (xferTouches x off n).any fun i => !x.dones.contains i) ||
  (writes && T.qu.sq.toList.any fun q => match q.block with
    | none => false
    | some x => decide (x.ord < ord) && (xferTouches x off n).any fun i => decide (x.issued ≤ i))

/-- An access of the instruction being issued must wait for a running block transfer. -/
def Tile.xferHolds (T : Tile) (off n : Nat) (writes : Bool) : Bool := T.xferHoldsBefore T.qu.next off n writes

end Sys2Proof.Machine
end

