-- ==== Sys2Proof/Machine/Exceptions.lean ====
section
/-! DEFINITION. Taking an exception and returning from one (05 R136, R148 to R164), tile-stop, and tile start (05 R165, R166). -/

namespace Sys2Proof.Machine

/-- What an exception records (05 R152, R153). -/
structure Exc where
  cause : Byte
  efaddr : W64
  unit : BitVec 4 := 0
  imp : Bool := false
  ilost : Bool := false
  late : Nat := 0
  idet : W64 := 0
  deriving DecidableEq, Repr

/-- PKIND as the frame encodes it (05 R151). -/
def pkindCode : PKind → Nat
  | .none => 0 | .jmp => 1 | .call => 2 | .ret => 3 | .sys => 4 | .eret => 5

/-- PKIND of a code; 0b110 and 0b111 read as 0 (05 R156). -/
def pkindOf (n : Nat) : PKind :=
  match n with
  | 1 => .jmp | 2 => .call | 3 => .ret | 4 => .sys | 5 => .eret | _ => .none

/-- The ecause word of an exception, with CAUSE2 (05 R152). -/
def ecauseWord (e : Exc) (cause cause2 : Byte) : W64 :=
  BitVec.ofNat 64 (e.late % 32 * 2 ^ 22 + e.ilost.toNat * 2 ^ 21 + e.imp.toNat * 2 ^ 20 + e.unit.toNat * 2 ^ 16 +
    cause2.toNat * 256 + cause.toNat)

/-- The XSTATE word (05 R151). -/
def Tile.xstate (T : Tile) : W64 :=
  BitVec.ofNat 64 (T.ld3.isSome.toNat * 2 ^ 10 + T.ld2.isSome.toNat * 2 ^ 9 + T.ld1.isSome.toNat * 2 ^ 8 +
    T.repu.toNat * 2 ^ 7 + T.rip.toNat * 2 ^ 6 + T.pswNext.isSome.toNat * 2 ^ 5 + pkindCode T.pkind * 4 + T.slot.val)

/-- `rsp` as a register (05 R134). -/
def Tile.rsp (T : Tile) : W64 := BitVec.ofNat 64 (T.rspCnt.toNat * 16 + T.rspPtr.toNat)

/-- CNT of an `rsp` value, at most 16 (05 R134). -/
def rspCntOf (v : W64) : BitVec 5 := if 16 < nat v 4 5 then 16 else bits v 4 5

/-- The 16 doublewords of a task-state frame (05 R151). -/
def Tile.frame (T : Tile) (e : Exc) (cause cause2 : Byte) (efaddr : W64) : Vector W64 16 :=
  #v[zext 64 T.pc, T.psw, ecauseWord e cause cause2, efaddr, T.xstate,
     if T.pkind = .none then 0 else T.pendVal, T.pswNext.getD 0, zext 64 T.rc,
     BitVec.ofNat 64 (T.rsp.toNat * 65536 + T.preds.toNat), T.lsuR, T.ld1.getD 0, T.ld2.getD 0, T.ld3.getD 0,
     T.tsbp, e.idet, T.cuR]

/-- A frame as bytes. -/
def frameBytes (f : Vector W64 16) : List Byte := f.toList.flatMap fun w => leBytes 8 w.toNat

/-- A frame from bytes. -/
def frameOf (bs : List Byte) : Vector W64 16 := Vector.ofFn fun i => leBv 64 (slice bs (8 * i.val) 8)

/-- The 128-byte access of a frame at an offset fails its checks (05 R150): its alignment, the segment sg[TSG], or a bank. -/
def State.frameFails (s : State) (st : Stn) (t : TileNo) (T : Tile) (a : W64) (writes : Bool) : Bool :=
  bits a 0 3 != 0 ||
  (s.segCheck st T (pswTsg T.psw) .data (!writes) writes false (multOf 8) [((a.toNat : Int), 128)]).isSome ||
  (s.dataState st t a.toNat 128 == .off)

/-- The tile as its handler finds it: nothing of the interrupted program's transfer, repeat, window or loads left (05 R147, R150,
R161; 02 R57), at the level and offset given. -/
def Tile.handler (T : Tile) (f : Vector W64 16) (lvl : Nat) (pc : W16) : Tile :=
  { T with
    epc := bits f[0] 0 16, ecause := f[2], efaddr := f[3]
    psw := put (put T.psw 0 2 lvl) 5 1 0, pswNext := none
    ld1 := none, ld2 := none, ld3 := none, lsuR := 0
    slot := 0, pkind := .none, pendVal := 0, eretAttic := false, rip := false, repu := false
    window := none, waiting := false, pc := pc, prevLine := none }

/-- The tile stops for a fault (05 R164): its state is kept, and the station raises tile-lost. -/
def State.tileStopped (s : State) (st : Stn) (t : TileNo) (cause : Byte) (at_ : W16) : State :=
  ((s.modTile st t fun T => { T with
      run := .tileStopped, lastCause := cause, window := none, waiting := false
      stopReq := false, testReq := false, qu := { T.qu with atomicFail := none } }).setReg
    (tileReg st t 0x18) (zext 32 at_)).notify (.tileLost st t)

/-- Entry through Attic set k with a frame image (05 R161, R162, R164). -/
def State.atticEntry (s : State) (st : Stn) (t : TileNo) (k : Fin 3) (f : Vector W64 16) (lvl : Nat) (vecOff : Nat)
    (cause : Byte) : State :=
  let T := s.tile st t
  if T.attic[k].inUse then s.tileStopped st t cause T.pc
  else
    s.setTile st t { T.handler f lvl (zext 16 (s.reg (tileReg st t vecOff))) with
      attic := T.attic.set k ⟨true, f⟩, atticCur := k }

/-- Take an exception other than a test request (05 R150, R161, R164). -/
def State.enter (s : State) (st : Stn) (t : TileNo) (e : Exc) : State :=
  let T := s.tile st t
  if 2 ≤ pswLvl T.psw then s.tileStopped st t e.cause T.pc
  else if !pswTv T.psw then s.atticEntry st t 0 (T.frame e e.cause 0 e.efaddr) 2 0x0C e.cause
  else if T.tsbp.toNat < 128 || s.frameFails st t T (T.tsbp - 128) true then
    s.atticEntry st t 2 (T.frame e 0x0C e.cause T.tsbp) 2 0x0C 0x0C
  else
    let f := T.frame e e.cause 0 e.efaddr
    (s.writeData st t (T.tsbp.toNat - 128) (frameBytes f)).setTile st t
      { T.handler f 1 T.evec with tsbp := T.tsbp - 128 }

/-- Take a test request (05 R162). -/
def State.enterTest (s : State) (st : Stn) (t : TileNo) : State :=
  let T := s.tile st t
  (s.atticEntry st t 1 (T.frame ⟨0, 0, 0, false, false, 0, 0⟩ 0 0 0) 3 0x10 0).modTile st t fun T => { T with testReq := false }

/-- The state a frame or an Attic image restores (05 R155, R156). PKIND outside a delay slot stands for a `sys` that is due
(log entry 7). -/
def Tile.restore (T : Tile) (f : Vector W64 16) : Tile :=
  let lim := fun (v : W64) => let p := pswOf T.psw v; if 2 ≤ pswLvl p then put p 0 2 1 else p
  let x := f[4]
  let slot : Fin 3 := if nat x 0 2 = 3 then 0 else Fin.ofNat 3 (nat x 0 2)
  let pk := pkindOf (nat x 2 3)
  { T with
    pc := bits f[0] 0 16, psw := lim f[1]
    pswNext := if bit x 5 then some (lim f[6]) else none
    slot := slot, pkind := if slot = 0 ∧ pk ≠ .sys then .none else pk
    pendVal := if pk = .eret then f[5] else zext 64 (bits f[5] 0 16)
    eretAttic := false, prevLine := none
    rip := bit x 6, repu := bit x 7, rc := bits f[7] 0 16
    preds := bits f[8] 0 16 ||| 1
    rspCnt := rspCntOf (f[8] >>> 16), rspPtr := bits f[8] 16 4
    lsuR := f[9]
    ld1 := if bit x 8 then some f[10] else none
    ld2 := if bit x 9 then some f[11] else none
    ld3 := if bit x 10 then some f[12] else none
    cuR := f[15] }

/-- The return of an `eret` once its slot 2 has completed (05 R155 step 3, R163): from the Attic set in use if it was triggered
at recovery or test level, else from the frame at the latched tsbp, as an edited frame may have it (log entry 100). `at_` is the offset of slot 2. -/
def State.eretReturn (s : State) (st : Stn) (t : TileNo) (at_ : W16) : State :=
  let T := s.tile st t
  if T.eretAttic then
    s.setTile st t
      { T.restore T.attic[T.atticCur].words with attic := T.attic.set T.atticCur { T.attic[T.atticCur] with inUse := false } }
  else
    match s.dataState st t T.pendVal.toNat 128 with
    | .ok =>
      (s.countCe st t T.pendVal.toNat 128).setTile st t
        { T.restore (frameOf (s.readData st t T.pendVal.toNat 128)) with tsbp := T.pendVal + 128 }
    | .off => s.tileStopped st t 0x07 at_
    | .bad => (s.recordUe st t T.pendVal.toNat 128).tileStopped st t 0x07 at_

/-! ### Tile start (05 R165, R166; 06 R172, R176; 08 R247) -/

/-- The tile's world bit in STN_TWORLD (06 R171). -/
def State.worldBit (s : State) (st : Stn) (t : TileNo) : Bool :=
  s.rbit (stnReg st (if t.val < 32 then 0x140 else 0x144)) (t.val % 32)

/-- The state of a tile at its start. Registers and return-stack entries the manual leaves undefined take free values. -/
def State.freshTile (s : State) (st : Stn) (t : TileNo) : Tile :=
  let T := s.tile st t
  let w := s.worldBit st t
  let wld : W64 := if w then 0x1000000000000000 else 0
  { q := Vector.ofFn fun i => Config.freeWord (s.freeCount + i.val)
    rs := Vector.ofFn fun i => bits (Config.freeWord (s.freeCount + 64 + i.val)) 0 16
    attic := Vector.ofFn fun k =>
      { inUse := false, words := Vector.ofFn fun i => Config.freeWord (s.freeCount + 80 + 16 * k.val + i.val) }
    psw := if w then 0x1C11 else 0x1C01
    sgA := #v[0x8580000000000000 ||| wld, 0, 0, 0, 0, 0, 0x8600000000020000 ||| wld, 0]
    sgB := #v[0x1FFFF, 0, 0, 0, 0, 0, 0x2FFFF, 0]
    pc := bits (s.reg (tileReg st t 0x08)) 0 16
    run := .running
    lastCause := T.lastCause
    qu := { credits := T.qu.credits, outbox := T.qu.outbox, next := T.qu.next }
    nu := T.nu
    runs := T.runs + 1 }

end Sys2Proof.Machine
end

