-- ==== Sys2Proof/Machine/Control.lean ====
section
/-! DEFINITION. The control unit: transfers, the return stack, control registers, shield and idle (05 R130 to R147; 06 R177,
R185 to R188). -/

namespace Sys2Proof.Machine

/-! ### Control registers (05 R131 to R134) -/

/-- feat3: where the tile is (06 R188). -/
def feat3 (g : Grade) (st : Stn) (t : TileNo) : W64 :=
  BitVec.ofNat 64 (g.code * 2 ^ 22 + st.val * 2 ^ 12 + t.val)

/-- A number names a control register (05 R131). -/
def crAssigned (n : Nat) : Bool :=
  decide (n ≤ 0xA) || (decide (0x10 ≤ n) && decide (n ≤ 0x13)) || (decide (0x20 ≤ n) && decide (n ≤ 0x2F)) ||
  (decide (0x40 ≤ n) && decide (n ≤ 0x4F)) || (decide (0x80 ≤ n) && decide (n ≤ 0x8F))

/-- rdcr is permitted at a level (05 R131). -/
def crReadable (n lvl : Nat) : Bool :=
  if 0x80 ≤ n then decide (2 ≤ lvl)
  else if (1 ≤ n ∧ n ≤ 7) ∨ (0x40 ≤ n) then decide (1 ≤ lvl)
  else true

/-- wrcr is permitted at a level (05 R131). -/
def crWritable (n lvl : Nat) : Bool :=
  if 0x80 ≤ n then decide (2 ≤ lvl)
  else if n = 8 then false
  else if n = 9 ∨ n = 0xA ∨ (0x10 ≤ n ∧ n ≤ 0x13) then true
  else decide (1 ≤ lvl)

/-- The value of a control register (05 R131). -/
def crRead (s : State) (st : Stn) (t : TileNo) (T : Tile) (n : Nat) : W64 :=
  if n = 0 then T.psw
  else if n = 1 then zext 64 T.epc
  else if n = 2 then T.ecause
  else if n = 3 then T.efaddr
  else if n = 4 then T.tsbp
  else if n = 5 then zext 64 T.evec
  else if n = 6 then T.rsp
  else if n = 7 then zext 64 T.ipend
  else if n = 8 then zext 64 (bits (s.reg (tileReg st t 0x14)) 0 13)
  else if n = 9 then zext 64 T.rc
  else if n = 0xA then T.fxm
  else if n = 0x10 then 0x4160B002000000FF
  else if n = 0x13 then feat3 s.grade st t
  else if n < 0x20 then 0
  else if n < 0x30 then (if n % 2 = 0 then T.sgA[n / 2 % 8]'(Nat.mod_lt _ (by decide)) else T.sgB[n / 2 % 8]'(Nat.mod_lt _ (by decide)))
  else if n < 0x50 then zext 64 (T.rs[n % 16]'(Nat.mod_lt _ (by decide)))
  else T.attic[T.atticCur].words[n % 16]'(Nat.mod_lt _ (by decide))

/-- Reserved bits of a control register; a 1 written there has no defined effect (00 R9). Descriptors drop theirs (06 R177). -/
def crReserved (n : Nat) : W64 :=
  if n = 0 then ~~~(pswMask ||| 0x10)
  else if n = 1 ∨ n = 5 ∨ n = 7 ∨ n = 9 then 0xFFFFFFFFFFFF0000
  else if n = 2 then 0xFFFFFFFFF8000000
  else if n = 6 then 0xFFFFFFFFFFFFFE00
  else if n = 0xA then 0xFFFFFFFFFFFEE080
  else 0

/-- Write a control register. `ovs` tells that OVS is set in the same cycle (04 R110). -/
def crWrite (T : Tile) (psw0 : W64) (ovs : Bool) (n : Nat) (v : W64) : Tile :=
  if n = 0 then { T with pswNext := some (pswOf psw0 v) }
  else if n = 1 then { T with epc := bits v 0 16 }
  else if n = 2 then { T with ecause := v &&& 0x7FFFFFF }
  else if n = 3 then { T with efaddr := v }
  else if n = 4 then { T with tsbp := v }
  else if n = 5 then { T with evec := bits v 0 16 }
  else if n = 6 then { T with rspCnt := rspCntOf v, rspPtr := bits v 0 4 }
  else if n = 7 then { T with ipend := T.ipend &&& ~~~(bits v 0 16) }
  else if n = 9 then { T with rc := bits v 0 16 }
  else if n = 0xA then
    { T with fxm := (v &&& 0x1F7F) ||| (if bit T.fxm 16 && (ovs || !bit v 16) then 0x10000 else 0) }
  else if n < 0x20 then T
  else if n < 0x30 then
    (if n % 2 = 0 then { T with sgA := T.sgA.set (n / 2 % 8) (v &&& 0xFF8000FFFFFFFFFF) (Nat.mod_lt _ (by decide)) }
     else { T with sgB := T.sgB.set (n / 2 % 8) (v &&& 0xFFFFFFFFFF) (Nat.mod_lt _ (by decide)) })
  else if n < 0x50 then { T with rs := T.rs.set (n % 16) (bits v 0 16) (Nat.mod_lt _ (by decide)) }
  else
    let A := T.attic[T.atticCur]
    { T with attic := T.attic.set T.atticCur { A with words := A.words.set (n % 16) v (Nat.mod_lt _ (by decide)) } }

/-- rdcr (05 R130, R131). -/
def fireRdcr (c : Ctx) (b : W64) (s : State) : TOut :=
  let n := nat b 0 12
  if !crAssigned n then .fault c.s0 0x02 (BitVec.ofNat 64 n)
  else if !crReadable n (pswLvl c.T0.psw) then .fault c.s0 0x0D c.dst
  else .done (s.modTile c.st c.t fun T => { T with cuR := crRead c.s0 c.st c.t c.T0 n })

/-- wrcr (05 R130, R131, R133, R139): psw takes the value at the second instruction after. -/
def fireWrcr (c : Ctx) (b : W64) (s : State) : TOut :=
  let n := nat b 0 12
  let v := (s.tile c.st c.t).opnd[7]
  if !crAssigned n then .fault c.s0 0x02 (BitVec.ofNat 64 n)
  else if !crWritable n (pswLvl c.T0.psw) then .fault c.s0 0x0D c.dst
  else if n = 0 ∧ 2 ≤ pswLvl v then .fault c.s0 0x0D c.dst
  else
    .done ({ s with undef := s.undef || v &&& crReserved n != 0 }.modTile c.st c.t fun T =>
      { crWrite T c.T0.psw (c.ovs || (bit T.fxm 16 && !bit c.T0.fxm 16)) n v with cuR := crRead c.s0 c.st c.t c.T0 n })

/-! ### Transfers (05 R135 to R138) -/

/-- Latch a transfer; illegal in a delay slot (05 R136, R137). -/
def fireTransfer (c : Ctx) (k : PKind) (pend result : W64) (s : State) : TOut :=
  if c.T0.slot ≠ 0 then .fault c.s0 0x01 c.dst
  else .done (s.modTile c.st c.t fun T => { T with pkind := k, pendVal := pend, cuR := result })

/-- jmp (05 R130). -/
def fireJmp (c : Ctx) (b : W64) (s : State) : TOut :=
  fireTransfer c .jmp (zext 64 (bits b 0 16)) (zext 64 (bits b 0 16)) s

/-- call (05 R130, R138): at a full stack with RSOV = 1 it raises cause 0x0A. -/
def fireCall (c : Ctx) (b : W64) (s : State) : TOut :=
  if c.T0.slot ≠ 0 then .fault c.s0 0x01 c.dst
  else if c.T0.rspCnt = 16 ∧ pswRsov c.T0.psw then .fault c.s0 0x0A 0
  else fireTransfer c .call (zext 64 (bits b 0 16)) (zext 64 (bits b 0 16)) s

/-- ret (05 R130, R138): pops at the trigger. -/
def fireRet (c : Ctx) (s : State) : TOut :=
  if c.T0.slot ≠ 0 then .fault c.s0 0x01 c.dst
  else if c.T0.rspCnt = 0 ∧ pswRsov c.T0.psw then .fault c.s0 0x0A 1
  else
    let p := c.T0.rspPtr - 1
    let a : W64 := zext 64 c.T0.rs[p.toNat]
    fireTransfer c .ret a a (s.modTile c.st c.t fun T =>
      { T with rspPtr := p, rspCnt := if T.rspCnt = 0 then 0 else T.rspCnt - 1 })

/-- sys (05 R130, R136). -/
def fireSys (c : Ctx) (b : W64) (s : State) : TOut := fireTransfer c .sys (zext 64 (bits b 0 16)) 0 s

/-- eret (05 R155 step 1, R163): at recovery and test level the frame is not checked. -/
def fireEret (c : Ctx) (s : State) : TOut :=
  let T := c.T0
  if T.slot ≠ 0 then .fault c.s0 0x01 c.dst
  else if pswLvl T.psw = 0 then .fault c.s0 0x0D c.dst
  else if pswLvl T.psw = 1 ∧ (!pswTv T.psw ∨ c.s0.frameFails c.st c.t T T.tsbp false) then .fault c.s0 0x0C T.tsbp
  else .done (s.modTile c.st c.t fun U =>
    { U with pkind := .eret, pendVal := T.tsbp, eretAttic := decide (2 ≤ pswLvl T.psw), cuR := 0 })

/-- A call's return address is pushed when the transfer takes effect (05 R138). -/
def Tile.pushReturn (T : Tile) (ra : W16) : Tile :=
  { T with rs := T.rs.set T.rspPtr.toNat ra, rspPtr := T.rspPtr + 1,
           rspCnt := if 16 ≤ T.rspCnt.toNat then 16 else T.rspCnt + 1 }

/-! ### Deferral window and idle (05 R146, R147) -/

/-- Open a window of n cycles under the cap. -/
def Window.start (cap n : Nat) (byRepu : Bool) : Option Window :=
  if min cap n = 0 then none else some ⟨cap, min cap n, byRepu⟩

/-- n cycles of the window go by; it closes at its end. -/
def windowTick (w : Option Window) (n : Nat) : Option Window :=
  match w with
  | none => none
  | some w => if w.left ≤ n then none else some { w with capLeft := w.capLeft - n, left := w.left - n }

/-- The deferral cap (05 R134, R168). -/
def State.shcap (s : State) (st : Stn) (t : TileNo) : Nat := s.fld (tileReg st t 0x14) 0 13

/-- shield (05 R130, R147). -/
def fireShield (c : Ctx) (b : W64) (s : State) : TOut :=
  .done (s.modTile c.st c.t fun T =>
    let n := nat b 0 32
    let w := if n = 0 then none
      else match T.window with
      | none => Window.start (c.s0.shcap c.st c.t) n false
      | some w => Window.start w.capLeft n w.byRepu
    { T with window := w, cuR := BitVec.ofNat 64 (match w with | none => 0 | some w => w.left) })

/-- The interrupt lines an `idle` waits for. -/
def Tile.idleLines (T : Tile) : W16 := T.ipend &&& pswImask T.psw

/-- idle (05 R130, R146): waits until a line of IMASK is pending. -/
def fireIdle (c : Ctx) (s : State) : TOut :=
  if c.T0.idleLines = 0 then .stall false
  else .done (s.modTile c.st c.t fun T => { T with cuR := zext 64 c.T0.idleLines, waiting := false })

end Sys2Proof.Machine
end

