-- ==== Sys2Proof/Machine/NetUnit.lean ====
section
/-! DEFINITION. The network unit of a tile: channels, mailbox and status (07 R200 to R207, R216, R218). -/

namespace Sys2Proof.Machine

def aTX (s : Stn) (t : TileNo) (c : Fin 8) : Nat := stnReg s (0x1000 + 0x40 * t.val + 4 * c.val)
def aRX (s : Stn) (t : TileNo) (c : Fin 8) : Nat := stnReg s (0x1020 + 0x40 * t.val + 4 * c.val)

/-- A binding is enabled: EN set, NODE a tile (07 R218). -/
def bindingOn (v : W32) : Bool := bit v 31 && decide (nat v 8 6 < 40)

/-- The status word of `nu.r`; CRED counts every credit that has arrived (07 R206, log entry 101). -/
def nuStatus (u : Nu) (chan : Option (Fin 8)) : W64 :=
  let base := u.movf.toNat * 2 ^ 24 + u.mbox.length * 2 ^ 16 + (4 - u.mboxSend.length) * 2 ^ 12
  match chan with
  | none => BitVec.ofNat 64 base
  | some c => BitVec.ofNat 64 (base + u.credits[c].length * 2 ^ 8 + (4 - u.send[c].length))

/-- A further nu trigger must wait for a take (07 R206). -/
def Nu.taking (u : Nu) : Bool := u.shown == .takePending

/-- send (07 R201, R202): the word may be injected from two network cycles later on. -/
def fireSend (c : Ctx) (ch : Fin 8) (b : W64) (s : State) : TOut :=
  if !bindingOn (c.s0.reg (aTX c.st c.t ch)) then .fault c.s0 0x07 (BitVec.ofNat 64 ch.val)
  else if c.T0.nu.taking ∨ 4 ≤ c.T0.nu.send[ch].length then .stall false
  else
    .done (s.modTile c.st c.t fun T => { T with nu := { T.nu with
      send := T.nu.send.set ch (T.nu.send[ch] ++ [((s.stn c.st).cycle + 2, b)]), shown := .status (some ch) } })

/-- Take the head of the mailbox FIFO (07 R206): a take that pops a word clears MOVF. -/
def Nu.take (u : Nu) (nowait : Bool) : Nu :=
  match u.mbox with
  | w :: rest => { u with mbox := rest, movf := false, shown := .value w }
  | [] => { u with shown := if nowait then .value (BitVec.allOnes 64) else .takePending }

/-- mdst (07 R206): sets the mailbox destination, or takes. -/
def fireMdst (c : Ctx) (b : W64) (s : State) : TOut :=
  if bit b 63 then
    (if c.T0.nu.taking then .stall false
     else .done (s.modTile c.st c.t fun T => { T with nu := T.nu.take (bit b 62) }))
  else if 40 ≤ nat b 0 6 ∧ nat b 0 6 ≠ 48 then .fault c.s0 0x07 b
  else if c.T0.nu.taking then .stall false
  else .done (s.modTile c.st c.t fun T => { T with nu := { T.nu with mdst := bits b 0 6, shown := .status none } })

/-- mbox (07 R206): waits while the mailbox send buffer is full. -/
def fireMbox (c : Ctx) (b : W64) (s : State) : TOut :=
  if c.T0.nu.taking ∨ 4 ≤ c.T0.nu.mboxSend.length then .stall false
  else .done (s.modTile c.st c.t fun T => { T with nu := { T.nu with
    mboxSend := T.nu.mboxSend ++ [(T.nu.mdst, bits b 0 48)], shown := .status none } })

/-- How a read of a source ends: its value and the state it leaves, waiting, or an exception. -/
inductive ROut where
  | val (v : W64) (s : State)
  | stall (queueWait : Bool)
  | fault (s : State) (cause : Byte) (efaddr : W64)
  deriving DecidableEq, Repr

/-- A read of `nu.rc` (07 R201, R203, R204): it takes a word delivered at least two network cycles ago and frees a credit. -/
def readRecv (s0 : State) (st : Stn) (t : TileNo) (ch : Fin 8) (s : State) : ROut :=
  if !bindingOn (s0.reg (aRX st t ch)) then .fault s0 0x07 (BitVec.ofNat 64 ch.val)
  else match (s.tile st t).nu.recv[ch] with
  | [] => .stall false
  | (r, w) :: rest =>
    if (s.stn st).cycle < r + 2 then .stall false
    else .val w (s.modTile st t fun T => { T with nu := { T.nu with
      recv := T.nu.recv.set ch rest, freed := T.nu.freed.set ch (T.nu.freed[ch] ++ [(s.stn st).cycle]) } })

/-- A mailbox word reaches a tile (07 R207): it enters the FIFO and sets its interrupt line, or is discarded and sets
MOVF; the caller sets MBXDROP. Answers whether it was taken. -/
def Tile.mailIn (T : Tile) (w : W64) (band : Bool) : Tile × Bool :=
  if 16 ≤ T.nu.mbox.length then ({ T with nu := { T.nu with movf := true } }, false)
  else ({ T with
    ipend := putBit T.ipend (if band then 1 else 0) true
    nu := { T.nu with mbox := T.nu.mbox ++ [w] } }, true)

/-- The mailbox word of a source, kind and payload (07 R207). -/
def mailWord (src : Nat) (band : Bool) (payload : BitVec 48) : W64 :=
  BitVec.ofNat 64 (src * 2 ^ 58 + band.toNat * 2 ^ 56 + payload.toNat)

/-- What tile start leaves of the network unit (07 R206, R207, R216): buffers and FIFO empty, every emptied receive entry
returned as a credit. -/
def Nu.restart (u : Nu) (cycle : Nat) : Nu :=
  { send := .replicate 8 [], recv := .replicate 8 [], credits := u.credits,
    freed := Vector.ofFn fun c => u.freed[c] ++ u.recv[c].map fun _ => cycle
    mbox := [], mboxSend := [], mdst := 48, movf := u.movf, shown := .zero }

end Sys2Proof.Machine
end

