-- ==== Sys2Proof/Machine/Lsu.lean ====
section
/-! DEFINITION. Loads and stores of the lsu (02 R55, R56, R67; 04 R104; 06 R179, R183; 08 R244). -/

namespace Sys2Proof.Machine

/-- The lsu operations, in socket order (03 R87). -/
inductive LsuOp where
  | ld8 | ld8s | ld16 | ld16s | ld32 | ld32s | ld64 | st8 | st16 | st32 | st64
  deriving DecidableEq, Repr

/-- Access size in bytes. -/
def lsuSize : LsuOp → Nat
  | .ld8 => 1 | .ld8s => 1 | .ld16 => 2 | .ld16s => 2 | .ld32 => 4 | .ld32s => 4 | .ld64 => 8
  | .st8 => 1 | .st16 => 2 | .st32 => 4 | .st64 => 8

def lsuStores : LsuOp → Bool
  | .st8 => true | .st16 => true | .st32 => true | .st64 => true
  | _ => false

def lsuSigned : LsuOp → Bool
  | .ld8s => true | .ld16s => true | .ld32s => true
  | _ => false

/-- The value `lsu.r` will show for the bytes loaded (04 R104). -/
def lsuExtend (op : LsuOp) (bs : List Byte) : W64 :=
  let v := leBv 64 bs
  if lsuSigned op then sext 64 (bits v 0 (8 * lsuSize op)) else v

/-! ### Where a walk goes (04 R119 to R125) -/

def walkLen (w : Walk) : Nat := nat w.path 32 16
def walkSlope (w : Walk) : Int := (bits w.path 0 32).toInt

/-- Pixel of sample k (04 R122). -/
def walkPixel (w : Walk) (k : Nat) : Int × Int :=
  let yMajor := bit w.path 48
  let major0 : Int := ((if yMajor then w.y else w.x).toNat : Int) / 65536
  let minor0 : Int := ((if yMajor then w.x else w.y).toNat : Int)
  let major := if bit w.path 49 then major0 - k else major0 + k
  let minor := (minor0 + k * walkSlope w + 0x8000) / 65536
  if yMajor then (minor, major) else (major, minor)

/-- The pixel lies in the image (04 R122). -/
def walkInside (u : Scu) (p : Int × Int) : Bool :=
  decide (0 ≤ p.1) && decide (p.1 < (nat u.wimg 20 12 : Int)) && decide (0 ≤ p.2) && decide (p.2 < (nat u.wimg 32 12 : Int))

/-- Data-memory offset of a pixel (04 R119). -/
def walkOffset (u : Scu) (p : Int × Int) : Nat := nat u.wimg 0 17 + p.2.toNat * nat u.wimg 48 12 + p.1.toNat

/-- n bytes at off touch a 32-byte block that len bytes at lo touch. -/
def blocksMeet (lo len off n : Nat) : Bool := decide (lo / 32 * 32 < off + n) && decide (off < (lo + len + 31) / 32 * 32)

/-- n bytes at off touch a block that the walk has still to read (04 R118). -/
def walkToRead (u : Scu) (w : Walk) (off n : Nat) : Bool :=
  (((List.range (walkLen w - w.prof.length)).map fun i => walkPixel w (w.prof.length + i)).takeWhile (walkInside u)).any fun p =>
    blocksMeet (walkOffset u p) 1 off n

/-- n bytes at off touch a block of the entries that the walk may still write: no more than its list holds, nor than it has
positions left (04 R118, R124). -/
def walkToWrite (u : Scu) (w : Walk) (off n : Nat) : Bool :=
  let last := min (nat u.wout 20 12) (w.edges + (walkLen w + 1 - w.prof.length))
  decide (w.edges < last) && blocksMeet (nat u.wout 0 17 + 8 * w.edges) (8 * (last - w.edges)) off n

/-- A load or store waits for the walk's accesses to the blocks it touches (04 R118). -/
def Scu.walkHolds (u : Scu) (off n : Nat) : Bool :=
  match u.walk with
  | none => false
  | some w => walkToRead u w off n || walkToWrite u w off n

/-- A block of a transfer numbered `ord` waits for an earlier walk's accesses: those to the block at all for an inbound one, those
still to write it for an outbound one (04 R118, 08 R244). -/
def Scu.walkHoldsBlock (u : Scu) (ord off : Nat) (out : Bool) : Bool :=
  match u.walk with
  | none => false
  | some w => decide (w.ord ≤ ord) && (walkToWrite u w off 64 || (!out && walkToRead u w off 64))

/-- A load or store (04 R104): checks 1 to 6, the waits of 04 R118 and 08 R244, then check 7 and the access.
A load reads memory as every earlier instruction left it (02 R56). -/
def fireLsu (c : Ctx) (op : LsuOp) (b : W64) (s : State) : TOut :=
  let n := lsuSize op
  let wr := lsuStores op
  match c.s0.segCheck c.st c.T0 (c.seg.getD 0) .data (!wr) wr false alignOk [((b.toNat : Int), n)] with
  | some (cause, e) => .fault c.s0 cause e
  | none =>
    let off := b.toNat
    if c.T0.scu.walkHolds off n || c.T0.xferHolds off n wr then .stall false
    else match c.s0.dataState c.st c.t off n with
    | .off => .fault c.s0 0x07 b
    | .bad =>
      if wr && n == 8 then
        .done (s.writeData c.st c.t off (leBytes 8 (s.tile c.st c.t).opnd[6].toNat))
      else .fault (c.s0.recordUe c.st c.t off n) 0x07 b
    | .ok =>
      if wr then .done (s.writeData c.st c.t off (leBytes n (s.tile c.st c.t).opnd[6].toNat))
      else
        .done ((s.countCe c.st c.t off n).modTile c.st c.t fun T =>
          { T with ld1 := some (lsuExtend op (c.s0.readData c.st c.t off n)) })

end Sys2Proof.Machine
end

