-- ==== Sys2Proof/Machine/QuUnit.lean ====
section
/-! DEFINITION. The queue unit: streams, heads and tails, waits and status, block transfers and atomics (08 R233 to R247). -/

namespace Sys2Proof.Machine

/-! ### Streams -/

/-- Address of the i-th element left of a stream (08 R234). -/
def Stream.at (x : Stream) (i : Nat) : Addr := x.addr + sext 40 x.stride * BitVec.ofNat 40 i

/-- A stream after n of its elements are gone. -/
def Stream.advance (x : Stream) (n : Nat) : Stream := { x with addr := x.at n, left := x.left - n }

/-- Bytes of an element (08 R234 SIZE). -/
def elemBytes (size : Fin 4) : Nat := 2 ^ size.val

/-- The elements a stream trigger names, as accesses (08 R234). -/
def streamAccs (b : W64) : List (Int × Nat) :=
  let count := if nat b 43 8 = 0 then 256 else nat b 43 8
  (List.range count).map fun (i : Nat) => ((nat b 0 40 : Int) + i * (bits b 52 12).toInt, 2 ^ nat b 40 2)

/-- The stream a trigger opens. -/
def streamOf (b : W64) (space : Nat) (ord : Nat) : Stream :=
  { addr := bits b 0 40, stride := bits b 52 12, left := if nat b 43 8 = 0 then 256 else nat b 43 8,
    size := ⟨nat b 40 2, (b.extractLsb' 40 2).isLt⟩, sx := bit b 42, space := BitVec.ofNat 2 space, ord := ord }

/-- Some element left of a stream touches a row. -/
def Stream.touches (x : Stream) (row : Nat) : Bool :=
  (List.range x.left).any fun i => (x.at i).toNat / 64 == row

/-- A load element, block read or atomic opened as number ord must be held: a store element, block write or atomic of the tile,
opened earlier and unsent, touches the same row of the same space (08 R238). -/
def Qu.holds (u : Qu) (space : BitVec 2) (row ord : Nat) : Bool :=
  (u.sq.toList.any fun q =>
    (q.ready.any fun e => decide (e.ord < ord) && e.space == space && e.addr.toNat / 64 == row) ||
    (q.streams.any fun x => decide (x.ord < ord) && x.space == space && x.touches row) ||
    (match q.block with
     | none => false
     | some x => x.bad.isNone && decide (x.ord < ord) && x.space == space &&
        decide (x.oaddr.toNat / 64 + x.issued ≤ row) && decide (row < x.oaddr.toNat / 64 + x.nblk))) ||
  u.atomics.any fun a => decide (a.1 < ord) && space == 1 && a.2.2.2.toNat / 64 == row

/-- The node a request goes to, as an index from node 40: 0 to 7 memory nodes, 8 the gateway (08 R246). -/
def nodeOf (space : BitVec 2) (a : Addr) : Fin 9 :=
  if space = 1 then Fin.ofNat 9 (nat a 21 3) else 8

/-- Words of a request (08 R246). -/
def reqWords : QOp → Nat
  | .load .. => 1 | .blockRead .. => 1 | .store .. => 2 | .atomic .. => 2 | .blockWrite .. => 9

/-- Send a request: its words are taken from the credits of its node and wait to enter the network (07 R209; 08 R246). -/
def Tile.sendReq (T : Tile) (t : TileNo) (node : Fin 9) (op : QOp) (a : Addr) : Tile :=
  { T with qu := { T.qu with
      credits := T.qu.credits.set node (T.qu.credits[node] - reqWords op)
      outbox := T.qu.outbox ++
        queueWordsOf .request (BitVec.ofNat 6 t.val) (BitVec.ofNat 6 (40 + node.val)) (reqWords op) (.req ⟨t, T.runs, op, a⟩) } }

/-- Send unsent atomics, oldest first, as long as nothing holds the next and its node has credits (08 R238, R245, R246). -/
def Tile.pumpAtomicsN (t : TileNo) : Nat → Tile → Tile
  | 0, T => T
  | fuel + 1, T =>
    match T.qu.atomics with
    | [] => T
    | (id, swap, v, a) :: rest =>
      let node := nodeOf 1 a
      if T.run = .running ∧ 2 ≤ T.qu.credits[node] ∧ !T.qu.holds 1 (a.toNat / 64) id then
        Tile.pumpAtomicsN t fuel ({ T with qu := { T.qu with atomics := rest } }.sendReq t node (.atomic id swap v) a)
      else T

def Tile.pumpAtomic (T : Tile) (t : TileNo) : Tile := Tile.pumpAtomicsN t T.qu.atomics.length T

/-! ### Triggers -/

/-- lreq (08 R234): waits while the queue has four open streams or a transfer uses it. -/
def fireLreq (c : Ctx) (k : Fin 4) (b : W64) (s : State) : TOut :=
  let sg := c.seg.getD 1
  match c.s0.segCheck c.st c.T0 sg .qu true false false alignOk (streamAccs b) with
  | some (cause, e) => .fault c.s0 cause e
  | none =>
    let q := c.T0.qu.lq[k]
    if 4 ≤ q.streams.length ∨ q.block.isSome then .stall true else
    .done (s.modTile c.st c.t fun T =>
      let q := T.qu.lq[k]
      { T with qu := { T.qu with
          lq := T.qu.lq.set k { q with streams := q.streams ++ [streamOf b (segSpace c.T0.sgA[sg]) T.qu.next] }
          next := T.qu.next + 1, shown := .status k false } })

/-- Pair store entries with element addresses, as long as there are both (08 R237). -/
def StoreQueue.pair : Nat → StoreQueue → StoreQueue
  | 0, q => q
  | fuel + 1, q =>
    match q.data, q.streams with
    | v :: data, x :: streams =>
      let e : ReadyElem := ⟨x.ord, x.space, x.at 0, x.size, v⟩
      StoreQueue.pair fuel { q with
        data := data, ready := q.ready ++ [e], streams := if x.left ≤ 1 then streams else x.advance 1 :: streams }
    | _, _ => q

/-- Store entries not yet performed, those of elements (08 R237, log entry 102). -/
def StoreQueue.count (q : StoreQueue) : Nat := q.data.length + q.ready.length + q.sent

/-- sadr (08 R234). -/
def fireSadr (c : Ctx) (k : Fin 4) (b : W64) (s : State) : TOut :=
  let sg := c.seg.getD 1
  match c.s0.segCheck c.st c.T0 sg .qu false true false alignOk (streamAccs b) with
  | some (cause, e) => .fault c.s0 cause e
  | none =>
    let q := c.T0.qu.sq[k]
    if 4 ≤ q.streams.length ∨ q.block.isSome then .stall true else
    .done (s.modTile c.st c.t fun T =>
      let q := T.qu.sq[k]
      let q := StoreQueue.pair 16 { q with streams := q.streams ++ [streamOf b (segSpace c.T0.sgA[sg]) T.qu.next] }
      { T with qu := { T.qu with sq := T.qu.sq.set k q, next := T.qu.next + 1, shown := .status k true } })

/-- Arrived entries of a load queue: those at hand, failed ones among them (08 R240 LCNT). -/
def LoadQueue.arrived (q : LoadQueue) : Nat :=
  q.entries.countP fun e => match e with | .reserved .. => false | _ => true

/-- Reserved entries not yet arrived, those of elements (08 R240 LOUT, log entry 102). -/
def LoadQueue.out (q : LoadQueue) : Nat := q.entries.length - q.arrived

def LoadQueue.headReserved (q : LoadQueue) : Bool :=
  match q.entries with | .reserved .. :: _ => true | _ => false

/-- The condition of a wait holds (08 R239), for the load queue as the instruction's own reads leave it and the store queue as the
instruction finds it (log entry 27). -/
def waitOver (u : Qu) (lq : LoadQueue) (k : Fin 4) (b : W64) : Bool :=
  let n := if nat b 4 5 = 0 then 1 else nat b 4 5
  match nat b 0 2 with
  | 0 => (decide (n ≤ lq.arrived) || (lq.out == 0 && lq.streams.isEmpty)) && !(bit b 14 && lq.headReserved)
  | 1 => u.sq[k].count == 0
  | 2 => if bit b 2 then u.sq[k].block.isNone else lq.block.isNone
  | _ => true

/-- wait (08 R239). A read of the same instruction that sets NE leaves it set beside CLR. -/
def fireWait (c : Ctx) (k : Fin 4) (b : W64) (s : State) : TOut :=
  if !waitOver c.T0.qu (s.tile c.st c.t).qu.lq[k] k b then .stall true
  else
    match (if nat b 0 2 = 1 then c.T0.qu.sq[k].failed else none) with
    | some a =>
      .fault (c.s0.modTile c.st c.t fun T =>
        { T with qu := { T.qu with sq := T.qu.sq.set k { T.qu.sq[k] with failed := none } } }) 0x07 (zext 64 a)
    | none =>
      .done (s.modTile c.st c.t fun T =>
        let lq := T.qu.lq[k]
        let lq := if nat b 0 2 = 0 ∧ bit b 14 then { lq with entries := lq.entries.tail } else lq
        { T with qu := { T.qu with
            lq := T.qu.lq.set k lq
            ne := if bit b 15 then c.ne else T.qu.ne
            wb := if bit b 15 then false else T.qu.wb
            shown := .status k (bit b 2) } })

/-- blk (08 R242), for the queue as the instruction finds it (log entry 27). -/
def fireBlk (c : Ctx) (b : W64) (s : State) : TOut :=
  let sg := c.seg.getD 1
  let k : Fin 4 := ⟨nat b 57 2, (b.extractLsb' 57 2).isLt⟩
  let out := bit b 56
  let nblk := if nat b 45 11 = 0 then 2048 else nat b 45 11
  let taddr := nat b 34 11 * 64
  let oaddr := nat b 0 34 * 64
  match c.s0.segCheck c.st c.T0 sg .qu (!out) out false anyAlign [((oaddr : Int), 64 * nblk)] with
  | some (cause, e) => .fault c.s0 cause e
  | none =>
    match c.s0.segCheck c.st c.T0 0 .data out (!out) false anyAlign [((taddr : Int), 64 * nblk)] with
    | some (cause, e) => .fault c.s0 cause e
    | none =>
      if (List.range 4).any fun i => !c.s0.tileBankOn c.st c.t i then .fault c.s0 0x07 (BitVec.ofNat 64 taddr)
      else
        let x : BlockXfer := {
          taddr := BitVec.ofNat 17 taddr, oaddr := BitVec.ofNat 40 oaddr, nblk := nblk,
          space := BitVec.ofNat 2 (segSpace c.T0.sgA[sg]), ord := c.T0.qu.next, issued := 0, inFlight := 0, dones := [],
          bad := none, back := [] }
        if out then
          (if c.T0.qu.sq[k].streams ≠ [] ∨ c.T0.qu.sq[k].count ≠ 0 ∨ c.T0.qu.sq[k].block.isSome then .stall true else
           .done (s.modTile c.st c.t fun T => { T with qu := { T.qu with
             sq := T.qu.sq.set k { T.qu.sq[k] with block := some x }, next := T.qu.next + 1, shown := .status k true } }))
        else
          (if c.T0.qu.lq[k].streams ≠ [] ∨ c.T0.qu.lq[k].out ≠ 0 ∨ c.T0.qu.lq[k].block.isSome then .stall true else
           .done (s.modTile c.st c.t fun T => { T with qu := { T.qu with
             lq := T.qu.lq.set k { T.qu.lq[k] with block := some x }, next := T.qu.next + 1, shown := .status k false } }))

/-- aadd and aswp (06 R184, 08 R245): checks 1 to 6, then the grant and the bank's state. -/
def fireAtomic (c : Ctx) (swap : Bool) (b : W64) (s : State) : TOut :=
  let sg := c.seg.getD 1
  let a := nat b 0 21 * 8
  match c.s0.segCheck c.st c.T0 sg .qu true true false alignOk [((a : Int), 8)] with
  | some (cause, e) => .fault c.s0 cause e
  | none =>
    if !(segSpace c.T0.sgA[sg] == 1 && pswSealed c.T0.psw && decide (pswLvl c.T0.psw ≠ 0)) ||
       !c.s0.stnBankOn c.st (a / 0x80000) then .fault c.s0 0x07 (BitVec.ofNat 64 a)
    else
      .done (s.modTile c.st c.t fun T =>
        let id := T.qu.next
        { T with qu := { T.qu with
            atomics := T.qu.atomics ++ [(id, swap, sext 64 (bits b 21 43), BitVec.ofNat 40 a)]
            next := id + 1, shown := .atomicPending id } }.pumpAtomic c.t)

/-! ### Heads, tails and status -/

/-- Leading completed blocks of a running transfer (08 R243 BDONE). -/
def leading : Nat → List Nat → Nat → Nat
  | 0, _, i => i
  | fuel + 1, ds, i => if ds.contains i then leading fuel ds (i + 1) else i

/-- The status word of queue k with the block fields of a direction (08 R240). -/
def quStatus (u : Qu) (k : Fin 4) (out : Bool) : W64 :=
  let lq := u.lq[k]
  let sq := u.sq[k]
  let blk := if out then sq.block else lq.block
  let bend := if out then sq.bend else lq.bend
  let bdone := match blk with
    | some x => leading x.nblk x.dones 0
    | none => if out then sq.bdone else lq.bdone
  let errh := match lq.entries with | .failed _ :: _ => true | _ => false
  BitVec.ofNat 64 (errh.toNat * 2 ^ 63 + u.wb.toNat * 2 ^ 62 + u.ne.toNat * 2 ^ 61 + sq.failed.isSome.toNat * 2 ^ 60 +
    out.toNat * 2 ^ 48 + blk.isSome.toNat * 2 ^ 47 + bend.toNat * 2 ^ 44 + bdone * 2 ^ 32 + sq.streams.length * 2 ^ 28 +
    lq.streams.length * 2 ^ 24 + sq.count * 2 ^ 16 + lq.out * 2 ^ 8 + lq.arrived)

/-- Write to a store tail (08 R237). -/
def Tile.pushTail (T : Tile) (k : Fin 4) (v : W64) : Tile :=
  let q := T.qu.sq[k]
  { T with qu := { T.qu with sq := T.qu.sq.set k (StoreQueue.pair 16 { q with data := q.data ++ [v] }) } }

/-- A tail write must wait (08 R237, R242). -/
def Tile.tailFull (T : Tile) (k : Fin 4) : Bool :=
  decide (16 ≤ T.qu.sq[k].count) || T.qu.sq[k].block.isSome

/-! ### Issue of elements and blocks -/

/-- The next element of load queue k is sent (08 R235, R238). -/
def State.elementIssue (s : State) (st : Stn) (t : TileNo) (k : Fin 4) : State :=
  let T := s.tile st t
  let q := T.qu.lq[k]
  match q.streams with
  | [] => s
  | x :: rest =>
    let a := x.at 0
    let node := nodeOf x.space a
    if T.run ≠ .running ∨ s.haltFrozen st ∨ q.block.isSome ∨ 16 ≤ q.entries.length ∨ T.qu.holds x.space (a.toNat / 64) x.ord ∨
       T.qu.credits[node] < 1 then s
    else
      let id := T.qu.next
      let q := { q with
        entries := q.entries ++ [.reserved id a], streams := if x.left ≤ 1 then rest else x.advance 1 :: rest }
      s.setTile st t
        ({ T with qu := { T.qu with lq := T.qu.lq.set k q, next := id + 1 } }.sendReq t node (.load k id x.size x.sx) a)

/-- The next element of store queue k that has both address and data is sent (08 R237). -/
def State.storeElementSend (s : State) (st : Stn) (t : TileNo) (k : Fin 4) : State :=
  let T := s.tile st t
  let q := T.qu.sq[k]
  match q.ready with
  | [] => s
  | e :: rest =>
    let node := nodeOf e.space e.addr
    if T.run ≠ .running ∨ s.haltFrozen st ∨ T.qu.credits[node] < 2 then s
    else
      let q := { q with ready := rest, sent := q.sent + 1 }
      s.setTile st t
        (({ T with qu := { T.qu with sq := T.qu.sq.set k q } }.sendReq t node (.store k e.size e.v) e.addr).pumpAtomic t)

/-- BEND code of a failure (08 R240). -/
def bendOf : RespStat → BitVec 3
  | .ok => 1 | .busError => 2 | .notOn => 3 | .uncorrectable => 4

/-- A block of a transfer has failed: the lowest failed block counts (08 R243). -/
def BlockXfer.fail (x : BlockXfer) (i : Nat) (r : RespStat) : BlockXfer :=
  match x.bad with
  | none => { x with bad := some (i, r) }
  | some (j, q) => { x with bad := some (if i < j then (i, r) else (j, q)) }

/-- How a transfer has ended, if it has: BEND and BDONE (08 R243). -/
def BlockXfer.ended (x : BlockXfer) : Option (BitVec 3 × Nat) :=
  match x.bad with
  | some (i, r) => if x.inFlight = 0 then some (bendOf r, i) else none
  | none => if x.dones.length = x.nblk then some (1, x.nblk) else none

/-- Put a transfer back on its queue, or end it with BEND, BDONE and interrupt line 2; a stopped tile records no end
(08 R243, R247). -/
def Tile.putBlock (T : Tile) (k : Fin 4) (out : Bool) (x : BlockXfer) : Tile :=
  match (if T.run = .running then x.ended else none) with
  | some (bend, bdone) =>
    let T := { T with ipend := putBit T.ipend 2 true }
    if out then
      { T with qu := { T.qu with sq := T.qu.sq.set k { T.qu.sq[k] with block := none, bend := bend, bdone := bdone } } }
    else
      { T with qu := { T.qu with lq := T.qu.lq.set k { T.qu.lq[k] with block := none, bend := bend, bdone := bdone } } }
  | none =>
    if out then { T with qu := { T.qu with sq := T.qu.sq.set k { T.qu.sq[k] with block := some x } } }
    else { T with qu := { T.qu with lq := T.qu.lq.set k { T.qu.lq[k] with block := some x } } }

/-- The transfer of a direction on queue k. -/
def Tile.xfer (T : Tile) (k : Fin 4) (out : Bool) : Option BlockXfer := if out then T.qu.sq[k].block else T.qu.lq[k].block

/-- Entries of the queue a transfer uses that are not its own (08 R233). -/
def Tile.otherEntries (T : Tile) (k : Fin 4) (out : Bool) : Nat := if out then T.qu.sq[k].count else T.qu.lq[k].entries.length

/-- The next block of a transfer is issued, up to 16 in flight, as entries are free; an outbound block is read from tile data memory
first (08 R233, R242, R243). -/
def State.blockIssue (s : State) (st : Stn) (t : TileNo) (k : Fin 4) (out : Bool) (meet : Meet) : State :=
  let T := s.tile st t
  match T.xfer k out with
  | none => s
  | some x =>
    let a := x.oaddr + BitVec.ofNat 40 (64 * x.issued)
    let node := nodeOf x.space a
    let off := x.taddr.toNat + 64 * x.issued
    if T.run ≠ .running ∨ s.haltFrozen st ∨ x.bad.isSome ∨ x.nblk ≤ x.issued ∨ 16 ≤ x.inFlight + T.otherEntries k out ∨
       (out ∧ T.scu.walkHoldsBlock x.ord off out) ∨ (!out ∧ T.qu.holds x.space (a.toNat / 64) x.ord) ∨
       T.qu.credits[node] < (if out then 9 else 1) then s
    else if out then
      match s.dataState st t off 64 with
      | .off => s.setTile st t ((T.putBlock k out (x.fail x.issued .notOn)).pumpAtomic t)
      | .bad => (s.recordUe st t off 64).modTile st t fun T => (T.putBlock k out (x.fail x.issued .uncorrectable)).pumpAtomic t
      | .ok =>
        ((s.countCe st t off 64).met st t meet true false).modTile st t fun T =>
          ((T.putBlock k out { x with issued := x.issued + 1, inFlight := x.inFlight + 1 }).sendReq t node
            (.blockWrite k x.issued (s.readData st t off 64)) a).pumpAtomic t
    else
      s.setTile st t ((T.putBlock k out { x with issued := x.issued + 1, inFlight := x.inFlight + 1 }).sendReq t node
        (.blockRead k x.issued) a)

/-- The oldest answered block of a transfer is taken up: an inbound block is written to tile data memory (08 R243). -/
def State.blockDone (s : State) (st : Stn) (t : TileNo) (k : Fin 4) (out : Bool) (meet : Meet) : State :=
  let T := s.tile st t
  match T.xfer k out with
  | none => s
  | some x =>
    match x.back with
    | [] => s
    | (i, r, data) :: rest =>
      let x := { x with back := rest, inFlight := x.inFlight - 1 }
      let off := x.taddr.toNat + 64 * i
      if s.haltFrozen st ∨ (!out ∧ r = .ok ∧ T.scu.walkHoldsBlock x.ord off out) then s
      else if r ≠ .ok then s.setTile st t ((T.putBlock k out (x.fail i r)).pumpAtomic t)
      else if out then s.setTile st t (T.putBlock k out { x with dones := i :: x.dones })
      else if (List.range 4).any fun j => !s.tileBankOn st t j then
        s.setTile st t (T.putBlock k out (x.fail i .notOn))
      else
        ((s.writeData st t off data).met st t meet false true).modTile st t fun T =>
          T.putBlock k out { x with dones := i :: x.dones }

/-! ### Responses -/

/-- Queue words of a response: eight carry a block that was read, one anything else (log entry 32). -/
def respWords (r : QResp) : List LinkWord :=
  let n := match r.req.op, r.stat with
    | .blockRead .., .ok => 8
    | _, _ => 1
  queueWordsOf .response (BitVec.ofNat 6 (40 + r.node.val)) (BitVec.ofNat 6 r.req.tile.val) n (.resp r)

/-- The bytes of a load element, extended to 64 bits (08 R235). -/
def elemValue (size : Fin 4) (sx : Bool) (bs : List Byte) : W64 :=
  let v := leBv 64 (bs.take (elemBytes size))
  if sx then sext 64 (bits v 0 (8 * elemBytes size)) else v

/-- A response reaches the queue unit of its tile; one of an earlier run is discarded (08 R235, R237, R243, R245, R247). -/
def State.quAnswer (s : State) (st : Stn) (t : TileNo) (r : QResp) : State :=
  let T := s.tile st t
  if r.req.run ≠ T.runs then s
  else match r.req.op with
  | .load k id size sx =>
    let e : LoadEntry := if r.stat = .ok then .arrived (elemValue size sx r.data) else .failed r.req.addr
    let q := T.qu.lq[k]
    s.setTile st t { T with qu := { T.qu with lq := T.qu.lq.set k { q with
      entries := q.entries.map fun x => if x = .reserved id r.req.addr then e else x } } }
  | .blockRead k i =>
    match T.qu.lq[k].block with
    | none => s
    | some x => s.setTile st t { T with qu := { T.qu with lq := T.qu.lq.set k { T.qu.lq[k] with
        block := some { x with back := x.back ++ [(i, r.stat, r.data)] } } } }
  | .blockWrite k i _ =>
    match T.qu.sq[k].block with
    | none => s
    | some x => s.setTile st t { T with qu := { T.qu with sq := T.qu.sq.set k { T.qu.sq[k] with
        block := some { x with back := x.back ++ [(i, r.stat, [])] } } } }
  | .store k _ _ =>
    let q := T.qu.sq[k]
    let ok := r.stat = .ok
    let q := { q with sent := q.sent - 1, failed := if ok then q.failed else some (q.failed.getD r.req.addr) }
    let s := s.setTile st t { T with qu := { T.qu with sq := T.qu.sq.set k q } }
    if ok then s else s.setFlag (tileReg st t 0x218) 3
  | .atomic id _ _ =>
    let mine := T.qu.shown = .atomicPending id
    if r.stat = .ok then
      s.setTile st t { T with qu := { T.qu with shown := if mine then .value (leBv 64 r.data) else T.qu.shown } }
    else
      ((s.useFree 1).setTile st t { T with qu := { T.qu with
        shown := if mine then .value s.free else T.qu.shown
        atomicFail := if T.run = .running then some r.req.addr else none } }).setFlag (tileReg st t 0x218) 3

end Sys2Proof.Machine
end

