-- ==== Sys2Proof/Machine/Flags.lean ====
section
/-! DEFINITION. Overflow conditions of arithmetic (04 R102, R108, R111). -/

namespace Sys2Proof.Machine

/-- The exact signed sum lies outside 64 bits (04 R102). -/
def addOverflows (a b : W64) : Bool :=
  let r := a.toInt + b.toInt
  decide (r < -2 ^ 63) || decide (2 ^ 63 ≤ r)

/-- The exact signed difference lies outside 64 bits (04 R102). -/
def subOverflows (a b : W64) : Bool :=
  let r := a.toInt - b.toInt
  decide (r < -2 ^ 63) || decide (2 ^ 63 ≤ r)

/-- x lies in the signed range of w bits (04 R108, R111). -/
def inRange (w : Nat) (x : Int) : Bool := decide (-(2 ^ (w - 1) : Int) ≤ x) && decide (x ≤ 2 ^ (w - 1) - 1)

/-- The nearest bound of the signed range of w bits. -/
def clamp (w : Nat) (x : Int) : Int :=
  if x < -(2 ^ (w - 1) : Int) then -(2 ^ (w - 1) : Int) else if 2 ^ (w - 1) - 1 < x then 2 ^ (w - 1) - 1 else x

/-- x wrapped to w bits, as a signed value. -/
def wrapInt (w : Nat) (x : Int) : Int := (BitVec.ofInt w x).toInt

end Sys2Proof.Machine
end

