-- ==== Sys2Proof/Machine/Alu.lean ====
section
/-! DEFINITION. Results of the integer units alu0 and alu1 (04 R99, R101, R102). -/

namespace Sys2Proof.Machine

/-- The ALU operations, in socket order (03 R85). -/
inductive AluOp where
  | add | addt | sub | subt | and | or | xor | andn | cmpeq | cmpne | cmplt | cmpltu | min | max | minu | maxu
  | addw | subw | cmpeqw | cmpltw | addh | subh | cmpeqh | cmplth
  deriving DecidableEq, Repr

/-- Lane-wise operation on lanes of w bits, n of them, lane 0 least significant (04 R99). -/
def lanes (w n : Nat) (f : BitVec w → BitVec w → BitVec w) (a b : W64) : W64 :=
  BitVec.ofNat 64 ((List.range n).foldr (fun i acc => acc + (f (bits a (w * i) w) (bits b (w * i) w)).toNat * 2 ^ (w * i)) 0)

/-- All ones where p holds, else zero. -/
def laneMask {w : Nat} (p : Bool) : BitVec w := if p then BitVec.allOnes w else 0

/-- The result of an ALU operation (04 R101). -/
def aluResult : AluOp → W64 → W64 → W64
  | .add, a, b => a + b
  | .addt, a, b => a + b
  | .sub, a, b => a - b
  | .subt, a, b => a - b
  | .and, a, b => a &&& b
  | .or, a, b => a ||| b
  | .xor, a, b => a ^^^ b
  | .andn, a, b => a &&& ~~~b
  | .cmpeq, a, b => flag (a == b)
  | .cmpne, a, b => flag (a != b)
  | .cmplt, a, b => flag (a.slt b)
  | .cmpltu, a, b => flag (a.ult b)
  | .min, a, b => if a.slt b then a else b
  | .max, a, b => if a.slt b then b else a
  | .minu, a, b => if a.ult b then a else b
  | .maxu, a, b => if a.ult b then b else a
  | .addw, a, b => lanes 32 2 (· + ·) a b
  | .subw, a, b => lanes 32 2 (· - ·) a b
  | .cmpeqw, a, b => lanes 32 2 (fun x y => laneMask (x == y)) a b
  | .cmpltw, a, b => lanes 32 2 (fun x y => laneMask (x.slt y)) a b
  | .addh, a, b => lanes 16 4 (· + ·) a b
  | .subh, a, b => lanes 16 4 (· - ·) a b
  | .cmpeqh, a, b => lanes 16 4 (fun x y => laneMask (x == y)) a b
  | .cmplth, a, b => lanes 16 4 (fun x y => laneMask (x.slt y)) a b

/-- Whether an ALU operation raises an arithmetic report (04 R102). -/
def aluOverflow : AluOp → W64 → W64 → Bool
  | .addt, a, b => addOverflows a b
  | .subt, a, b => subOverflows a b
  | _, _, _ => false

end Sys2Proof.Machine
end

