-- ==== Sys2Proof/Machine/Mac.lean ====
section
/-! DEFINITION. Multiply-accumulate arithmetic, the divide step and accumulator reads (04 R105 to R113). -/

namespace Sys2Proof.Machine

/-- Lane width and lane count of an accumulator in a mode (04 R105). -/
def macWidth : MacMode → Nat
  | .m8 => 24 | .q15 => 40 | .q31 => 72
def macLanes : MacMode → Nat
  | .m8 => 8 | .q15 => 4 | .q31 => 1
def macTag : MacMode → AccTag
  | .m8 => .m8 | .q15 => .q15 | .q31 => .q31

/-- Lane i of an accumulator, as a signed value of w bits. -/
def accLane (x : BitVec 192) (w i : Nat) : Int := (bits x (w * i) w).toInt

/-- An accumulator from its lanes. -/
def accOf (w : Nat) (ls : List Int) : BitVec 192 :=
  BitVec.ofNat 192 (ls.foldr (fun x acc => (BitVec.ofInt w x).toNat + acc * 2 ^ w) 0)

/-- An 8-bit lane, signed or unsigned (04 R109 UNST, UNSO). -/
def lane8 (uns : Bool) (x : W64) (i : Nat) : Int :=
  if uns then ((bits x (8 * i) 8).toNat : Int) else (bits x (8 * i) 8).toInt

/-- The exact product of lane i (04 R105). -/
def macProduct (fxm : W64) (a b : W64) (i : Nat) : MacMode → Int
  | .m8 => lane8 (bit fxm 4) a i * lane8 (bit fxm 5) b i
  | .q15 => (bits a (16 * i) 16).toInt * (bits b (16 * i) 16).toInt * 2
  | .q31 => (bits a 0 32).toInt * (bits b 0 32).toInt * 2

/-- What a MAC operation leaves: the accumulator, whether OVS is set, and the IDET word of its report, if it makes one. -/
structure MacOut where
  acc : Acc
  ovs : Bool
  report : Option W64
  deriving DecidableEq, Repr

/-- `mulN` and `mlaN` (04 R106 to R108). -/
def macArith (mode : MacMode) (accum : Bool) (k : Fin 4) (a b fxm : W64) (old : Acc) : MacOut :=
  let w := macWidth mode
  let is := List.range (macLanes mode)
  let sums := is.map fun i =>
    (if accum && old.tag == macTag mode then accLane old.lanes w i else 0) + macProduct fxm a b i mode
  let ovf := accum && sums.any fun x => !inRange w x
  let kept := sums.map fun x => if inRange w x then x else if bit fxm 2 then clamp w x else wrapInt w x
  let idet : W64 := BitVec.ofNat 64 ((is.foldr (fun i acc => acc +
    (if inRange w (sums.getD i 0) then 0 else 2 ^ i)) 0) * 256 + k.val)
  { acc := ⟨accOf w kept, macTag mode⟩, ovs := ovf, report := if ovf && bit fxm 3 then some idet else none }

/-- One divide step of a 40-bit lane with remainder in bits [39:16] and quotient in [15:0] (04 R112). -/
def divLane (x : BitVec 40) (d : Nat) : BitVec 40 :=
  if d = 0 then x else
  let r2 := nat x 16 24 * 2 % 2 ^ 24
  let q := nat x 0 16 * 2
  if d ≤ r2 then BitVec.ofNat 40 ((r2 - d) * 65536 + (q + 1) % 65536)
  else BitVec.ofNat 40 (r2 * 65536 + q % 65536)

/-- An accumulator of four 40-bit lanes. -/
def acc40 (f : Nat → BitVec 40) : BitVec 192 :=
  BitVec.ofNat 192 ((List.range 4).foldr (fun i acc => acc + (f i).toNat * 2 ^ (40 * i)) 0)

/-- `mul15` and `mla15` with fxm.DIV = 1 (04 R112, R113). -/
def macDivide (accum : Bool) (k : Fin 4) (a b : W64) (old : Acc) : MacOut :=
  if accum then
    let lane := fun i => if old.tag == .divide then bits old.lanes (40 * i) 40 else 0
    let dz := (List.range 4).any fun i => bits b (16 * i) 16 == 0
    { acc := ⟨acc40 fun i => divLane (lane i) (nat b (16 * i) 16), .divide⟩, ovs := false,
      report := if dz then some (BitVec.ofNat 64 (0x10000 + k.val)) else none }
  else
    { acc := ⟨acc40 fun i => BitVec.ofNat 40 (nat a (16 * i) 16 * 65536), .divide⟩, ovs := false, report := none }

/-- A MAC operation with the fxm of its trigger (04 R106, R110, R112). -/
def macRun (mode : MacMode) (accum : Bool) (k : Fin 4) (a b fxm : W64) (old : Acc) : MacOut :=
  if mode == .q15 && bit fxm 6 then macDivide accum k a b old else macArith mode accum k a b fxm old

/-! ### Reading accumulators (04 R111) -/

/-- Rounding when s bits are dropped; rnd is fxm.RND. -/
def roundShift (x : Int) (s rnd : Nat) : Int :=
  if s = 0 then x else
  let q := x / 2 ^ s
  let r := x % 2 ^ s
  let h : Int := 2 ^ (s - 1)
  if rnd = 0 then q
  else if rnd = 1 then (if h ≤ r then q + 1 else q)
  else if rnd = 2 then (if h < r ∨ (r = h ∧ q % 2 = 1) then q + 1 else q)
  else (if x < 0 ∧ r ≠ 0 then q + 1 else q)

/-- Narrowing to w bits; the caller notes whether it clamped or wrapped. -/
def narrow (fxm : W64) (w : Nat) (y : Int) : Int :=
  if inRange w y then y else if bit fxm 2 then clamp w y else wrapInt w y

/-- A 64-bit word of n lanes of w bits. -/
def packLanes (w : Nat) (ls : List Int) : W64 :=
  BitVec.ofNat 64 (ls.foldr (fun x acc => (BitVec.ofInt w x).toNat + acc * 2 ^ w) 0)

/-- A read of `macn.ak`: the value, and whether it sets OVS. -/
def accRead (fxm : W64) (x : Acc) : W64 × Bool :=
  let osh := nat fxm 8 5
  let rnd := nat fxm 0 2
  match x.tag with
  | .untagged => (0, false)
  | .divide => (BitVec.ofNat 64 ((List.range 4).foldr (fun i acc => acc + nat x.lanes (40 * i) 16 * 2 ^ (16 * i)) 0), false)
  | .m8 =>
    let ys := (List.range 8).map fun i => roundShift (accLane x.lanes 24 i) osh rnd
    (packLanes 8 (ys.map (narrow fxm 8)), ys.any fun y => !inRange 8 y)
  | .q15 =>
    let ys := (List.range 4).map fun i => roundShift (accLane x.lanes 40 i) (16 + osh) rnd
    (packLanes 16 (ys.map (narrow fxm 16)), ys.any fun y => !inRange 16 y)
  | .q31 =>
    let y := roundShift (accLane x.lanes 72 0) (32 + osh) rnd
    (BitVec.ofInt 64 (narrow fxm 32 y), !inRange 32 y)

/-- A read of `macn.r`: the accumulator of the unit's latest operation. -/
def macRRead (fxm : W64) (x : Acc) : W64 × Bool :=
  let osh := nat fxm 8 5
  let rnd := nat fxm 0 2
  match x.tag with
  | .untagged => (0, false)
  | .divide => accRead fxm x
  | .m8 => (BitVec.ofInt 64 (roundShift (((List.range 8).map fun i => accLane x.lanes 24 i).sum) osh rnd), false)
  | .q15 => (BitVec.ofInt 64 (roundShift (((List.range 4).map fun i => accLane x.lanes 40 i).sum) (16 + osh) rnd), false)
  | .q31 => (BitVec.ofInt 64 (roundShift (accLane x.lanes 72 0) (32 + osh) rnd), false)

end Sys2Proof.Machine
end

