-- ==== Sys2Proof/Machine/Shift.lean ====
section
/-! DEFINITION. Results of the shift unit (04 R103). -/

namespace Sys2Proof.Machine

/-- The shift operations, in socket order (03 R87). -/
inductive ShfOp where
  | shl | shr | sar | rol | extu | exts | ins | perm
  deriving DecidableEq, Repr

/-- The field (a >> pos) AND (2^w - 1). -/
def shfField (a b : W64) : W64 := (a >>> nat b 0 6) &&& ones 0 (nat b 8 6 + 1)

/-- The result of a shift operation on a and b, where c is what `shf.r` shows when the trigger starts (04 R103). -/
def shfResult : ShfOp → (c a b : W64) → W64
  | .shl, _, a, b => a <<< nat b 0 6
  | .shr, _, a, b => a >>> nat b 0 6
  | .sar, _, a, b => a.sshiftRight (nat b 0 6)
  | .rol, _, a, b => a.rotateLeft (nat b 0 6)
  | .extu, _, a, b => shfField a b
  | .exts, _, a, b =>
    let f := shfField a b
    if bit f (nat b 8 6) then f ||| ~~~(ones 0 (nat b 8 6 + 1)) else f
  | .ins, c, a, b => put c (nat b 0 6) (min (nat b 8 6 + 1) (64 - nat b 0 6)) a.toNat
  | .perm, _, a, b =>
    leBv 64 ((List.range 8).map fun i =>
      if bit b (4 * i + 3) then (0 : Byte) else bits a (8 * nat b (4 * i) 3) 8)

end Sys2Proof.Machine
end

