-- ==== Sys2Proof/Machine/Units.lean ====
section
/-! DEFINITION. Triggers of alu, mac and shf, and the completion of unit operations (02 R43 to R47; 04 R98, R101 to R113). -/

namespace Sys2Proof.Machine

/-- Put an operation in flight. -/
def Tile.launch (T : Tile) (u : UnitId) (op : FlightOp) : Tile :=
  { T with flights := T.flights ++ [⟨u, op, T.pc, 0, false⟩] }

/-- Trigger of alu n (04 R101): a is the operand port as it stands after phase 3. -/
def fireAlu (c : Ctx) (n : Fin 2) (op : AluOp) (b : W64) (s : State) : TOut :=
  .done (s.modTile c.st c.t fun T =>
    let a := T.opnd[n.val]
    T.launch (.alu n) (.value (aluResult op a b) (aluOverflow op a b)))

/-- Accumulator k of mac n once every operation in flight into it is done (02 R48). -/
def Tile.accLatest (T : Tile) (n : Fin 2) (k : Fin 4) : Acc :=
  T.flights.foldl (fun x f => match f.unit, f.op with
    | .mac m, .mac mode accum j a b fxm => if m = n ∧ j = k then (macRun mode accum k a b fxm x).acc else x
    | _, _ => x) T.acc[n][k]

/-- Trigger of mac n (04 R106): the fxm of the trigger goes with the operation (04 R110). OVS shows its overflow from the next
instruction on, whenever the operation completes (02 R34, log entry 68). -/
def fireMac (c : Ctx) (n : Fin 2) (mode : MacMode) (accum : Bool) (k : Fin 4) (b : W64) (s : State) : TOut :=
  .done (s.modTile c.st c.t fun T =>
    let a := T.opnd[n.val + 2]
    let ovs := (macRun mode accum k a b c.T0.fxm (T.accLatest n k)).ovs
    { T with fxm := if ovs then putBit T.fxm 16 true else T.fxm }.launch (.mac n) (.mac mode accum k a b c.T0.fxm))

/-- What `shf.r` will show once every shift in flight is done (04 R103 ins). -/
def Tile.shfLatest (T : Tile) : W64 :=
  T.flights.foldl (fun r f => match f.unit, f.op with
    | .shf, .value v _ => v
    | _, _ => r) T.shfR

/-- Trigger of shf (04 R103). -/
def fireShf (c : Ctx) (op : ShfOp) (b : W64) (s : State) : TOut :=
  .done (s.modTile c.st c.t fun T => T.launch .shf (.value (shfResult op c.T0.shfLatest T.opnd[4] b) false))

/-- Unit identity of an arithmetic report (04 R127). -/
def unitIdentity : UnitId → BitVec 4
  | .alu n => BitVec.ofNat 4 n.val
  | .mac n => BitVec.ofNat 4 (2 + n.val)
  | _ => 0

/-- Raise an arithmetic report, or mark the pending one (05 R158); that of a held operation is precise (05 R159). -/
def Tile.raiseReport (T : Tile) (f : Flight) (idet : W64) : Tile :=
  match T.report with
  | some r => { T with report := some { r with ilost := true } }
  | none => { T with report := some ⟨unitIdentity f.unit, f.trig, idet, f.age, false, !f.hold⟩ }

/-- Deliver one operation (02 R45, R47; 04 R102, R108). -/
def Tile.deliver (T : Tile) (f : Flight) : Tile :=
  match f.op with
  | .value v ovf =>
    let T := match f.unit with
      | .alu n => { T with aluR := T.aluR.set n v }
      | .shf => { T with shfR := v }
      | .scu => { T with scuR := v }
      | .mac _ => T
    if ovf then T.raiseReport f 0 else T
  | .mac mode accum k a b fxm =>
    match f.unit with
    | .mac n =>
      let out := macRun mode accum k a b fxm T.acc[n][k]
      let T := { T with
        acc := T.acc.set n (T.acc[n].set k out.acc)
        macLast := T.macLast.set n (some k) }
      match out.report with
      | none => T
      | some idet => T.raiseReport f idet
    | _ => T

/-- The oldest operation of a unit completes. -/
def Tile.completeOldest (T : Tile) (u : UnitId) : Tile :=
  match T.flights.find? (·.unit == u) with
  | none => T
  | some f => { T with flights := T.flights.eraseP (·.unit == u) }.deliver f

/-- Operations leave in the order given: those that satisfy p are delivered, the others stay in flight. -/
def Tile.drainIf (T : Tile) (p : Flight → Bool) : Tile :=
  (T.flights.filter p).foldl Tile.deliver { T with flights := T.flights.filter fun f => !p f }

/-- Every operation in flight completes (05 R149). -/
def Tile.drain (T : Tile) : Tile := T.drainIf fun _ => true

/-- An operation that can still report (04 R127): an addt or subt that overflows, a mla or divide step. -/
def Flight.mayReport (f : Flight) : Bool :=
  match f.op with
  | .value _ ovf => ovf
  | .mac _ accum .. => accum

/-- The operations of the instruction just completed hold the next instruction back until they pass their checks (05 R159). -/
def Tile.holdNew (T : Tile) : Tile :=
  { T with flights := T.flights.map fun f => if f.age = 0 then { f with hold := f.mayReport } else f }

/-- The operations that a trigger has put in flight after the first n hold the next instruction back in the same way. -/
def Tile.holdFrom (T : Tile) (n : Nat) : Tile :=
  { T with flights := T.flights.take n ++ (T.flights.drop n).map fun f => { f with hold := f.mayReport } }

/-- The next instruction waits for such a check. -/
def Tile.held (T : Tile) : Bool := T.flights.any (·.hold)

/-- An operation is in flight on a unit. -/
def Tile.busy (T : Tile) (u : UnitId) : Bool := T.flights.any (·.unit == u)

/-- An operation is in flight into accumulator k of mac n. -/
def Tile.accBusy (T : Tile) (n : Fin 2) (k : Fin 4) : Bool :=
  T.flights.any fun f => f.unit == .mac n && (match f.op with
    | .mac _ _ j _ _ _ => j == k
    | .value _ _ => false)

end Sys2Proof.Machine
end

