-- ==== Sys2Proof/Machine/Scu.lean ====
section
/-! DEFINITION. The scan unit: vector operations and the walker (04 R114 to R126). -/

namespace Sys2Proof.Machine

/-- The scu operations that start at a trigger, in socket order (03 R87). -/
inductive ScuOp where
  | grad | thr | census | absd | vcfg | wimg | wout | walk
  deriving DecidableEq, Repr

/-- Pixel i of a row, extended at the ends (04 R114); i counts from -1 to 32. -/
def pix (r : BitVec 256) (i : Int) : Int :=
  ((bits r (8 * (if i < 0 then 0 else if 31 < i then 31 else i.toNat)) 8).toNat : Int)

/-- A row of 32 pixels. -/
def rowOf (f : Nat → Nat) : BitVec 256 :=
  BitVec.ofNat 256 ((List.range 32).foldr (fun i acc => f i % 256 + 256 * acc) 0)

/-- The 32-byte block as a row. -/
def rowBytes (bs : List Byte) : BitVec 256 := leBv 256 bs

/-- Output pixel i of grad (04 R116). -/
def gradPix (u m d : BitVec 256) (i : Nat) : Nat :=
  ((pix m (i + 1) - pix m (i - 1)).natAbs + (pix d i - pix u i).natAbs) / 2

/-- Output pixel i of thr (04 R116). -/
def thrPix (c : Byte) (u m d : BitVec 256) (i : Nat) : Nat :=
  let k : Int := i
  let mean := (pix u (k - 1) + 2 * pix u k + pix u (k + 1) + 2 * pix m (k - 1) + 4 * pix m k + 2 * pix m (k + 1)
    + pix d (k - 1) + 2 * pix d k + pix d (k + 1)) / 16
  if mean + c.toInt ≤ pix m k then 255 else 0

/-- Output pixel i of census (04 R116). -/
def censusPix (u m d : BitVec 256) (i : Nat) : Nat :=
  let k : Int := i
  let ns := [pix u (k - 1), pix u k, pix u (k + 1), pix m (k - 1), pix m (k + 1), pix d (k - 1), pix d k, pix d (k + 1)]
  ns.foldr (fun x acc => (if x < pix m k then 1 else 0) + 2 * acc) 0

/-- The output row and `scu.r` of grad, thr or census (04 R116). -/
def vectorResult (op : ScuOp) (x : Scu) : BitVec 256 × W64 :=
  match op with
  | .grad =>
    let ps := (List.range 32).map (gradPix x.u x.m x.d)
    (rowOf (gradPix x.u x.m x.d),
      BitVec.ofNat 64 (ps.foldl max 0 * 256 + (ps.countP fun p => decide (x.g.toNat ≤ p))))
  | .thr =>
    let ps := (List.range 32).map (thrPix x.c x.u x.m x.d)
    (rowOf (thrPix x.c x.u x.m x.d), BitVec.ofNat 64 (ps.countP fun p => p == 255))
  | .census => (rowOf (censusPix x.u x.m x.d), 0)
  | _ => (0, 0)

/-- The sum of absolute differences of two blocks (04 R116 absd). -/
def absdResult (p q : BitVec 256) : W64 :=
  BitVec.ofNat 64 (((List.range 32).map fun i => (pix p i - pix q i).natAbs).sum)

/-- A bank that a block touches is not on. -/
def State.blockOff (s : State) (st : Stn) (t : TileNo) (off : Nat) : Bool := s.dataState st t off 32 == .off

/-- grad, thr, census and absd (04 R114, R116, R117). b is checked first, then a. -/
def fireVector (c : Ctx) (op : ScuOp) (b : W64) (s : State) : TOut :=
  let a := (s.tile c.st c.t).opnd[5]
  let k := c.seg.getD 0
  let wr := op != .absd
  match c.s0.segCheck c.st c.T0 k .data true false false (multOf 32) [((b.toNat : Int), 32)] with
  | some (cause, e) => .fault c.s0 cause e
  | none =>
    if c.s0.blockOff c.st c.t b.toNat then .fault c.s0 0x07 b
    else match c.s0.segCheck c.st c.T0 k .data (!wr) wr false (multOf 32) [((a.toNat : Int), 32)] with
    | some (cause, e) => .fault c.s0 cause e
    | none =>
      if c.s0.blockOff c.st c.t a.toNat then .fault c.s0 0x07 a
      else if c.T0.scu.walk.isSome || c.T0.xferHolds b.toNat 32 false || c.T0.xferHolds a.toNat 32 wr then .stall false
      else
        let p := rowBytes (c.s0.readData c.st c.t b.toNat 32)
        let badB := c.s0.dataState c.st c.t b.toNat 32 == .bad
        let s := (s.countCe c.st c.t b.toNat 32).recordUe c.st c.t b.toNat 32
        match op with
        | .absd =>
          let badA := c.s0.dataState c.st c.t a.toNat 32 == .bad
          let q := rowBytes (c.s0.readData c.st c.t a.toNat 32)
          let r := putBit (absdResult p q) 63 (badA || badB)
          .done (((s.countCe c.st c.t a.toNat 32).recordUe c.st c.t a.toNat 32).modTile c.st c.t fun T =>
            T.launch .scu (.value r false))
        | _ =>
          let x := { c.T0.scu with u := c.T0.scu.m, m := c.T0.scu.d, d := p }
          let out := vectorResult op x
          let s := s.modTile c.st c.t fun T =>
            { T with scu := x }.launch .scu (.value (putBit out.2 63 badB) false)
          .done (if badB then s else s.writeData c.st c.t a.toNat (leBytes 32 out.1.toNat))

/-- vcfg (04 R115). -/
def fireVcfg (c : Ctx) (b : W64) (s : State) : TOut :=
  if c.T0.scu.walk.isSome then .stall false else
  .done (s.modTile c.st c.t fun T =>
    { T with scu := { T.scu with c := bits b 0 8, g := bits b 8 8, u := 0, m := 0, d := 0 } }.launch .scu (.value 0 false))

/-- wimg (04 R119): the span is checked as a read unless WIDTH or HEIGHT is 0. -/
def fireWimg (c : Ctx) (b : W64) (s : State) : TOut :=
  let lo := nat b 0 17
  let len := nat b 48 12 * (nat b 32 12 - 1) + nat b 20 12
  let chk := if nat b 20 12 = 0 ∨ nat b 32 12 = 0 then none
    else c.s0.segCheck c.st c.T0 (c.seg.getD 0) .data true false false anyAlign [((lo : Int), len)]
  match chk with
  | some (cause, e) => .fault c.s0 cause e
  | none =>
    if nat b 20 12 ≠ 0 ∧ nat b 32 12 ≠ 0 ∧ (wordsOf lo len).any (fun w => !c.s0.tileBankOn c.st c.t (bankOf w)) then
      .fault c.s0 0x07 (BitVec.ofNat 64 lo)
    else if c.T0.scu.walk.isSome then .stall false else
    .done (s.modTile c.st c.t fun T => { T with scu := { T.scu with wimg := b } }.launch .scu (.value 0 false))

/-- wout (04 R120): LIST must be a multiple of 8; the span is checked as a write unless CAP is 0. -/
def fireWout (c : Ctx) (b : W64) (s : State) : TOut :=
  let lo := nat b 0 17
  let len := 8 * nat b 20 12
  let chk := if nat b 20 12 = 0 then (if lo % 8 = 0 then none else some ((0x04 : Byte), BitVec.ofNat 64 lo))
    else c.s0.segCheck c.st c.T0 (c.seg.getD 0) .data false true false (multOf 8) [((lo : Int), len)]
  match chk with
  | some (cause, e) => .fault c.s0 cause e
  | none =>
    if nat b 20 12 ≠ 0 ∧ (wordsOf lo len).any (fun w => !c.s0.tileBankOn c.st c.t (bankOf w)) then
      .fault c.s0 0x07 (BitVec.ofNat 64 lo)
    else if c.T0.scu.walk.isSome then .stall false else
    .done (s.modTile c.st c.t fun T => { T with scu := { T.scu with wout := b } }.launch .scu (.value 0 false))

/-! ### The walker -/

/-- Parameters of a walk are invalid (04 R125). -/
def walkInvalid (u : Scu) (w : Walk) : Bool :=
  decide (65536 < (walkSlope w).natAbs) || decide (walkLen w < 2) || decide (nat u.wimg 20 12 = 0) ||
  decide (nat u.wimg 32 12 = 0) || decide (nat u.wout 20 12 = 0) || decide (nat u.wimg 48 12 < nat u.wimg 20 12) ||
  !walkInside u (walkPixel w 0)

/-- `scu.r` at the end of a walk (04 R125). -/
def walkStatus (err : Bool) (ended samples edges : Nat) : W64 :=
  BitVec.ofNat 64 (err.toNat * 2 ^ 63 + ended * 2 ^ 32 + samples % 65536 * 65536 + edges % 65536)

/-- walk (04 R121): invalid parameters end it at once. -/
def fireWalk (c : Ctx) (b : W64) (s : State) : TOut :=
  let a := (s.tile c.st c.t).opnd[5]
  let w : Walk := ⟨bits a 0 32, bits a 32 32, b, [], 0, 0, c.T0.qu.next, c.old⟩
  if c.T0.scu.walk.isSome then .stall false else
  .done (s.modTile c.st c.t fun T =>
    if walkInvalid T.scu w then T.launch .scu (.value (walkStatus false 3 0 0) false)
    else { T with scu := { T.scu with walk := some w } })

/-- The edge at position k, given d[k - 1], d[k] and d[k + 1], each none where there is no such difference (04 R123). -/
def edgeAt (minc : Nat) (dPrev : Option Int) (d : Int) (dNext : Option Int) : Option (Nat × Nat × Nat) :=
  let same := fun (o : Option Int) => match o with
    | none => 0
    | some x => if (0 < d ∧ x < 0) ∨ (d < 0 ∧ 0 < x) then 0 else x.natAbs
  let b := d.natAbs
  let a := same dPrev
  let cc := same dNext
  if minc ≤ b ∧ a ≤ b ∧ cc < b ∧ 0 < b then some (a, b, cc) else none

/-- P of an edge at k in Q16.16 (04 R123): the fraction is exact, truncated toward zero. -/
def edgePos (k a b cc : Nat) : W32 :=
  BitVec.ofInt 32 ((k : Int) * 65536 - 32768 + Int.tdiv (((a : Int) - cc) * 65536) (2 * ((a : Int) - 2 * b + cc)))

/-- The entry of an edge (04 R124). -/
def edgeEntry (k : Nat) (d : Int) (b : Nat) (run : W32) : Nat :=
  k % 65536 * 2 ^ 48 + (if d < 0 then 2 ^ 40 else 0) + b % 256 * 2 ^ 32 + run.toNat

/-- The walk ends: `scu.r` shows its status. -/
def State.walkEnd (s : State) (st : Stn) (t : TileNo) (err : Bool) (ended samples edges : Nat) : State :=
  s.modTile st t fun T =>
    let T := T.drainIf (·.unit == .scu)
    { T with scu := { T.scu with walk := none }, scuR := walkStatus err ended samples edges }

/-- The byte of a sample: memory as the instructions before the walk's left it; an entry that the walk has written since is seen
(04 R118, log entry 29). -/
def Walk.sample (w : Walk) (s : State) (st : Stn) (t : TileNo) (off : Nat) : Byte :=
  (w.before.lookup off).getD (s.byte (tileData st t off))

/-- Evaluate position k, whose following difference is dNext, and write its edge (04 R123 to R125). The profile has the latest
sample first; s[k] is at index i. Answers the walk to go on with, or none where the walk has ended. -/
def State.walkEdge (s : State) (st : Stn) (t : TileNo) (meet : Meet) (w : Walk) (samples k i : Nat) (dNext : Option Int) :
    State × Option Walk :=
  let u := (s.tile st t).scu
  let smp := fun (j : Nat) => ((w.prof.getD j 0).toNat : Int)
  let d := smp i - smp (i + 1)
  let dPrev := if k ≤ 1 then none else some (smp (i + 1) - smp (i + 2))
  match edgeAt (nat u.wout 32 8) dPrev d dNext with
  | none => (s, some w)
  | some (a, b, cc) =>
    if nat u.wout 20 12 ≤ w.edges then (s.walkEnd st t false 2 samples w.edges, none)
    else
      let off := nat u.wout 0 17 + 8 * w.edges
      let p := edgePos k a b cc
      if !s.tileBankOn st t (bankOf off) then (s.walkEnd st t true 4 samples w.edges, none)
      else
        ((s.writeData st t off (leBytes 8 (edgeEntry k d b (p - w.prevP)))).met st t meet false true,
          some { w with edges := w.edges + 1, prevP := p, before := w.before.filter fun e => e.1 < off ∨ off + 8 ≤ e.1 })

/-- The walk's next accesses wait for an earlier block transfer: that to the pixel p, and that to the next entry of its list
(08 R244). -/
def Tile.walkWaits (T : Tile) (w : Walk) (p : Int × Int) : Bool :=
  (walkInside T.scu p && T.xferHoldsBefore w.ord (walkOffset T.scu p) 1 false) ||
  (decide (w.edges < nat T.scu.wout 20 12) && T.xferHoldsBefore w.ord (nat T.scu.wout 0 17 + 8 * w.edges) 8 true)

/-- One sample of the walk (04 R122 to R125). With the sample s[k] in hand, position k - 1 is evaluated; when the walk takes its
last sample, or stops at the image boundary, the last position is evaluated with no following difference. -/
def State.walkSample (s : State) (st : Stn) (t : TileNo) (meet : Meet) : State :=
  let T := s.tile st t
  match (if s.haltFrozen st then none else T.scu.walk) with
  | none => s
  | some w =>
    let k := w.prof.length
    let p := walkPixel w k
    let finish := fun (s : State) (w : Walk) (ended l : Nat) =>
      if l < 2 then s.walkEnd st t false ended l w.edges
      else match s.walkEdge st t meet w l (l - 1) 0 none with
      | (s, none) => s
      | (s, some w) => s.walkEnd st t false ended l w.edges
    if T.walkWaits w p then s
    else if !walkInside T.scu p then finish s w 1 k
    else
      let off := walkOffset T.scu p
      match s.dataState st t off 1 with
      | .off => s.walkEnd st t true 4 k w.edges
      | .bad => (s.recordUe st t off 1).walkEnd st t true 4 k w.edges
      | .ok =>
        let s := (s.countCe st t off 1).met st t meet true false
        let w := { w with prof := w.sample s st t off :: w.prof }
        let smp := fun (j : Nat) => ((w.prof.getD j 0).toNat : Int)
        let step := if 2 ≤ k then s.walkEdge st t meet w (k + 1) (k - 1) 1 (some (smp 0 - smp 1)) else (s, some w)
        match step with
        | (s, none) => s
        | (s, some w) =>
          if k + 1 = walkLen w then finish s w 0 (k + 1)
          else s.modTile st t fun T => { T with scu := { T.scu with walk := some w } }

end Sys2Proof.Machine
end

