-- ==== Sys2Proof/Machine/TileDecode.lean ====
section
/-! DEFINITION. Decoding of a tile instruction from its bytes (03 R71 to R92). -/

namespace Sys2Proof.Machine

/-- What decoding gives: a value, a line the buffer lacks, or a decode exception with its cause and efaddr (03 R88, R89). -/
inductive DRes (α : Type) where
  | ok (a : α)
  | need (line : Byte)
  | bad (cause : Byte) (efaddr : W64)
  deriving DecidableEq, Repr

def DRes.bind {α β : Type} : DRes α → (α → DRes β) → DRes β
  | .ok a, f => f a
  | .need l, _ => .need l
  | .bad c e, _ => .bad c e

/-- A trigger socket (03 R83, R85 to R87). -/
inductive Trig where
  | alu (n : Fin 2) (op : AluOp) | mac (n : Fin 2) (mode : MacMode) (accum : Bool) (k : Fin 4) | shf (op : ShfOp) | scu (op : ScuOp)
  | lsu (op : LsuOp) | wait (k : Fin 4) | lreq (k : Fin 4) | sadr (k : Fin 4) | blk | aadd | aswp
  | send (c : Fin 8) | mdst | mbox
  | jmp | call | ret | sys | eret | shield | rdcr | wrcr | idle
  deriving DecidableEq, Repr

/-- The unit a trigger belongs to, numbered (03 R84). -/
def Trig.unit : Trig → Nat
  | .alu n _ => n.val
  | .mac n _ _ _ => 2 + n.val
  | .shf _ => 4
  | .scu _ => 5
  | .lsu _ => 6
  | .wait _ | .lreq _ | .sadr _ | .blk | .aadd | .aswp => 7
  | .send _ | .mdst | .mbox => 8
  | .jmp | .call | .ret | .sys | .eret | .shield | .rdcr | .wrcr | .idle => 9

/-- A destination socket (03 R83). -/
inductive Dest where
  | reg (k : Fin 64) | pred (k : Fin 16) | opnd (u : Fin 8) | tail (k : Fin 4) | trig (t : Trig)
  deriving DecidableEq, Repr

/-- A source socket (03 R82). -/
inductive Source where
  | reg (k : Fin 64) | pred (k : Fin 16) | aluR (n : Fin 2) | macR (n : Fin 2) | shfR | scuR | lsuR | cuR | quR | nuR
  | acc (n : Fin 2) (k : Fin 4) | head (k : Fin 4) | headNow (k : Fin 4) | recv (c : Fin 8) | imm
  deriving DecidableEq, Repr

/-- Number n modulo m as an index. -/
def idx (m : Nat) [NeZero m] (n : Nat) : Fin m := Fin.ofNat m n

/-- The source socket of a byte, none where it is reserved (03 R82). -/
def sourceOf (b : Byte) : Option Source :=
  let x := b.toNat
  if x < 0x40 then some (.reg (idx 64 x))
  else if x < 0x50 then some (.pred (idx 16 (x - 0x40)))
  else if x < 0x52 then some (.aluR (idx 2 (x - 0x50)))
  else if x < 0x54 then some (.macR (idx 2 (x - 0x52)))
  else if x = 0x54 then some .shfR
  else if x = 0x55 then some .scuR
  else if x = 0x56 then some .lsuR
  else if x = 0x57 then some .cuR
  else if x = 0x58 then some .quR
  else if x = 0x59 then some .nuR
  else if x < 0x60 then none
  else if x < 0x68 then some (.acc (idx 2 ((x - 0x60) / 4)) (idx 4 (x - 0x60)))
  else if x < 0x6C then some (.head (idx 4 (x - 0x68)))
  else if x < 0x70 then some (.headNow (idx 4 (x - 0x6C)))
  else if x < 0x78 then some (.recv (idx 8 (x - 0x70)))
  else if x < 0x80 then none
  else if x < 0x88 then some .imm
  else if x < 0x90 then none
  else if x < 0xA0 then some .imm
  else none

/-- ALU operations by socket offset (03 R85). -/
def aluOps : List AluOp :=
  [.add, .addt, .sub, .subt, .and, .or, .xor, .andn, .cmpeq, .cmpne, .cmplt, .cmpltu, .min, .max, .minu, .maxu,
   .addw, .subw, .cmpeqw, .cmpltw, .addh, .subh, .cmpeqh, .cmplth]
def shfOps : List ShfOp := [.shl, .shr, .sar, .rol, .extu, .exts, .ins, .perm]
def scuOps : List ScuOp := [.grad, .thr, .census, .absd, .vcfg, .wimg, .wout, .walk]
def lsuOps : List LsuOp := [.ld8, .ld8s, .ld16, .ld16s, .ld32, .ld32s, .ld64, .st8, .st16, .st32, .st64]
def cuTrigs : List Trig := [.jmp, .call, .ret, .sys, .eret, .shield, .rdcr, .wrcr, .idle]
def macModes : List MacMode := [.m8, .q15, .q31]

/-- The MAC trigger at an offset from its unit's base (03 R86). -/
def macTrig (n : Fin 2) (o : Nat) : Trig :=
  .mac n (macModes.getD (o / 8) .m8) (o / 4 % 2 == 0) (idx 4 o)

/-- The destination socket of a byte, none where it is reserved (03 R83). -/
def destOf (b : Byte) : Option Dest :=
  let x := b.toNat
  if x < 0x40 then some (.reg (idx 64 x))
  else if x < 0x50 then some (.pred (idx 16 (x - 0x40)))
  else if x < 0x58 then some (.opnd (idx 8 (x - 0x50)))
  else if x < 0x5C then some (.tail (idx 4 (x - 0x58)))
  else if x < 0x60 then some (.trig (.wait (idx 4 (x - 0x5C))))
  else if x < 0x68 then some (.trig (.send (idx 8 (x - 0x60))))
  else if x = 0x68 then some (.trig .mdst)
  else if x = 0x69 then some (.trig .mbox)
  else if x < 0x70 then none
  else if x < 0x88 then some (.trig (.alu 0 (aluOps.getD (x - 0x70) .add)))
  else if x < 0xA0 then some (.trig (.alu 1 (aluOps.getD (x - 0x88) .add)))
  else if x < 0xB8 then some (.trig (macTrig 0 (x - 0xA0)))
  else if x < 0xD0 then some (.trig (macTrig 1 (x - 0xB8)))
  else if x < 0xD8 then some (.trig (.shf (shfOps.getD (x - 0xD0) .shl)))
  else if x < 0xE0 then some (.trig (.scu (scuOps.getD (x - 0xD8) .grad)))
  else if x < 0xEB then some (.trig (.lsu (lsuOps.getD (x - 0xE0) .ld8)))
  else if x < 0xEF then some (.trig (.lreq (idx 4 (x - 0xEB))))
  else if x < 0xF3 then some (.trig (.sadr (idx 4 (x - 0xEF))))
  else if x = 0xF3 then some (.trig .blk)
  else if x = 0xF4 then some (.trig .aadd)
  else if x = 0xF5 then some (.trig .aswp)
  else if x < 0xFF then some (.trig (cuTrigs.getD (x - 0xF6) .jmp))
  else none

/-- Number of immediate bytes a source socket carries (03 R81). -/
def immLen (b : Byte) : Nat :=
  let x := b.toNat
  if x < 0x80 then 0 else if x < 0x82 then 1 else if x < 0x84 then 2 else if x < 0x87 then 4 else if x = 0x87 then 8 else 0

/-- The value an immediate class delivers (03 R81). -/
def immValue (b : Byte) (v : Nat) : W64 :=
  let w : W64 := BitVec.ofNat 64 v
  match b.toNat with
  | 0x80 => sext 64 (bits w 0 8)
  | 0x82 => sext 64 (bits w 0 16)
  | 0x84 => sext 64 (bits w 0 32)
  | 0x86 => w <<< 32
  | 0x81 | 0x83 | 0x85 | 0x87 => w
  | x => BitVec.ofNat 64 (x % 16)

/-- One move (03 R79): its source with the socket byte, its destination with the offset of its socket byte, its guard (a predicate
and whether it is negated), and its immediate value. -/
structure Move where
  src : Source
  srcByte : Byte
  dst : Dest
  dstByte : Byte
  dpos : Nat
  guard : Option (Fin 16 × Bool)
  imm : W64
  deriving DecidableEq, Repr

/-- A repeat prefix (03 R73): the uninterruptible form or not, with an immediate count or a count register. -/
structure Rep where
  unint : Bool
  count : Nat
  reg : Option (Fin 64)
  deriving DecidableEq, Repr

/-- The prefixes of an instruction (03 R73). -/
structure Prefixes where
  cond : Option (Fin 16) := none
  rep : Option Rep := none
  prec : Bool := false
  seg : Option (Fin 8) := none
  deriving DecidableEq, Repr

/-- A decoded instruction and its length. -/
structure Insn where
  pre : Prefixes
  moves : List Move
  len : Nat
  deriving DecidableEq, Repr

section
variable (fetch : Nat → DRes Byte)

/-- A condition found at byte p. -/
def badAt {α : Type} (cause : Byte) (p : Nat) : DRes α := .bad cause (BitVec.ofNat 64 p)

/-- Prefixes from byte p on; `rank` is the rank of the prefix before. Answers the prefixes, the offset of the head byte and the
head byte (03 R73 to R76). -/
def decPrefixes : Nat → Nat → Prefixes → Nat → DRes (Prefixes × Nat × Byte)
  | 0, _, _, p => badAt 0x01 p
  | fuel + 1, rank, pre, p =>
    (fetch p).bind fun b =>
    if b.toNat < 0xE0 then .ok (pre, p, b)
    else if 0xF6 ≤ b.toNat then badAt 0x02 p
    else
      let r := if b.toNat < 0xF0 then 1 else if b.toNat < 0xF4 then 2 else if b.toNat = 0xF4 then 3 else 4
      if r ≤ rank then badAt 0x01 p
      else if r = 1 then decPrefixes fuel r { pre with cond := some (idx 16 b.toNat) } (p + 1)
      else if r = 3 then decPrefixes fuel r { pre with prec := true } (p + 1)
      else
        (fetch (p + 1)).bind fun f =>
        if b.toNat < 0xF2 then
          decPrefixes fuel r
            { pre with rep := some ⟨b.toNat == 0xF1, if f = 0 then 256 else f.toNat, none⟩ } (p + 2)
        else if b.toNat < 0xF4 then
          (if 64 ≤ f.toNat then badAt 0x02 (p + 1)
           else decPrefixes fuel r { pre with rep := some ⟨b.toNat == 0xF3, 0, some (idx 64 f.toNat)⟩ } (p + 2))
        else
          (if 8 ≤ f.toNat then badAt 0x02 (p + 1)
           else decPrefixes fuel r { pre with seg := some (idx 8 f.toNat) } (p + 2))

/-- The repeat prefix at byte p, once it is decoded whole (03 R75). -/
def repAt (p : Nat) : Option Rep :=
  match fetch p, fetch (p + 1) with
  | .ok b, .ok f =>
    if b.toNat < 0xF0 ∨ 0xF4 ≤ b.toNat then none
    else if b.toNat < 0xF2 then some ⟨b.toNat == 0xF1, if f = 0 then 256 else f.toNat, none⟩
    else if f.toNat < 64 then some ⟨b.toNat == 0xF3, 0, some (idx 64 f.toNat)⟩
    else none
  | _, _ => none

/-- The repeat prefix of the instruction at a, decoded also where a later byte refuses the instruction (03 R74, R88; 05 R141). -/
def decodedRep (a : Nat) : Option Rep :=
  match fetch a with
  | .ok b => repAt fetch (if 0xE0 ≤ b.toNat ∧ b.toNat < 0xF0 then a + 1 else a)
  | _ => none

/-- n immediate bytes from byte p on, least significant first. -/
def decImm : Nat → Nat → DRes Nat
  | 0, _ => .ok 0
  | n + 1, p => (fetch p).bind fun b => (decImm n (p + 1)).bind fun r => .ok (b.toNat + 256 * r)

/-- The guard byte, where the mask gives one (03 R80). -/
def decGuard (present : Bool) (p : Nat) : DRes (Option (Fin 16 × Bool)) :=
  if present then
    (fetch p).bind fun g => if 32 ≤ g.toNat then badAt 0x02 p else .ok (some (idx 16 g.toNat, bit g 4))
  else .ok none

/-- n moves from byte p on; k is the number of the first (03 R79). -/
def decMoves (mask : Byte) : Nat → Nat → Nat → DRes (List Move × Nat)
  | 0, _, p => .ok ([], p)
  | n + 1, k, p =>
    (fetch p).bind fun sb =>
    match sourceOf sb with
    | none => badAt 0x02 p
    | some src =>
      (fetch (p + 1)).bind fun db =>
      match destOf db with
      | none => badAt 0x02 (p + 1)
      | some dst =>
        (decGuard fetch (bit mask k) (p + 2)).bind fun g =>
        let q := if bit mask k then p + 3 else p + 2
        (decImm fetch (immLen sb) q).bind fun v =>
        (decMoves mask n (k + 1) (q + immLen sb)).bind fun r =>
        .ok (⟨src, sb, dst, db, p + 1, g, immValue sb v⟩ :: r.1, r.2)

/-- Decode the instruction whose first byte is at a (03 R88). -/
def decodeInsn (a : Nat) : DRes Insn :=
  (decPrefixes fetch 5 0 {} a).bind fun (pre, p, h) =>
  if 32 ≤ h.toNat ∨ 8 < nat h 0 4 then badAt 0x02 p
  else
    let cnt := nat h 0 4
    if bit h 4 then
      (fetch (p + 1)).bind fun mask =>
      if 2 ^ cnt ≤ mask.toNat then badAt 0x01 (p + 1)
      else (decMoves fetch mask cnt 0 (p + 2)).bind fun r => .ok ⟨pre, r.1, r.2 - a⟩
    else (decMoves fetch 0 cnt 0 (p + 1)).bind fun r => .ok ⟨pre, r.1, r.2 - a⟩

end

/-! ### Fetch through the instruction buffer (02 R59, R61, R62; 03 R92) -/

/-- The byte at offset p as the tile's decoder sees it. -/
def State.fetchByte (s : State) (st : Stn) (t : TileNo) (p : Nat) : DRes Byte :=
  if 0x10000 ≤ p then .bad 0x01 0x10000
  else
    let l : Byte := BitVec.ofNat 8 (p / 256)
    match (s.tile st t).buf.find? (·.line == l) with
    | none => .need l
    | some e => if e.bad then .bad 0x08 (BitVec.ofNat 64 (p / 256 * 256)) else .ok (s.byte (tileInsn st t p))

/-- Some instruction in the bytes of the line before ends just before offset a (03 R92). -/
def State.runsInto (s : State) (st : Stn) (t : TileNo) (a : Nat) : Bool :=
  let start := a / 256 * 256
  (List.range 95).any fun d =>
    let p := a - (d + 1)
    decide (d + 1 ≤ a) && decide (p < start) && decide (start ≤ p + 256) &&
    (match decodeInsn (fun i => if 0x10000 ≤ i then .bad 0x01 0x10000 else .ok (s.byte (tileInsn st t i))) p with
     | .ok i => p + i.len == a
     | _ => false)

/-- The line that the instruction at a still needs. -/
def State.needOf (s : State) (st : Stn) (t : TileNo) (a : Nat) : List Byte :=
  match decodeInsn (s.fetchByte st t) a with
  | .need l => [l]
  | _ => []

/-- CRC-32C of an instruction line (02 R60). -/
def State.lineCrc (s : State) (st : Stn) (t : TileNo) (l : Byte) : W32 :=
  crc32c (s.bytes (tileInsn st t (256 * l.toNat)) 256)

/-- The stored CRC of a line (02 R59). -/
def State.storedCrc (s : State) (st : Stn) (t : TileNo) (l : Byte) : W32 := s.reg (tileReg st t (0x1000 + 4 * l.toNat))

/-- Lines an instruction of len bytes at a touches. -/
def linesOf (a len : Nat) : List Byte :=
  (List.range ((a + len - 1) / 256 + 1 - a / 256)).map fun i => BitVec.ofNat 8 (a / 256 + i)

/-- The target of a control transfer that is pending in its delay slots. -/
def Tile.target (T : Tile) : Option Nat :=
  match T.pkind with
  | .jmp | .call | .ret => some (nat T.pendVal 0 16)
  | _ => none

/-- A line fill is wanted unless the line is there. A line that is needed comes next after the fill in progress; one that a delay slot
needs comes before that of the transfer's target (02 R61, 03 R92, R93). -/
def Tile.wantLine (T : Tile) (l : Byte) (needed : Bool) : Tile :=
  if T.buf.any (·.line == l) then T
  else match T.fills with
  | [] => { T with fills := [l] }
  | f :: rest =>
    if f = l then T
    else if needed then
      { T with fills := if T.slot ≠ 0 ∧ T.target.map (· / 256) = some f.toNat then l :: f :: rest.erase l else f :: l :: rest.erase l }
    else if rest.contains l then T
    else { T with fills := f :: rest ++ [l] }

/-- The lines that the tile waits for, in the order of their fills, when none is in progress: that of the instruction at pc, then those
of the transfer's target (03 R92, R93). They come before what is only prefetched. -/
def State.neededLines (s : State) (st : Stn) (t : TileNo) : List Byte :=
  let T := s.tile st t
  (s.needOf st t T.pc.toNat ++ (match T.target with
    | some a => s.needOf st t a
    | none => [])).eraseDups
def Tile.demand (T : Tile) (ls : List Byte) : Tile := { T with fills := ls ++ T.fills.filter fun l => !ls.contains l }

end Sys2Proof.Machine
end

