-- ==== Sys2Proof/Machine/Issue.lean ====
section
/-! DEFINITION. Issue of an instruction in four phases, and what a tile takes at a boundary (02 R36 to R58; 05 R135 to R159). -/

namespace Sys2Proof.Machine

/-! ### Phase 4: triggers -/

/-- The trigger of a socket with value b. -/
def fireTrig (c : Ctx) (x : Trig) (b : W64) (s : State) : TOut :=
  match x with
  | .alu n op => fireAlu c n op b s
  | .mac n mode accum k => fireMac c n mode accum k b s
  | .shf op => fireShf c op b s
  | .scu .vcfg => fireVcfg c b s
  | .scu .wimg => fireWimg c b s
  | .scu .wout => fireWout c b s
  | .scu .walk => fireWalk c b s
  | .scu op => fireVector c op b s
  | .lsu op => fireLsu c op b s
  | .wait k => fireWait c k b s
  | .lreq k => fireLreq c k b s
  | .sadr k => fireSadr c k b s
  | .blk => fireBlk c b s
  | .aadd => fireAtomic c false b s
  | .aswp => fireAtomic c true b s
  | .send ch => fireSend c ch b s
  | .mdst => fireMdst c b s
  | .mbox => fireMbox c b s
  | .jmp => fireJmp c b s
  | .call => fireCall c b s
  | .ret => fireRet c s
  | .sys => fireSys c b s
  | .eret => fireEret c s
  | .shield => fireShield c b s
  | .rdcr => fireRdcr c b s
  | .wrcr => fireWrcr c b s
  | .idle => fireIdle c s

/-! ### Phase 1: guards (02 R36, R38) -/

def Tile.pred (T : Tile) (k : Fin 16) : Bool := k == 0 || bit T.preds k.val

def Move.enabled (T : Tile) (m : Move) : Bool :=
  match m.guard with
  | none => true
  | some (k, neg) => T.pred k != neg

/-- The enabled moves, in bus order. -/
def Insn.enabled (T : Tile) (i : Insn) : List Move :=
  match i.pre.cond with
  | some k => if T.pred k then i.moves.filter (Move.enabled T) else []
  | none => i.moves.filter (Move.enabled T)

/-- Two enabled moves conflict: one destination, or triggers of one unit (02 R38). -/
def movesConflict (m n : Move) : Bool :=
  m.dstByte == n.dstByte || (match m.dst, n.dst with
    | .trig x, .trig y => x.unit == y.unit
    | _, _ => false)

/-- Offset of the destination socket of the conflicting move on the highest bus (03 R89): the last that conflicts with one before. -/
def duplicate (ms : List Move) : Option Nat :=
  (((List.range ms.length).filterMap fun i => ms[i]?.bind fun m =>
    if (ms.take i).any (movesConflict m) then some m.dpos else none).getLast?)

/-! ### Register-port over-subscription (02 R52, R53) -/

def Insn.reads (i : Insn) (fileB : Bool) : Nat :=
  ((i.moves.filterMap fun m => match m.src with
    | .reg k => if decide (32 ≤ k.val) = fileB then some k else none
    | _ => none).eraseDups).length

def Insn.writes (i : Insn) (fileB : Bool) : Nat :=
  (i.moves.filterMap fun m => match m.dst with
    | .reg k => if decide (32 ≤ k.val) = fileB then some k else none
    | _ => none).length

/-- The first over-subscribed port, as efaddr names it. -/
def Insn.overPort (i : Insn) : Option W64 :=
  if 4 < i.reads false then some 0x100
  else if 4 < i.writes false then some 0x101
  else if 4 < i.reads true then some 0x102
  else if 4 < i.writes true then some 0x103
  else none

/-- Tile cycles of issue (02 R52). -/
def Insn.cycles (i : Insn) : Nat := if i.overPort.isSome then 2 else 1

/-- Strict mode of a tile (02 R69). -/
def State.strict (s : State) (st : Stn) (t : TileNo) : Bool :=
  s.rbit (stnReg st (if t.val < 32 then 0x180 else 0x184)) (t.val % 32)

/-! ### Phase 2: reads -/

/-- Read one source (02 R45, R46, R50, R55; 08 R236, R240; 07 R203, R206). -/
def readSource (s0 : State) (st : Stn) (t : TileNo) (m : Move) (s : State) : ROut :=
  let T := s0.tile st t
  let ready := fun (b : Bool) (v : W64) => if b then ROut.stall false else ROut.val v s
  match m.src with
  | .imm => .val m.imm s
  | .reg k => .val T.q[k] s
  | .pred k => .val (flag (T.pred k)) s
  | .aluR n => ready (T.busy (.alu n)) T.aluR[n]
  | .macR n => ready (T.busy (.mac n)) (match T.macLast[n] with
      | none => 0
      | some k => (macRRead T.fxm T.acc[n][k]).1)
  | .shfR => ready (T.busy .shf) T.shfR
  | .scuR => ready (T.busy .scu || T.scu.walk.isSome) T.scuR
  | .lsuR => .val (T.ld3.getD T.lsuR) s
  | .cuR => .val T.cuR s
  | .acc n k =>
    if T.accBusy n k then .stall false
    else
      let r := accRead T.fxm T.acc[n][k]
      .val r.1 (if r.2 then s.modTile st t fun T => { T with fxm := putBit T.fxm 16 true } else s)
  | .quR =>
    match T.qu.shown with
    | .zero => .val 0 s
    | .status k out => .val (quStatus T.qu k out) s
    | .atomicPending _ => .stall true
    | .value v => .val v s
  | .nuR =>
    match T.nu.shown with
    | .zero => .val 0 s
    | .status c => .val (nuStatus T.nu c) s
    | .takePending => .stall false
    | .value v => .val v s
  | .head k =>
    match T.qu.lq[k].entries with
    | .arrived v :: rest => .val v (s.modTile st t fun T =>
        { T with qu := { T.qu with lq := T.qu.lq.set k { T.qu.lq[k] with entries := rest } } })
    | .failed a :: _ => .fault s0 0x07 (zext 64 a)
    | _ => .stall true
  | .headNow k =>
    match (if T.qu.lq[k].block.isSome then [] else T.qu.lq[k].entries) with
    | .arrived v :: rest => .val v (s.modTile st t fun T =>
        { T with qu := { T.qu with lq := T.qu.lq.set k { T.qu.lq[k] with entries := rest } } })
    | .failed a :: _ => .fault s0 0x07 (zext 64 a)
    | _ =>
      if s0.strict st t then .fault s0 0x0B (BitVec.ofNat 64 (0x200 + k.val))
      else .val 0 ((s.modTile st t fun T => { T with qu := { T.qu with ne := true } }).setFlag (tileReg st t 0x218) 2)
  | .recv c => readRecv s0 st t c s

/-- A read sets OVS (04 R111). -/
def Move.setsOvs (T : Tile) (m : Move) : Bool :=
  match m.src with
  | .acc n k => (accRead T.fxm T.acc[n][k]).2
  | _ => false

/-- A read sets NE (08 R236). -/
def Move.setsNe (T : Tile) (m : Move) : Bool :=
  match m.src with
  | .headNow k => T.qu.lq[k].block.isSome || (match T.qu.lq[k].entries with
      | [] => true
      | .reserved .. :: _ => true
      | _ => false)
  | _ => false

/-- What the reads of an instruction give: values by source socket byte, immediates aside. -/
inductive RAll where
  | vals (vs : List (Byte × W64)) (s : State)
  | stall (queueWait : Bool)
  | fault (s : State) (cause : Byte) (efaddr : W64)
  deriving DecidableEq, Repr

/-- Read the sources of the moves in bus order; a source that two moves name is read once (02 R39). -/
def readMoves (s0 : State) (st : Stn) (t : TileNo) : List Move → List (Byte × W64) → State → RAll
  | [], vs, s => .vals vs s
  | m :: ms, vs, s =>
    if m.src = .imm ∨ (vs.lookup m.srcByte).isSome then readMoves s0 st t ms vs s
    else match readSource s0 st t m s with
    | .val v s => readMoves s0 st t ms ((m.srcByte, v) :: vs) s
    | .stall q => .stall q
    | .fault s c e => .fault s c e

/-- The value a move carries. -/
def Move.value (vs : List (Byte × W64)) (m : Move) : W64 :=
  if m.src = .imm then m.imm else (vs.lookup m.srcByte).getD 0

/-! ### Phase 3: writes (02 R36, R43, R49, R50; 08 R237) -/

def Tile.write (T : Tile) (d : Dest) (v : W64) : Tile :=
  match d with
  | .reg k => { T with q := T.q.set k v }
  | .pred k => if k = 0 then T else { T with preds := putBit T.preds k.val (bit v 0) }
  | .opnd u => { T with opnd := T.opnd.set u v }
  | .tail k => T.pushTail k v
  | .trig _ => T

def Tile.writeAll (T : Tile) (vs : List (Byte × W64)) (ms : List Move) : Tile :=
  ms.foldl (fun T m => T.write m.dst (m.value vs)) T

/-- A tail write of the instruction must wait. -/
def tailWaits (T : Tile) (ms : List Move) : Bool :=
  ms.any fun m => match m.dst with
    | .tail k => T.tailFull k
    | _ => false

/-- The bytes of tile data memory that a move's store writes over, as the instruction finds them (04 R118). -/
def State.overwritten (s : State) (st : Stn) (t : TileNo) (vs : List (Byte × W64)) (m : Move) : List (Nat × Byte) :=
  match m.dst with
  | .trig (.lsu op) =>
    if lsuStores op then (List.range (lsuSize op)).map fun i =>
      let off := (m.value vs).toNat + i
      (off, s.byte (tileData st t off))
    else []
  | _ => []

/-- Triggers in bus order. -/
def fireMoves (c : Ctx) (vs : List (Byte × W64)) : List Move → State → TOut
  | [], s => .done s
  | m :: ms, s =>
    match m.dst with
    | .trig x =>
      (fireTrig { c with dst := BitVec.ofNat 64 m.dpos } x (m.value vs) s).bind (fireMoves c vs ms)
    | _ => fireMoves c vs ms s

/-- A trigger of mac or scu: its effects come after those of the other units. -/
def Move.late (m : Move) : Bool :=
  match m.dst with
  | .trig (.mac ..) | .trig (.scu _) => true
  | _ => false

/-- The triggers of an instruction. The first in bus order that waits or raises an exception decides; else the lsu stores before the
scu (02 R65), and a MAC overflow sets OVS after a write of 1 to it (04 R110). -/
def fireAll (c : Ctx) (vs : List (Byte × W64)) (ms : List Move) (s : State) : TOut :=
  if ms.any Move.late then
    match fireMoves c vs ms s with
    | .done _ => fireMoves c vs (ms.filter (!Move.late ·) ++ ms.filter Move.late) s
    | out => out
  else fireMoves c vs ms s

/-! ### What completing an instruction does besides its moves -/

/-- The tile as the instruction's writes find it: the psw of a shadow applies next (05 R139), the load line moves (02 R56),
operations in flight grow older (05 R158), and n cycles of the deferral window go by (05 R147). -/
def Tile.turn (T : Tile) (n : Nat) : Tile :=
  { T with
    psw := T.pswNext.getD T.psw, pswNext := none
    lsuR := T.ld3.getD T.lsuR, ld3 := T.ld2, ld2 := T.ld1, ld1 := none
    flights := T.flights.map fun f => { f with age := f.age + 1 }
    window := windowTick T.window n, waiting := false, conflict := none }

/-- The instruction at a is the first that begins in its line (03 R92): it stands at the line's start, or an instruction that began
in the line before ends just before it. Where the tile has just run on from an instruction, that one decides; else one that the bytes
of the line before hold (log entry 69). -/
def State.firstInLine (s : State) (st : Stn) (t : TileNo) (T : Tile) (a : Nat) : Bool :=
  decide (a % 256 = 0) || (match T.prevLine with
    | some l => l == BitVec.ofNat 8 (a / 256 + 255)
    | none => s.runsInto st t a)

/-- The lines of an instruction become the most recently used; the first instruction that begins in a line makes the next line
wanted, up to line 255 (02 R61, 03 R92). -/
def Tile.touchLines (T : Tile) (first : Bool) (a len : Nat) : Tile :=
  let ls := linesOf a len
  let T := { T with buf := T.buf.filter (fun e => ls.contains e.line) ++ T.buf.filter fun e => !ls.contains e.line }
  if a / 256 < 255 ∧ first then T.wantLine (BitVec.ofNat 8 (a / 256 + 1)) false else T

/-- The target line of a pending transfer is wanted from the transferring instruction on (02 R61, 03 R93). -/
def Tile.wantTarget (T : Tile) : Tile :=
  match T.target with
  | some a => T.wantLine (BitVec.ofNat 8 (a / 256)) true
  | none => T

/-- The instruction after slot 2, or after any other instruction, begins: a transfer takes effect, a `sys` falls due (05 R135,
R136, R138). `next` is the offset that follows in sequence. An `eret` is answered by the caller. -/
def Tile.advance (T : Tile) (old : Tile) (next : W16) : Tile :=
  if old.slot = 0 then
    { T with pc := next, slot := if T.pkind ≠ .none ∧ old.pkind = .none then 1 else 0 }
  else if old.slot = 1 then { T with pc := next, slot := 2 }
  else
    match T.pkind with
    | .none => { T with pc := next, slot := 0 }
    | .jmp => { T with pc := bits T.pendVal 0 16, slot := 0, pkind := .none, pendVal := 0 }
    | .call => { T.pushReturn next with pc := bits T.pendVal 0 16, slot := 0, pkind := .none, pendVal := 0 }
    | .ret => { T with pc := bits T.pendVal 0 16, slot := 0, pkind := .none, pendVal := 0 }
    | .sys => { T with pc := next, slot := 0 }
    | .eret => { T with slot := 0, pkind := .none }

/-- Finish an instruction or iteration (02 R54, R68; 05 R135, R141, R147, R159). `rep` is the count before this iteration, for a
repeated instruction. -/
def State.finish (s : State) (st : Stn) (t : TileNo) (old : Tile) (i : Insn) (rep : Option Nat) : State :=
  let s := s.bump (tileReg st t 0x200) 1
  let s := if i.cycles = 2 then s.bump (tileReg st t 0x208) 1 else s
  let T := s.tile st t
  let T := (if old.pkind = .none then T.wantTarget else T).touchLines (s.firstInLine st t T old.pc.toNat) old.pc.toNat i.len
  let T := if i.pre.prec || pswPrec old.psw then T.holdNew else T
  let next := old.pc + BitVec.ofNat 16 i.len
  match rep with
  | some (n + 2) => s.setTile st t { T with rc := BitVec.ofNat 16 (n + 1), rip := true }
  | _ =>
    let T := if rep.isSome then
        { T with rc := 0, rip := false, repu := false,
                 window := match T.window with
                   | some w => if w.byRepu && old.repu then none else some w
                   | none => none }
      else T
    let back := decide (old.slot = 2) && T.pkind == .eret
    let T1 := { T.advance old next with
      prevLine := if old.slot = 2 ∧ T.pkind ≠ .none then none else some (bits old.pc 8 8) }
    if back then (s.setTile st t { T1 with pendVal := T.pendVal }).eretReturn st t old.pc
    else s.setTile st t T1

/-! ### Execution of one instruction or iteration -/

/-- A move reads `qu.r` or triggers the queue unit (08 R245). -/
def Move.usesQu (m : Move) : Bool :=
  m.src == .quR || (match m.dst with
    | .trig x => x.unit == 7
    | _ => false)

/-- The count of a repeat at its first iteration (03 R75, 05 R141). -/
def repCount (T : Tile) (r : Rep) : Nat :=
  match r.reg with
  | none => r.count
  | some k => nat T.q[k] 0 16

/-- An iteration after the first is due: `rc` has left the count of the prefix (05 R141, 06 R180, log entry 78). -/
def Tile.pastFirst (T : Tile) (i : Insn) : Bool :=
  T.rip && (match i.pre.rep with
    | some r => T.rc.toNat != repCount T r
    | none => true)

/-- Exceptions of execution that precede the reads (02 R53; 06 R179, R180; 07 R210; 08 R245). -/
def State.execFault (s : State) (st : Stn) (t : TileNo) (i : Insn) (ms : List Move) : Option (Byte × W64) :=
  let T := s.tile st t
  let fetch := if T.pastFirst i then none
    else s.segCheck st T 6 .fetch false false true anyAlign [((0x20000 + T.pc.toNat : Int), i.len)]
  match fetch with
  | some x => some x
  | none =>
    match T.conflict with
    | some sel => some (0x0B, BitVec.ofNat 64 (0x1000 + sel.toNat))
    | none =>
      match (if s.strict st t then i.overPort else none) with
      | some e => some (0x0B, e)
      | none =>
        match T.qu.atomicFail with
        | some a => if ms.any Move.usesQu then some (0x07, zext 64 a) else none
        | none => none

/-- The state an exception of execution is taken from: what it reports is no longer pending (07 R210, 08 R245). -/
def Tile.faultTaken (T : Tile) (cause : Byte) (efaddr : W64) : Tile :=
  { T with
    conflict := if cause = 0x0B ∧ 0x1000 ≤ efaddr.toNat then none else T.conflict
    qu := { T.qu with atomicFail := if cause = 0x07 then none else T.qu.atomicFail } }

/-- The moves of an instruction in four phases (02 R36): done without what finishing does, waiting, or an exception. -/
def State.runMoves (s : State) (st : Stn) (t : TileNo) (i : Insn) (ms : List Move) : TOut :=
  let T := s.tile st t
  match readMoves s st t ms [] s with
  | .stall q => .stall q
  | .fault s c e => .fault s c e
  | .vals vs s1 =>
    if tailWaits T ms then .stall true
    else
      let c : Ctx := ⟨st, t, i.pre.seg, s, ms.any (Move.setsOvs T), ms.any (Move.setsNe T), 0, ms.flatMap (s.overwritten st t vs)⟩
      fireAll c vs ms (s1.modTile st t fun T => (T.turn i.cycles).writeAll vs ms)

/-- The repeat that governs this iteration, as the count still to run and whether it is uninterruptible: the one in progress, whose
prefix is not decoded again (05 R143, R156), else the one the prefix begins. -/
def Tile.repeating (T : Tile) (i : Insn) : Option (Nat × Bool) :=
  if T.rip then some (T.rc.toNat, T.repu) else i.pre.rep.map fun r => (repCount T r, r.unint)

/-- Execute the instruction at pc, or one iteration of it (05 R141 to R143). The window of a `repu` opens as its first iteration completes
(R147, log entry 76). -/
def State.execute (s : State) (st : Stn) (t : TileNo) (i : Insn) : TOut :=
  let T := s.tile st t
  match T.repeating i with
  | none =>
    let ms := i.enabled T
    match duplicate ms with
    | some p => .fault s 0x01 (BitVec.ofNat 64 p)
    | none =>
      match s.execFault st t i ms with
      | some (c, e) => .fault (s.modTile st t fun T => T.faultTaken c e) c e
      | none => (s.runMoves st t i ms).bind fun s1 => .done (s1.finish st t T i none)
  | some (n, unint) =>
    if n = 0 then
      match s.execFault st t i [] with
      | some (c, e) => .fault (s.modTile st t fun T => T.faultTaken c e) c e
      | none => .done ((s.modTile st t fun T => { T.turn i.cycles with rc := 0, rip := false, repu := false }).finish st t T i none)
    else
      let T0 := { T with rc := BitVec.ofNat 16 n, rip := true, repu := unint }
      let s0 := s.setTile st t T0
      let ms := i.enabled T
      match duplicate ms with
      | some p => .fault s0 0x01 (BitVec.ofNat 64 p)
      | none =>
        match s.execFault st t i ms with
        | some (c, e) => .fault (s0.modTile st t fun T => T.faultTaken c e) c e
        | none =>
          let opens := !T.rip && unint && T.window.isNone
          match s0.runMoves st t i ms with
          | .stall q => .stall q
          | .fault s c e => .fault s c e
          | .done s1 =>
            let s1 := if opens then s1.modTile st t fun T =>
                if T.window.isNone then { T with window := Window.start (s.shcap st t) (s.shcap st t) true } else T
              else s1
            .done (s1.finish st t T0 i (some n))

/-! ### Boundaries (05 R146, R148, R149) -/

/-- The interrupt line that qualifies, lowest first (05 R146). -/
def Tile.irq (T : Tile) : Option Nat :=
  if pswIe T.psw && pswTv T.psw && decide (pswLvl T.psw < 2) && T.window.isNone then
    (List.range 16).find? fun k => bit (T.ipend &&& pswImask T.psw) k
  else none

/-- Take the pending arithmetic report, once every other operation in flight has passed its check (05 R149, R158). -/
def State.takeReport (s : State) (st : Stn) (t : TileNo) (r : Report) : State :=
  (s.modTile st t fun T => { T with report := none }).enter st t
    { cause := 0x09, efaddr := zext 64 r.trig, unit := r.unit, imp := r.imp, ilost := r.ilost, late := r.late, idet := r.idet }

/-- Before an entry every operation in flight passes its check; a report it makes is taken first (05 R149). -/
def State.drained (s : State) (st : Stn) (t : TileNo) (f : State → State) : State :=
  let T := (s.tile st t).drain
  match T.report with
  | some r => (s.setTile st t T).takeReport st t r
  | none => f (s.setTile st t T)

/-- Take an exception at this boundary. -/
def State.takeExc (s : State) (st : Stn) (t : TileNo) (cause : Byte) (efaddr : W64) : State :=
  s.drained st t fun s => s.enter st t { cause := cause, efaddr := efaddr }

/-- Take an exception that an instruction raises and that leaves s1. A report made by an operation in flight is taken first, from
the state s before the instruction, and the exception is found again after the return (05 R149). -/
def State.takeFault (s s1 : State) (st : Stn) (t : TileNo) (cause : Byte) (efaddr : W64) : State :=
  if (s.tile st t).drain.report.isSome then s.drained st t fun s => s else s1.takeExc st t cause efaddr

/-- Take the test request (05 R148, R149): ahead of a report already pending, after one that an operation in flight makes. -/
def State.takeTest (s : State) (st : Stn) (t : TileNo) : State :=
  if (s.tile st t).report.isSome then (s.modTile st t Tile.drain).enterTest st t
  else s.drained st t fun s => s.enterTest st t

/-- Take the tile-stop that was requested (05 R168, 08 R247): the tile shows stopped. -/
def State.takeStop (s : State) (st : Stn) (t : TileNo) : State :=
  s.modTile st t fun T => { T with
    run := .stopped, stopReq := false, testReq := false, window := none, waiting := false
    qu := { T.qu with atomicFail := none } }

/-- A stalled tile cycle (02 R51, R68). -/
def State.stalled (s : State) (st : Stn) (t : TileNo) : State :=
  (s.bump (tileReg st t 0x204) 1).modTile st t fun T => { T with window := windowTick T.window 1 }

/-- The repeat hazard: the lowest-numbered move that transfers control or is a wrcr (05 R144). -/
def Insn.hazard (i : Insn) : Option Nat :=
  match i.pre.rep with
  | none => none
  | some _ => (i.moves.find? fun m => match m.dst with
      | .trig .jmp | .trig .call | .trig .ret | .trig .sys | .trig .eret | .trig .wrcr => true
      | _ => false).map (·.dpos)

/-- Operations that may be reported no later complete now (05 R158). -/
def State.forceOld (s : State) (st : Stn) (t : TileNo) : State :=
  s.modTile st t fun T => if T.flights.any (fun f => decide (16 ≤ f.age)) then T.drainIf (fun f => decide (16 ≤ f.age)) else T

/-- The repeat prefix of the instruction at pc is decoded: `rc` is loaded with its count, unless a repeat is in progress (05 R141,
R143). -/
def State.loadCount (s : State) (st : Stn) (t : TileNo) : State :=
  let T := s.tile st t
  match (if T.rip then none else decodedRep (s.fetchByte st t) T.pc.toNat) with
  | some r => s.setTile st t { T with rc := BitVec.ofNat 16 (repCount T r) }
  | none => s

/-- What the tile does at this boundary (05 R148): the first of tile-stop, test request, arithmetic report, the wait for the checks of
a precise instruction (R159), system-call exception, decode exception, repeat hazard, execution fault, interrupt; else the
instruction or iteration itself. -/
def State.boundary (s : State) (st : Stn) (t : TileNo) : State :=
  if (s.tile st t).run ≠ .running ∨ s.haltFrozen st then s
  else
    let s := s.forceOld st t
    let T := s.tile st t
    if T.stopReq then s.takeStop st t
    else if T.testReq then s.takeTest st t
    else match T.report with
    | some _ => s.drained st t fun s => s
    | none =>
      if T.held then s.stalled st t
      else if T.slot = 0 ∧ T.pkind = .sys then
        (s.drained st t fun s =>
          (s.modTile st t fun T => { T with pkind := .none, pendVal := 0 }).enter st t { cause := 0x20, efaddr := T.pendVal })
      else
        let irq := if T.waiting then none else T.irq
        let takeIrq := fun (s : State) (k : Nat) => s.takeExc st t (BitVec.ofNat 8 (0x10 + k)) 0
        match decodeInsn (s.fetchByte st t) T.pc.toNat with
        | .bad c e => (s.loadCount st t).takeExc st t c e
        | .need l =>
          match irq with
          | some k => takeIrq s k
          | none => ((s.stalled st t).bump (tileReg st t 0x20C) 1).modTile st t fun T => T.wantLine l true
        | .ok i =>
          let s := s.loadCount st t
          match (if T.rip then none else i.hazard) with
          | some p => s.takeExc st t 0x03 (BitVec.ofNat 64 p)
          | none =>
            match s.execute st t i with
            | .fault s1 c e => s.takeFault s1 st t c e
            | .stall q =>
              match (if q then T.irq else irq) with
              | some k => takeIrq s k
              | none => (s.stalled st t).modTile st t fun T => { T with waiting := T.waiting || !q }
            | .done s1 =>
              match irq with
              | some k => takeIrq s k
              | none => s1

/-! ### Triggers that commands make by themselves (log entry 5) -/

/-- Phase 4 of one trigger: its effect, a stalled cycle, or the exception it raises; a trigger of the queue unit raises a pending
failure of an atomic instead (08 R245). -/
def State.trigger (s : State) (st : Stn) (t : TileNo) (seg : Option (Fin 8)) (x : Trig) (b : W64) : State :=
  if (s.tile st t).run ≠ .running ∨ s.haltFrozen st then s
  else match (if x.unit = 7 then (s.tile st t).qu.atomicFail else none) with
  | some a => s.takeFault (s.modTile st t fun T => T.faultTaken 0x07 (zext 64 a)) st t 0x07 (zext 64 a)
  | none =>
    match fireTrig (Ctx.alone s st t seg) x b s with
    | .done s1 =>
      let T := s.tile st t
      if pswPrec T.psw then s1.modTile st t fun U => U.holdFrom T.flights.length else s1
    | .stall _ => s.stalled st t
    | .fault s1 c e => s.takeFault s1 st t c e

end Sys2Proof.Machine
end

