-- ==== Sys2Proof/Machine/AluCmds.lean ====
section
/-! DEFINITION. Commands of the integer, multiply-accumulate and shift units: each is phase 4 of one trigger (02 R36; 04 R101 to R113). -/

namespace Sys2Proof.Machine

/-- ADD (R101). -/
def execAdd (st : Stn) (t : TileNo) (n : Fin 2) (b : W64) (s : State) : Host.Outcome State Fault Refusal :=
  .next (s.trigger st t none (.alu n .add) b)

/-- ADDT (R102). -/
def execAddt (st : Stn) (t : TileNo) (n : Fin 2) (b : W64) (s : State) : Host.Outcome State Fault Refusal :=
  .next (s.trigger st t none (.alu n .addt) b)

/-- SUB (R101). -/
def execSub (st : Stn) (t : TileNo) (n : Fin 2) (b : W64) (s : State) : Host.Outcome State Fault Refusal :=
  .next (s.trigger st t none (.alu n .sub) b)

/-- SUBT (R102). -/
def execSubt (st : Stn) (t : TileNo) (n : Fin 2) (b : W64) (s : State) : Host.Outcome State Fault Refusal :=
  .next (s.trigger st t none (.alu n .subt) b)

/-- AND (R101). -/
def execAnd (st : Stn) (t : TileNo) (n : Fin 2) (b : W64) (s : State) : Host.Outcome State Fault Refusal :=
  .next (s.trigger st t none (.alu n .and) b)

/-- OR (R101). -/
def execOr (st : Stn) (t : TileNo) (n : Fin 2) (b : W64) (s : State) : Host.Outcome State Fault Refusal :=
  .next (s.trigger st t none (.alu n .or) b)

/-- XOR (R101). -/
def execXor (st : Stn) (t : TileNo) (n : Fin 2) (b : W64) (s : State) : Host.Outcome State Fault Refusal :=
  .next (s.trigger st t none (.alu n .xor) b)

/-- ANDN (R101). -/
def execAndn (st : Stn) (t : TileNo) (n : Fin 2) (b : W64) (s : State) : Host.Outcome State Fault Refusal :=
  .next (s.trigger st t none (.alu n .andn) b)

/-- CMPEQ (R101). -/
def execCmpeq (st : Stn) (t : TileNo) (n : Fin 2) (b : W64) (s : State) : Host.Outcome State Fault Refusal :=
  .next (s.trigger st t none (.alu n .cmpeq) b)

/-- CMPNE (R101). -/
def execCmpne (st : Stn) (t : TileNo) (n : Fin 2) (b : W64) (s : State) : Host.Outcome State Fault Refusal :=
  .next (s.trigger st t none (.alu n .cmpne) b)

/-- CMPLT (R101). -/
def execCmplt (st : Stn) (t : TileNo) (n : Fin 2) (b : W64) (s : State) : Host.Outcome State Fault Refusal :=
  .next (s.trigger st t none (.alu n .cmplt) b)

/-- CMPLTU (R101). -/
def execCmpltu (st : Stn) (t : TileNo) (n : Fin 2) (b : W64) (s : State) : Host.Outcome State Fault Refusal :=
  .next (s.trigger st t none (.alu n .cmpltu) b)

/-- MIN (R101). -/
def execMin (st : Stn) (t : TileNo) (n : Fin 2) (b : W64) (s : State) : Host.Outcome State Fault Refusal :=
  .next (s.trigger st t none (.alu n .min) b)

/-- MAX (R101). -/
def execMax (st : Stn) (t : TileNo) (n : Fin 2) (b : W64) (s : State) : Host.Outcome State Fault Refusal :=
  .next (s.trigger st t none (.alu n .max) b)

/-- MINU (R101). -/
def execMinu (st : Stn) (t : TileNo) (n : Fin 2) (b : W64) (s : State) : Host.Outcome State Fault Refusal :=
  .next (s.trigger st t none (.alu n .minu) b)

/-- MAXU (R101). -/
def execMaxu (st : Stn) (t : TileNo) (n : Fin 2) (b : W64) (s : State) : Host.Outcome State Fault Refusal :=
  .next (s.trigger st t none (.alu n .maxu) b)

/-- ADDW (R101). -/
def execAddw (st : Stn) (t : TileNo) (n : Fin 2) (b : W64) (s : State) : Host.Outcome State Fault Refusal :=
  .next (s.trigger st t none (.alu n .addw) b)

/-- SUBW (R101). -/
def execSubw (st : Stn) (t : TileNo) (n : Fin 2) (b : W64) (s : State) : Host.Outcome State Fault Refusal :=
  .next (s.trigger st t none (.alu n .subw) b)

/-- CMPEQW (R101). -/
def execCmpeqw (st : Stn) (t : TileNo) (n : Fin 2) (b : W64) (s : State) : Host.Outcome State Fault Refusal :=
  .next (s.trigger st t none (.alu n .cmpeqw) b)

/-- CMPLTW (R101). -/
def execCmpltw (st : Stn) (t : TileNo) (n : Fin 2) (b : W64) (s : State) : Host.Outcome State Fault Refusal :=
  .next (s.trigger st t none (.alu n .cmpltw) b)

/-- ADDH (R101). -/
def execAddh (st : Stn) (t : TileNo) (n : Fin 2) (b : W64) (s : State) : Host.Outcome State Fault Refusal :=
  .next (s.trigger st t none (.alu n .addh) b)

/-- SUBH (R101). -/
def execSubh (st : Stn) (t : TileNo) (n : Fin 2) (b : W64) (s : State) : Host.Outcome State Fault Refusal :=
  .next (s.trigger st t none (.alu n .subh) b)

/-- CMPEQH (R101). -/
def execCmpeqh (st : Stn) (t : TileNo) (n : Fin 2) (b : W64) (s : State) : Host.Outcome State Fault Refusal :=
  .next (s.trigger st t none (.alu n .cmpeqh) b)

/-- CMPLTH (R101). -/
def execCmplth (st : Stn) (t : TileNo) (n : Fin 2) (b : W64) (s : State) : Host.Outcome State Fault Refusal :=
  .next (s.trigger st t none (.alu n .cmplth) b)

/-- MLA8 (R106). -/
def execMla8 (st : Stn) (t : TileNo) (n : Fin 2) (k : Fin 4) (b : W64) (s : State) : Host.Outcome State Fault Refusal :=
  .next (s.trigger st t none (.mac n .m8 true k) b)

/-- MUL8 (R106). -/
def execMul8 (st : Stn) (t : TileNo) (n : Fin 2) (k : Fin 4) (b : W64) (s : State) : Host.Outcome State Fault Refusal :=
  .next (s.trigger st t none (.mac n .m8 false k) b)

/-- MLA15 (R106). -/
def execMla15 (st : Stn) (t : TileNo) (n : Fin 2) (k : Fin 4) (b : W64) (s : State) : Host.Outcome State Fault Refusal :=
  .next (s.trigger st t none (.mac n .q15 true k) b)

/-- MUL15 (R106). -/
def execMul15 (st : Stn) (t : TileNo) (n : Fin 2) (k : Fin 4) (b : W64) (s : State) : Host.Outcome State Fault Refusal :=
  .next (s.trigger st t none (.mac n .q15 false k) b)

/-- MLA31 (R106). -/
def execMla31 (st : Stn) (t : TileNo) (n : Fin 2) (k : Fin 4) (b : W64) (s : State) : Host.Outcome State Fault Refusal :=
  .next (s.trigger st t none (.mac n .q31 true k) b)

/-- MUL31 (R106). -/
def execMul31 (st : Stn) (t : TileNo) (n : Fin 2) (k : Fin 4) (b : W64) (s : State) : Host.Outcome State Fault Refusal :=
  .next (s.trigger st t none (.mac n .q31 false k) b)

/-- SHL (R103). -/
def execShl (st : Stn) (t : TileNo) (b : W64) (s : State) : Host.Outcome State Fault Refusal :=
  .next (s.trigger st t none (.shf .shl) b)

/-- SHR (R103). -/
def execShr (st : Stn) (t : TileNo) (b : W64) (s : State) : Host.Outcome State Fault Refusal :=
  .next (s.trigger st t none (.shf .shr) b)

/-- SAR (R103). -/
def execSar (st : Stn) (t : TileNo) (b : W64) (s : State) : Host.Outcome State Fault Refusal :=
  .next (s.trigger st t none (.shf .sar) b)

/-- ROL (R103). -/
def execRol (st : Stn) (t : TileNo) (b : W64) (s : State) : Host.Outcome State Fault Refusal :=
  .next (s.trigger st t none (.shf .rol) b)

/-- EXTU (R103). -/
def execExtu (st : Stn) (t : TileNo) (b : W64) (s : State) : Host.Outcome State Fault Refusal :=
  .next (s.trigger st t none (.shf .extu) b)

/-- EXTS (R103). -/
def execExts (st : Stn) (t : TileNo) (b : W64) (s : State) : Host.Outcome State Fault Refusal :=
  .next (s.trigger st t none (.shf .exts) b)

/-- INS (R103). -/
def execIns (st : Stn) (t : TileNo) (b : W64) (s : State) : Host.Outcome State Fault Refusal :=
  .next (s.trigger st t none (.shf .ins) b)

/-- PERM (R103). -/
def execPerm (st : Stn) (t : TileNo) (b : W64) (s : State) : Host.Outcome State Fault Refusal :=
  .next (s.trigger st t none (.shf .perm) b)

end Sys2Proof.Machine
end

