-- ==== Sys2Proof/Machine/Banks.lean ====
section
/-! DEFINITION. Banks, their power states and zero-fill, error reports of each memory, scrubbers and the LP5 controllers
(08 R220 to R228, R248 to R252). -/

namespace Sys2Proof.Machine

/-! ### Power states (08 R223 to R226) -/

/-- Register that holds the state of a bank, and the position of its field. -/
def bankField : BankMem → Nat → Nat × Nat
  | .tile s t, b => (tileReg s t 0x21C, 2 * b)
  | .station s, b => (stnReg s (if b < 16 then 0x200 else 0x204), 2 * (b % 16))
  | .hall, b => (aHPWR, 2 * b)

/-- Register that shows a zero-fill running, and its bit. -/
def bankFillBit : BankMem → Nat → Nat × Nat
  | .tile s t, b => (tileReg s t 0x21C, 12 + b)
  | .station s, b => (stnReg s 0x20C, b)
  | .hall, b => (aHINIT, 16 + b)

def bankNo : BankMem → Nat → Nat
  | .tile s t, b => tileBankNo s t b
  | .station s, b => stnBankNo s b
  | .hall, b => hallBankNo b

/-- A memory of the Hall, or of a station that is there (00 R3). -/
def State.bankFitted (s : State) : BankMem → Bool
  | .tile st _ | .station st => s.fitted st
  | .hall => !s.inReset

/-- Number of banks. -/
def bankCount : BankMem → Nat
  | .tile .. => 4 | .station _ => 32 | .hall => 16

/-- A device address lies in a bank (02 R64, 08 R220). -/
def bankHolds (m : BankMem) (b a : Nat) : Bool :=
  match m with
  | .tile s t => decide (tileData s t 0 ≤ a) && decide (a < tileData s t 0x20000) && bankOf (a - tileData s t 0) == b
  | .station s => decide (stnBase s + b * 0x80000 ≤ a) && decide (a < stnBase s + (b + 1) * 0x80000)
  | .hall => decide (hallMem (b * 0x10000) ≤ a) && decide (a < hallMem ((b + 1) * 0x10000))

/-- The contents of a bank are lost, or zero with valid check bits. -/
def State.clearBank (s : State) (m : BankMem) (b : Nat) : State :=
  { s with mem := s.mem.filter (fun e => !bankHolds m b e.1), ecc := s.ecc.filter (fun e => !bankHolds m b e.1) }

def State.bankPower (s : State) (m : BankMem) (b : Nat) : Nat := s.fld (bankField m b).1 (bankField m b).2 2
def State.setBankPower (s : State) (m : BankMem) (b v : Nat) : State := s.setFld (bankField m b).1 (bankField m b).2 2 v
def State.filling (s : State) (m : BankMem) (b : Nat) : Bool := s.rbit (bankFillBit m b).1 (bankFillBit m b).2
def State.change (s : State) (m : BankMem) (b : Nat) : Option (Option (BitVec 2) × Option (BitVec 2)) :=
  s.bankChange.lookup (bankNo m b)
def State.setChange (s : State) (m : BankMem) (b : Nat) (x : Option (BitVec 2) × Option (BitVec 2)) : State :=
  { s with bankChange := smInsert s.bankChange (bankNo m b) x }
def State.endChange (s : State) (m : BankMem) (b : Nat) : State := { s with bankChange := smErase s.bankChange (bankNo m b) }

/-- The bank serves accesses. -/
def State.bankOn (s : State) : BankMem → Nat → Bool
  | .tile st t, b => s.tileBankOn st t b
  | .station st, b => s.stnBankOn st b
  | .hall, b => s.hallBankOn b

/-- A power state is requested for a bank; a field written 0b11 keeps its state (08 R224, R226). -/
def State.bankRequest (s : State) (m : BankMem) (b : Nat) (v : BitVec 2) : State :=
  if v = 3 then s
  else match s.change m b with
  | some (r, _) => s.setChange m b (r, some v)
  | none =>
    if s.filling m b then s.setChange m b (none, some v)
    else
      let cur := s.bankPower m b
      if cur = v.toNat then s
      else if cur = 2 ∨ v = 2 then s.setChange m b (some v, none)
      else (if v = 0 then s.clearBank m b else s).setBankPower m b v.toNat

/-- BANK_POWER_WRITE: the fields of TILE_DPWR, STN_BPWR0 (or 1 with hi) or DEV_HPWR. -/
def State.bankPowerWrite (s : State) (m : BankMem) (hi : Bool) (v : W32) : State :=
  if !s.bankFitted m then s else
  match m with
  | .tile .. => (List.range 4).foldl (fun s b => s.bankRequest m b (bits v (2 * b) 2)) s
  | .station _ => (List.range 16).foldl (fun s b => s.bankRequest m (if hi then 16 + b else b) (bits v (2 * b) 2)) s
  | .hall => (List.range 16).foldl (fun s b => s.bankRequest m b (bits v (2 * b) 2)) s

/-- BANK_POWER_CHANGE_END: the state is reached; a later request starts (08 R224). -/
def State.bankChangeEnd (s : State) (m : BankMem) (b : Nat) : State :=
  match s.change m b with
  | some (some v, later) =>
    let s := (s.endChange m b).setBankPower m b v.toNat
    let s := if v = 0 then s.clearBank m b else s
    match later with
    | none => s
    | some w => s.bankRequest m b w
  | _ => s

/-- The bits of a fill command start the zero-fill of banks that are on and not filling (08 R225). -/
def State.zeroFillStart (s : State) (m : BankMem) (fill : Nat → Bool) : State :=
  if !s.bankFitted m then s else
  (List.range (bankCount m)).foldl (init := s) fun s b =>
    if fill b && s.bankOn m b then s.setFld (bankFillBit m b).1 (bankFillBit m b).2 1 1 else s

/-- FILL bits of the register that starts a memory's zero-fill (08 R226). -/
def bankFillOf (m : BankMem) (v : W32) (b : Nat) : Bool :=
  match m with
  | .tile .. => bit v (8 + b)
  | _ => bit v b

/-- ZERO_FILL_END: every word holds zero; a change requested meanwhile takes effect (08 R225). -/
def State.zeroFillEnd (s : State) (m : BankMem) (b : Nat) : State :=
  if !s.filling m b then s
  else
    let later := (s.change m b).bind (·.2)
    let s := ((s.clearBank m b).endChange m b).setFld (bankFillBit m b).1 (bankFillBit m b).2 1 0
    match later with
    | none => s
    | some w => s.bankRequest m b w

/-! ### Error reports (08 R227, R250 to R252) -/

def lpReg (n : Fin 2) (off : Nat) : Nat := devReg (5 + n.val) off
def lpBase (n : Fin 2) : Nat := 0x1000000000 + n.val * 0x800000000
def aHMS : Nat := devReg 0 0x108

/-- n corrections in a memory. -/
def State.memCe (s : State) (m : FaultMem) (n : Nat) : State :=
  if n = 0 then s
  else match m with
  | .tile st t => s.bump (tileReg st t 0x210) n
  | .station st => (s.bump (stnReg st 0x214) n).setFlag (stnReg st 0x210) 1
  | .hall => (s.setFld aHMS 16 16 (min 0xFFFF (s.fld aHMS 16 16 + n))).setFlag aHMS 1
  | .lp5 c => (s.bump (lpReg c 8) n).setFlag (lpReg c 4) 4

/-- An uncorrectable word at a device address: the flag is set, the address kept if none is held. -/
def State.memUe (s : State) (m : FaultMem) (a : Nat) : State :=
  match m with
  | .tile st t =>
    let r := tileReg st t 0x218
    (if s.rbit r 0 then s else s.setFld r 16 14 ((a - tileData st t 0) / 8)).setFlag r 0
  | .station st =>
    let r := stnReg st 0x210
    (if s.rbit r 0 then s else s.setReg (stnReg st 0x218) (BitVec.ofNat 32 (a - stnBase st))).setFlag r 0
  | .hall => (if s.rbit aHMS 0 then s else s.setReg (devReg 0 0x10C) (BitVec.ofNat 32 (a - hallMem 0))).setFlag aHMS 0
  | .lp5 c =>
    let r := lpReg c 4
    (if s.rbit r 5 then s
     else (s.setReg (lpReg c 0xC) (BitVec.ofNat 32 a)).setReg (lpReg c 0x10) (BitVec.ofNat 32 (a / 2 ^ 32))).setFlag r 5

/-- Check bits of a word as its memory checks them: LP5 words only under inline ECC (08 R250). -/
def State.checked (s : State) (m : FaultMem) (a : Nat) : Upset :=
  match m with
  | .lp5 c => if s.rbit (lpReg c 0) 8 then s.upset a else .none
  | _ => s.upset a

/-- A scrubber reads words: corrected ones are written back, the first uncorrectable one is recorded, and each raises the mem-fault
notice (08 R228). -/
def State.scrubWords (s : State) (m : FaultMem) (ws : List Nat) : State :=
  ws.foldl (init := s) fun s a =>
    match s.checked m a with
    | .none => s
    | .single => (s.setUpset a .none).memCe m 1
    | .double => (s.memUe m a).notify (.memFault m (BitVec.ofNat 40 a) true)

def bankFault : BankMem → FaultMem
  | .tile s t => .tile s t | .station s => .station s | .hall => .hall

/-- Words that one scrub of a bank reads, and the number of rows of a bank (08 R220, R228). -/
def bankScrubRow (m : BankMem) (b row : Nat) : List Nat :=
  match m with
  | .tile s t => [tileData s t (32 * row + 8 * b)]
  | .station s => (List.range 8).map fun i => stnBase s + b * 0x80000 + 64 * row + 8 * i
  | .hall => (List.range 8).map fun i => hallMem (b * 0x10000 + 64 * row + 8 * i)

def bankRows : BankMem → Nat
  | .tile .. => 4096 | .station _ => 8192 | .hall => 1024

/-- MEM_SCRUB: the scrubber of a bank reads its next row. `found` is an error that arises in the row's first word. -/
def State.memScrub (s : State) (m : BankMem) (b : Nat) (found : Upset) : State :=
  let enabled := match m with
    | .station st => s.rbit (stnReg st 0x21C) 31
    | _ => true
  if !s.bankFitted m || !enabled || decide ((bankCount m) ≤ b) || !s.bankOn m b then s
  else
    let row := smGet (fun _ => 0) s.scrubAt (bankNo m b)
    let ws := bankScrubRow m b row
    let s := if found = .none then s else s.setUpset (ws.headD 0) found
    { s.scrubWords (bankFault m) ws with scrubAt := smSet (fun _ => 0) s.scrubAt (bankNo m b) ((row + 1) % bankRows m) }

/-! ### LP5 controllers (08 R248 to R250) -/

/-- Bytes fitted on a controller, by LPn_CTRL.DENS. -/
def State.lpFitted (s : State) (n : Fin 2) : Nat :=
  let d := s.fld (lpReg n 0) 4 3
  if 1 ≤ d ∧ d ≤ 5 then 2 ^ (30 + d) else 0

/-- Bytes presented: seven eighths under inline ECC (08 R250). -/
def State.lpPresented (s : State) (n : Fin 2) : Nat :=
  if s.rbit (lpReg n 0) 8 then s.lpFitted n / 8 * 7 else s.lpFitted n

def State.lpReady (s : State) (n : Fin 2) : Bool := s.rbit (lpReg n 4) 0 && !s.rbit (lpReg n 0) 10

/-- LP5_INIT: with DENS none nothing happens (08 R249). A controller whose clock is gated does nothing (16 R440). -/
def State.lpInit (s : State) (n : Fin 2) : State :=
  if s.gated n.val ∨ s.lpFitted n = 0 then s
  else { s.setFld (lpReg n 4) 0 2 0 with lp5Train := s.lp5Train.set n true }

/-- LP5_TRAINING_END. -/
def State.lpTrainingEnd (s : State) (n : Fin 2) (pass : Bool) : State :=
  if s.gated n.val || !s.lp5Train[n] then s
  else { s.setFld (lpReg n 4) 0 2 (if pass then 1 else 2) with lp5Train := s.lp5Train.set n false }

/-- LP5_SELF_REFRESH: LPn_CTRL.SREF. -/
def State.lpSelfRefresh (s : State) (n : Fin 2) (enter : Bool) : State :=
  if s.gated n.val then s else (s.setFld (lpReg n 0) 10 1 enter.toNat).setFld (lpReg n 4) 7 1 enter.toNat

/-- LP5_MR4_READ: the refresh rate that MR4 asks for (08 R248, R250). -/
def State.lpMr4 (s : State) (n : Fin 2) (hot : Bool) : State :=
  if s.rbit (lpReg n 4) 0 ∧ !s.gated n.val then s.setFld (lpReg n 4) 6 1 hot.toNat else s

/-- LP5_SCRUB: the next line is scrubbed while SCRUB and ECCEN are 1 (08 R250). -/
def State.lpScrub (s : State) (n : Fin 2) (found : Upset) : State :=
  if s.gated n.val || !s.lpReady n || !s.rbit (lpReg n 0) 9 || !s.rbit (lpReg n 0) 8 then s
  else
    let line := s.lp5Scrub[n]
    let ws := (List.range 8).map fun i => lpBase n + 64 * line + 8 * i
    let s := if found = .none then s else s.setUpset (ws.headD 0) found
    { s.scrubWords (.lp5 n) ws with lp5Scrub := s.lp5Scrub.set n ((line + 1) % (s.lpPresented n / 64)) }

/-- A write of LPn_CTRL: DENS, RATE and ECCEN keep their values while READY is 1 (08 R249). -/
def State.lpCtrlWrite (s : State) (n : Fin 2) (v : W32) : State :=
  let a := lpReg n 0
  let keep : W32 := if s.rbit (lpReg n 4) 0 then 0x17C else 0
  let s := s.setReg a ((v &&& 0x77C &&& ~~~keep) ||| (s.reg a &&& keep))
  let s := s.lpSelfRefresh n (bit v 10)
  if bit v 0 then s.lpInit n else s

end Sys2Proof.Machine
end

