-- ==== Sys2Proof/Machine/Sha512.lean ====
section
/-! DEFINITION. SHA-512 (FIPS 180-4), which the spec names without describing (10 R296, 14 R401): log entry 14. -/

namespace Sys2Proof.Machine

/-- n words of 64 bits packed into a number, the first most significant. -/
def unpack64 (n v : Nat) : List W64 := (List.range n).map fun i => BitVec.ofNat 64 (v >>> (64 * (n - 1 - i)))

/-- The constants of the rounds: the first 64 bits of the fractional parts of the cube roots of the first 80 primes. -/
def roundWords : List W64 :=
  List.flatMap (unpack64 6)
    [0x428a2f98d728ae227137449123ef65cdb5c0fbcfec4d3b2fe9b5dba58189dbbc3956c25bf348b53859f111f1b605d019,
     0x923f82a4af194f9bab1c5ed5da6d8118d807aa98a303024212835b0145706fbe243185be4ee4b28c550c7dc3d5ffb4e2,
     0x72be5d74f27b896f80deb1fe3b1696b19bdc06a725c71235c19bf174cf692694e49b69c19ef14ad2efbe4786384f25e3,
     0x0fc19dc68b8cd5b5240ca1cc77ac9c652de92c6f592b02754a7484aa6ea6e4835cb0a9dcbd41fbd476f988da831153b5,
     0x983e5152ee66dfaba831c66d2db43210b00327c898fb213fbf597fc7beef0ee4c6e00bf33da88fc2d5a79147930aa725,
     0x06ca6351e003826f142929670a0e6e7027b70a8546d22ffc2e1b21385c26c9264d2c6dfc5ac42aed53380d139d95b3df,
     0x650a73548baf63de766a0abb3c77b2a881c2c92e47edaee692722c851482353ba2bfe8a14cf10364a81a664bbc423001,
     0xc24b8b70d0f89791c76c51a30654be30d192e819d6ef5218d69906245565a910f40e35855771202a106aa07032bbd1b8,
     0x19a4c116b8d2d0c81e376c085141ab532748774cdf8eeb9934b0bcb5e19b48a8391c0cb3c5c95a634ed8aa4ae3418acb,
     0x5b9cca4f7763e373682e6ff3d6b2b8a3748f82ee5defb2fc78a5636f43172f6084c87814a1f0ab728cc702081a6439ec,
     0x90befffa23631e28a4506cebde82bde9bef9a3f7b2c67915c67178f2e372532bca273eceea26619cd186b8c721c0c207,
     0xeada7dd6cde0eb1ef57d4f7fee6ed17806f067aa72176fba0a637dc5a2c898a6113f9804bef90dae1b710b35131c471b,
     0x28db77f523047d8432caab7b40c724933c9ebe0a15c9bebc431d67c49c100d4c4cc5d4becb3e42b6597f299cfc657e2a] ++
  unpack64 2 0x5fcb6fab3ad6faec6c44198c4a475817

/-- The chaining value at first: the same of the square roots of the first 8 primes. -/
def firstChain : List W64 :=
  unpack64 4 0x6a09e667f3bcc908bb67ae8584caa73b3c6ef372fe94f82ba54ff53a5f1d36f1 ++
  unpack64 4 0x510e527fade682d19b05688c2b3e6c1f1f83d9abfb41bd6b5be0cd19137e2179

/-- The exclusive or of a word rotated right by each amount. -/
def rotSum (amounts : List Nat) (x : W64) : W64 := amounts.foldl (fun y n => y ^^^ x.rotateRight n) 0

/-- The message word that enters a window of the last sixteen. -/
def nextWord (win : List W64) : W64 :=
  let word := fun i => win.getD i 0
  let early := word 1
  let late := word 14
  word 0 + word 9 + (rotSum [1, 8] early ^^^ (early >>> 7)) + (rotSum [19, 61] late ^^^ (late >>> 6))

/-- The rounds on eight working words, one for each constant, and the words that they leave. -/
def runRounds (a b c d e f g h : W64) (win : List W64) : List W64 → List W64
  | [] => [a, b, c, d, e, f, g, h]
  | k :: ks =>
    let choice := g ^^^ (e &&& (f ^^^ g))
    let most := (a &&& b) ||| (c &&& (a ||| b))
    let x := h + k + win.headD 0 + choice + rotSum [14, 18, 41] e
    runRounds (x + most + rotSum [28, 34, 39] a) a b c (d + x) e f g (win.drop 1 ++ [nextWord win]) ks

/-- Big-endian number of bytes. -/
def beNat (bs : List Byte) : Nat := bs.foldl (fun n b => 256 * n + b.toNat) 0
/-- The n big-endian bytes of a number. -/
def beBytes (n v : Nat) : List Byte := (leBytes n v).reverse

/-- The chaining value after a block of 128 bytes. -/
def chainBlock (chain : List W64) (block : List Byte) : List W64 :=
  match chain with
  | [a, b, c, d, e, f, g, h] => List.zipWith (· + ·) chain (runRounds a b c d e f g h (unpack64 16 (beNat block)) roundWords)
  | _ => chain

/-- The chaining value after n blocks. -/
def chainBlocks (chain : List W64) (m : List Byte) : Nat → List W64
  | 0 => chain
  | n + 1 => chainBlocks (chainBlock chain (m.take 128)) (m.drop 128) n

/-- The SHA-512 of a message, 64 bytes: the message, a 1 bit, zeros up to 16 bytes short of a whole block, and its length in bits. -/
def sha512 (m : List Byte) : List Byte :=
  let blocks := (m.length + 17 + 127) / 128
  let zeros := 128 * blocks - (m.length + 17)
  (chainBlocks firstChain (m ++ 0x80 :: (List.replicate zeros 0 ++ beBytes 16 (8 * m.length))) blocks).flatMap fun w => beBytes 8 w.toNat

end Sys2Proof.Machine
end

