-- ==== Sys2Proof/Machine/LoadCell.lean ====
section
/-! DEFINITION. Load-cell channels and the Pantry (10 R276 to R303). -/

namespace Sys2Proof.Machine

/-! ### Embedded flash contents (10 R291 to R293; 14 R397) -/

/-- An erased byte. -/
def flashReset (_ : Nat) : Byte := 0xFF

/-- The identity page (10 R292). -/
def identityPage (g : Grade) : List Byte :=
  leBytes 8 Config.serial.toNat ++ [BitVec.ofNat 8 g.code, 0xB0, 0x01, 0x00] ++ List.replicate 4 0xFF ++
    leBytes 8 Config.manufactured.toNat ++ leBytes 16 Config.dieLot.toNat

def State.flashByte (s : State) (o : Nat) : Byte :=
  if 0x400000 ≤ o ∧ o < 0x401000 then (identityPage s.grade).getD (o - 0x400000) 0xFF else smGet flashReset s.flash o
def State.flashBytes (s : State) (o n : Nat) : List Byte := (List.range n).map fun i => s.flashByte (o + i)
def State.flashErase (s : State) (o n : Nat) : State := { s with flash := smDrop s.flash o (o + n) }
/-- Programmed bytes: programming clears bits of erased bytes (14 R406). -/
def State.flashProgram (s : State) : Nat → List Byte → State
  | _, [] => s
  | o, b :: bs => State.flashProgram { s with flash := smSet flashReset s.flash o (smGet flashReset s.flash o &&& b) } (o + 1) bs

/-- n bytes of registers from a device address on. -/
def State.regBytes (s : State) (a n : Nat) : List Byte := (List.range (n / 4)).flatMap fun i => leBytes 4 (s.reg (a + 4 * i)).toNat
/-- Bytes written to registers from a device address on, four to each. -/
def State.setRegBytes (s : State) (a : Nat) (bs : List Byte) : State :=
  (List.range (bs.length / 4)).foldl (fun s i => s.setReg (a + 4 * i) (leBv 32 (slice bs (4 * i) 4))) s

/-- The calibration set (10 R291). -/
def State.calSet (s : State) : List Byte := s.flashBytes 0x401000 0x1000

/-- A set is valid (10 R293). -/
def calValid (bs : List Byte) : Bool :=
  decide (leNat (slice bs 0 4) = 0x4C430001) && crc32c (bs.take 0xFFC) == leBv 32 (slice bs 0xFFC 4)

/-! ### Channel registers -/

def lcReg (c : Fin 8) (off : Nat) : Nat := devReg 0x20 (0x100 + 0x100 * c.val + off)
def aGSTAT : Nat := devReg 0x20 0
/-- The station of a channel (10 R276). -/
def lcStn (c : Fin 8) : Stn := Fin.ofNat 4 (c.val / 2)
/-- The station of a channel is not disabled by grade. -/
def State.lcPresent (s : State) (c : Fin 8) : Bool := s.fitted (lcStn c)
def State.modLc (s : State) (c : Fin 8) (f : LcChan → LcChan) : State := { s with lc := s.lc.set c (f s.lc[c]) }
def State.calen (s : State) : Bool := s.rbit aGSTAT 0

/-- Set a W1C flag of LC_CHc_STAT and raise the load-cell notice (10 R283). -/
def State.lcFlag (s : State) (c : Fin 8) (i : Nat) : State := (s.setFlag (lcReg c 4) i).notify (.loadCell c)

/-- The registers that hold the metrological settings (10 R288). -/
def State.lcSettings (s : State) (c : Fin 8) : List W32 :=
  (s.reg (lcReg c 0) &&& 0x770) :: s.reg (lcReg c 8) :: s.reg (lcReg c 0xC) ::
    (List.range 32).map fun i => s.reg (lcReg c (0x80 + 4 * i))

/-- The next 34 samples carry SETTLE where the settings have changed (10 R282). -/
def State.settleIf (s : State) (old : State) (c : Fin 8) : State :=
  if s.lcSettings c = old.lcSettings c then s else s.modLc c fun L => { L with settle := 34 }

/-- LC_SETTINGS_WRITE (10 R288). -/
def State.lcSettingsWrite (s : State) (c : Fin 8) (off : Nat) (v : W32) : State :=
  if !s.lcPresent c || !s.calen then s
  else
    let a := lcReg c off
    let s1 :=
      if off = 0 then s.setReg a ((s.reg a &&& ~~~0x770) ||| (v &&& 0x770))
      else if off = 8 ∨ off = 0xC then s.setReg a v
      else if 0x80 ≤ off ∧ off < 0x100 ∧ off % 4 = 0 then s.setReg a (v &&& 0xFFFFFF)
      else s
    if off = 0 ∨ off = 8 ∨ off = 0xC ∨ (0x80 ≤ off ∧ off < 0x100 ∧ off % 4 = 0) then
      (s1.setFld (lcReg c 0) 29 1 0).settleIf s c
    else s

/-- Settings and device trims taken from the calibration set, with no effect but NOCAL where it cannot be (10 R288, R293, R294). -/
def State.lcTake (s : State) (c : Fin 8) : State :=
  let set := s.calSet
  let r := slice set (0x40 + 0x100 * c.val) 256
  let a := lcReg c 0
  if !(calValid set && bit (r.getD 0 0) 0) then s.setFld (lcReg c 4) 30 1 1
  else
    let s1 := (s.setFld a 8 3 (r.getD 4 0).toNat).setFld a 4 3 (r.getD 5 0).toNat
    let s1 := (s1.setReg (lcReg c 8) (leBv 32 (slice r 8 4))).setReg (lcReg c 0xC) (leBv 32 (slice r 0xC 4))
    let s1 := (List.range 32).foldl (init := s1) fun s i =>
      s.setReg (lcReg c (0x80 + 4 * i)) (leBv 32 (slice r (0x40 + 4 * i) 3))
    let s1 := s1.modLc c fun L => { L with trims := slice set 0x840 64 }
    ((s1.setFld a 29 1 1).setFld (lcReg c 4) 30 1 0).settleIf s c

/-- LOAD: under way until LC_LOAD_END. -/
def State.lcLoad (s : State) (c : Fin 8) : State :=
  if s.lcPresent c then s.modLc c fun L => { L with loading := true } else s

/-- A commit runs. -/
def FlashCtl.committing (F : FlashCtl) : Bool :=
  match F.work with
  | .commit .. => true
  | _ => false

/-- LC_LOAD_END: a LOAD waits while a commit runs (10 R288). -/
def State.lcLoadEnd (s : State) (c : Fin 8) : State :=
  if !s.lc[c].loading || s.flashCtl.committing then s
  else (s.modLc c fun L => { L with loading := false }).lcTake c

/-! ### Enabling, excitation, faults (10 R283, R287 to R290) -/

/-- Bytes of a channel's ring: where it begins and its entries (10 R284). -/
def State.ringOff (s : State) (c : Fin 8) : Nat := s.fld (lcReg c 0x10) 6 18 * 64
def State.ringLen (s : State) (c : Fin 8) : Nat := 64 * 2 ^ min 6 (s.fld (lcReg c 0x10) 28 3)

/-- Type of a station bank is Sealed (06 R181). -/
def State.bankSealed (s : State) (st : Stn) (j : Nat) : Bool := 
  s.rbit (stnReg st (if j < 16 then 0x150 else 0x154)) (2 * (j % 16))

/-- Bytes [off, off + n) lie in the station's banks that pass a test. -/
def banksAll (off n : Nat) (p : Nat → Bool) : Bool :=
  decide (off + n ≤ 0x1000000) && (List.range 32).all fun j =>
    !(decide (j * 0x80000 < off + n) && decide (off < (j + 1) * 0x80000)) || p j

/-- LC_ENABLE: a write of EN = 1 (10 R290). -/
def State.lcEnable (s : State) (c : Fin 8) : State :=
  let st := lcStn c
  let a := lcReg c 0
  if !s.lcPresent c ∨ (!s.rbit a 29 ∧ !s.calen) ∨
     !banksAll (s.ringOff c) (16 * s.ringLen c) (fun j => s.bankSealed st j && s.bankPower (.station st) j == 2) then
    s.setFld (lcReg c 4) 31 1 1
  else
    let s1 := s.setFld (lcReg c 4) 31 1 0
    if s.rbit a 31 then s1
    else (s1.setFld a 31 1 1).modLc c fun L => { L with settle := 34, seq := 0, since := 0, last := 0 }

/-- LC_EXCITATION: a write of EXC (10 R282, R283). While VEXC is out of range excitation is not switched on (16 R445, log entry 105). -/
def State.lcExcitation (s : State) (c : Fin 8) (on : Bool) : State :=
  let was := s.rbit (lcReg c 0) 28
  if !s.lcPresent c || (on && !was && !s.rbit aGSTAT 1) then s
  else
    let s := s.setFld (lcReg c 0) 28 1 on.toNat
    if on && !was then s.modLc c fun L => { L with
      settle := 34, excf := if L.excf = .released then .none else L.excf }
    else if !on then s.modLc c fun L => { L with excf := if L.excf = .faulted then .released else L.excf }
    else s

/-- EXCITATION_FAULT: the channel's excitation is switched off until EXC is written 0 and then 1. -/
def State.excitationFault (s : State) (c : Fin 8) : State :=
  if s.lcPresent c ∧ s.rbit (lcReg c 0) 28 ∧ s.lc[c].excf = .none then
    (s.modLc c fun L => { L with excf := .faulted }).lcFlag c 2
  else s

/-- OPEN_WIRE: found while OWD is 1. -/
def State.openWire (s : State) (c : Fin 8) (line : Fin 6) : State :=
  if s.lcPresent c ∧ s.rbit (lcReg c 0) 27 then (s.setFld (lcReg c 4) (8 + line.val) 1 1).lcFlag c 1 else s

/-- WIRE_RECONNECT. -/
def State.wireReconnect (s : State) (c : Fin 8) (line : Fin 6) : State := s.setFld (lcReg c 4) (8 + line.val) 1 0

/-- SENSE_FAULT and its end. -/
def State.senseFault (s : State) (c : Fin 8) : State :=
  if s.lcPresent c then (s.modLc c fun L => { L with sense := true }).lcFlag c 3 else s
def State.senseFaultEnd (s : State) (c : Fin 8) : State := s.modLc c fun L => { L with sense := false }

/-- CALSEAL_CHANGE: when the seal closes, every channel is loaded (10 R287, R289). -/
def State.calsealChange (s : State) (isOpen : Bool) : State :=
  let was := s.calen
  let s := s.setFld aGSTAT 0 1 isOpen.toNat
  if was && !isOpen then (List.finRange 8).foldl (fun s c => s.lcLoad c) s else s

/-! ### Samples (10 R278 to R286) -/

/-- n / d rounded half to even, for a positive d. -/
def roundEven (n d : Int) : Int :=
  let q := n / d
  let r := 2 * (n % d)
  if r < d then q else if d < r then q + 1 else if q % 2 = 0 then q else q + 1

/-- x scaled by 2^-k, rounded half to even. -/
def scaleEven (x : Int) (k : Nat) : Int := roundEven x (2 ^ k)

/-- Saturation to 32 bits. -/
def sat32 (x : Int) : Int := max (-2147483648) (min 2147483647 x)

/-- Coefficients of the sinc3 decimator of ratio R: the threefold convolution of R ones, of sum R^3 (10 R278). -/
def sincTap (R k : Nat) : Nat :=
  let tri := fun (x : Nat) => x * (x - 1) / 2
  tri (k + 2) + 3 * tri (k + 2 - 2 * R) - 3 * tri (k + 2 - R)

/-- R modulator words, oldest first, through the decimator: its next output, exact in units of 10^-12 of a modulator step. Each word
reaches three outputs. -/
def LcChan.decimate (L : LcChan) (R : Nat) (block : List (BitVec 24)) : LcChan × Int :=
  let part := fun (j : Nat) =>
    (block.foldl (fun (a : Nat × Int) m => (a.1 - 1, a.2 + sincTap R (j * R + a.1 - 1) * m.toInt)) (R, 0)).2 * (10000 / R : Nat) ^ 3
  ({ L with next1 := L.next2 + part 1, next2 := part 2 }, L.next1 + part 0)

/-- The FIR output over the newest 64 inputs, full scale 2^31 (10 R279, R280). -/
def State.firOut (s : State) (c : Fin 8) (h : List Int) : Int :=
  let coef := fun (k : Nat) => (bits (s.reg (lcReg c (0x80 + 4 * k))) 0 24).toInt
  let sum := (List.range 64).foldl (fun acc k => acc + coef (if k < 32 then k else 63 - k) * h.getD k 0) (0 : Int)
  sat32 (roundEven (sum * 2 ^ 8) (2 ^ 23 * 10 ^ 12))

/-- R of R278 by RATE. -/
def decimation : Nat → Nat
  | 0 => 10000 | 1 => 5000 | 2 => 2500 | 3 => 2000 | 4 => 1250 | 5 => 1000 | 6 => 500 | _ => 250

/-- Group delay in time-base counts, (33 R - 1.5) modulator periods of 156.25 counts, to the nearest count (10 R281). -/
def groupDelay (rate : Nat) : Nat := ((66 * decimation rate - 3) * 625 + 4) / 8

/-- The tiles that a channel notifies (10 R286): Sealed-world tiles alone. -/
def State.lcNotify (s : State) (c : Fin 8) : State :=
  let st := lcStn c
  (List.finRange 40).foldl (init := s) fun s t =>
    let named := if t.val < 32 then s.rbit (lcReg c 0x14) t.val else s.rbit (lcReg c 0x18) (t.val - 32)
    if named && bit (s.tile st t).psw 4 then s.modTile st t fun T => { T with ipend := putBit T.ipend 4 true } else s

/-- The modulator's words of two blocks make a sample: the channel is enabled, and each block has the R words of its RATE. -/
def State.lcMakes (s : State) (c : Fin 8) (first second : List (BitVec 24)) : Bool :=
  let R := decimation (s.fld (lcReg c 0) 4 3)
  s.lcPresent c && s.rbit (lcReg c 0) 31 && first.length == R && second.length == R

/-- Station offset of the entry of the next sample. -/
def State.ringPlace (s : State) (c : Fin 8) : Nat := s.ringOff c + 16 * (s.lc[c].seq.toNat % s.ringLen c)

/-- LC_SAMPLE: `first` and `second` are the modulator's words of the sample's first and last R periods, oldest first; `ovr` tells that
the input exceeded full scale. Fewer or more words make no sample at this RATE. -/
def State.lcSample (s : State) (c : Fin 8) (first second : List (BitVec 24)) (ovr : Bool) : State :=
  let st := lcStn c
  let a := lcReg c 0
  let R := decimation (s.fld a 4 3)
  if !s.lcMakes c first second then s
  else
    let x0 := s.lc[c].decimate R first
    let x1 := x0.1.decimate R second
    let L := x1.1
    let h := (x1.2 :: x0.2 :: L.hist).take 64
    let f := s.firOut c h
    let y := scaleEven ((f + (s.reg (lcReg c 8)).toInt) * (s.reg (lcReg c 0xC)).toNat) 22
    let clip := ovr || sat32 y != y
    let openNow := s.fld (lcReg c 4) 8 6 != 0
    let flags : Byte := BitVec.ofNat 8 (clip.toNat + 2 * (decide (0 < L.settle)).toNat + 4 * openNow.toNat +
      8 * (L.excf != .none).toNat + 16 * L.sense.toNat + 32 * s.calen.toNat + 64 * (!s.rbit a 29).toNat)
    let seq := L.seq + 1
    let ts := s.timeBase - BitVec.ofNat 64 (groupDelay (s.fld a 4 3))
    let d1 : W64 := BitVec.ofNat 64 ((seq.toNat * 256 + flags.toNat) * 2 ^ 32 + (wrap 32 (sat32 y)).toNat)
    let off := s.ringPlace c
    let n := (if s.fld (lcReg c 0x18) 8 8 = 0 then 256 else s.fld (lcReg c 0x18) 8 8)
    let due := decide (n ≤ L.since + 1) || (flags &&& 0x1D) != (L.last &&& 0x1D)
    let s := s.modLc c fun _ => { L with
      hist := h, settle := L.settle - 1, seq := seq, since := if n ≤ L.since + 1 then 0 else L.since + 1, last := flags }
    let s := if clip then s.lcFlag c 0 else s
    let s :=
      if !banksAll off 16 (s.bankSealed st) then (s.lcFlag c 5).setFld a 31 1 0
      else if !banksAll off 16 (s.stnBankOn st) then s.lcFlag c 4
      else
        let b := stnBase st + off
        ((((s.setLe b 8 ts.toNat).setLe (b + 8) 8 d1.toNat).setUpset b .none).setUpset (b + 8) .none).setReg
          (lcReg c 0x1C) (zext 32 seq)
    if due then s.lcNotify c else s

/-! ### The Pantry (10 R295 to R300) -/

def efReg (off : Nat) : Nat := devReg 0x21 off
def aPSTAT : Nat := efReg 0x104
def State.modFlash (s : State) (f : FlashCtl → FlashCtl) : State := { s with flashCtl := f s.flashCtl }

/-- A tile's swap of the doorbell word is seen by its memory node (10 R295, R302). -/
def State.doorbell (s : State) (st : Stn) (t : TileNo) (off : Nat) (v : W64) : State :=
  let a := stnReg st 0x160
  let r := stnReg st 0x164
  if !s.rbit a 31 ∨ s.fld a 3 21 ≠ off / 8 ∨ s.rbit r 31 then s
  else
    let s := s.setReg r (BitVec.ofNat 32 (2 ^ 31 + t.val * 2 ^ 24 + nat v 12 12 * 2 ^ 12 + nat v 0 8))
    let s := if nat v 0 8 = 1 then ((s.setFld aPSTAT 15 1 1).setFld aPSTAT 12 2 st.val).setFld aPSTAT 6 6 t.val else s
    s.notify (.pantry st)

/-- ARMING_EXPIRY and DISARM. -/
def State.disarm (s : State) : State := s.setFld aPSTAT 15 1 0

/-- A result of a commit or an append, with no operation begun. -/
def State.pantryRes (s : State) (res : Nat) : State := (s.setFld aPSTAT 0 4 res).setFlag aPSTAT 5

/-- The staging buffer and the audit staging record. -/
def State.pbuf (s : State) : List Byte := s.regBytes (efReg 0x1000) 0x1000
def State.paud (s : State) : List Byte := s.regBytes (efReg 0x200) 64

/-- Why a commit is refused, 0 if it is not (10 R296 step 1, R300). -/
def State.commitCheck (s : State) (j : CommitJob) : Nat :=
  if !s.rbit aPSTAT 15 then 1
  else if !s.calen then 2
  else if 10000 ≤ s.flashCtl.counter then 3
  else if 16384 ≤ s.flashCtl.audNext then 4
  else if !calValid j.set || leNat (slice j.set 4 2) != s.flashCtl.counter + 1 then 5
  else 0

/-- Steps 1 and 2 of a commit (10 R296). -/
def State.commitStart (s : State) (j : CommitJob) : State :=
  if s.commitCheck j ≠ 0 then s.pantryRes (s.commitCheck j)
  else (s.modFlash fun F => { F with work := .commit j s.timeBase false, waits := none, counter := F.counter + 1 }).setFld aPSTAT 14 1 1

/-- A commit's result that the Hall has to answer, and its Pantry notice (10 R296 step 6, R300). -/
def State.commitOver (s : State) (j : CommitJob) (res : Nat) : State :=
  (s.modFlash fun F => { F with owed := F.owed ++ [(j.asker, res)] }).notify (.pantry j.asker.1)

/-- The tile that armed the controller. -/
def State.arming (s : State) : Stn × BitVec 6 := (Fin.ofNat 4 (s.fld aPSTAT 12 2), BitVec.ofNat 6 (s.fld aPSTAT 6 6))

/-- COMMIT for a tile's request: a boot-partition operation is waited for, a commit or append that runs, or a commit that waits,
refuses it (10 R296; 14 R398). While a reset waits or is asserted no operation starts (16 R443, R448). -/
def State.commitGo (s : State) (asker : Stn × BitVec 6) : State :=
  let j : CommitJob := ⟨s.arming, asker, s.pbuf, s.paud⟩
  if s.core.holdsFlash then s
  else if s.flashCtl.waits.isSome then s.setFld aPSTAT 0 4 7
  else match s.flashCtl.work with
  | .idle => s.commitStart j
  | .commit .. | .append _ => s.setFld aPSTAT 0 4 7
  | _ => s.modFlash fun F => { F with waits := some j }

/-- Append an audit record. -/
def State.auditAppend (s : State) (rec : List Byte) : State :=
  (s.flashProgram (0x410000 + 64 * s.flashCtl.audNext) rec).modFlash fun F => { F with audNext := F.audNext + 1 }

/-- Time-base counts of steps 2 and 3 of a commit: 20 us and 0.2 ms (10 R296). -/
def counterCounts : Nat := 7500
def recordCounts : Nat := 75000

/-- The audit record of a commit that began at a time: step 3 begins 20 us later (10 R298). -/
def CommitJob.record (j : CommitJob) (counter : Nat) (since : W64) : List Byte :=
  [0x01, 0x00] ++ leBytes 2 counter ++ [BitVec.ofNat 8 j.arming.1.val, j.arming.2.setWidth 8, 0, 0] ++
    leBytes 8 (since + BitVec.ofNat 64 counterCounts).toNat ++ slice j.set 0xFFC 4 ++ slice j.aud 0x14 44

/-- Step 3 of R296 is done, if it was not. -/
def State.commitRecord (s : State) : State :=
  match s.flashCtl.work with
  | .commit j since false =>
    (s.auditAppend (j.record s.flashCtl.counter since)).modFlash fun F => { F with work := .commit j since true }
  | _ => s

/-- Step 3 of R296 ends 220 us after the commit began. -/
def State.commitTick (s : State) : State :=
  match s.flashCtl.work with
  | .commit _ since false => if counterCounts + recordCounts ≤ (s.timeBase - since).toNat then s.commitRecord else s
  | _ => s

/-- COMMIT_END: what is left of steps 3 to 6 of R296. `ok` tells that the set was programmed and verified. -/
def State.commitEnd (s : State) (ok : Bool) : State :=
  match s.flashCtl.work with
  | .commit j _ _ =>
    let s := s.commitRecord
    let s := s.flashErase 0x401000 0x1000
    let s := if ok then s.flashProgram 0x401000 j.set else s
    let s := s.modFlash fun F => { F with work := .idle }
    let s := (List.finRange 8).foldl (fun s c => if s.rbit (lcReg c 0) 31 then s.lcTake c else s) s
    let s := s.setRegBytes (efReg 0x1000) (List.replicate 0x1000 0)
    let res := if ok then 0 else 6
    ((s.disarm.setFld aPSTAT 14 1 0).pantryRes res).commitOver j res
  | _ => s

/-- APPEND (10 R298). -/
def State.appendGo (s : State) : State :=
  let ty := leNat (slice s.paud 0 2)
  if s.core.holdsFlash then s
  else if s.flashCtl.work ≠ .idle then s.setFld aPSTAT 0 4 7
  else if ty < 0x8000 then s.pantryRes 5
  else if 16384 ≤ s.flashCtl.audNext then s.pantryRes 4
  else (s.modFlash fun F => { F with work := .append s.paud }).setFld aPSTAT 14 1 1

/-- APPEND_END. -/
def State.appendEnd (s : State) (ok : Bool) : State :=
  match s.flashCtl.work with
  | .append rec =>
    let s := (s.modFlash fun F => { F with work := .idle }).setFld aPSTAT 14 1 0
    if ok then (s.auditAppend rec).pantryRes 0 else s.pantryRes 6
  | _ => s

end Sys2Proof.Machine
end

