-- ==== Sys2Proof/Machine/MatrixQueue.lean ====
section
/-! DEFINITION. Requests on the device matrix: targets, pieces, responses and decode errors (01 R25; 11 R304 to R310). -/

namespace Sys2Proof.Machine

def mxReg (off : Nat) : Nat := devReg 4 off
def qeMaster (st : Stn) : Master := Fin.ofNat 9 (1 + st.val)
def mHall : Master := 0
def mDma : Master := 5
def mPcie : Master := 6
def mChain : Master := 7
def mCamera : Master := 8

/-- The peripheral blocks listed (01 R30). -/
def blkListed (b : Nat) : Bool :=
  decide (b ≤ 8) || (decide (0x10 ≤ b) && decide (b ≤ 0x13)) || b == 0x20 || b == 0x21 || (decide (0x30 ≤ b) && decide (b ≤ 0x33))

/-- The target whose ranges hold an address (01 R25; 11 R304). A station disabled by grade has no ranges (00 R3). -/
def State.targetOf (s : State) (a : Nat) : Option Target :=
  if a < 0x100000 ∨ (0x10000000 ≤ a ∧ a < 0x10100000) ∨ (0x20000000 ≤ a ∧ a < 0x20040000) then some 0
  else if 0x1000000000 ≤ a ∧ a < 0x1800000000 then some 1
  else if 0x1800000000 ≤ a ∧ a < 0x2000000000 then some 2
  else if 0x0100000000 ≤ a ∧ a < 0x0140000000 then
    let o := a % 0x10000000
    let st := (a - 0x0100000000) / 0x10000000
    if st < s.grade.stations ∧ (o < 0x1000000 ∨ (0x8000000 ≤ o ∧ o < 0x8A00000) ∨ (0xC000000 ≤ o ∧ o < 0xC010000)) then
      some (Fin.ofNat 9 (3 + st))
    else none
  else if 0x0200000000 ≤ a ∧ a < 0x0200400000 then
    (if blkListed ((a - 0x0200000000) / 0x10000) then some 7 else none)
  else if 0x0210000000 ≤ a ∧ a < 0x0210010000 then some 8
  else none

/-- A decode error of a piece (11 R310). -/
def State.decodeError (s : State) (m : Master) (a : Nat) : State :=
  let s := if s.rbit (mxReg 4) 31 then s
    else ((s.setFld (mxReg 4) 0 4 m.val).setReg (mxReg 8) (BitVec.ofNat 32 a)).setReg (mxReg 12) (BitVec.ofNat 32 (a / 2 ^ 32 % 256))
  let s := s.setFlag (mxReg 4) 31
  if s.rbit (mxReg 0) 1 then s.notify .decode else s

/-- The pieces of n beats from a 64-byte line on: number, first beat and length, cut at multiples of 1 KiB (11 R307). -/
def cutPieces : Nat → Nat → Nat → Nat → Nat → List (Nat × Nat × Nat)
  | 0, _, _, _, _ => []
  | fuel + 1, i, line, first, n =>
    if n = 0 then []
    else
      let len := min n (16 - line % 16)
      (i, first, len) :: cutPieces fuel (i + 1) (line + len) (first + len) (n - len)

/-- Bytes that a queue request gets from the beat that served it. -/
def MxOpen.bytes (r : MxOpen) (q : QReq) : List Byte :=
  let off := q.addr.toNat % 64
  let n := match q.op with
    | .load _ _ size _ => 2 ^ size.val
    | .blockRead .. => 64
    | _ => 0
  (List.range n).map fun i => bits (r.data.headD 0) (8 * (off + i)) 8

/-- An error code as a queue unit sees it (08 R240). -/
def statOf : Option (Nat × Nat × MxCode) → RespStat
  | none => .ok
  | some (_, _, c) => if c = 2 then .notOn else if c = 3 then .uncorrectable else .busError

/-- A request with no piece left to perform is answered: to the world, or to the tile whose queue request it carries (11 R309;
08 R236, R243). -/
def State.mxAnswer (s : State) (m : Master) (r : MxOpen) : State :=
  match r.origin with
  | none => { s with mxDone := s.mxDone.set m (some ⟨r.err, r.multi, r.busy, r.data⟩) }
  | some (st, q) =>
    s.modStn st fun S => { S with resps := S.resps ++ respWords ⟨8, q, statOf r.err, if r.err.isNone then r.bytes q else []⟩ }

/-- A request of a master waits for its targets; its pieces in unmapped space are decode errors at once. -/
def State.mxEnqueue (s : State) (m : Master) (req : MxReq) (origin : Option (Stn × QReq)) : State :=
  let n := req.beats.length
  let cuts := (cutPieces n 0 (req.start.toNat / 64) 0 n).map fun x =>
    (x, s.targetOf (req.start.toNat + 64 * x.2.1))
  let s := cuts.foldl (init := s) fun s x =>
    if x.2.isNone then s.decodeError m (req.start.toNat + 64 * x.1.2.1) else s
  let todo := cuts.filterMap fun x => x.2.map fun g => (⟨x.1.1, g, x.1.2.1, x.1.2.2⟩ : MxPart)
  let r : MxOpen := ⟨req, origin, todo, none, false, false, List.replicate n 0⟩
  if todo.isEmpty then s.mxAnswer m r else { s with mxOpen := s.mxOpen.set m (s.mxOpen[m] ++ [r]) }

/-- A request lies on 64-byte beats, 1 to 64 of them; an atomic has one (11 R306). -/
def mxReqOk (r : MxReq) : Bool :=
  decide (r.start.toNat % 64 = 0) && decide (1 ≤ r.beats.length) && decide (r.beats.length ≤ 64) && (match r.op with
    | .add .. | .swap .. => decide (r.beats.length = 1)
    | _ => true)

/-- MATRIX_REQUEST. An atomic is granted to the Hall; DMA makes its own at a write-back (11 R306). -/
def State.matrixRequest (s : State) (m : Master) (r : MxReq) : State :=
  if mxReqOk r && !s.inReset then s.mxEnqueue m r none else s

/-- The matrix request of a tile's queue request (08 R246). -/
def mxReqOf (q : QReq) : MxReq :=
  let off := q.addr.toNat % 64
  let line : Addr := q.addr - BitVec.ofNat 40 off
  let beat := fun (n : Nat) (bs : List Byte) =>
    (⟨BitVec.ofNat 64 ((2 ^ n - 1) * 2 ^ off), BitVec.ofNat 512 (leNat bs * 2 ^ (8 * off))⟩ : Beat)
  match q.op with
  | .load _ _ size _ => ⟨line, .read, [beat (2 ^ size.val) []]⟩
  | .blockRead .. => ⟨line, .read, [beat 64 []]⟩
  | .store _ size v => ⟨line, .write, [beat (2 ^ size.val) (leBytes (2 ^ size.val) v.toNat)]⟩
  | .blockWrite _ _ data => ⟨line, .write, [beat 64 data]⟩
  | .atomic _ _ _ => ⟨line, .read, []⟩

end Sys2Proof.Machine
end

