-- ==== Sys2Proof/Machine/TileCtl.lean ====
section
/-! DEFINITION. A tile seen from outside its program: issue and boundary events, tile start, stop, test and software interrupts
(01 R13 to R16, R474; 05 R145 to R147, R165 to R169; 07 R206, R216). -/

namespace Sys2Proof.Machine

/-- The answer of a command: the next state, unless a 1 was written to a reserved bit (00 R9). -/
def State.out (s : State) : Host.Outcome State Fault Refusal :=
  if s.undef then .fault .reservedBitWritten else .next s

/-- No write of a reserved bit is noted: how a command that writes registers begins (log entry 3). -/
def State.noted (s : State) : State := { s with undef := false }

/-- Note a 1 written to a reserved bit of the register at a (00 R9). -/
def State.reserved (s : State) (a : Nat) (v : W32) : State :=
  { s with undef := s.undef || v &&& ((regInfo a).map RegInfo.rsv).getD 0 != 0 }

/-- The same, where the write is carried out at all. -/
def State.reservedIf (s : State) (c : Bool) (a : Nat) (v : W32) : State := if c then s.reserved a v else s

/-! ### Issue and boundaries -/

/-- A move loads from tile data memory, has the scan unit read it, or has either write it. -/
def Move.loads (m : Move) : Bool :=
  match m.dst with
  | .trig (.lsu op) => !lsuStores op
  | _ => false
def Move.scans (m : Move) : Bool :=
  match m.dst with
  | .trig (.scu .grad) | .trig (.scu .thr) | .trig (.scu .census) | .trig (.scu .absd) => true
  | _ => false
def Move.stores (m : Move) : Bool :=
  match m.dst with
  | .trig (.lsu op) => lsuStores op
  | .trig (.scu .grad) | .trig (.scu .thr) | .trig (.scu .census) => true
  | _ => false

/-- INSTRUCTION: the boundary and, where nothing else is due, the instruction. `meet` tells what the outside port does with the
word of the instruction's access in its bank cycle (08 R229): a load is repeated and stalls the tile for a cycle, a read of the
scan unit is repeated, a write is answered busy (02 R65, 08 R231). -/
def State.issue (s : State) (st : Stn) (t : TileNo) (meet : Meet) : State :=
  let T := s.tile st t
  let s1 := s.boundary st t
  if meet != .none && decide (T.run = .running) && s1.reg (tileReg st t 0x200) != s.reg (tileReg st t 0x200) then
    match decodeInsn (s.fetchByte st t) T.pc.toNat with
    | .ok i =>
      let ms := i.enabled T
      if meet == .write && ms.any Move.loads then (s1.retried st t).stalled st t
      else s1.met st t meet (ms.any Move.scans) (ms.any Move.stores)
    | _ => s1
  else s1

/-- INTERRUPT_ENTRY: the boundary at which a line qualifies (05 R146). -/
def State.irqEntry (s : State) (st : Stn) (t : TileNo) : State :=
  if (s.tile st t).irq.isSome then s.boundary st t else s

/-- ARITH_REPORT: the boundary at which a report is pending (05 R158). -/
def State.arithReport (s : State) (st : Stn) (t : TileNo) : State :=
  if (s.tile st t).report.isSome then s.boundary st t else s

/-- DEFERRAL_WINDOW_END (05 R147). -/
def State.windowEnd (s : State) (st : Stn) (t : TileNo) : State :=
  if s.haltFrozen st then s else s.modTile st t fun T => { T with window := none }

/-- IDLE_WAKE: the stalled `idle` completes (05 R146). -/
def State.idleWake (s : State) (st : Stn) (t : TileNo) : State :=
  if (s.tile st t).waiting ∧ (s.tile st t).idleLines ≠ 0 then s.boundary st t else s

/-- OPERATION_COMPLETE: the oldest operation of a unit completes (02 R45 to R47). -/
def State.operationComplete (s : State) (st : Stn) (t : TileNo) (u : UnitId) : State :=
  if s.haltFrozen st then s else s.modTile st t fun T => T.completeOldest u

/-- A transfer triggered by a command: its two delay slots follow (05 R135), and its target's line is wanted (03 R93). -/
def State.transfer (s : State) (st : Stn) (t : TileNo) (x : Trig) (b : W64) : State :=
  (s.trigger st t none x b).modTile st t fun T =>
    if T.slot = 0 ∧ T.pkind ≠ .none ∧ (s.tile st t).pkind = .none then { T.wantTarget with slot := 1 } else T

/-- An `idle` triggered by a command: it completes at once, or the tile stalls in it (05 R146). -/
def State.idleTrigger (s : State) (st : Stn) (t : TileNo) : State :=
  let T := s.tile st t
  if T.run = .running ∧ !s.haltFrozen st ∧ T.idleLines = 0 then (s.stalled st t).modTile st t fun T => { T with waiting := true }
  else s.trigger st t none .idle 0

/-- The trigger value of a take (07 R206). -/
def takeWord (nowait : Bool) : W64 := if nowait then 0xC000000000000000 else 0x8000000000000000

/-- MAILBOX_TAKE_COMPLETE: a word is present for a pending take (07 R206). -/
def State.takeComplete (s : State) (st : Stn) (t : TileNo) : State :=
  let T := s.tile st t
  if T.run = .running ∧ !s.haltFrozen st ∧ T.nu.taking ∧ T.nu.mbox ≠ [] then s.setTile st t { T with nu := T.nu.take false } else s

/-! ### Columns (01 R15, R16, R31) -/

def aCol (st : Stn) (c : Nat) : Nat := stnReg st (0x100 + 4 * c)
def State.colState (s : State) (st : Stn) (c : Nat) : Nat := s.fld (aCol st c) 26 2
def State.colRet (s : State) (st : Stn) (c : Nat) : Nat := s.fld (aCol st c) 23 3

/-- Physical position that serves a logical tile (01 R16). -/
def State.position (s : State) (st : Stn) (t : TileNo) : Nat :=
  let c := t.val / 5
  let j := t.val % 5
  if s.colState st c ≠ 0 ∧ s.colRet st c ≤ j then j + 1 else j

/-- Health of the physical tile at position k of column c. -/
def State.physAt (s : State) (st : Stn) (c k : Nat) : PhysTile := (s.stn st).phys.toList.getD (6 * c + k) {}

/-- The physical tile passes self-test (01 R13). -/
def PhysTile.passes (p : PhysTile) : Bool := decide (p.alu < 2) && decide (p.mac < 2) && !p.unspared

/-- Results of a position's self-test in the column map (01 R31, R32). `serves` tells whether it serves a logical tile. -/
def State.recordTest (s : State) (st : Stn) (c k : Nat) (serves : Bool) : State :=
  let p := s.physAt st c k
  let s := s.setFld (aCol st c) k 1 (p.passes && serves).toNat
  let s := s.setFld (aCol st c) (12 + k) 1 (decide (p.alu = 1)).toNat
  s.setFld (aCol st c) (6 + k) 1 (decide (p.mac = 1)).toNat

/-- A tile counts as stopped (01 R29). -/
def Tile.isStopped (T : Tile) : Bool := T.run != .running && T.run != .selfTest

/-- Insert a repair in ascending column order, once (01 R19). -/
def addRepair (r : Fin 8 × Fin 6) : List (Fin 8 × Fin 6) → List (Fin 8 × Fin 6)
  | [] => [r]
  | x :: xs => if x = r then x :: xs else if x.1 ≤ r.1 then x :: addRepair r xs else r :: x :: xs

def aNetStat (st : Stn) : Nat := stnReg st 0x404

/-- In a frozen network the first repair that is due begins, unless the freeze has had one, which WHY tells: each takes a freeze of its
own. WHY names it, and its column's apertures close (01 R18, R19, R21; 07 R213, R218). -/
def State.beginRepair (s : State) (st : Stn) : State :=
  let S := s.stn st
  if !S.frozen || s.rbit (aNetStat st) 29 then s
  else match S.repairs with
  | [] => s
  | r :: rest =>
    (s.setStn st { S with repairNow := some r, repairs := rest, closed := r.1 :: S.closed }).setFlag (aNetStat st) 29

/-- A position is to be retired by column repair, which a freeze under way carries out too (01 R18; 07 R213). -/
def State.askRepair (s : State) (st : Stn) (r : Fin 8 × Fin 6) : State :=
  if (s.stn st).repairNow = some r then s
  else (s.modStn st fun S => { S with repairs := addRepair r S.repairs }).beginRepair st

/-! ### Tile start and stop (05 R165, R168) -/

/-- TILE_START: a write of TILE_CTRL.START, ignored unless the tile is stopped. -/
def State.tileStart (s : State) (st : Stn) (t : TileNo) : State :=
  if s.fitted st ∧ (s.tile st t).isStopped then s.modTile st t fun T => { T with run := .selfTest } else s

/-- The image check of 02 R63. -/
def State.imageOk (s : State) (st : Stn) (t : TileNo) : Bool :=
  ((List.range 256).all fun i => s.lineCrc st t (BitVec.ofNat 8 i) == s.storedCrc st t (BitVec.ofNat 8 i)) &&
  crc32c ((List.range 256).flatMap fun i => leBytes 4 (s.storedCrc st t (BitVec.ofNat 8 i)).toNat) ==
    s.reg (tileReg st t 0x300)

/-- Tile counters at zero (02 R68, 08 R252). -/
def State.clearCounters (s : State) (st : Stn) (t : TileNo) : State :=
  [0x200, 0x204, 0x208, 0x20C, 0x210, 0x214].foldl (fun s o => s.setReg (tileReg st t o) 0) s

/-- The tile runs from TILE_START_PC in the state of 05 R166. -/
def State.startTile (s : State) (st : Stn) (t : TileNo) : State :=
  let T := s.freshTile st t
  ((s.setTile st t { T with nu := T.nu.restart (s.stn st).cycle }).clearCounters st t).useFree 128

/-- TILE_SELF_TEST_END (01 R13, R18; 05 R165). -/
def State.tileSelfTestEnd (s : State) (st : Stn) (t : TileNo) : State :=
  if (s.tile st t).run ≠ .selfTest then s
  else
    let c := t.val / 5
    let k := s.position st t
    let ok := (s.physAt st c k).passes
    let s := s.recordTest st c k true
    if !ok then
      let s := (s.modTile st t fun T => { T with run := .selfTestFailed }).notify (.selfTestFailed st t)
      if (s.stn st).run = .running then
        s.askRepair st (Fin.ofNat 8 c, Fin.ofNat 6 k)
      else s
    else if !s.imageOk st t then
      (s.modTile st t fun T => { T with run := .imageFailed }).notify (.imageFailed st t)
    else s.startTile st t

/-- A failed pipe or unit of a physical tile. -/
def PhysTile.failPipe (p : PhysTile) : PipeKind → PhysTile
  | .alu => { p with alu := min 3 (p.alu + 1) }
  | .mac => { p with mac := min 3 (p.mac + 1) }
  | .unspared => { p with unspared := true }

/-- The logical tile that a physical tile serves, if any (01 R16). -/
def State.servedBy (s : State) (st : Stn) (p : Phys) : Option TileNo :=
  (List.finRange 40).find? fun t => 6 * (t.val / 5) + s.position st t == p.val

/-- PIPE_FAILURE (01 R474): a running tile stops at once with LASTCAUSE 0x0E. -/
def State.pipeFailure (s : State) (st : Stn) (p : Phys) (k : PipeKind) : State :=
  let s := s.modStn st fun S => { S with phys := S.phys.set p (S.phys[p].failPipe k) }
  match s.servedBy st p with
  | none => s
  | some t => if (s.tile st t).run = .running then s.tileStopped st t 0x0E (s.tile st t).pc else s

/-- TILE_STOP_REQUEST: a write of TILE_CTRL.STOP. During self-test it abandons the start (05 R165 step 3). -/
def State.tileStopRequest (s : State) (st : Stn) (t : TileNo) : State :=
  match (s.tile st t).run with
  | .running => s.modTile st t fun T => { T with stopReq := true }
  | .selfTest => s.modTile st t fun T => { T with run := .stopped }
  | _ => s

/-- TILE_STOP_TAKEN (05 R148). -/
def State.tileStopTaken (s : State) (st : Stn) (t : TileNo) : State :=
  if (s.tile st t).stopReq then s.boundary st t else s

/-- TILE_TEST_REQUEST: ignored at test level and while the tile is not running (05 R162). -/
def State.tileTestRequest (s : State) (st : Stn) (t : TileNo) : State :=
  if (s.tile st t).run = .running ∧ pswLvl (s.tile st t).psw ≠ 3 then s.modTile st t fun T => { T with testReq := true } else s

/-- TEST_ENTRY (05 R148, R162). -/
def State.testEntry (s : State) (st : Stn) (t : TileNo) : State :=
  if (s.tile st t).testReq then s.boundary st t else s

/-- TILE_SWI: bits of ipend set by the Hall or DMA; a DMA write with bit 7 set changes nothing (05 R168, R169). -/
def State.tileSwi (s : State) (st : Stn) (t : TileNo) (hall : Bool) (v : W32) : State :=
  if !s.fitted st || (!hall && bit v 7) then s
  else s.modTile st t fun T => { T with ipend := T.ipend ||| (bits v 0 16 &&& 0xFF80) }

end Sys2Proof.Machine
end

