-- ==== Sys2Proof/Machine/Network.lean ====
section
/-! DEFINITION. The station network: routes, slot tables, link words, channels, mailbox and frozen frames (07 R190 to R219). -/

namespace Sys2Proof.Machine

/-! ### Nodes, outputs and routes (07 R190, R192, R196) -/

/-- Router at which a node is attached, as column and row. -/
def nodeRouter (n : Nat) : Nat × Nat :=
  if n < 40 then (n / 5, n % 5)
  else if n < 48 then (n - 40, 4)
  else if n = 48 then (0, 0)
  else (7, 0)

/-- Port of the attachment at that router. -/
def nodePort (n : Nat) : Nat := if n < 40 then 0 else if n < 48 then 3 else 1

/-- Port through which a word for node d leaves router (c, j). -/
def routePort (c j d : Nat) : Nat :=
  let r := nodeRouter d
  if c < r.1 then 2 else if r.1 < c then 4 else if j < r.2 then 3 else if r.2 < j then 1 else nodePort d

/-- SEL of the output through which a word for node d leaves router (c, j). -/
def routeSel (c j d : Nat) : Nat := 8 * (5 * c + j) + routePort c j d

/-- SEL of the first output of the route from a node to a node. -/
def firstSel (src d : Nat) : Nat :=
  if src < 40 then routeSel (src / 5) (src % 5) d
  else if src < 48 then 8 * src + 1
  else 8 * src + 3

/-- Where the link beyond an output leads: the router and its input port, or none for a link to a node. -/
def linkEnd (sel : Nat) : Option ((Nat × Nat) × Nat) :=
  let n := sel / 8
  let p := sel % 8
  if n < 40 then
    let c := n / 5
    let j := n % 5
    if p = 2 ∧ c < 7 then some ((c + 1, j), 4)
    else if p = 4 ∧ 0 < c then some ((c - 1, j), 2)
    else if p = 3 ∧ j < 4 then some ((c, j + 1), 1)
    else if p = 1 ∧ 0 < j then some ((c, j - 1), 3)
    else none
  else if n < 48 then some ((n - 40, 4), 3)
  else if n = 48 then some ((0, 0), 1)
  else if n = 49 then some ((7, 0), 1)
  else none

/-- The node a link leads to, where it leads to no router. -/
def linkNode (sel : Nat) : Option Nat :=
  let n := sel / 8
  let p := sel % 8
  if n < 40 then
    if p = 0 then some n
    else if p = 3 ∧ n % 5 = 4 then some (40 + n / 5)
    else if p = 1 ∧ n = 0 then some 48
    else if p = 1 ∧ n = 35 then some 49
    else none
  else none

/-- SEL of the output whose link leads to a node. -/
def nodeSel (n : Nat) : Nat :=
  let r := nodeRouter n
  8 * (5 * r.1 + r.2) + nodePort n

/-- SEL names a table (07 R196). -/
def hasTable (sel : Nat) : Bool := (linkEnd sel).isSome && decide (sel % 8 < 5) && selPortOk sel || (linkNode sel).isSome
where
  /-- Memory nodes have a table for N, gateways for S. -/
  selPortOk (sel : Nat) : Bool :=
    if sel / 8 < 40 then true else if sel / 8 < 48 then sel % 8 == 1 else sel % 8 == 3

/-! ### Registers and flags -/

def aNetCtrl (st : Stn) : Nat := stnReg st 0x400
def State.netLen (s : State) (st : Stn) : Nat := s.fld (aNetCtrl st) 0 11

/-- Bit of STN_NET_CTRL.IEN for a flag of STN_NET_STAT (07 R218). -/
def netIen (i : Nat) : Nat := if i ≤ 2 then 16 + i else 15 + i

/-- Set a flag of STN_NET_STAT and raise net-fault where its bit of IEN asks for it; HOLDOV always does (07 R218). -/
def State.netFlag (s : State) (st : Stn) (i : Nat) : State :=
  let s := s.setFlag (aNetStat st) i
  if i = 1 ∨ (i ≠ 3 ∧ s.rbit (aNetCtrl st) (netIen i)) then s.notify (.netFault st) else s

/-- A slot-table entry as the routers use it: an uncorrectable one is unallocated (07 R197, R214). -/
def Station.entry (S : Station) (sel i : Nat) : BitVec 11 :=
  if S.tableBad.lookup (sel * 1024 + i) = some true then 0 else smGet (fun _ => 0) S.tables (sel * 1024 + i)

/-- Rewrite a slot-table entry (07 R214, R218). -/
def Station.setEntry (S : Station) (k : Nat) (v : BitVec 11) : Station :=
  if hasTable (k / 1024) then
    { S with tables := smSet (fun _ => 0) S.tables k v, tableBad := smErase S.tableBad k }
  else S

/-- Input that owns a slot: the port's number, none where it is unallocated (07 R197). -/
def entryOwner (e : BitVec 11) : Option Nat :=
  let x := nat e 8 3
  if x = 0 ∨ 5 < x then none
  else if x = 1 ∧ nat e 6 2 = 3 then none
  else some (x - 1)

/-- The entry gives the slot to the local word of a class and channel (07 R197). -/
def entryLocal (e : BitVec 11) (cls c : Nat) : Bool :=
  nat e 8 3 == 1 && nat e 6 2 == cls && nat e 3 3 == c

/-- Two words are of one flow (07 R199). -/
def sameFlow (x y : LinkWord) : Bool :=
  x.kind == y.kind && x.src == y.src && x.dst == y.dst && (match x.kind with
    | .data => x.sch == y.sch
    | .credit => x.dch == y.dch
    | _ => true)

/-- The station's network runs and is not frozen. -/
def State.netLive (s : State) (st : Stn) : Bool := (s.stn st).run == .running && !(s.stn st).frozen

/-- Every word on an output is in its last network cycle before cyc or a later one, so that cyc may begin (07 R193). -/
def Station.settled (S : Station) (cyc : Nat) : Bool := S.outs.all fun x => decide (cyc ≤ x.2.1 + 1)

/-- The network cycle of a slot of the present frame, where it has not gone by and all before it is done (07 R193, R195). -/
def State.slotCycle (s : State) (st : Stn) (slot : Nat) : Option Nat :=
  let S := s.stn st
  let cyc := S.frameBase + slot
  if s.netLive st ∧ slot < s.netLen st ∧ S.cycle ≤ cyc ∧ S.settled cyc then some cyc else none

def Station.outWord (S : Station) (sel : Nat) : Option (Nat × LinkWord) := S.outs.lookup sel

/-- An output may carry a word in a network cycle: it carries none, and has carried none in that cycle (07 R191). -/
def Station.outFree (S : Station) (sel cyc : Nat) : Bool :=
  (S.outWord sel).isNone && decide (smGet (fun _ => 0) S.lastOut sel ≤ cyc)

/-- A network cycle in which an output carries something, be it the empty marker (07 R191, R198). -/
def Station.spend (S : Station) (sel cyc : Nat) : Station :=
  { S with lastOut := smInsert S.lastOut sel (cyc + 1), cycle := max S.cycle cyc }

def Station.putOut (S : Station) (sel cyc : Nat) (w : LinkWord) : Station :=
  { S.spend sel cyc with outs := smInsert S.outs sel (cyc, w) }
def Station.clearOut (S : Station) (sel : Nat) : Station := { S with outs := smErase S.outs sel }
def Station.held (S : Station) (sel : Nat) : List LinkWord := smGet (fun _ => []) S.hold sel
def Station.setHeld (S : Station) (sel : Nat) (l : List LinkWord) : Station :=
  { S with hold := smSet (fun _ => []) S.hold sel l }
/-- Class of a best-effort word: 0 mailbox, 1 queue (07 R208). -/
def LinkWord.cls (w : LinkWord) : Nat := if w.kind = .request ∨ w.kind = .response then 1 else 0

/-- Key of the best-effort buffer of a class at an input of a router (07 R208). -/
def beKey (n p cls : Nat) : Nat := 2 * (8 * n + p) + cls
def Station.beAt (S : Station) (k : Nat) : List LinkWord := smGet (fun _ => []) S.be k
def Station.setBe (S : Station) (k : Nat) (l : List LinkWord) : Station := { S with be := smSet (fun _ => []) S.be k l }

/-! ### Slot conflicts (07 R199, R210, R211) -/

/-- The tile charged with a conflict, where it is in strict mode now; the last conflict charged stays (07 R210, log entry 99). -/
def State.charge (s : State) (st : Stn) (w : LinkWord) (sel : Nat) : State :=
  let n := if w.src.toNat < 40 then some w.src.toNat else if w.dst.toNat < 40 then some w.dst.toNat else none
  match n with
  | none => s
  | some n =>
    let t : TileNo := Fin.ofNat 40 n
    if s.strict st t then s.modTile st t fun T => { T with conflict := some (BitVec.ofNat 9 sel) } else s

/-- Hold a word at an output (07 R199, R211). -/
def State.holdWord (s : State) (st : Stn) (sel : Nat) (w : LinkWord) (conflict : Bool) : State :=
  let s := if conflict then ((s.bump (stnReg st 0x410) 1).netFlag st 0).charge st w sel else s
  let S := s.stn st
  if 8 ≤ (S.held sel).length then s.netFlag st 1
  else s.setStn st (S.setHeld sel (S.held sel ++ [w]))

/-! ### Local sources -/

/-- The channel word a tile may inject in a network cycle (07 R202, R204). -/
def State.channelReady (s : State) (st : Stn) (t : TileNo) (c : Fin 8) (cyc : Nat) : Option LinkWord :=
  let u := (s.tile st t).nu
  let tx := s.reg (aTX st t c)
  match u.send[c], u.credits[c] with
  | (e, v) :: _, k :: _ =>
    if bindingOn tx ∧ e ≤ cyc ∧ k ≤ cyc then
      some { kind := .data, be := false, dst := bits tx 8 6, src := BitVec.ofNat 6 t.val, dch := bits tx 0 3,
             sch := BitVec.ofNat 3 c.val, data := v }
    else none
  | _, _ => none

/-- Credits that a tile may return in a network cycle: at most 4, each freed at least two cycles ago (07 R204). -/
def creditsDue (freed : List Nat) (cyc : Nat) : Nat := min 4 (freed.countP fun f => decide (f + 2 ≤ cyc))

/-- The credit word a receiving channel may inject (07 R204). -/
def State.creditReady (s : State) (st : Stn) (t : TileNo) (c : Fin 8) (cyc : Nat) : Option LinkWord :=
  let rx := s.reg (aRX st t c)
  let n := creditsDue (s.tile st t).nu.freed[c] cyc
  if bindingOn rx ∧ 0 < n then
    some { kind := .credit, be := false, dst := bits rx 8 6, src := BitVec.ofNat 6 t.val, dch := bits rx 0 3,
           sch := BitVec.ofNat 3 n, data := 0 }
  else none

/-- CHANNEL_INJECT (07 R202). -/
def State.channelInject (s : State) (st : Stn) (t : TileNo) (c : Fin 8) (slot : Nat) : State :=
  match s.slotCycle st slot with
  | none => s
  | some cyc =>
    match s.channelReady st t c cyc with
    | none => s
    | some w =>
      let S := s.stn st
      let sel := firstSel t.val w.dst.toNat
      if entryLocal (S.entry sel slot) 0 c.val ∧ S.outFree sel cyc then
        (s.setStn st (S.putOut sel cyc w)).modTile st t fun T => { T with nu := { T.nu with
          send := T.nu.send.set c T.nu.send[c].tail, credits := T.nu.credits.set c T.nu.credits[c].tail } }
      else s

/-- CREDIT_INJECT (07 R204). -/
def State.creditInject (s : State) (st : Stn) (t : TileNo) (c : Fin 8) (slot : Nat) : State :=
  match s.slotCycle st slot with
  | none => s
  | some cyc =>
    match s.creditReady st t c cyc with
    | none => s
    | some w =>
      let S := s.stn st
      let sel := firstSel t.val w.dst.toNat
      if entryLocal (S.entry sel slot) 1 c.val ∧ S.outFree sel cyc then
        (s.setStn st (S.putOut sel cyc w)).modTile st t fun T => { T with nu := { T.nu with
          freed := T.nu.freed.set c (T.nu.freed[c].drop w.sch.toNat) } }
      else s

/-- The entry gives the slot to the local queue words for a node (07 R197). -/
def entryQueue (e : BitVec 11) (d : Nat) : Bool := nat e 8 3 == 1 && nat e 6 2 == 2 && nat e 0 6 == d

/-- The image allocates slots to the queue words from a node to a node (07 R209). -/
def State.queueSlots (s : State) (st : Stn) (src d : Nat) : Bool :=
  let S := s.stn st
  let sel := firstSel src d
  S.tables.any fun x =>
    x.1 / 1024 == sel && decide (x.1 % 1024 < s.netLen st) && entryQueue (S.entry sel (x.1 % 1024)) d

/-- Queue words that wait at a node to enter the network, oldest first: requests at a tile, responses elsewhere. -/
def State.queueWords (s : State) (st : Stn) (n : Nat) : List LinkWord :=
  if n < 40 then (s.tile st (Fin.ofNat 40 n)).qu.outbox else (s.stn st).resps.filter fun w => w.src.toNat == n

/-- Queue words leave their node. -/
def State.queueLeave (s : State) (st : Stn) (n : Nat) (ws : List LinkWord) : State :=
  if n < 40 then
    s.modTile st (Fin.ofNat 40 n) fun T => { T with qu := { T.qu with outbox := ws.foldl (fun l w => l.erase w) T.qu.outbox } }
  else s.modStn st fun S => { S with resps := ws.foldl (fun l w => l.erase w) S.resps }

/-- The queue word that a node may inject in a slot whose entry names a destination (07 R198 case 1). -/
def State.queueReady (s : State) (st : Stn) (n d : Nat) : Option LinkWord :=
  (s.queueWords st n).find? fun w => w.dst.toNat == d

/-- Queue words of a node that have no slots, and so travel best-effort (07 R209). -/
def State.queueLoose (s : State) (st : Stn) (n : Nat) : List LinkWord :=
  (s.queueWords st n).filter fun w => !s.queueSlots st n w.dst.toNat

/-! ### Hops (07 R193, R194, R198, R199, R208) -/

/-- A router discards the word (07 R194). -/
def LinkWord.discarded (w : LinkWord) (found : LinkUpset) : Bool :=
  found == .dataDouble || found == .parity || w.kind == .reserved

/-- A scheduled word arrives for an output in a network cycle (07 R198 case 1). `inputs` are the outputs that lead to the router. -/
def Station.ownerComes (S : Station) (sel cyc : Nat) (p : Nat) : Bool :=
  (List.range 400).any fun up => match linkEnd up, S.outWord up with
    | some (r, q), some (c, w) =>
      q == p && 8 * (5 * r.1 + r.2) / 8 == sel / 8 && c + 1 == cyc && !w.be && routeSel r.1 r.2 w.dst.toNat == sel
    | _, _ => false

/-- The queue word that the slot's entry gives to the output's own node (07 R198 case 1). -/
def State.queueOwner (s : State) (st : Stn) (sel cyc : Nat) : Option LinkWord :=
  let e := (s.stn st).entry sel (cyc % s.netLen st)
  let d := nat e 0 6
  if entryQueue e d && firstSel (sel / 8) d == sel then s.queueReady st (sel / 8) d else none

/-- The owner of an output's slot brings a word of a channel, a credit word or a word that arrives (07 R198 case 1). -/
def State.slotTaken (s : State) (st : Stn) (sel cyc : Nat) : Bool :=
  let S := s.stn st
  let e := S.entry sel (cyc % s.netLen st)
  match entryOwner e with
  | none => false
  | some 0 =>
    if sel / 8 < 40 then
      let t : TileNo := Fin.ofNat 40 (sel / 8)
      let c : Fin 8 := Fin.ofNat 8 (nat e 3 3)
      if nat e 6 2 = 0 then (s.channelReady st t c cyc).any fun w => firstSel t.val w.dst.toNat == sel
      else if nat e 6 2 = 1 then (s.creditReady st t c cyc).any fun w => firstSel t.val w.dst.toNat == sel
      else false
    else false
  | some p => S.ownerComes sel cyc p

/-- A best-effort word of the mailbox class from a node. -/
def mailOf (src : Nat) (kind : LinkKind) (x : BitVec 6 × BitVec 48) : LinkWord :=
  { kind := kind, be := true, dst := x.1, src := BitVec.ofNat 6 src, data := zext 64 x.2 }

/-- Best-effort words of a tile enter the two buffers of its router's input L, as there is room (07 R208). -/
def State.feedLocal (s : State) (st : Stn) (n : Nat) : State :=
  let t : TileNo := Fin.ofNat 40 n
  let S := s.stn st
  let mail := (s.tile st t).nu.mboxSend.take (4 - (S.beAt (beKey n 0 0)).length)
  let queue := (s.queueLoose st n).take (4 - (S.beAt (beKey n 0 1)).length)
  ((s.queueLeave st n queue).modTile st t fun T =>
    { T with nu := { T.nu with mboxSend := T.nu.mboxSend.drop mail.length } }).modStn st fun S =>
      (S.setBe (beKey n 0 0) (S.beAt (beKey n 0 0) ++ mail.map fun x => mailOf n .mailbox x)).setBe (beKey n 0 1)
        (S.beAt (beKey n 0 1) ++ queue.map fun w => { w with be := true })

/-- The best-effort word of a class that waits at input i of a router, or, for a node that is none, in the node itself. -/
def State.beHead (s : State) (st : Stn) (n i cls : Nat) : Option LinkWord :=
  let S := s.stn st
  if n < 40 then (S.beAt (beKey n i cls)).head?
  else if i ≠ 0 then none
  else if cls = 1 then (s.queueLoose st n).head?.map fun w => { w with be := true }
  else if n = 48 then S.hallSend.head?.map fun x => mailOf 48 .mailbox x
  else if n = 49 then S.bandQueue.head?.map fun x => mailOf 49 .band x
  else none

/-- Take that word away. -/
def State.bePop (s : State) (st : Stn) (n i cls : Nat) : State :=
  if n < 40 then s.modStn st fun S => S.setBe (beKey n i cls) (S.beAt (beKey n i cls)).tail
  else if cls = 1 then s.queueLeave st n ((s.queueLoose st n).take 1)
  else s.modStn st fun S =>
    if n = 48 then { S with hallSend := S.hallSend.tail } else { S with bandQueue := S.bandQueue.tail }

/-- Output of a node for a best-effort word. -/
def beSel (n : Nat) (w : LinkWord) : Nat :=
  if n < 40 then routeSel (n / 5) (n % 5) w.dst.toNat else 8 * n + 3 - 2 * (decide (n < 48)).toNat

/-- Where the round robin of an output stands before its first word: as if input 4 and class 1 had been served last. -/
def rrReset (k : Nat) : Nat := if k % 3 = 2 then 1 else 4

/-- The input whose best-effort word of a class an output serves next: inputs round robin, if the next buffer has room (07 R208). -/
def State.beChoice (s : State) (st : Stn) (sel cls : Nat) : Option Nat :=
  let S := s.stn st
  let room := match linkEnd sel with
    | some (r, p) => decide ((S.beAt (beKey (5 * r.1 + r.2) p cls)).length < 4)
    | none => true
  let last := smGet rrReset S.rr (3 * sel + cls)
  if room then
    ((List.range 5).map fun i => (last + 1 + i) % 5).find? fun i =>
      (s.beHead st (sel / 8) i cls).any fun w => beSel (sel / 8) w == sel
  else none

/-- The class and input that an output serves next: the class other than the last goes first (07 R208). -/
def State.beNext (s : State) (st : Stn) (sel : Nat) : Option (Nat × Nat) :=
  let other := 1 - smGet rrReset (s.stn st).rr (3 * sel + 2)
  match s.beChoice st sel other with
  | some i => some (other, i)
  | none => (s.beChoice st sel (1 - other)).map fun i => (1 - other, i)

/-- An empty output takes what R198 gives it in a network cycle: the queue word that owns the slot, a held word, a best-effort word,
or the empty marker, in which an upset that a router finds counts too (07 R194, R198, R208). -/
def State.loadOutput (s : State) (st : Stn) (sel cyc : Nat) (found : LinkUpset) : State :=
  let n := sel / 8
  let s := if n < 40 then s.feedLocal st n else s
  let S := s.stn st
  match s.queueOwner st sel cyc with
  | some w => (s.queueLeave st n [w]).modStn st fun S => S.putOut sel cyc w
  | none =>
    match S.held sel with
    | w :: rest => s.setStn st ((S.setHeld sel rest).putOut sel cyc w)
    | [] =>
      match s.beNext st sel with
      | some (cls, i) =>
        (match s.beHead st n i cls with
        | none => s
        | some w =>
          (s.bePop st n i cls).modStn st fun S => { S.putOut sel cyc w with
            rr := smSet rrReset (smSet rrReset S.rr (3 * sel + cls) i) (3 * sel + 2) cls })
      | none =>
        let s1 := s.modStn st fun S => S.spend sel cyc
        if (linkEnd sel).isSome ∧ (found = .dataDouble ∨ found = .parity) then s1.netFlag st 2 else s1

/-- LINK_WORD_HOP: the word on an output reaches the next router in the network cycle after; an empty output is loaded in the slot
given, unless a channel, a credit or an arriving word owns it. -/
def State.linkWordHop (s : State) (st : Stn) (sel slot : Nat) (found : LinkUpset) : State :=
  let S := s.stn st
  match S.outWord sel with
  | none =>
    match s.slotCycle st slot with
    | none => s
    | some cyc =>
      if hasTable sel && S.outFree sel cyc && !s.slotTaken st sel cyc then s.loadOutput st sel cyc found else s
  | some (c0, w) =>
    let cyc := c0 + 1
    if !s.netLive st ∨ S.frameBase + s.netLen st ≤ cyc ∨ !S.settled cyc then s
    else match linkEnd sel with
    | none => s
    | some (r, p) =>
      let s0 := s.setStn st { S.clearOut sel with cycle := max S.cycle cyc }
      if w.discarded found then s0.netFlag st 2
      else
        let sel' := routeSel r.1 r.2 w.dst.toNat
        if w.be then
          let k := beKey (5 * r.1 + r.2) p w.cls
          if 4 ≤ (S.beAt k).length then s
          else s0.modStn st fun S => S.setBe k (S.beAt k ++ [w])
        else
          let owns := entryOwner (S.entry sel' (cyc % s.netLen st)) == some p
          if owns ∧ !(S.held sel').any (sameFlow w) then
            (if S.outFree sel' cyc then s0.modStn st fun S => S.putOut sel' cyc w else s)
          else s0.holdWord st sel' w (!owns)

/-! ### Delivery (07 R203, R204, R207, R219) -/

/-- The word that stands on the output to a node in or before a slot. -/
def State.arrivingWord (s : State) (st : Stn) (n slot : Nat) : Option (Nat × LinkWord) :=
  let S := s.stn st
  if s.netLive st then (S.outWord (nodeSel n)).filter fun x => decide (x.1 ≤ S.frameBase + slot) else none

/-- CHANNEL_DATA_DELIVER (07 R203). -/
def State.channelDataDeliver (s : State) (st : Stn) (t : TileNo) (slot : Nat) : State :=
  match s.arrivingWord st t.val slot with
  | none => s
  | some (cyc, w) =>
    if w.kind ≠ .data then s
    else
      let s := s.modStn st fun S => S.clearOut (nodeSel t.val)
      let c : Fin 8 := Fin.ofNat 8 w.dch.toNat
      let rx := s.reg (aRX st t c)
      if !(bindingOn rx && bits rx 8 6 == w.src && bits rx 0 3 == w.sch) then s.netFlag st 6
      else if 4 ≤ (s.tile st t).nu.recv[c].length then s.netFlag st 7
      else s.modTile st t fun T => { T with nu := { T.nu with recv := T.nu.recv.set c (T.nu.recv[c] ++ [(cyc, w.data)]) } }

/-- CREDIT_DELIVER (07 R204). -/
def State.creditDeliver (s : State) (st : Stn) (t : TileNo) (slot : Nat) : State :=
  match s.arrivingWord st t.val slot with
  | none => s
  | some (cyc, w) =>
    if w.kind ≠ .credit then s
    else
      let s := s.modStn st fun S => S.clearOut (nodeSel t.val)
      let c : Fin 8 := Fin.ofNat 8 w.dch.toNat
      let have_ := (s.tile st t).nu.credits[c]
      let n := min w.sch.toNat (4 - have_.length)
      let s := s.modTile st t fun T => { T with nu := { T.nu with
        credits := T.nu.credits.set c (have_ ++ List.replicate n (cyc + 2)) } }
      if n < w.sch.toNat then s.netFlag st 7 else s

/-- A mailbox word reaches its node (07 R207, R219). -/
def State.mailArrive (s : State) (st : Stn) (n : Nat) (src : Nat) (band : Bool) (payload : BitVec 48) : State :=
  let w := mailWord src band payload
  if n = 48 then
    let S := s.stn st
    if 16 ≤ S.hallFifo.length then s.netFlag st 5 else s.setStn st { S with hallFifo := S.hallFifo ++ [w] }
  else if n < 40 then
    let t : TileNo := Fin.ofNat 40 n
    let r := (s.tile st t).mailIn w band
    let s := s.setTile st t r.1
    if r.2 then s else s.netFlag st 5
  else s

/-- MAILBOX_DELIVER (07 R207). -/
def State.mailboxDeliver (s : State) (st : Stn) (n slot : Nat) : State :=
  match s.arrivingWord st n slot with
  | none => s
  | some (_, w) =>
    if w.kind ≠ .mailbox ∧ w.kind ≠ .band then s
    else
      (s.modStn st fun S => S.clearOut (nodeSel n)).mailArrive st n w.src.toNat (w.kind == .band) (bits w.data 0 48)

/-- The queue word that reaches node n from node m in or before a slot leaves its link: with the last word of its message the
message has arrived. A word out of turn, one before it lost, starts nothing (07 R194, R209). -/
def State.queueWordIn (s : State) (st : Stn) (n m slot : Nat) : State × Option QMsg :=
  match s.arrivingWord st n slot with
  | none => (s, none)
  | some (_, w) =>
    match w.queue with
    | none => (s, none)
    | some q =>
      if w.src.toNat ≠ m then (s, none)
      else
        let k := 64 * n + m
        let inTurn := q.part == 0 || smGet (fun _ => 0) (s.stn st).parts k == q.part
        let done := inTurn && q.part + 1 == q.parts
        let s := s.modStn st fun S =>
          { S.clearOut (nodeSel n) with parts := smSet (fun _ => 0) S.parts k (if inTurn && !done then q.part + 1 else 0) }
        (s, if done then some q.msg else none)

/-! ### Frame boundaries and frozen frames (07 R212 to R214) -/

/-- Slot-table corrections are due. -/
def Station.fixDue (S : Station) : Bool := !S.fixes.isEmpty || S.fix.isSome

/-- Carry out the slot-table corrections that are due. -/
def Station.applyFixes (S : Station) : Station :=
  let S := S.fixes.foldl (fun S x => S.setEntry x.1 x.2) S
  let S := match S.fix with
    | none => S
    | some x => S.setEntry x.1 x.2
  { S with fixes := [], fix := none }

/-- Events that a freeze carries out, a repair aside, as WHY of STN_NET_STAT shows them (07 R218). -/
def whyBits (corr thr halt : Bool) : Nat := corr.toNat + 2 * thr.toNat + 8 * halt.toNat

/-- CPR_THSs, and the minimum divisor; 0b11 is taken as 0b10 (16 R441). -/
def thsReg (st : Stn) : Nat := cpr (0x20 + 4 * st.val)
def State.minDiv (s : State) (st : Stn) : Nat := min 2 (s.fld (thsReg st) 4 2)

/-- The divisor that is due takes effect, at least the minimum (16 R441). -/
def State.takeDivisor (s : State) (st : Stn) : State :=
  match (s.stn st).dueDiv with
  | none => s
  | some d => s.setFld (aNetStat st) 25 2 (max (s.minDiv st) d.toNat)

/-- The events that are due in a frozen frame are carried out within the freeze: entries are rewritten, a repair begins, and WHY
names them beside those before (07 R212, R213, R218). -/
def State.freezeWork (s : State) (st : Stn) : State :=
  let S := s.stn st
  let why := s.fld (aNetStat st) 27 4 ||| whyBits S.fixDue S.dueDiv.isSome S.halted
  (((s.setStn st S.applyFixes).setFld (aNetStat st) 27 4 why).setFld (stnReg st 0x418) 30 1 0).beginRepair st

/-- FRAME_BOUNDARY (07 R195, R212). -/
def State.frameBoundary (s : State) (st : Stn) : State :=
  let S := s.stn st
  let base := S.frameBase + s.netLen st
  if !s.netLive st ∨ !S.settled base then s
  else
    let halt := s.rbit (aNetCtrl st) 31
    let s := s.bump (stnReg st 0x408) 1
    let S := { S with frameBase := base, cycle := max S.cycle base }
    if S.fixDue || S.dueDiv.isSome || !S.repairs.isEmpty || halt then
      ((s.setStn st { S with frozen := true, halted := halt }).setFld (aNetStat st) 31 1 1).freezeWork st
    else s.setStn st S

/-- FREEZE_END: a frozen frame ends. What has become due meanwhile is carried out within the freeze; the network runs again, at the
divisor last asked for, once no repair and no halt keeps it frozen (07 R212, R213). -/
def State.freezeEnd (s : State) (st : Stn) : State :=
  let S := s.stn st
  if !(S.run == .running && S.frozen) then s
  else
    let halt := s.rbit (aNetCtrl st) 31
    let s := ((s.bump (stnReg st 0x40C) 1).setStn st { S with halted := halt }).freezeWork st
    if (s.stn st).repairNow.isSome || halt then s
    else
      ((s.takeDivisor st).modStn st fun S => { S with frozen := false, halted := false, dueDiv := none }).setFld (aNetStat st) 27 5 0

/-- SLOT_TABLE_SCRUB: the scrubber reads an entry (07 R214). -/
def State.slotTableScrub (s : State) (st : Stn) (sel i : Nat) (found : Upset) : State :=
  let k := sel * 1024 + i
  if !hasTable sel || (s.stn st).run != .running then s
  else match found with
  | .none => s
  | .single =>
    (s.modStn st fun S => { S with fixes := S.fixes ++ [(k, smGet (fun _ => 0) S.tables k)] }).netFlag st 3
  | .double => (s.modStn st fun S => { S with tableBad := smInsert S.tableBad k true }).netFlag st 4

/-- NET_FIX_GO: a write of STN_NET_FIX (07 R218). -/
def State.netFixGo (s : State) (st : Stn) (v : W32) : State :=
  let a := stnReg st 0x418
  let pend := s.rbit a 30
  let sel := s.fld (stnReg st 0x414) 0 9
  if !s.fitted st then s else
  let s := s.setReg a ((v &&& 0x07FF03FF) ||| (s.reg a &&& 0x40000000))
  if !bit v 31 || pend then s
  else
    let k := sel * 1024 + nat v 0 10
    if (s.stn st).run = .running then
      (s.modStn st fun S => { S with fix := some (k, bits v 16 11) }).setFld a 30 1 1
    else s.modStn st fun S => S.setEntry k (bits v 16 11)

/-- NET_HALT: STN_NET_CTRL.HALT (07 R212, R218). -/
def State.netHalt (s : State) (st : Stn) (halt : Bool) : State :=
  if s.fitted st then s.setFld (aNetCtrl st) 31 1 halt.toNat else s

/-- HALL_MAILBOX_SEND: a write of STN_NET_HSEND_HI (07 R219). For a stopped station the word is discarded (01 R33). -/
def State.hallMailboxSend (s : State) (st : Stn) (v : W32) : State :=
  if !s.fitted st then s else
  let s := s.setReg (stnReg st 0x42C) (v &&& 0x3F00FFFF)
  let S := s.stn st
  if !bit v 31 ∨ 4 ≤ S.hallSend.length ∨ 39 < nat v 24 6 ∨ S.run ≠ .running then s
  else
    let payload : BitVec 48 := BitVec.ofNat 48 (nat v 0 16 * 2 ^ 32 + (s.reg (stnReg st 0x428)).toNat)
    s.setStn st { S with hallSend := S.hallSend ++ [(bits v 24 6, payload)] }

/-- Pop the Hall's mailbox FIFO (07 R219). -/
def State.hallPop (s : State) (st : Stn) : State := s.modStn st fun S => { S with hallFifo := S.hallFifo.tail }

end Sys2Proof.Machine
end

