-- ==== Sys2Proof/Machine/Nodes.lean ====
section
/-! DEFINITION. Memory nodes and the queue engine gateway (08 R227 to R231, R245, R246), line fills and the reload of a line
(02 R61, R62; 15 R425, R426). -/

namespace Sys2Proof.Machine

/-! ### Station memory from the memory-node side -/

/-- Whether n bytes at a station offset can be read: their bank is on, no word among them is uncorrectable. -/
def State.stnMemState (s : State) (st : Stn) (off : Nat) (n : Nat) : RespStat :=
  if !s.stnBankOn st (off / 0x80000) then .notOn
  else if (wordsOf off n).any fun w => s.upset (stnBase st + w) == .double then .uncorrectable
  else .ok

/-- What a failed access leaves in STN_MEM_STAT (08 R227, R251). -/
def State.stnMemFail (s : State) (st : Stn) (off n : Nat) (r : RespStat) : State :=
  match r with
  | .notOn => s.setFlag (stnReg st 0x210) 2
  | .uncorrectable =>
    match (wordsOf off n).find? fun w => s.upset (stnBase st + w) == .double with
    | none => s
    | some w => s.memUe (.station st) (stnBase st + w)
  | _ => s

/-- Corrections of a read of n bytes (08 R227). -/
def State.stnMemCe (s : State) (st : Stn) (off n : Nat) : State :=
  s.memCe (.station st) ((wordsOf off n).countP fun w => s.upset (stnBase st + w) == .single)

/-- Write bytes to station memory with fresh check bits. -/
def State.stnMemWrite (s : State) (st : Stn) (off : Nat) (bs : List Byte) : State :=
  (wordsOf off bs.length).foldl (fun s w => s.setUpset (stnBase st + w) .none) (s.setBytes (stnBase st + off) bs)

/-- A read of n bytes: the answer and the bytes. -/
def State.stnMemRead (s : State) (st : Stn) (off n : Nat) : State × RespStat × List Byte :=
  match s.stnMemState st off n with
  | .ok => (s.stnMemCe st off n, .ok, s.bytes (stnBase st + off) n)
  | r => (s.stnMemFail st off n r, r, [])

/-- A write of bytes: a word replaced in full is not read first, and a correction in the read of another is not counted (log entry 103). -/
def State.stnMemStore (s : State) (st : Stn) (off : Nat) (bs : List Byte) : State × RespStat :=
  let n := bs.length
  let r := s.stnMemState st off n
  if r = .ok ∨ (r = .uncorrectable ∧ off % 8 = 0 ∧ n % 8 = 0) then (s.stnMemWrite st off bs, .ok)
  else (s.stnMemFail st off n r, r)

/-! ### Requests at a node -/

/-- A node takes a request, and its word credits come back; atomics that waited for them are sent (08 R245, R246). -/
def State.takeRequest (s : State) (st : Stn) (node : Fin 9) (q : QReq) : State :=
  let s := s.modTile st q.tile fun T =>
    { T with qu := { T.qu with credits := T.qu.credits.set node (T.qu.credits[node] + reqWords q.op) } }.pumpAtomic q.tile
  if h : node.val < 8 then s.modStn st fun S => { S with nodeQ := S.nodeQ.set node.val (S.nodeQ[node.val] ++ [q]) }
  else s.mxEnqueue (qeMaster st) (mxReqOf q) (some (st, q))

/-- QUEUE_REQUEST_ARRIVAL: a queue word of a tile leaves its last link at a node; with the last word of a request the node takes it
(07 R209; 08 R246). -/
def State.queueArrival (s : State) (st : Stn) (t : TileNo) (node : Fin 9) (slot : Nat) : State :=
  match s.queueWordIn st (40 + node.val) t.val slot with
  | (s1, some (.req q)) => s1.takeRequest st node q
  | (s1, _) => s1

/-- Answer a request and take it from its node. -/
def State.nodeAnswer (s : State) (st : Stn) (g : Fin 8) (q : QReq) (r : RespStat) (data : List Byte) : State :=
  s.modStn st fun S => { S with
    nodeQ := S.nodeQ.set g S.nodeQ[g].tail, reissue := S.reissue.set g false
    resps := S.resps ++ respWords ⟨Fin.ofNat 9 g.val, q, r, data⟩ }

/-- A busy answer of the node to a tile's read (08 R231). -/
def State.nodeBusyRead (s : State) (st : Stn) (g : Fin 8) (q : QReq) : State :=
  ((s.bump (tileReg st q.tile 0x214) 1).bump (stnReg st 0x220) 1).modStn st fun S => { S with reissue := S.reissue.set g true }

/-- WB and TILE_MEM_STAT.WBUSY of the tile whose write was answered busy (08 R231). -/
def State.busyWb (s : State) (st : Stn) (q : QReq) : State :=
  (s.setFlag (tileReg st q.tile 0x218) 1).modTile st q.tile fun T =>
    if T.runs = q.run then { T with qu := { T.qu with wb := true } } else T

/-- A busy answer of the node to a tile's write (08 R231). -/
def State.nodeBusyWrite (s : State) (st : Stn) (q : QReq) : State := (s.bump (stnReg st 0x220) 1).busyWb st q

/-- Perform the request at the front of a node, an atomic aside. With `collide`, the matrix side accesses the same word in the
bank cycle so that the two collide. -/
def State.nodeAccess (s : State) (st : Stn) (g : Fin 8) (collide : Bool) : State :=
  match (s.stn st).nodeQ[g] with
  | [] => s
  | q :: _ =>
    let off := q.addr.toNat % 0x1000000
    let read := fun (n : Nat) =>
      let x := s.stnMemRead st off n
      if collide && x.2.1 == .ok then s.nodeBusyRead st g q else x.1.nodeAnswer st g q x.2.1 x.2.2
    let store := fun (bs : List Byte) =>
      let x := s.stnMemStore st off bs
      let s1 := if collide && x.2 == .ok then x.1.nodeBusyWrite st q else x.1
      s1.nodeAnswer st g q x.2 []
    match q.op with
    | .load _ _ size _ => read (elemBytes size)
    | .blockRead .. => read 64
    | .store _ size v => store (leBytes (elemBytes size) v.toNat)
    | .blockWrite _ _ data => store data
    | .atomic .. => s

/-- MEMORY_NODE_BANK_ACCESS: a read that was answered busy waits for its reissue. -/
def State.nodeBankAccess (s : State) (st : Stn) (g : Fin 8) (collide : Bool) : State :=
  if (s.stn st).reissue[g] then s else s.nodeAccess st g collide

/-- READ_REISSUE: the read can meet the matrix side's access of its own bank cycle (08 R231). -/
def State.readReissue (s : State) (st : Stn) (g : Fin 8) (collide : Bool) : State :=
  if (s.stn st).reissue[g] then s.nodeAccess st g collide else s

/-- ATOMIC_AT_BANK: the node performs the atomic at its front in one bank cycle; a swap of the doorbell word is seen (08 R245;
10 R295). With `collide`, an atomic of the matrix side holds the word: the node is the later port of the tie, and its atomic, a read
and a write, is answered busy as both and made in the next bank cycle (08 R229 to R231). -/
def State.atomicAtBank (s : State) (st : Stn) (g : Fin 8) (collide : Bool) : State :=
  match (s.stn st).nodeQ[g] with
  | [] => s
  | q :: _ =>
    match q.op with
    | .atomic _ swap v =>
      let off := q.addr.toNat % 0x1000000
      let x := s.stnMemRead st off 8
      if x.2.1 ≠ .ok then x.1.nodeAnswer st g q x.2.1 []
      else if collide then (s.nodeBusyRead st g q).busyWb st q
      else
        let new := if swap then v else leBv 64 x.2.2 + v
        let s1 := (x.1.stnMemWrite st off (leBytes 8 new.toNat)).nodeAnswer st g q .ok x.2.2
        if swap then s1.doorbell st q.tile off v else s1
    | _ => s

/-- QUEUE_RESPONSE_ARRIVAL: a queue word of a node leaves its last link at a tile; with the last word of a response the queue unit
takes it (07 R209; 08 R235). -/
def State.queueResponse (s : State) (st : Stn) (t : TileNo) (node : Fin 9) (slot : Nat) : State :=
  match s.queueWordIn st t.val (40 + node.val) slot with
  | (s1, some (.resp r)) => s1.quAnswer st t r
  | (s1, _) => s1

/-! ### Instruction lines (02 R61, R62; 15 R425, R426) -/

def aLfix (st : Stn) (t : TileNo) : Nat := tileReg st t 0x220

/-- LINE_FILL_COMPLETE: the oldest fill ends; a line whose check fails is held marked bad and reported. A reload of the line holds
fills of it back that had not begun (02 R61, R62; 15 R425). The next fill is then in progress: one that the tile waits for, else a
prefetch (03 R92, R93). -/
def State.lineFill (s : State) (st : Stn) (t : TileNo) : State :=
  let T := s.tile st t
  match T.fills with
  | [] => s
  | l :: rest =>
    let a := aLfix st t
    if T.run ≠ .running ∨ s.haltFrozen st ∨ (s.rbit a 30 ∧ s.fld a 0 8 = l.toNat ∧ !T.fillFirst) then s
    else
      let bad := s.lineCrc st t l != s.storedCrc st t l
      let s := s.setTile st t { T with fills := rest, fillFirst := false, buf := (⟨l, bad⟩ :: T.buf.filter fun e => e.line != l).take 4 }
      let s := s.modTile st t fun T => T.demand (s.neededLines st t)
      if bad then
        let s := if s.rbit a 16 then s else s.setFld a 8 8 l.toNat
        (s.setFlag a 16).notify (.lineFault st t)
      else s

/-- TILE_LFIX_GO: a write of TILE_LFIX; false where it is refused (15 R426). -/
def State.lfixWrite (s : State) (st : Stn) (t : TileNo) (v : W32) : State × Bool :=
  let a := aLfix st t
  let fields : W32 := 0x300000FF
  if !s.fitted st then (s, true)
  else if s.rbit a 30 && (bit v 31 || v &&& fields != s.reg a &&& fields) then (s, false)
  else
    let s := s.setReg a ((s.reg a &&& ~~~fields) ||| (v &&& fields))
    let s := if bit v 16 then s.setFld a 16 1 0 else s
    (if bit v 31 then (s.setFld a 30 1 1).modTile st t fun T => { T with fillFirst := !T.fills.isEmpty } else s, true)

/-- LINE_RELOAD_END: once the fill that was in progress has ended, it applies the line buffer (15 R425). -/
def State.lineReloadEnd (s : State) (st : Stn) (t : TileNo) : State :=
  let a := aLfix st t
  let T := s.tile st t
  if !s.rbit a 30 || (T.run == .running && T.fillFirst) then s
  else
    let l := s.fld a 0 8
    let bs := (List.range 64).flatMap fun i => leBytes 4 (s.reg (tileReg st t (0x400 + 4 * i))).toNat
    let s := s.setBytes (tileInsn st t (256 * l)) bs
    let s := if s.rbit a 29 then s.setReg (tileReg st t (0x1000 + 4 * l)) (s.reg (tileReg st t 0x224)) else s
    let s := s.modTile st t fun T => { T with
      buf := T.buf.filter fun e => e.line != BitVec.ofNat 8 l
      ipend := if s.rbit a 28 then putBit T.ipend 7 true else T.ipend }
    s.setFld a 30 1 0

end Sys2Proof.Machine
end

