-- ==== Sys2Proof/Machine/BankCmds.lean ====
section
/-! DEFINITION. Commands of banks, scrubbers and LP5 controllers (08). -/

namespace Sys2Proof.Machine

/-- BANK_POWER_WRITE (R224). -/
def execBankPowerWrite (m : BankMem) (hi : Bool) (v : W32) (s : State) : Host.Outcome State Fault Refusal :=
  ((s.noted.reserved (bankField m (if hi then 16 else 0)).1 v).bankPowerWrite m hi v).out

/-- BANK_POWER_CHANGE_END (R224). -/
def execBankPowerChangeEnd (m : BankMem) (bank : Fin 32) (s : State) : Host.Outcome State Fault Refusal :=
  .next (s.bankChangeEnd m bank.val)

/-- ZERO_FILL_START (R225). -/
def execZeroFillStart (m : BankMem) (fill : W32) (s : State) : Host.Outcome State Fault Refusal :=
  .next (s.zeroFillStart m (bankFillOf m fill))

/-- ZERO_FILL_END (R225). -/
def execZeroFillEnd (m : BankMem) (bank : Fin 32) (s : State) : Host.Outcome State Fault Refusal :=
  .next (s.zeroFillEnd m bank.val)

/-- MEM_SCRUB (R228). -/
def execMemScrub (m : BankMem) (bank : Fin 32) (found : Upset) (s : State) : Host.Outcome State Fault Refusal :=
  .next (s.memScrub m bank.val found)

/-- READ_REISSUE (R231). -/
def execReadReissue (st : Stn) (x : NodeAccess) (s : State) : Host.Outcome State Fault Refusal :=
  .next (s.readReissue st x.node x.collide)

/-- LP5_INIT (R249). -/
def execLp5Init (n : Fin 2) (s : State) : Host.Outcome State Fault Refusal :=
  .next (s.lpInit n)

/-- LP5_TRAINING_END (R249). -/
def execLp5TrainingEnd (n : Fin 2) (pass : Bool) (s : State) : Host.Outcome State Fault Refusal :=
  .next (s.lpTrainingEnd n pass)

/-- LP5_SELF_REFRESH (R248). -/
def execLp5SelfRefresh (n : Fin 2) (enter : Bool) (s : State) : Host.Outcome State Fault Refusal :=
  .next (s.lpSelfRefresh n enter)

/-- LP5_MR4_READ (R248). -/
def execLp5Mr4Read (n : Fin 2) (hot : Bool) (s : State) : Host.Outcome State Fault Refusal :=
  .next (s.lpMr4 n hot)

/-- LP5_SCRUB (R250). -/
def execLp5Scrub (n : Fin 2) (found : Upset) (s : State) : Host.Outcome State Fault Refusal :=
  .next (s.lpScrub n found)

/-- MEMORY_NODE_BANK_ACCESS (R231). -/
def execMemoryNodeBankAccess (st : Stn) (g : Fin 8) (collide : Bool) (s : State) : Host.Outcome State Fault Refusal :=
  .next (s.nodeBankAccess st g collide)

end Sys2Proof.Machine
end

