-- ==== Sys2Proof/Machine/MemSide.lean ====
section
/-! DEFINITION. Memories as the matrix reaches them, one beat of 64 bytes at a time (01 R25 to R28; 08 R223, R227, R249, R250;
11 R309). -/

namespace Sys2Proof.Machine

/-- A mapped memory address: its memory and the address under which State holds it. -/
def State.memPlace (s : State) (a : Nat) : Option (FaultMem × Nat) :=
  match s.targetOf a with
  | none => none
  | some g =>
    if g.val = 0 then
      if a < 0x100000 then (if s.rbit (mxReg 0) 0 then some (.hall, hallMem a) else none)
      else if a < 0x20000000 then some (.hall, a)
      else none
    else if g.val = 1 ∨ g.val = 2 then
      let n : Fin 2 := Fin.ofNat 2 (g.val - 1)
      if s.lpReady n && decide (lpBase n + s.lpPresented n ≤ a) then none else some (.lp5 n, a)
    else if 3 ≤ g.val ∧ g.val ≤ 6 then
      let st : Stn := Fin.ofNat 4 (g.val - 3)
      let o := a - stnBase st
      if o < 0x1000000 then some (.station st, a)
      else if 0x8000000 ≤ o ∧ o < 0x8A00000 ∧ o % 0x40000 < 0x20000 then
        some (.tile st (Fin.ofNat 40 ((o - 0x8000000) / 0x40000)), a)
      else none
    else none

/-- Why a memory does not serve a word, if it does not (08 R223, R249; 11 R309). -/
def State.memCode (s : State) (m : FaultMem) (a : Nat) : Option MxCode :=
  match m with
  | .hall => if s.hallBankOn ((a - hallMem 0) / 0x10000) then none else some 2
  | .station st => if s.stnBankOn st ((a - stnBase st) / 0x80000) then none else some 2
  | .tile st t => if s.tileBankOn st t (bankOf (a - tileData st t 0)) then none else some 2
  | .lp5 n => if s.lpReady n ∧ !s.gated n.val then none else some 5

/-- Note a bank that did not serve an access (08 R251). -/
def State.memOff (s : State) (m : FaultMem) (c : MxCode) : State :=
  match m with
  | .station st => if c = 2 then s.setFlag (stnReg st 0x210) 2 else s
  | _ => s

/-- Words of a beat with some byte enabled, and those with only some of their bytes enabled. -/
def maskWords (mask : W64) : List Nat := (List.range 8).filter fun i => nat mask (8 * i) 8 ≠ 0
def partWords (mask : W64) : List Nat := (maskWords mask).filter fun i => nat mask (8 * i) 8 ≠ 255

/-- A beat as bytes. -/
def beatBytes (d : BitVec 512) : List Byte := (List.range 64).map fun i => bits d (8 * i) 8
def bytesBeat (bs : List Byte) : BitVec 512 := BitVec.ofNat 512 (leNat (bs.take 64))

/-- Read the enabled bytes of the beat at a 64-byte address. -/
def State.beatRead (s : State) (m : FaultMem) (a : Nat) (mask : W64) : State × Option MxCode × BitVec 512 :=
  let ws := (maskWords mask).map fun i => a + 8 * i
  match ws.findSome? fun w => s.memCode m w with
  | some c => (s.memOff m c, some c, 0)
  | none =>
    match ws.find? fun w => s.checked m w == .double with
    | some w => (s.memUe m w, some 3, 0)
    | none =>
      (s.memCe m (ws.countP fun w => s.checked m w == .single), none,
       bytesBeat ((List.range 64).map fun i => if bit mask i then s.byte (a + i) else 0))

/-- Write the enabled bytes of the beat at a 64-byte address; a word changed only in part must be readable, and a correction of it is not
counted (log entry 103). -/
def State.beatWrite (s : State) (m : FaultMem) (a : Nat) (mask : W64) (d : BitVec 512) : State × Option MxCode :=
  match (maskWords mask).findSome? fun i => s.memCode m (a + 8 * i) with
  | some c => (s.memOff m c, some c)
  | none =>
    match (partWords mask).find? fun i => s.checked m (a + 8 * i) == .double with
    | some i => (s.memUe m (a + 8 * i), some 3)
    | none =>
      let s := (List.range 64).foldl (fun s i => if bit mask i then s.setByte (a + i) (bits d (8 * i) 8) else s) s
      ((maskWords mask).foldl (fun s i => s.setUpset (a + 8 * i) .none) s, none)

/-- Cut bytes from an address on into beats: the beat's address, its mask and its data. -/
def cutBeats : Nat → Nat → List Byte → List (Nat × W64 × BitVec 512)
  | 0, _, _ => []
  | fuel + 1, a, bs =>
    match bs with
    | [] => []
    | _ :: _ =>
      let off := a % 64
      let n := min (64 - off) bs.length
      (a - off, BitVec.ofNat 64 ((2 ^ n - 1) * 2 ^ off), BitVec.ofNat 512 (leNat (bs.take n) * 2 ^ (8 * off))) ::
        cutBeats fuel (a + n) (bs.drop n)

/-- A decode error of the beat at b in a request from address a on: one for each piece (11 R307, R310). -/
def State.pieceError (s : State) (m : Master) (a b : Nat) : State :=
  if b ≤ a ∨ b % 1024 = 0 then s.decodeError m b else s

/-! ### The other port of a bank (08 R229 to R231) -/

/-- Words of a beat, of a memory with two ports, that an access of its other port touches in the same bank cycle (08 R229). -/
def State.collides (s : State) (mem : FaultMem) (p : Nat) (mask : W64) (meet : Option PortMeet) : List Nat :=
  match meet, mem with
  | none, _ | _, .lp5 _ => []
  | some x, _ =>
    match s.memPlace (x.start.toNat / 8 * 8) with
    | none => []
    | some (_, q) => (maskWords mask).filter fun w => decide (q ≤ p + 8 * w) && decide (p + 8 * w < q + 8 * x.n)

/-- The access of the other port, where it touches a word of a beat. -/
def State.meets (s : State) (mem : FaultMem) (p : Nat) (mask : W64) (meet : Option PortMeet) : Option PortAct :=
  if (s.collides mem p mask meet).isEmpty then none else meet.map PortMeet.act

/-- The matrix side of Hall SRAM is the later port: busy. Its own Hall accesses count as the Hall side, which is the earlier one
(08 R229). -/
def laterSide (m : Master) (mem : FaultMem) : Bool :=
  match mem with
  | .hall => m != mHall
  | _ => false

/-- A busy answer to the matrix, or to the Hall at its own memory, is counted (08 R231). -/
def State.busyMark (s : State) (mem : FaultMem) : State :=
  match mem with
  | .station st => s.bump (stnReg st 0x220) 1
  | .hall => s.setFlag aHMS 2
  | _ => s

/-- Write a beat, with the access of the bank's other port: against an atomic, and against a read at the later port, the write is
performed and answered busy, as the Bool tells (08 R229 to R231). -/
def State.writeMet (s : State) (m : Master) (mem : FaultMem) (p : Nat) (mask : W64) (d : BitVec 512) (meet : Option PortMeet) :
    (State × Option MxCode) × Bool :=
  let x := s.beatWrite mem p mask d
  let busy := match s.meets mem p mask meet with
    | some .atomic => true
    | some .read => laterSide m mem
    | _ => false
  if x.2.isNone && busy then ((x.1.busyMark mem, none), true) else (x, false)

/-- A master's write of bytes to memory; false where a beat of it failed. Bytes in unmapped space are discarded (11 R310). -/
def State.memWrite (s : State) (m : Master) (a : Nat) (bs : List Byte) (around : Around := {}) : State × Bool :=
  (cutBeats bs.length a bs).foldl (init := (s, true)) fun x b =>
    match x.1.memPlace b.1 with
    | none => (x.1.pieceError m a b.1, x.2)
    | some (mem, p) =>
      let r := (x.1.writeMet m mem p b.2.1 b.2.2 around.meet).1
      (r.1, x.2 && r.2.isNone)

/-- A master's read of n bytes of memory; bytes of failed beats and of unmapped space are zero. -/
def State.memRead (s : State) (m : Master) (a n : Nat) : State × Bool × List Byte :=
  (cutBeats n a (List.replicate n 0)).foldl (init := (s, true, [])) fun x b =>
    let k := (List.range 64).filter fun i => bit b.2.1 i
    match x.1.memPlace b.1 with
    | none => (x.1.pieceError m a b.1, x.2.1, x.2.2 ++ k.map fun _ => 0)
    | some (mem, p) =>
      let r := x.1.beatRead mem p b.2.1
      (r.1, x.2.1 && r.2.1.isNone, x.2.2 ++ k.map fun i => bits r.2.2 (8 * i) 8)

end Sys2Proof.Machine
end

