-- ==== Sys2Proof/Machine/Timers.lean ====
section
/-! DEFINITION. Device timers, the latch of the time base, and the release of DMA channels by events (11 R316, R317, R324). -/

namespace Sys2Proof.Machine

def dmaReg (n : Fin 16) (off : Nat) : Nat := devReg 2 (0x100 + 0x40 * n.val + off)
def tmrReg (n : Fin 8) (off : Nat) : Nat := devReg 3 (0x100 + 0x20 * n.val + off)

/-- An event releases the channels that name it: PEND rises to 15, an event beyond is lost (11 R324). `self` is the channel that
raises it, which receives none of its own. A stopped clock sees no event (16 R440). -/
def State.dmaRelease (s : State) (src sel : Nat) (self : Option (Fin 16)) : State :=
  if s.gated 2 then s else (List.finRange 16).foldl (init := s) fun s n =>
    let w := if src = 1 then 3 else if src = 2 then 4 else 5
    if s.fld (dmaReg n 4) 6 2 = src ∧ s.fld (dmaReg n 4) 0 w = sel ∧ s.rbit (dmaReg n 0) 31 ∧ self ≠ some n then
      let p := s.fld (dmaReg n 8) 24 4
      if p = 15 then s.setFlag (dmaReg n 8) 4 else s.setFld (dmaReg n 8) 24 4 (p + 1)
    else s

/-- A timer starts: COUNT is loaded with RELOAD. -/
def State.timerRun (s : State) (n : Fin 8) : State :=
  { s.setReg (tmrReg n 8) (s.reg (tmrReg n 4)) with
    tmrRun := s.tmrRun.set n true
    tmrArmed := s.tmrArmed.set n false }

def State.timerAt (s : State) (n : Fin 8) : Nat := (s.reg (tmrReg n 0x10)).toNat * 2 ^ 32 + (s.reg (tmrReg n 0xC)).toNat

/-- TIMER_ENABLE: a write of TMR_Tn_CTRL (11 R317, R319). -/
def State.timerEnable (s : State) (n : Fin 8) (v : W32) : State :=
  if s.inReset then s else
  let a := tmrReg n 0
  let was := s.rbit a 31
  let keep : W32 := if was then 0x4000000F else 0
  let s := s.setReg a ((v &&& 0xF000000F &&& ~~~keep) ||| (s.reg a &&& keep))
  if !bit v 31 then { s with tmrRun := s.tmrRun.set n false, tmrArmed := s.tmrArmed.set n false }
  else if was then s
  else if bit v 29 then { s with tmrArmed := s.tmrArmed.set n true }
  else s.timerRun n

/-- TIMER_START: an armed timer starts in the first count that equals or exceeds AT. -/
def State.timerStart (s : State) (n : Fin 8) : State :=
  if s.tmrArmed[n] ∧ s.timerAt n ≤ s.timeBase.toNat then s.timerRun n else s

/-- Interrupt line 3 in the tiles a timer names (05 R145). -/
def State.timerTiles (s : State) (n : Fin 8) : State :=
  (List.finRange 4).foldl (init := s) fun s st =>
    if !s.rbit (tmrReg n 0) st.val then s
    else (List.finRange 40).foldl (init := s) fun s t =>
      let named := if t.val < 32 then s.rbit (tmrReg n 0x14) t.val else s.rbit (tmrReg n 0x18) (t.val - 32)
      if named then s.modTile st t fun T => { T with ipend := putBit T.ipend 3 true } else s

/-- TIMER_EVENT: COUNT moves from 0. -/
def State.timerEvent (s : State) (n : Fin 8) : State :=
  if !s.tmrRun[n] ∨ s.reg (tmrReg n 8) ≠ 0 then s
  else
    let s := if s.rbit (tmrReg n 0) 30 then { s.setFld (tmrReg n 0) 31 1 0 with tmrRun := s.tmrRun.set n false }
      else s.setReg (tmrReg n 8) (s.reg (tmrReg n 4))
    let s := s.setFlag (devReg 3 8) n.val
    let s := if s.rbit (tmrReg n 0) 28 then s.notify (.timer n) else s
    (s.dmaRelease 1 n.val none).timerTiles n

/-- One time-base count of a timer that runs or is armed. -/
def State.timerTick (s : State) (n : Fin 8) : State :=
  if s.tmrRun[n] then
    if s.reg (tmrReg n 8) = 0 then s.timerEvent n else s.setReg (tmrReg n 8) (s.reg (tmrReg n 8) - 1)
  else s.timerStart n

/-- TIME_BASE_LATCH: a read of TMR_TB_LO latches the upper half for its master (11 R316). -/
def State.tbLatchRead (s : State) (m : Master) : State := { s with tbLatch := s.tbLatch.set m (bits s.timeBase 32 32) }

end Sys2Proof.Machine
end

