-- ==== Sys2Proof/Machine/Camera.lean ====
section
/-! DEFINITION. Camera ingest: receivers, contexts, slots in memory and notices (09 R253 to R272). -/

namespace Sys2Proof.Machine

def camReg (st : Stn) (off : Nat) : Nat := devReg (0x10 + st.val) off
def rxReg (st : Stn) (r : Fin 4) (off : Nat) : Nat := camReg st (0x10 + 0x10 * r.val + off)
def cxReg (st : Stn) (k : Fin 8) (off : Nat) : Nat := camReg st (0x100 + 0x40 * k.val + off)

def State.ctx (s : State) (st : Stn) (k : Fin 8) : CamCtx := s.cam[st][k]
def State.modCtx (s : State) (st : Stn) (k : Fin 8) (f : CamCtx → CamCtx) : State :=
  { s with cam := s.cam.set st (s.cam[st].set k (f s.cam[st][k])) }

/-! ### Geometry of a context (09 R255, R258) -/

structure CamGeom where
  ring : Bool
  lsnum : Bool
  dt : Nat
  out : Nat
  shift : Nat
  width : Nat
  height : Nat
  rows : Nat
  nslot : Nat
  sz : Nat
  base : Nat

def State.geom (s : State) (st : Stn) (k : Fin 8) : CamGeom :=
  let c := s.reg (cxReg st k 0)
  let g := s.reg (cxReg st k 4)
  let l := s.reg (cxReg st k 8)
  { ring := bit c 30, lsnum := bit c 29, dt := nat c 18 6, out := nat c 16 2, shift := min 4 (nat c 13 3)
    width := nat g 0 13, height := nat g 20 12, rows := nat l 16 9, nslot := nat l 25 7, sz := nat l 0 16
    base := nat (s.reg (cxReg st k 0x10)) 0 8 * 2 ^ 32 + nat (s.reg (cxReg st k 0xC)) 12 20 * 4096 }

/-- Bytes per stored pixel, for the combinations that are not refused (09 R255). -/
def CamGeom.bpp (g : CamGeom) : Option Nat :=
  match g.dt, g.out with
  | 0x2A, 0 => some 1 | 0x2A, 1 => some 2 | 0x2A, 2 => some 1
  | 0x2B, 0 => some 1 | 0x2B, 1 => some 2
  | 0x2C, 0 => some 1 | 0x2C, 1 => some 2
  | 0x1E, 2 => some 2 | 0x1E, 3 => some 1
  | _, _ => none

def CamGeom.multiple (g : CamGeom) : Nat :=
  if g.dt = 0x2B then 4 else if g.dt = 0x2C ∨ g.dt = 0x1E then 2 else 1

/-- n rounded up to a multiple of 64. -/
def up64 (n : Nat) : Nat := (n + 63) / 64 * 64
def CamGeom.stride (g : CamGeom) : Nat := up64 (g.width * g.bpp.getD 0)
/-- Rows of a slot. -/
def CamGeom.slotRows (g : CamGeom) : Nat := if g.ring then g.height else g.rows
def CamGeom.pixOff (g : CamGeom) : Nat := up64 (64 + 16 * g.slotRows)
/-- Sequence S uses slot (S - 1) mod NSLOT (09 R261). -/
def CamGeom.slotIndex (g : CamGeom) (seq : W32) : Nat := (seq.toNat + 2 ^ 32 - 1) % 2 ^ 32 % g.nslot
def CamGeom.slotAddr (g : CamGeom) (seq : W32) : Nat := g.base + g.slotIndex seq * g.sz * 4096

/-- Payload bytes that WIDTH requires. -/
def CamGeom.payload (g : CamGeom) : Nat :=
  if g.dt = 0x2B then g.width * 5 / 4 else if g.dt = 0x2C then g.width * 3 / 2 else if g.dt = 0x1E then 2 * g.width else g.width

/-- Conditions of an enable (09 R268). -/
def State.ctxOk (s : State) (st : Stn) (k : Fin 8) : Bool :=
  let g := s.geom st k
  let len := g.nslot * g.sz * 4096
  g.bpp.isSome && decide (g.width % g.multiple = 0) &&
  decide (1 ≤ g.width ∧ g.width ≤ 8191 ∧ 1 ≤ g.height ∧ g.height ≤ 4095) &&
  decide (2 ≤ g.nslot ∧ g.nslot ≤ if g.ring then 64 else 8) && (g.ring || decide (16 ≤ g.rows ∧ g.rows ≤ 256)) &&
  decide (g.pixOff + g.stride * g.slotRows ≤ g.sz * 4096) &&
  (if g.ring then
    (List.finRange 2).any fun n => s.rbit (lpReg n 4) 0 && decide (lpBase n ≤ g.base ∧ g.base + len ≤ lpBase n + s.lpPresented n)
   else
    decide (stnBase st ≤ g.base) &&
    banksAll (g.base - stnBase st) len fun j => s.bankPower (.station st) j == 2 &&
      decide (s.fld (stnReg st (if j < 16 then 0x150 else 0x154)) (2 * (j % 16)) 2 = 0))

/-! ### Pixels (09 R255) -/

/-- RAW10 groups of five bytes hold four pixels, upper bytes first (CSI-2: log entry 16). -/
def raw10 : List Byte → List Nat
  | a :: b :: c :: d :: l :: rest =>
    (a.toNat * 4 + nat l 0 2) :: (b.toNat * 4 + nat l 2 2) :: (c.toNat * 4 + nat l 4 2) :: (d.toNat * 4 + nat l 6 2) :: raw10 rest
  | _ => []

/-- RAW12 groups of three bytes hold two pixels. -/
def raw12 : List Byte → List Nat
  | a :: b :: l :: rest => (a.toNat * 16 + nat l 0 4) :: (b.toNat * 16 + nat l 4 4) :: raw12 rest
  | _ => []

/-- The Y bytes of U Y V Y. -/
def lumaOf : List Byte → List Byte
  | _ :: y :: rest => y :: lumaOf rest
  | _ => []

/-- The bytes that a context stores for a payload. -/
def CamGeom.pixels (g : CamGeom) (bs : List Byte) : List Byte :=
  let p := bs.take g.payload
  let narrow := fun (l : List Nat) => l.map fun x => BitVec.ofNat 8 (min 255 (x / 2 ^ g.shift))
  let wide := fun (l : List Nat) => l.flatMap fun x => leBytes 2 x
  match g.dt, g.out with
  | 0x2A, 1 => wide (p.map fun b => b.toNat)
  | 0x2B, 0 => narrow (raw10 p)
  | 0x2B, _ => wide (raw10 p)
  | 0x2C, 0 => narrow (raw12 p)
  | 0x2C, _ => wide (raw12 p)
  | 0x1E, 3 => lumaOf p
  | _, _ => p

/-! ### Slots -/

/-- Open a slot for frame row row0: SEQ_BEGIN is its first write (09 R261). -/
def State.openSlot (s : State) (st : Stn) (k : Fin 8) (row0 : Nat) : State :=
  let g := s.geom st k
  s.modCtx st k fun C =>
    let seq := C.seq + 1
    let S : CamSlot := { seq := seq, addr := g.slotAddr seq, row0 := row0, rows := [], tfirst := 0, tlast := 0, err := false,
                         fs := decide (row0 = 0), fe := false, inc := false, shortf := false, longf := false, fnum := C.fnum,
                         tfs := C.tfs, lost := 0, closed := none, index := g.slotIndex seq, size := g.sz * 4096, dt := g.dt,
                         width := g.width, stride := g.stride }
    { C with seq := seq, slots := C.slots ++ [S], writes := C.writes ++ [.bytes S.addr (leBytes 4 seq.toNat)] }

/-- The slot that is open. -/
def CamCtx.openSlot (C : CamCtx) : Option CamSlot := C.slots.find? fun S => S.closed.isNone

def CamCtx.putSlot (C : CamCtx) (S : CamSlot) : CamCtx :=
  { C with slots := C.slots.map fun x => if x.seq = S.seq then S else x }

/-- A line descriptor (09 R260). -/
def lineDesc (ts : W64) (dt flags bytes row : Nat) : List Byte :=
  leBytes 8 ts.toNat ++ leBytes 8 (dt * 2 ^ 40 + flags * 2 ^ 32 + bytes % 65536 * 65536 + row % 65536)

/-- Close the open slot: rows missing under LSNUM = 1 get their descriptors, then the header follows (09 R256, R259, R263, R264).
`fe` and `inc` tell how the frame ended, if it did. -/
def State.closeSlot (s : State) (st : Stn) (k : Fin 8) (fe inc shortf : Bool) : State :=
  let g := s.geom st k
  let C := s.ctx st k
  match C.openSlot with
  | none => s
  | some S =>
    let full := min g.slotRows (g.height - S.row0)
    let nrow := if g.lsnum then full else S.rows.length
    let missing := if g.lsnum then (List.range full).filter fun i => !S.rows.contains i else []
    let S := { S with
      fe := fe, inc := inc, shortf := shortf, longf := C.longf, lost := C.lost, closed := some nrow
      err := S.err || !missing.isEmpty }
    let ws := missing.map fun i => CamWrite.bytes (S.addr + 64 + 16 * i) (lineDesc 0 g.dt 0x20 0 (S.row0 + i))
    let s := s.modCtx st k fun C => { C.putSlot S with writes := C.writes ++ ws ++ [.header S.seq] }
    let s := if missing.isEmpty then s else s.setFlag (cxReg st k 0x1C) 4
    if inc then s.setFlag (cxReg st k 0x1C) 3 else s

/-- The frame being captured ends (09 R263, R264, R269): a disable that waited takes effect. -/
def State.endFrame (s : State) (st : Stn) (k : Fin 8) (fe inc always : Bool) : State :=
  let g := s.geom st k
  let C := s.ctx st k
  let s := s.closeSlot st k fe inc (always || decide (C.had.length < g.height))
  let s := (s.modCtx st k fun C => { C with active := false, disabling := false }).setFld (cxReg st k 0x1C) 25 1 0
  if C.disabling then s.setFld (cxReg st k 0) 31 1 0 else s

/-! ### Receivers (09 R253, R272) -/

/-- The receiver is on. -/
def State.rxOn (s : State) (st : Stn) (r : Fin 4) : Bool :=
  decide (st.val < s.grade.stations) && s.rbit (rxReg st r 0) 31 && decide (s.fld (rxReg st r 0) 0 2 ≠ 3)

/-- Contexts enabled for a receiver and a virtual channel. -/
def State.ctxsOf (s : State) (st : Stn) (r : Fin 4) (vc : BitVec 2) : List (Fin 8) :=
  (List.finRange 8).filter fun k =>
    let c := s.reg (cxReg st k 0)
    bit c 31 && nat c 26 2 == r.val && bits c 24 2 == vc

/-- A receiver that is on has received high-speed data: SYNC (09 R272). -/
def State.received (s : State) (st : Stn) (r : Fin 4) : State := s.setFlag (rxReg st r 4) 6

/-- FRAME_START (09 R257, R263, R264, R268). -/
def State.frameStart (s : State) (st : Stn) (r : Fin 4) (vc : BitVec 2) (fnum : W16) : State :=
  if !s.rxOn st r then s
  else (s.ctxsOf st r vc).foldl (init := s.received st r) fun s k =>
    let s := if (s.ctx st k).active then s.endFrame st k false true (!(s.geom st k).ring) else s
    if !s.rbit (cxReg st k 0) 31 then s
    else
      let s := (s.modCtx st k fun C => { C with
        active := true, fnum := fnum, tfs := s.timeBase, count := 0, had := [], ls := none, lost := 0, longf := false }).setFld
          (cxReg st k 0x1C) 25 1 1
      if (s.geom st k).ring then s.openSlot st k 0 else s

/-- FRAME_END. -/
def State.frameEnd (s : State) (st : Stn) (r : Fin 4) (vc : BitVec 2) : State :=
  if !s.rxOn st r then s
  else (s.ctxsOf st r vc).foldl (init := s.received st r) fun s k => if (s.ctx st k).active then s.endFrame st k true false false else s

/-- LINE_START (09 R256). -/
def State.lineStart (s : State) (st : Stn) (r : Fin 4) (vc : BitVec 2) (line : W16) : State :=
  if !s.rxOn st r then s
  else (s.ctxsOf st r vc).foldl (fun s k => s.modCtx st k fun C => { C with ls := some line }) (s.received st r)

/-- CSI_ULPS. -/
def State.csiUlps (s : State) (st : Stn) (r : Fin 4) (enter : Bool) : State :=
  if s.rxOn st r then s.setFld (rxReg st r 4) 7 1 enter.toNat else s

/-- START_OF_TRANSMISSION. -/
def State.startOfTx (s : State) (st : Stn) (r : Fin 4) (ok : Bool) : State :=
  if !s.rxOn st r then s else s.setFlag (rxReg st r 4) (if ok then 6 else 3)

/-- PACKET_HEADER_ERROR (09 R256). -/
def State.headerError (s : State) (st : Stn) (r : Fin 4) : State :=
  if !s.rxOn st r then s
  else
    let s := ((s.received st r).setFlag (rxReg st r 4) 2).setFld (rxReg st r 8) 0 16 (min 0xFFFF (s.fld (rxReg st r 8) 0 16 + 1))
    (List.finRange 8).foldl (init := s) fun s k =>
      if s.fld (cxReg st k 0) 26 2 = r.val ∧ (s.ctx st k).active then s.modCtx st k fun C => { C with lost := C.lost + 1 } else s

/-! ### Line FIFOs (09 R253; 11 R304) -/

def Station.putLines (S : Station) (r : Fin 4) (ls : List LineHeld) : Station := { S with lines := S.lines.set r ls }

/-- A line of n bytes enters a receiver's line FIFO. -/
def Station.lineIn (S : Station) (r : Fin 4) (n : Nat) : Station := S.putLines r (S.lines[r] ++ [⟨n, []⟩])

/-- A context takes the newest line. -/
def Station.lineUsed (S : Station) (r : Fin 4) (k : Fin 8) : Station :=
  match S.lines[r].getLast? with
  | none => S
  | some x => S.putLines r (S.lines[r].dropLast ++ [{ x with ctxs := x.ctxs ++ [k] }])

/-- The newest line leaves at once if no context takes it. -/
def Station.lineKept (S : Station) (r : Fin 4) : Station :=
  match S.lines[r].getLast? with
  | some ⟨_, []⟩ => S.putLines r S.lines[r].dropLast
  | _ => S

/-- The oldest line that a context has not written is written by it; it leaves with the last of its contexts. -/
def lineWritten (k : Fin 8) : List LineHeld → List LineHeld
  | [] => []
  | x :: xs =>
    if x.ctxs.contains k then (if x.ctxs = [k] then xs else { x with ctxs := x.ctxs.erase k } :: xs) else x :: lineWritten k xs

/-- Bytes in the fullest line FIFO of a station. -/
def Station.fullest (S : Station) : Nat :=
  (List.finRange 4).foldl (fun n r => max n (S.lines[r].foldl (fun m x => m + x.bytes) 0)) 0

/-- A row of a frame arrives for a context: the slot it belongs to is opened, earlier bands are closed, pixels and descriptor are
queued (09 R255, R256, R260, R263). -/
def State.storeRow (s : State) (st : Stn) (r : Fin 4) (k : Fin 8) (row : Nat) (p : LongPkt) : State :=
  let g := s.geom st k
  let row0 := if g.ring then 0 else row / g.rows * g.rows
  let late := match (s.ctx st k).openSlot with
    | some S => decide (row0 < S.row0)
    | none => false
  if late then s
  else
    let s := match (s.ctx st k).openSlot with
      | some S => if S.row0 < row0 then s.closeSlot st k false false false else s
      | none => s
    let s := if (s.ctx st k).openSlot.isNone then s.openSlot st k row0 else s
    match (s.ctx st k).openSlot with
    | none => s
    | some S =>
      let i := row - row0
      let got := match p.fifoCut with
        | none => p.payload
        | some n => p.payload.take n
      let short := decide (p.payload.length < g.payload)
      let long := decide (g.payload < p.payload.length)
      let flags := (!p.crcOk).toNat + 2 * p.hdrCorrected.toNat + 4 * short.toNat + 8 * long.toNat + 16 * p.fifoCut.isSome.toNat
      let S := { S with
        rows := if S.rows.contains i then S.rows else S.rows ++ [i]
        tfirst := if S.rows.isEmpty then s.timeBase else S.tfirst
        tlast := s.timeBase, err := S.err || decide (flags ≠ 0) }
      let s := s.modCtx st k fun C => { C.putSlot S with
        had := if C.had.contains row then C.had else C.had ++ [row]
        writes := C.writes ++ [.row r (S.addr + g.pixOff + i * g.stride) (g.pixels got),
          .bytes (S.addr + 64 + 16 * i) (lineDesc s.timeBase g.dt flags got.length row)] }
      let s := s.modStn st fun U => U.lineUsed r k
      if flags = 0 then s else s.setFlag (cxReg st k 0x1C) 4

/-- LONG_PACKET (09 R254 to R257, R270). -/
def State.longPacket (s : State) (st : Stn) (r : Fin 4) (p : LongPkt) : State :=
  if !s.rxOn st r then s
  else
    let ks := (s.ctxsOf st r p.vc).filter fun k => s.fld (cxReg st k 0) 18 6 == p.dt.toNat
    let s := s.received st r
    let s := if ks.isEmpty then s.setFlag (rxReg st r 4) 4 else s
    let s := if p.crcOk then s
      else (s.setFlag (rxReg st r 4) 1).setFld (rxReg st r 8) 16 16 (min 0xFFFF (s.fld (rxReg st r 8) 16 16 + 1))
    let s := if p.fifoCut.isSome then s.setFlag (rxReg st r 4) 0 else s
    let got := (p.fifoCut.map fun n => min n p.payload.length).getD p.payload.length
    let s := s.modStn st fun U => U.lineIn r got
    let s := ks.foldl (init := s) fun s k =>
      let C := s.ctx st k
      let g := s.geom st k
      if !C.active then s
      else
        let s := if p.fifoCut.isSome then s.setFlag (cxReg st k 0x1C) 0 else s
        let row := if g.lsnum then C.ls.map fun l => (l - 1).toNat else some C.count
        match row with
        | none => s
        | some row =>
          let s := s.modCtx st k fun C => { C with count := C.count + 1, ls := none }
          if g.height ≤ row then s.modCtx st k fun C => { C with longf := true }
          else s.storeRow st r k row p
    s.modStn st fun U => U.lineKept r

/-! ### Writes and completion (09 R259, R261, R265, R267, R270) -/

/-- FLAGS of the slot header. -/
def CamSlot.flags (S : CamSlot) : Nat :=
  S.fs.toNat + 2 * S.fe.toNat + 4 * S.err.toNat + 8 * S.inc.toNat + 16 * S.shortf.toNat + 32 * S.longf.toNat

/-- Header bytes 0x04 to 0x37. -/
def CamSlot.header (S : CamSlot) : List Byte :=
  leBytes 2 S.fnum.toNat ++ leBytes 2 S.row0 ++ leBytes 2 (S.closed.getD 0) ++ leBytes 1 S.flags ++ leBytes 1 S.dt ++
    leBytes 2 S.width ++ leBytes 2 S.stride ++ leBytes 8 S.tfs.toNat ++ leBytes 8 S.tfirst.toNat ++ leBytes 8 S.tlast.toNat ++
    leBytes 4 S.lost ++ List.replicate 12 0

/-- The address of a context's oldest waiting write. -/
def State.camNext (s : State) (st : Stn) (k : Fin 8) : Option Nat :=
  let C := s.ctx st k
  match C.writes with
  | [] => none
  | .bytes a _ :: _ | .row _ a _ :: _ => some a
  | .header q :: _ => (C.slots.find? fun S => S.seq == q).map fun S => S.addr + 4

/-- The address of SEQ_END of a context's oldest slot, once it is closed and every other write of it is answered (09 R261). -/
def State.camEnd (s : State) (st : Stn) (k : Fin 8) : Option Nat :=
  let C := s.ctx st k
  match C.slots with
  | [] => none
  | S :: _ =>
    let waiting := C.writes.any fun w => match w with
      | .header q => q == S.seq
      | _ => false
    if S.closed.isNone || waiting then none else some (S.addr + 0x38)

/-- Addresses at which a context has a write waiting; a gated block writes nothing (16 R440). -/
def State.camAddrs (s : State) (st : Stn) (k : Fin 8) : List Nat :=
  if s.gated (4 + st.val) then [] else (s.camNext st k).toList ++ (s.camEnd st k).toList

/-- The oldest waiting write of a context is performed. -/
def State.ingestWrite (s : State) (st : Stn) (k : Fin 8) (around : Around) : State :=
  let C := s.ctx st k
  match C.writes with
  | [] => s
  | w :: rest =>
    let s := s.modCtx st k fun C => { C with writes := rest }
    let slotOf := fun (a : Nat) => C.slots.find? fun S => decide (S.addr ≤ a) && decide (a < S.addr + S.size)
    let fail := fun (s : State) (S : Option CamSlot) =>
      let s := s.setFlag (cxReg st k 0x1C) 5
      match S with
      | none => s
      | some S => s.modCtx st k fun C => C.putSlot { S with err := true }
    match w with
    | .bytes a bs =>
      let r := s.memWrite mCamera a bs around
      if r.2 then r.1 else fail r.1 (slotOf a)
    | .row q a bs =>
      let r := s.memWrite mCamera a bs around
      let s := r.1.modStn st fun U => U.putLines q (lineWritten k U.lines[q])
      if r.2 then s else fail s (slotOf a)
    | .header q =>
      match C.slots.find? fun S => S.seq == q with
      | none => s
      | some S =>
        let r1 := s.memWrite mCamera (S.addr + 4) S.header around
        let r2 := r1.1.memWrite mCamera (S.addr + 0x3C) [0, 0, 0, 0] around
        if r1.2 && r2.2 then r2.1 else fail r2.1 (some S)

/-- Payload of a notice (09 R265). -/
def CamSlot.payload (S : CamSlot) (k : Fin 8) : BitVec 48 :=
  BitVec.ofNat 48 (S.seq.toNat % 4096 * 2 ^ 36 + S.row0 % 4096 * 2 ^ 24 + S.closed.getD 0 % 4096 * 2 ^ 12 +
    S.index % 64 * 64 + k.val * 8 + S.fs.toNat * 4 + S.fe.toNat * 2 +
    (S.err || S.inc || S.shortf || S.longf).toNat)

/-- A notice joins the block's queue of 32, or is dropped. -/
def State.postNotice (s : State) (st : Stn) (k : Fin 8) (node : Nat) (payload : BitVec 48) : State :=
  if 32 ≤ (s.stn st).bandQueue.length then s.setFlag (cxReg st k 0x1C) 2
  else s.modStn st fun S => { S with bandQueue := S.bandQueue ++ [(BitVec.ofNat 6 node, payload)] }

/-- SLOT_COMPLETE: once every write of the oldest slot is answered, SEQ_END is written, notices are posted, and the frame-end event
is raised. -/
def State.slotComplete (s : State) (st : Stn) (k : Fin 8) (around : Around) : State :=
  match (s.ctx st k).slots with
  | [] => s
  | S :: rest =>
    if (s.camEnd st k).isNone then s
    else
      let r := s.memWrite mCamera (S.addr + 0x38) (leBytes 4 S.seq.toNat) around
      let s := if r.2 then r.1 else r.1.setFlag (cxReg st k 0x1C) 5
      let S := { S with err := S.err || !r.2 }
      let s := (s.modCtx st k fun C => { C with slots := rest }).setReg (cxReg st k 0x20) S.seq
      let p := S.payload k
      let s := (List.range 40).foldl (init := s) fun s t =>
        let named := if t < 32 then s.rbit (cxReg st k 0x14) t else s.rbit (cxReg st k 0x18) (t - 32)
        if named then s.postNotice st k t p else s
      let s := if s.rbit (cxReg st k 0x18) 8 then s.postNotice st k 48 p else s
      if S.fe || S.inc then
        let s := s.setFlag (camReg st 0) k.val
        let s := if s.rbit (camReg st 0) (8 + k.val) then s.notify (.camera st) else s
        s.dmaRelease 3 (8 * st.val + k.val) none
      else s

/-! ### Enable, disable, abort (09 R268, R269) -/

/-- The fields of CFG but EN and ABORT, written while EN is 0. -/
def State.cfgFields (s : State) (st : Stn) (k : Fin 8) (v : W32) : State :=
  let a := cxReg st k 0
  s.setReg a ((v &&& 0x6FFFE000) ||| (s.reg a &&& 0x80000000))

/-- Writes and slots of an earlier enable are completed before the sequence counter starts again. -/
def State.flushCtx (s : State) (st : Stn) (k : Fin 8) : State :=
  let s := (List.range (s.ctx st k).writes.length).foldl (fun s _ => s.ingestWrite st k {}) s
  (List.range (s.ctx st k).slots.length).foldl (fun s _ => s.slotComplete st k {}) s

/-- The registers of a station's ingest block take writes: the station is not disabled by grade and the block's clock runs
(09 R271; 16 R440). -/
def State.camOpen (s : State) (st : Stn) : Bool := decide (st.val < s.grade.stations) && !s.gated (4 + st.val)

/-- A register write of an ingest block. -/
def State.camWritten (s : State) (st : Stn) (f : State → State) : State := if s.camOpen st then f s else s

/-- CONTEXT_ENABLE: a write of CFG with EN = 1. It calls off a disable that waits (log entry 17). -/
def State.contextEnable (s : State) (st : Stn) (k : Fin 8) (v : W32) : State :=
  let a := cxReg st k 0
  if st.val ≥ s.grade.stations then s
  else if s.rbit a 31 then s.modCtx st k fun C => { C with disabling := false }
  else
    let s := (s.flushCtx st k).cfgFields st k v
    if s.ctxOk st k then
      ((s.setFld a 31 1 1).setFld (cxReg st k 0x1C) 24 1 0).setReg (cxReg st k 0x20) 0 |>.modCtx st k fun C =>
        { C with disabling := false, active := false, seq := 0, slots := [], writes := [] }
    else s.setFlag (cxReg st k 0x1C) 24

/-- CONTEXT_DISABLE: a write of EN = 0 takes effect when the frame being captured ends. -/
def State.contextDisable (s : State) (st : Stn) (k : Fin 8) (v : W32) : State :=
  let a := cxReg st k 0
  if st.val ≥ s.grade.stations then s
  else if !s.rbit a 31 then s.cfgFields st k v
  else if (s.ctx st k).active then s.modCtx st k fun C => { C with disabling := true }
  else s.setFld a 31 1 0

/-- CONTEXT_ABORT: a write of EN = 0 with ABORT = 1 takes effect at once. -/
def State.contextAbort (s : State) (st : Stn) (k : Fin 8) (v : W32) : State :=
  let a := cxReg st k 0
  if st.val ≥ s.grade.stations then s
  else if !s.rbit a 31 then s.cfgFields st k v
  else
    let s := if (s.ctx st k).active then s.endFrame st k false true false else s
    (s.modCtx st k fun C => { C with disabling := false }).setFld a 31 1 0

end Sys2Proof.Machine
end

