-- ==== Sys2Proof/Machine/LaneBus.lean ====
section
/-! DEFINITION. The legacy register bus and the Window, and who may reach lane I/O (spec 13 R368 to R382, R393 to R396; 17 R465 to
R467). -/

namespace Sys2Proof.Machine

/-! ### Ownership (13 R393 to R395) -/

/-- The station an owner field names, if any. -/
def ownerOf (v : Nat) : Option Stn := if h : v < 4 then some ⟨v, h⟩ else none

/-- A master may access a resource: queue engines only through MX_PQEs and only what their station owns (11 R305, R314; 13 R395). -/
def State.laneMay (s : State) (m : Master) (openBit : Nat) (owner : Option Stn) : Bool :=
  if s.inReset || m.val = 8 then false
  else if 1 ≤ m.val ∧ m.val ≤ 4 then
    let st : Stn := Fin.ofNat 4 (m.val - 1)
    s.rbit (mxReg (0x200 + 4 * st.val)) openBit && owner == some st
  else true

/-- The station of a queue engine. -/
def qeOf (m : Master) : Option Stn := if 1 ≤ m.val ∧ m.val ≤ 4 then some (Fin.ofNat 4 (m.val - 1)) else none

/-- A lane I/O notice for the Hall. -/
def State.laneNotice (s : State) (src : LaneSrc) : State := s.notify (.lane src)

/-! ### Registers of the Window -/

def lbReg (off : Nat) : Nat := devReg 0x30 off
def winCfg (n : Nat) : Nat := lbReg (0x40 + 4 * n)
def State.modWin (s : State) (f : WinState → WinState) : State := { s with window := f s.window }
def State.winOwner (s : State) (n : Nat) : Option Stn := ownerOf (s.fld (winCfg n) 28 3)
/-- Owner of a read FIFO: that of the window it names (13 R393). -/
def State.fifoOwner (s : State) (k : Nat) : Option Stn := s.winOwner (s.fld (lbReg (0x100 + 4 * k)) 16 3)

/-- Address of a pair of mirror words, and the mirror word i of window n. -/
def mirAddr (n pair : Nat) : Nat := lbReg (0x1000 + 0x200 * n + 4 * pair)
def State.mirror (s : State) (n i : Nat) : W16 := bits (s.reg (mirAddr n (i / 2))) (16 * (i % 2)) 16
def State.setMirror (s : State) (n i : Nat) (v : W16) : State := s.setFld (mirAddr n (i / 2)) (16 * (i % 2)) 16 v.toNat
/-- Type entry of word i of window n (13 R372). -/
def State.wordType (s : State) (n i : Nat) : Byte := bits (s.reg (lbReg (0x4000 + 0x100 * n + 4 * (i / 4)))) (8 * (i % 4)) 8

def State.winFifo (s : State) (k : Fin 16) : WinFifo := s.window.fifos[k]
def State.setWinFifo (s : State) (k : Fin 16) (f : WinFifo) : State := s.modWin fun W => { W with fifos := W.fifos.set k f }

/-! ### Live sources (13 R374, R381) -/

def serReg (p off : Nat) : Nat := devReg 0x31 (0x100 + 0x40 * p + off)
def gioReg (off : Nat) : Nat := devReg 0x33 off
def drwReg (n : Nat) (off : Nat) : Nat := gioReg (0x100 + 0x10 * n + off)

/-- GIO_IN: an output pin has the level it drives. -/
def State.gioIn (s : State) : W32 :=
  (s.gio.pins &&& ~~~(s.reg (gioReg 8))) ||| (s.reg (gioReg 4) &&& s.reg (gioReg 8))

/-- Level of a source; `own` is the mirror bit that SEL 0x00 names. -/
def State.laneSource (s : State) (sel : Nat) (own : Bool) : Bool :=
  if sel = 0 then own
  else if 0x10 ≤ sel ∧ sel < 0x20 then !(s.winFifo (Fin.ofNat 16 (sel - 0x10))).entries.isEmpty
  else if 0x20 ≤ sel ∧ sel < 0x28 then s.rbit (drwReg (sel - 0x20) 4) 30
  else if 0x28 ≤ sel ∧ sel < 0x30 then s.rbit (drwReg (sel - 0x28) 4) 31
  else if 0x30 ≤ sel ∧ sel < 0x40 then !(s.serial[(Fin.ofNat 20 (sel - 0x30))]).rx.isEmpty
  else if 0x40 ≤ sel ∧ sel < 0x60 then bit s.gioIn (sel - 0x40)
  else false

/-- SEL and INV of bit j of composite group g. -/
def State.groupByte (s : State) (g j : Nat) : Byte := bits (s.reg (lbReg (0x200 + 0x10 * g + 4 * (j / 4)))) (8 * (j % 4)) 8

/-- A composite word (13 R374). -/
def State.composite (s : State) (g : Nat) (own : W16) : W16 :=
  (List.range 16).foldl (fun w j =>
    let b := s.groupByte g j
    putBit w j (s.laneSource (nat b 0 7) (bit own j) != bit b 7)) 0

/-- Level of LIRQ line k (13 R381). -/
def State.lirq (s : State) (k : Nat) : Bool :=
  let src := s.reg (lbReg (0x24 + 4 * k))
  s.rbit (lbReg 0) 0 && !s.window.lreset &&
    (s.rbit (lbReg 0x20) k || (bit src 31 && (s.laneSource (nat src 0 7) false != bit src 7)))

/-! ### The write log (13 R375, R376) -/

def State.logTs (s : State) : W32 := 0x80000000 ||| zext 32 (bits s.timeBase 8 31)

/-- Append an entry; on a full log it is lost. -/
def State.logAppend (s : State) (lo ts : W32) : State :=
  if 256 ≤ s.window.log.length then
    s.modWin fun W => { W with lost := if W.lost = 0xFFFF then 0xFFFF else W.lost + 1 }
  else
    let s := s.modWin fun W => { W with log := W.log ++ [(lo, ts)] }
    if s.rbit (lbReg 0) 1 then s.laneNotice .bus else s

/-- LOG_POP: a read of LB_LOG_HI. A loss marker takes the place that the pop frees. -/
def State.logPop (s : State) : State :=
  match s.window.log with
  | [] => s.modWin fun W => { W with fwRead := some 0 }
  | e :: rest =>
    let s := s.modWin fun W => { W with log := rest, fwRead := some e.2 }
    if s.window.lost = 0 then s
    else
      let lo : W32 := 0x80000000 ||| zext 32 s.window.lost
      let s := s.modWin fun W => { W with lost := 0 }
      (s.logAppend lo s.logTs).setFlag (lbReg 4) 2

/-! ### Firmware side (13 R373, R377, R378, R380) -/

/-- A SET or CLR alias write of one pair. -/
def aliasOf (clr : Bool) (old v : W32) : W32 := if clr then old &&& ~~~v else old ||| v

def State.mirrorWrite (s : State) (m : Master) (n : Fin 8) (pair : Fin 128) (v : W32) : State :=
  if s.laneMay m 4 (s.winOwner n.val) then s.setReg (mirAddr n.val pair.val) v else s

def State.aliasWrite (s : State) (m : Master) (clr : Bool) (n : Fin 8) (pair : Fin 128) (v : W32) : State :=
  if s.laneMay m 4 (s.winOwner n.val) then
    s.setReg (mirAddr n.val pair.val) (aliasOf clr (s.reg (mirAddr n.val pair.val)) v)
  else s

/-- TYPE_WRITE: a queue engine has no access to the types. -/
def State.typeWrite (s : State) (m : Master) (n : Fin 8) (quad : Fin 64) (v : W32) : State :=
  if s.laneMay m 4 none then s.setReg (lbReg (0x4000 + 0x100 * n.val + 4 * quad.val)) (v &&& 0xCFCFCFCF) else s

/-- FIFO_PUSH. -/
def State.fifoPush (s : State) (m : Master) (k : Fin 16) (v : W32) : State :=
  if !s.laneMay m 4 (s.fifoOwner k.val) then s
  else
    let F := s.winFifo k
    if 64 ≤ F.entries.length then s.setFlag (lbReg (0xC0 + 4 * k.val)) 7
    else s.setWinFifo k { F with entries := F.entries ++ [bits v 0 16] }

/-- FIFO_CLR: LB_FIFOk_STAT.CLR. -/
def State.fifoClr (s : State) (m : Master) (k : Fin 16) : State :=
  if s.laneMay m 4 (s.fifoOwner k.val) then s.setWinFifo k {} else s

/-- What a firmware access does to the mirror by itself. -/
def State.fwPerform (s : State) (fw : FwAccess) : State :=
  if s.inReset then s else match fw with
  | .none => s
  | .read n pair => s.modWin fun W => { W with fwRead := some (s.reg (mirAddr n.val pair.val)) }
  | .mirror n pair v => s.setReg (mirAddr n.val pair.val) v
  | .orAlias n pair v => s.setReg (mirAddr n.val pair.val) (aliasOf false (s.reg (mirAddr n.val pair.val)) v)
  | .clearAlias n pair v => s.setReg (mirAddr n.val pair.val) (aliasOf true (s.reg (mirAddr n.val pair.val)) v)

/-- The firmware access writes word i of window n; an alias half that is zero writes nothing (13 R380). -/
def fwWrites (n i : Nat) : FwAccess → Bool
  | .none | .read .. => false
  | .mirror w pair _ => w.val == n && pair.val == i / 2
  | .orAlias w pair v | .clearAlias w pair v => w.val == n && pair.val == i / 2 && nat v (16 * (i % 2)) 16 != 0

/-- The firmware access writes byte b of word i of window n. -/
def fwWritesByte (n i b : Nat) : FwAccess → Bool
  | .none | .read .. => false
  | .mirror w pair _ => w.val == n && pair.val == i / 2
  | .orAlias w pair v | .clearAlias w pair v => w.val == n && pair.val == i / 2 && nat v (16 * (i % 2) + 8 * b) 8 != 0

/-- The firmware access reads word i of window n. -/
def fwReads (n i : Nat) : FwAccess → Bool
  | .read w pair => w.val == n && pair.val == i / 2
  | _ => false

/-! ### The terminal side (13 R369 to R379) -/

/-- The window an address hits (13 R369), the lowest-numbered first, while the Window serves the bus. -/
def State.windowHit (s : State) (la : BitVec 20) : Option (Fin 8) :=
  if !s.rbit (lbReg 0) 0 || s.window.lreset then none
  else (List.finRange 8).find? fun n => s.rbit (winCfg n.val) 31 && s.fld (winCfg n.val) 0 11 == la.toNat / 512

/-- The bytes an access selects: low and high (13 R370). -/
def lanesOf (la : BitVec 20) (bheN : Bool) : Bool × Bool := (!bit la 0, !bheN)

/-- The byte mask of the lanes. -/
def busMask (l : Bool × Bool) : W16 := (if l.1 then 0x00FF else 0) ||| (if l.2 then 0xFF00 else 0)

/-- LD with the bytes of the lanes driven. -/
def busData (l : Bool × Bool) (v : W16) (busy : Bool) : BusOut :=
  { low := if l.1 then some (bits v 0 8) else none
    high := if l.2 then some (bits v 8 8) else none
    bnkbsy := busy, lselN := false }

/-- A read of a FIFO-pop word (13 R373). -/
def State.fifoRead (s : State) (k : Fin 16) (l : Bool × Bool) : State × W16 :=
  let F := s.winFifo k
  let empty : W16 := bits (s.reg (lbReg (0x100 + 4 * k.val))) 0 16
  if !l.1 then (s, zext 16 F.latch <<< 8)
  else match F.entries with
    | [] => (s.setWinFifo k { F with latch := bits empty 8 8 }, empty)
    | e :: rest => (s.setWinFifo k { entries := rest, latch := bits e 8 8 }, e)

/-- LEGACY_READ in its sample cycle, with the firmware access of that cycle. -/
def State.legacyRead (s : State) (la : BitVec 20) (bheN : Bool) (fw : FwAccess) : State :=
  let l := lanesOf la bheN
  match s.windowHit la with
  | none => (s.fwPerform fw).modWin fun W => { W with out := {} }
  | some n =>
    if l = (false, false) then (s.fwPerform fw).modWin fun W => { W with out := {} }
    else
      let i := la.toNat % 512 / 2
      let ty := s.wordType n.val i
      let old := s.mirror n.val i
      let s1 := s.fwPerform fw
      if nat ty 6 2 = 2 then
        let r := s1.fifoRead (Fin.ofNat 16 (nat ty 0 4)) l
        r.1.modWin fun W => { W with out := busData l r.2 false }
      else
        let mirrored := nat ty 6 2 != 3 ||
          (List.range 16).any fun j => bit (busMask l) j && nat (s.groupByte (nat ty 0 3) j) 0 7 == 0
        if fwWrites n.val i fw && mirrored then
          let s2 := ((s1.setFlag (lbReg 4) 0).bump (lbReg 8) 1).useFree 1
          let s2 := if s.rbit (lbReg 0) 2 then s2.laneNotice .bus else s2
          s2.modWin fun W => { W with out := busData l (bits s.free 0 16) true }
        else
          let v := if nat ty 6 2 = 3 then s.composite (nat ty 0 3) old else old
          let s2 := if nat ty 6 2 = 1 then s1.setMirror n.val i (old &&& ~~~(busMask l)) else s1
          s2.modWin fun W => { W with out := busData l v false }

/-- LEGACY_WRITE in its write cycle, with the firmware access of that cycle. A write during which the read strobe is low as well is not
taken (17 R467). -/
def State.legacyWrite (s : State) (la : BitVec 20) (x : WriteCycle) (data : W16) (fw : FwAccess) : State :=
  let l := lanesOf la x.bheN
  if x.reading then s.fwPerform fw
  else match s.windowHit la with
  | none => (s.fwPerform fw).modWin fun W => { W with out := {} }
  | some n =>
    if l = (false, false) then (s.fwPerform fw).modWin fun W => { W with out := {} }
    else
      let i := la.toNat % 512 / 2
      let updates := nat (s.wordType n.val i) 6 2 = 0 ∧ s.rbit (winCfg n.val) 27
      let s1 := s.fwPerform fw
      let s2 := if updates then
          (List.range 2).foldl (init := s1) fun s2 b =>
            if bit (busMask l) (8 * b) && !fwWritesByte n.val i b fw then
              s2.setFld (mirAddr n.val (i / 2)) (16 * (i % 2) + 8 * b) 8 (nat data (8 * b) 8)
            else s2
        else s1
      let met := decide updates && fwReads n.val i fw
      let s2 := if met then
          let s3 := (s2.setFlag (lbReg 4) 1).useFree 1
          let s3 := if s.rbit (lbReg 0) 2 then s3.laneNotice .bus else s3
          s3.modWin fun W => { W with fwRead := some (put (s.reg (mirAddr n.val (i / 2))) (16 * (i % 2)) 16 s.free.toNat) }
        else s2
      let lo := BitVec.ofNat 32 (n.val * 2 ^ 27 + l.2.toNat * 2 ^ 26 + l.1.toNat * 2 ^ 25 + i * 2 ^ 16 + (data &&& busMask l).toNat)
      (s2.logAppend lo s2.logTs).modWin fun W => { W with out := { bnkbsy := met, lselN := false } }

/-- LRESET_RISE: the Window stops answering at the rise; LD and BNKBSY are released. -/
def State.lresetRise (s : State) : State :=
  if s.window.lreset then s
  else s.modWin fun W => { W with lreset := true, rise := if s.inReset then none else some s.timeBase, out := {} }

/-- LRESET_RECORD: the rise is recorded, at 1 µs or at the fall of a shorter pulse; the entry has the time base of the rise. -/
def State.lresetRecord (s : State) : State :=
  match s.window.rise with
  | none => s
  | some tb =>
    let s := (s.modWin fun W => { W with rise := none }).setFlag (lbReg 4) 3
    s.logAppend 0x40000000 (0x80000000 ||| zext 32 (bits tb 8 31))

/-- LRESET_FALL: the Window answers again. -/
def State.lresetFall (s : State) : State := s.modWin fun W => { W with lreset := false, rise := none }

/-! ### Notices forwarded to tiles (13 R396) -/

/-- STN_LIOEV_WRITE: `ipend` bit 5 of the tiles named. -/
def State.lioevWrite (s : State) (st : Stn) (hi : Bool) (v : W32) : State :=
  if !s.fitted st then s
  else (List.finRange 40).foldl (init := s) fun s t =>
    if decide (32 ≤ t.val) == hi && bit v (t.val % 32) then s.modTile st t fun T => { T with ipend := putBit T.ipend 5 true } else s

end Sys2Proof.Machine
end

