-- ==== Sys2Proof/Machine/Serial.lean ====
section
/-! DEFINITION. Serial ports (spec 13 R383 to R386). -/

namespace Sys2Proof.Machine

def State.ser (s : State) (p : Fin 20) : SerPort := s.serial[p]
def State.setSer (s : State) (p : Fin 20) (P : SerPort) : State := { s with serial := s.serial.set p P }

/-- The port is an RS-485 port. -/
def isRs485 (p : Fin 20) : Bool := decide (16 ≤ p.val)

def State.serOn (s : State) (p : Fin 20) : Bool := s.rbit (serReg p.val 0) 28
def State.serOwner (s : State) (p : Fin 20) : Option Stn := ownerOf (s.fld (serReg p.val 0) 29 3)

/-- SER_Pn_STAT: the stored flags with the counts, TXIDLE and the lines. -/
def State.serStat (s : State) (p : Fin 20) : W32 :=
  let P := s.ser p
  let v := put (s.reg (serReg p.val 0xC) &&& 0xFE) 24 7 P.rx.length
  let v := put v 16 7 P.tx.length
  put (putBit v 15 P.sending.isNone) 11 4 P.lines.toNat

/-- A condition enabled in SER_Pn_IEN holds: SER_ISTAT.PEND of the port. -/
def State.serPend (s : State) (p : Fin 20) : Bool :=
  let ien := s.reg (serReg p.val 0x10)
  let P := s.ser p
  (bit ien 9 && decide (max 1 (nat ien 24 6) ≤ P.rx.length)) || (bit ien 8 && decide (P.tx.length ≤ nat ien 16 6)) ||
    (ien &&& s.reg (serReg p.val 0xC) &&& 0xFE) != 0

/-- SER_ISTAT (13 R386). -/
def State.serIstat (s : State) : W32 :=
  (List.finRange 20).foldl (fun w p => putBit w p.val (s.serPend p)) 0

/-- The notice of a port whose condition has come to hold since `old`. -/
def State.serNotice (s old : State) (p : Fin 20) : State :=
  if s.serPend p && !old.serPend p then s.laneNotice (.serial p) else s

/-- AUTORTS: RTS_N goes high at 56 characters and low at 32 (13 R385). -/
def SerPort.rts (P : SerPort) : SerPort :=
  if 56 ≤ P.rx.length then { P with rtsHigh := true }
  else if P.rx.length ≤ 32 then { P with rtsHigh := false }
  else P

/-- SnRTS_N of a port (13 R385). -/
def State.rtsN (s : State) (p : Fin 20) : Bool :=
  if s.rbit (serReg p.val 0) 26 then (s.ser p).rtsHigh else !s.rbit (serReg p.val 0) 24

/-- SnDTR_N of an RS-232 port; BnRE_N of an RS-485 port, high with BnDE unless ECHO is set (13 R385). -/
def State.dtrN (s : State) (p : Fin 20) : Bool := !s.rbit (serReg p.val 0) 25
def State.reN (s : State) (p : Fin 20) : Bool := (s.ser p).de && !s.rbit (serReg p.val 0) 25

/-- TXD: held at space (0) by BRK, at mark (1) while nothing is sent, else the character's bits (13 R383, R386). -/
def State.txd (s : State) (p : Fin 20) : Option Bool :=
  if s.rbit (serReg p.val 0) 23 then some false else if (s.ser p).sending.isNone then some true else none

/-- The transmitter takes the next character, if one waits and the line allows it: neither CTS nor a break holds it (13 R385, R386). -/
def State.serSend (s : State) (p : Fin 20) : State :=
  let P := s.ser p
  let held := (s.rbit (serReg p.val 0) 27 && !isRs485 p && !bit P.lines 0) || s.rbit (serReg p.val 0) 23
  match P.tx with
  | [] => s
  | c :: rest =>
    if !s.serOn p || P.sending.isSome || held then s
    else s.setSer p { P with sending := some c, tx := rest, de := P.de || isRs485 p }

/-- SERIAL_RX_CHAR. With DE high an RS-485 receiver is off unless ECHO is set (13 R385). -/
def State.serialRx (s : State) (p : Fin 20) (c : RxChar) : State :=
  let ctrl := s.reg (serReg p.val 0)
  let P := s.ser p
  if !s.serOn p || (isRs485 p && s.reN p) then s
  else
    let par := decide (1 ≤ nat ctrl 19 3) && decide (nat ctrl 19 3 ≤ 4)
    let c : RxChar := { c with char := BitVec.ofNat 8 (nat c.char 0 (5 + nat ctrl 17 2)), pe := c.pe && par }
    let a := serReg p.val 0xC
    let s1 :=
      if 64 ≤ P.rx.length then s.setFlag a 2
      else
        let s1 := s.setSer p (SerPort.rts { P with rx := P.rx ++ [c] })
        let s1 := if c.pe then s1.setFlag a 3 else s1
        let s1 := if c.fe then s1.setFlag a 4 else s1
        if c.brk then s1.setFlag a 5 else s1
    s1.serNotice s p

/-- SERIAL_TX_CHAR: the character being sent ends, the next one starts. -/
def State.serialTx (s : State) (p : Fin 20) : State :=
  let s1 := s.setSer p { s.ser p with sending := none }
  (s1.serSend p).serNotice s p

/-- What a read of SER_Pn_DATA returns. -/
def State.serDataWord (s : State) (p : Fin 20) : W32 :=
  match (s.ser p).rx with
  | [] => 0
  | c :: _ => putBit (putBit (putBit (zext 32 c.char) 8 c.pe) 9 c.fe) 10 c.brk ||| 0x80000000

/-- A read of SER_Pn_DATA pops a character. -/
def State.serPop (s : State) (p : Fin 20) : State :=
  let P := s.ser p
  let s1 := s.setSer p (SerPort.rts { P with rx := P.rx.tail })
  s1.serNotice s p

/-- SER_DATA_READ. -/
def State.serDataRead (s : State) (m : Master) (p : Fin 20) : State :=
  if s.laneMay m 1 (s.serOwner p) then (s.serPop p).modWin fun W => { W with fwRead := some (s.serDataWord p) } else s

/-- SER_DATA_WRITE: characters of 5 + BITS bits. A disabled port's FIFO stays empty. -/
def State.serDataWrite (s : State) (m : Master) (p : Fin 20) (v : W32) : State :=
  if !s.laneMay m 1 (s.serOwner p) || !s.serOn p then s
  else
    let P := s.ser p
    let s1 :=
      if 64 ≤ P.tx.length then s.setFlag (serReg p.val 0xC) 1
      else (s.setSer p { P with tx := P.tx ++ [BitVec.ofNat 8 (nat v 0 (5 + s.fld (serReg p.val 0) 17 2))] }).serSend p
    s1.serNotice s p

/-- RX_TIMEOUT. -/
def State.rxTimeout (s : State) (p : Fin 20) : State :=
  if (s.ser p).rx.isEmpty then s else (s.setFlag (serReg p.val 0xC) 6).serNotice s p

/-- MODEM_CHANGE: lines DCD, RI, DSR and CTS of an RS-232 port; 1 is a pin that is low. -/
def State.modemChange (s : State) (p : Fin 20) (lines : BitVec 4) : State :=
  let P := s.ser p
  if isRs485 p ∨ P.lines = lines then s
  else if s.inReset then s.setSer p { P with lines := lines }
  else
    let s1 := (s.setSer p { P with lines := lines }).setFlag (serReg p.val 0xC) 7
    (s1.serSend p).serNotice s p

/-- DE_RELEASE: BnDE falls once the transmitter is empty. -/
def State.deRelease (s : State) (n : Fin 4) : State :=
  let p : Fin 20 := Fin.ofNat 20 (16 + n.val)
  let P := s.ser p
  if P.tx.isEmpty && P.sending.isNone then s.setSer p { P with de := false } else s

/-- A write of SER_Pn_CTRL: only the Hall writes OWN; with EN at 1 bits [22:17] keep their value; EN = 0 empties both FIFOs. -/
def State.serCtrlWrite (s : State) (m : Master) (p : Fin 20) (v : W32) : State :=
  let a := serReg p.val 0
  let old := s.reg a
  let keep : W32 := (if m = mHall then 0 else 0xE0000000) ||| (if bit old 28 then 0x007E0000 else 0)
  let s1 := s.setReg a (((v &&& 0xFFFE00FF) &&& ~~~keep) ||| (old &&& keep))
  let s1 := if bit v 28 then s1 else
    let P := s1.ser p
    s1.setSer p { P with rx := [], tx := [], sending := none, de := false, rtsHigh := false }
  (s1.serSend p).serNotice s p

/-- A write of SER_Pn_BAUD, ignored while EN is 1; a DIV below 12 is stored as 12 (13 R384). -/
def State.serBaudWrite (s : State) (p : Fin 20) (v : W32) : State :=
  if s.serOn p then s else s.setReg (serReg p.val 4) (put (v &&& 0x3F) 16 16 (max 12 (nat v 16 16)))

end Sys2Proof.Machine
end

