-- ==== Sys2Proof/Machine/Usb.lean ====
section
/-! DEFINITION. USB host groups: pipes, ports and transfers (spec 13 R387 to R389). -/

namespace Sys2Proof.Machine

def usbReg (g : Fin 4) (off : Nat) : Nat := devReg 0x32 (0x4000 * g.val + off)
def pipeReg (g : Fin 4) (p : Fin 16) (off : Nat) : Nat := usbReg g (0x100 + 0x20 * p.val + off)
def portReg (g k : Fin 4) : Nat := usbReg g (0x10 + 0x10 * k.val)
def State.usbOwner (s : State) (g : Fin 4) : Option Stn := ownerOf (s.fld (usbReg g 0) 29 3)
def State.modUsb (s : State) (g : Fin 4) (f : UsbGroup → UsbGroup) : State := { s with usb := s.usb.set g (f s.usb[g]) }

/-- STATE of a pipe (13 R389). -/
def State.pipeState (s : State) (g : Fin 4) (p : Fin 16) : Nat := s.fld (pipeReg g p 0x10) 28 4

/-- A transfer ends (13 R388): STAT, PDONE and the notice. -/
def State.pipeEnd (s : State) (g : Fin 4) (p : Fin 16) (res count : Nat) (short : Bool) : State :=
  let st := if res = 0 then 2 else 3
  let s := s.setReg (pipeReg g p 0x10) (BitVec.ofNat 32 (st * 2 ^ 28 + res * 2 ^ 24 + short.toNat * 2 ^ 23 + count % 2 ^ 16))
  let s := (s.setFlag (usbReg g 4) (16 + p.val)).modUsb g fun U => { U with moved := U.moved.set p 0 }
  if s.rbit (usbReg g 0) p.val then s.laneNotice (.usb g) else s

/-- Why a transfer cannot start, if it cannot (13 R388, R389). -/
def State.pipeRefused (s : State) (g : Fin 4) (p : Fin 16) (fits : Bool) : Option Nat :=
  let cfg := s.reg (pipeReg g p 0)
  let buf := s.reg (pipeReg g p 8)
  let port : Fin 4 := Fin.ofNat 4 (nat cfg 25 2)
  let len := nat buf 16 16
  if !s.rbit (usbReg g 0) 28 then some 7
  else if nat cfg 30 2 = 3 ∨ nat cfg 27 2 = 0 ∨ 8192 < nat buf 3 10 * 8 + len then some 6
  else if nat cfg 30 2 = 0 ∧ (!s.rbit (pipeReg g p 0xC) 28 ∨ len < 8) then some 6
  else if nat cfg 0 11 = 0 ∨ 1024 < nat cfg 0 11 then some 6
  else if !s.rbit (portReg g port) 28 then some 4
  else if nat cfg 30 2 = 2 ∧ !fits then some 5
  else none

/-- USB_PIPE_GO: ignored while STATE is 0x1. -/
def State.usbPipeGo (s : State) (g : Fin 4) (p : Fin 16) (fits : Bool) : State :=
  if s.pipeState g p = 1 then s
  else match s.pipeRefused g p fits with
    | some res => s.pipeEnd g p res 0 false
    | none => (s.setReg (pipeReg g p 0x10) 0x10000000).modUsb g fun U => { U with moved := U.moved.set p 0 }

/-- USB_PIPE_ABORT. -/
def State.usbPipeAbort (s : State) (g : Fin 4) (p : Fin 16) : State :=
  if s.pipeState g p = 1 then s.pipeEnd g p 7 s.usb[g].moved[p] false else s

/-- A pipe moves data to the device (false) or from it (true): the setup packet tells for a control transfer. -/
def State.pipeIn (s : State) (g : Fin 4) (p : Fin 16) : Bool :=
  let cfg := s.reg (pipeReg g p 0)
  if nat cfg 30 2 = 0 then
    let off := s.fld (pipeReg g p 8) 3 10 * 8
    s.rbit (usbReg g (0x2000 + off)) 7
  else bit cfg 29

/-- Write bytes into the buffer memory of a group. -/
def State.usbStore (s : State) (g : Fin 4) : Nat → List Byte → State
  | _, [] => s
  | o, b :: bs => (s.setFld (usbReg g (0x2000 + o / 4 * 4)) (8 * (o % 4)) 8 b.toNat).usbStore g (o + 1) bs

/-- The data toggle after n packets (13 R388). A control transfer leaves TOG. -/
def State.pipeToggle (s : State) (g : Fin 4) (p : Fin 16) (n : Nat) : State :=
  if s.fld (pipeReg g p 0) 30 2 = 0 then s
  else s.setFld (pipeReg g p 0xC) 29 1 ((s.fld (pipeReg g p 0xC) 29 1 + n) % 2)

/-- Packets in which n bytes move; a transfer that ends short has one more packet than its full ones. -/
def packets (n mps : Nat) (short : Bool) : Nat :=
  if short then n / mps + 1 else max 1 ((n + mps - 1) / mps)

/-- The device has acknowledged n more bytes of an OUT transfer of `want` bytes, which ends with the last of them. -/
def State.pipeAcked (s : State) (g : Fin 4) (p : Fin 16) (mps want n : Nat) : State :=
  let m := s.usb[g].moved[p] + n
  let s := s.pipeToggle g p (packets n mps false)
  if m = want then s.pipeEnd g p 0 m false else s.modUsb g fun U => { U with moved := U.moved.set p m }

/-- Result code of an outcome that is an error, if it is one. -/
def usbError : UsbOutcome → Option Nat
  | .stall => some 1
  | .txErrors => some 2
  | .babble => some 3
  | .portGone => some 4
  | .noBandwidth => some 5
  | _ => none

/-- USB_TRANSFER_END: a control or bulk transfer, or the last poll of an interrupt pipe, ends: an IN transfer with the data that
arrived, an OUT transfer once the device has acknowledged every byte. Whole packets of an IN transfer that goes on are `part` of it. An outcome of the other direction is none. -/
def State.usbTransferEnd (s : State) (g : Fin 4) (p : Fin 16) (o : UsbOutcome) : State :=
  if s.pipeState g p ≠ 1 then s
  else
    let cfg := s.reg (pipeReg g p 0)
    let mps := nat cfg 0 11
    let ctl := nat cfg 30 2 = 0
    let want := s.fld (pipeReg g p 8) 16 16 - (if ctl then 8 else 0)
    let base := s.fld (pipeReg g p 8) 3 10 * 8 + (if ctl then 8 else 0)
    let moved := s.usb[g].moved[p]
    match usbError o with
    | some res => s.pipeEnd g p res moved false
    | none =>
      match o, s.pipeIn g p with
      | .data bytes, true =>
        let bs := bytes.take (want - moved)
        let n := moved + bs.length
        let short := decide (n < want)
        ((s.usbStore g (base + moved) bs).pipeToggle g p (packets bs.length mps short)).pipeEnd g p 0 n short
      | .part bytes, true =>
        let bs := (bytes.take (want - moved)).take (min bytes.length (want - moved) / mps * mps)
        let m := moved + bs.length
        let s := (s.usbStore g (base + moved) bs).pipeToggle g p (bs.length / mps)
        if m = want ∧ !ctl then s.pipeEnd g p 0 m false else s.modUsb g fun U => { U with moved := U.moved.set p m }
      | .acked count, false => s.pipeAcked g p mps want (min count (want - moved))
      | _, _ => s

/-- USB_INTERVAL_POLL: one transaction, in the direction of CFG.DIR, of an interrupt pipe, of at most MPS bytes. A NAK is retried at the next interval. -/
def State.usbIntervalPoll (s : State) (g : Fin 4) (p : Fin 16) (o : UsbOutcome) : State :=
  let cfg := s.reg (pipeReg g p 0)
  if s.pipeState g p ≠ 1 ∨ nat cfg 30 2 ≠ 2 then s
  else
    let mps := nat cfg 0 11
    let want := s.fld (pipeReg g p 8) 16 16
    let base := s.fld (pipeReg g p 8) 3 10 * 8
    let moved := s.usb[g].moved[p]
    match usbError o with
    | some res => s.pipeEnd g p res moved false
    | none =>
      match o, s.pipeIn g p with
      | .data bytes, true =>
        let bs := (bytes.take mps).take (want - moved)
        let n := moved + bs.length
        let s := (s.usbStore g (base + moved) bs).pipeToggle g p 1
        if bs.length < mps ∨ n = want then s.pipeEnd g p 0 n (decide (n < want))
        else s.modUsb g fun U => { U with moved := U.moved.set p n }
      | .acked count, false => s.pipeAcked g p mps want (min (min count mps) (want - moved))
      | _, _ => s

/-! ### Ports (13 R389) -/

/-- CONN, ENA or OC changed: CHG and the notice. -/
def State.portChg (s : State) (g k : Fin 4) : State :=
  let s := s.setFlag (portReg g k) 7
  if s.rbit (usbReg g 0) (16 + k.val) then s.laneNotice (.usb g) else s

/-- USB_PORT_RESET. -/
def State.usbPortReset (s : State) (g k : Fin 4) : State := s.modUsb g fun U => { U with inReset := U.inReset.set k true }

/-- USB_PORT_RESET_END: the port is enabled at the speed detected, if a device is attached. -/
def State.usbPortResetEnd (s : State) (g k : Fin 4) (speed : BitVec 2) : State :=
  if !s.usb[g].inReset[k] then s
  else
    let a := portReg g k
    let s := s.modUsb g fun U => { U with inReset := U.inReset.set k false }
    if !s.rbit a 31 ∨ speed = 0 then s
    else
      let was := s.rbit a 28
      let s := (s.setFld a 28 3 (1 + 2 * speed.toNat)).setFld a 27 1 0
      if was then s else s.portChg g k

/-- USB_SUSPEND: an enabled port is suspended. -/
def State.usbSuspend (s : State) (g k : Fin 4) : State :=
  if s.rbit (portReg g k) 28 then s.setFld (portReg g k) 27 1 1 else s

/-- USB_RESUME. -/
def State.usbResume (s : State) (g k : Fin 4) : State := s.setFld (portReg g k) 27 1 0

/-- Active pipes of a port end: the port is gone. -/
def State.portGone (s : State) (g k : Fin 4) : State :=
  (List.finRange 16).foldl (init := s) fun s p =>
    if s.pipeState g p = 1 ∧ s.fld (pipeReg g p 0) 25 2 = k.val then s.pipeEnd g p 4 s.usb[g].moved[p] false else s

/-- USB_CONNECT_CHANGE. -/
def State.usbConnectChange (s : State) (g k : Fin 4) (attached : Bool) : State :=
  let a := portReg g k
  if s.rbit a 31 = attached then s
  else if attached then (s.setFld a 31 1 1).portChg g k
  else ((s.setFld a 27 5 0).portChg g k).portGone g k

/-- USB_OVERCURRENT: OC is set and PWR cleared. -/
def State.usbOvercurrent (s : State) (g k : Fin 4) : State :=
  let a := portReg g k
  ((s.setFld a 26 1 1).setFld a 3 1 0).portChg g k

/-- A write of USB_Gg_CTRL: only the Hall writes OWN; EN = 0 ends every pipe with RES 0x7. -/
def State.usbCtrlWrite (s : State) (m : Master) (g : Fin 4) (v : W32) : State :=
  let a := usbReg g 0
  let old := s.reg a
  let keep : W32 := if m = mHall then 0 else 0xE0000000
  let s := s.setReg a (((v &&& 0xF00FFFFF) &&& ~~~keep) ||| (old &&& keep))
  let s := s.modUsb g fun U => { U with
    frameAt := if bit v 28 then (if U.frameAt.isSome then U.frameAt else some s.timeBase) else none }
  if bit v 28 then s else (List.finRange 16).foldl (fun s p => s.usbPipeAbort g p) s

/-- A frame of 1 ms ends while the controller runs: the frame number counts (13 R389). -/
def State.frameTick (s : State) (g : Fin 4) : State :=
  match s.usb[g].frameAt with
  | none => s
  | some t =>
    if msCounts ≤ (s.timeBase - t).toNat then
      s.modUsb g fun U => { U with frame := U.frame + 1, frameAt := some (t + BitVec.ofNat 64 msCounts) }
    else s

/-- A write of USB_Gg_PORTk. PWR written 1 ends the report of an overcurrent. -/
def State.usbPortWrite (s : State) (g k : Fin 4) (v : W32) : State :=
  let a := portReg g k
  let s := s.setFld a 3 1 (bit v 3).toNat
  let s := if bit v 7 then s.setFld a 7 1 0 else s
  let s := if bit v 3 && s.rbit a 26 then (s.setFld a 26 1 0).portChg g k else s
  let s := if bit v 0 then s.usbPortReset g k else s
  let s := if bit v 1 then s.usbSuspend g k else s
  if bit v 2 then s.usbResume g k else s

end Sys2Proof.Machine
end

