-- ==== Sys2Proof/Machine/GioUnit.lean ====
section
/-! DEFINITION. Cash drawers and GPIO (spec 13 R390 to R392). -/

namespace Sys2Proof.Machine

def State.drwOwner (s : State) (n : Fin 8) : Option Stn := ownerOf (s.fld (drwReg n.val 0) 29 3)
/-- Owner of a GPIO pin. -/
def State.gpioOwner (s : State) (i : Nat) : Option Stn := ownerOf (s.fld (gioReg 0x20) (4 * (i / 8)) 3)

/-- The pins a master may change: a queue engine only those its station owns (13 R395). -/
def State.gioMask (s : State) (m : Master) : W32 :=
  match qeOf m with
  | none => 0xFFFFFFFF
  | some st => (List.range 32).foldl (fun w i => putBit w i (s.gpioOwner i == some st)) 0

/-- A master reaches the GIO_ block at all. -/
def State.gioMay (s : State) (m : Master) : Bool := s.laneMay m 3 (qeOf m)

/-- A FIRE, once access is settled (13 R390). -/
def State.drawerFire (s : State) (n : Fin 8) : State :=
  let a := drwReg n.val 4
  let early := match s.gio.ended[n] with
    | none => false
    | some e => decide ((s.timeBase - e).toNat < s.fld (drwReg n.val 0) 16 8 * msCounts)
  if s.rbit a 31 || early then s.setFlag a 2
  else { s.setFld a 31 1 1 with gio := { s.gio with began := s.gio.began.set n (some s.timeBase) } }

/-- FIRE. -/
def State.fire (s : State) (m : Master) (n : Fin 8) : State := if s.laneMay m 3 (s.drwOwner n) then s.drawerFire n else s

/-- The pulse that runs has lasted WIDTH ms, 0 taken as 1. -/
def State.pulseOver (s : State) (n : Fin 8) : Bool :=
  match s.gio.began[n] with
  | none => true
  | some t => decide (max 1 (s.fld (drwReg n.val 0) 8 8) * msCounts ≤ (s.timeBase - t).toNat)

/-- PULSE_END: the drawer output falls once WIDTH ms have passed. -/
def State.pulseEnd (s : State) (n : Fin 8) : State :=
  if s.rbit (drwReg n.val 4) 31 && s.pulseOver n then
    { s.setFld (drwReg n.val 4) 31 1 0 with gio := { s.gio with ended := s.gio.ended.set n (some s.timeBase) } }
  else s

/-- The debounced level of DSNSn follows the pin once it has stood for DBN ms of the time base. -/
def State.senseSettle (s : State) (n : Fin 8) : State :=
  let a := drwReg n.val 4
  let level := s.gio.sense[n]
  if s.inReset ∨ s.rbit a 30 = level ∨ (s.timeBase - s.gio.senseAt[n]).toNat < s.fld (drwReg n.val 0) 24 5 * msCounts then s
  else
    let s := (s.setFld a 30 1 level.toNat).setFlag a (if level then 0 else 1)
    if s.rbit (drwReg n.val 0) (if level then 1 else 2) then s.laneNotice (.drawer n) else s

/-- DRAWER_SENSE_CHANGE: the level at DSNSn changes, or stands as it was given. -/
def State.drawerSense (s : State) (n : Fin 8) (level : Bool) : State :=
  let G := s.gio
  (if G.sense[n] = level then s
   else { s with gio := { G with sense := G.sense.set n level, senseAt := G.senseAt.set n s.timeBase } }).senseSettle n

/-- GPIO_EDGE: the level at a pin changes. -/
def State.gpioEdge (s : State) (i : Fin 32) (level : Bool) : State :=
  if bit s.gio.pins i.val = level then s
  else
    let s := { s with gio := { s.gio with pins := putBit s.gio.pins i.val level } }
    if !s.rbit (gioReg 8) i.val && s.rbit (gioReg (if level then 0x18 else 0x1C)) i.val then
      (s.setFlag (gioReg 0x14) i.val).laneNotice .gpio
    else s

/-- GIO_SET. -/
def State.gioSet (s : State) (m : Master) (v : W32) : State :=
  if s.gioMay m then s.setReg (gioReg 4) (s.reg (gioReg 4) ||| (v &&& s.gioMask m)) else s

/-- GIO_CLR. -/
def State.gioClr (s : State) (m : Master) (v : W32) : State :=
  if s.gioMay m then s.setReg (gioReg 4) (s.reg (gioReg 4) &&& ~~~(v &&& s.gioMask m)) else s

/-- A write of GIO_DRWn_CTRL: only the Hall writes OWN; DBN, OFFMIN and WIDTH keep their value while ACTIVE is 1; a WIDTH of 0 is
taken as 1, so it is stored as written. -/
def State.drwCtrlWrite (s : State) (m : Master) (n : Fin 8) (v : W32) : State :=
  let a := drwReg n.val 0
  let old := s.reg a
  let keep : W32 := (if m = mHall then 0 else 0xE0000000) ||| (if s.rbit (drwReg n.val 4) 31 then 0x1FFFFF00 else 0)
  let s := s.setReg a (((v &&& 0xFFFFFF06) &&& ~~~keep) ||| (old &&& keep))
  if bit v 0 then s.drawerFire n else s

end Sys2Proof.Machine
end

