-- ==== Sys2Proof/Machine/StationRun.lean ====
section
/-! DEFINITION. Station start, stop and failure, column repair, and the worlds of tiles (01 R18 to R22, R33; 06 R172; 15 R422). -/

namespace Sys2Proof.Machine

/-! ### Retirement (01 R16, R18, R20) -/

/-- Retire position x of column c in the column map: the column shifts, or is exhausted. -/
def State.retire (s : State) (st : Stn) (c x : Nat) : State :=
  if s.colState st c = 0 then ((s.setFld (aCol st c) 26 2 1).setFld (aCol st c) 23 3 x).setFld (aCol st c) x 1 0
  else (s.setFld (aCol st c) 26 2 2).setFld (aCol st c) x 1 0

/-- Entries of a sparse map in which tile x of a column has the keys from lo on, each tile has span keys and the column ends at hi:
the part of tile x goes, the parts of the later tiles of the column move down by one tile. -/
def shiftDown {α : Type} (m : List (Nat × α)) (lo hi span : Nat) : List (Nat × α) :=
  m.filterMap fun e =>
    if e.1 < lo ∨ hi ≤ e.1 then some e
    else if e.1 < lo + span then none
    else some (e.1 - span, e.2)

/-- What logical positions j ≥ x of a column hold once a station start has retired position x: no tile state moves, so each shows
the state of the physical tile that serves it from then on; the spare's state is that of reset (01 R33 step 2). The network unit
belongs to the logical position (01 R17). -/
def State.shiftColumn (s : State) (st : Stn) (c x : Nat) : State :=
  if 5 ≤ x then s
  else
    let lo := tileBase st (Fin.ofNat 40 (5 * c + x))
    let hi := tileBase st (Fin.ofNat 40 (5 * c)) + 5 * 0x40000
    let s := { s with
      mem := shiftDown s.mem lo hi 0x40000
      regs := shiftDown s.regs lo hi 0x40000
      ecc := shiftDown s.ecc lo hi 0x40000
      bankChange := shiftDown s.bankChange (tileBankNo st (Fin.ofNat 40 (5 * c + x)) 0) (tileBankNo st (Fin.ofNat 40 (5 * c)) 20) 4 }
    (List.range 5).foldl (init := s) fun s j =>
      if j < x then s
      else
        let t : TileNo := Fin.ofNat 40 (5 * c + j)
        let T := s.tile st t
        let U : Tile := if j < 4 then s.tile st (Fin.ofNat 40 (5 * c + j + 1)) else {}
        s.setTile st t { U with nu := T.nu, runs := max T.runs U.runs + 1 }

/-! ### Start and stop of a station (01 R33) -/

/-- The forced retirement of a column, and the end of FRC_EN (01 R22, R33). -/
def State.forceRetire (s : State) (st : Stn) (c : Nat) : State :=
  let a := aCol st c
  let pos := s.fld a 28 3
  if !s.rbit a 31 then s
  else
    let s1 := if s.colState st c = 0 ∧ pos ≤ 5 then (s.retire st c pos).shiftColumn st c pos else s
    s1.setFld a 31 1 0

/-- STN_RUN_START. -/
def State.stnRunStart (s : State) (st : Stn) : State :=
  let S := s.stn st
  if S.run = .running ∨ S.phase ≠ .none ∨ !s.fitted st then s
  else ((List.range 8).foldl (fun s c => s.forceRetire st c) s).modStn st fun S => { S with phase := .starting }

/-- Self-test of one column at station start: failing positions are retired, results recorded. -/
def State.startTestColumn (s : State) (st : Stn) (c : Nat) : State :=
  let tested := (List.range 6).filter fun k => s.colState st c = 0 || k != s.colRet st c
  let s := (tested.filter fun k => !(s.physAt st c k).passes).foldl (init := s) fun s k =>
    if s.colState st c = 0 then (s.retire st c k).shiftColumn st c k else s.retire st c k
  tested.foldl (init := s) fun s k =>
    s.recordTest st c k (if s.colState st c = 0 then decide (k < 5) else k != s.colRet st c)

/-- A tile's network unit after the network's reset: buffers empty, four credits on every channel (01 R33 step 4). -/
def Nu.reset (u : Nu) : Nu :=
  { u with send := .replicate 8 [], recv := .replicate 8 [], credits := .replicate 8 [0, 0, 0, 0], freed := .replicate 8 []
           mbox := [], mboxSend := [] }

/-- Reset of the station network (01 R33 steps 4 and 5). Notices of camera ingest wait on (01 R33, 09 R266). -/
def State.netReset (s : State) (st : Stn) : State :=
  let S := s.stn st
  let s := [0x408, 0x40C, 0x410].foldl (fun s o => s.setReg (stnReg st o) 0) s
  let s := (s.setFld (aNetStat st) 27 5 0).setStn st { S with
    dueDiv := none, frameBase := 0, cycle := 0, frozen := false, halted := false
    outs := [], lastOut := [], hold := [], be := [], rr := [], resps := [], parts := []
    fixes := [], fix := none, hallSend := [], repairs := [], repairNow := none }
  (List.finRange 40).foldl (fun s t => s.modTile st t fun T => { T with nu := T.nu.reset }) s

/-- STATION_START_END. -/
def State.stationStartEnd (s : State) (st : Stn) : State :=
  if (s.stn st).phase ≠ .starting then s
  else
    let s := (List.range 8).foldl (fun s c => s.startTestColumn st c) s
    if (List.range 8).any fun c => s.colState st c = 2 then
      s.modStn st fun S => { S with phase := .none, run := .failed }
    else (s.netReset st).modStn st fun S => { S with phase := .none, run := .running }

/-- Every tile is asked to stop, as through TILE_CTRL.STOP. -/
def State.stopTiles (s : State) (st : Stn) : State :=
  (List.finRange 40).foldl (fun s t => s.tileStopRequest st t) s

/-- STN_RUN_STOP. -/
def State.stnRunStop (s : State) (st : Stn) : State :=
  let S := s.stn st
  match S.run, S.phase with
  | .failed, _ => s.setStn st { S with run := .stopped }
  | .running, .none => (s.stopTiles st).modStn st fun S => { S with phase := .stopping false }
  | _, _ => s

/-- STN_RUN_FAIL. -/
def State.stnRunFail (s : State) (st : Stn) : State :=
  let S := s.stn st
  match S.phase, S.run with
  | .stopping _, _ => s.setStn st { S with phase := .stopping true }
  | .none, .running => (s.stopTiles st).modStn st fun S => { S with phase := .stopping true }
  | .none, .stopped => if s.fitted st then s.setStn st { S with run := .failed } else s
  | _, _ => s

/-- No request of the station's tiles is under way, nor a response to one (01 R33 stop step 2). -/
def State.answered (s : State) (st : Stn) : Bool :=
  let S := s.stn st
  let none := fun (ws : List LinkWord) => ws.all fun w => w.queue.isNone
  (s.tiles[st].toList.all fun T => T.qu.outbox.isEmpty) && (S.nodeQ.toList.all fun q => q.isEmpty) && S.resps.isEmpty &&
    (S.outs.all fun x => x.2.2.queue.isNone) && (S.hold.all fun x => none x.2) && (S.be.all fun x => none x.2) &&
    s.mxOpen.toList.all fun l => l.all fun r => r.origin.all fun o => o.1 != st

/-- STATION_STOP_END: the tiles have stopped, every request has its response, and the network stops at the next frame boundary.
Column repairs under way end first; corrections and a divisor that are due take effect as the network stops (07 R218; 16 R441). -/
def State.stationStopEnd (s : State) (st : Stn) : State :=
  let S := s.stn st
  match S.phase with
  | .stopping fails =>
    if !s.answered st ∨ !S.repairs.isEmpty ∨ S.repairNow.isSome then s
    else
      let s := (List.finRange 40).foldl (init := s) fun s t => if (s.tile st t).stopReq then s.takeStop st t else s
      let s := (s.setFld (stnReg st 0x418) 30 1 0).setFld (aNetStat st) 27 5 0
      (s.takeDivisor st).modStn st fun S => { S.applyFixes with
        phase := .none, frozen := false, halted := false, dueDiv := none
        run := if fails then .failed else .stopped }
  | _ => s

/-! ### Column repair (01 R18 to R21; 15 R422) -/

/-- The logical tile restarts on another physical tile: nothing it held is kept but its network attachment and the credits of
requests under way. Its registers, TILE_DPWR among them, have their values of device reset (log entry 84). -/
def State.loseTile (s : State) (st : Stn) (t : TileNo) : State :=
  let b := tileBase st t
  let T := s.tile st t
  let s := { s.clearMem b (b + 0x40000) with
    regs := smDrop s.regs b (b + 0x40000),
    bankChange := smDrop s.bankChange (tileBankNo st t 0) (tileBankNo st t 4) }
  s.setTile st t { qu := { credits := T.qu.credits, outbox := T.qu.outbox }, nu := T.nu, runs := T.runs + 1 }

/-- COLUMN_REPAIR: steps 2 to 5 of R18, during the freeze; the next repair due has a freeze of its own (R19). A second retirement exhausts
the column (R20). -/
def State.columnRepair (s : State) (st : Stn) : State :=
  match (s.stn st).repairNow with
  | none => s
  | some (c, x) =>
    if !(s.stn st).frozen then s
    else
      let s1 := s.modStn st fun S => { S with repairNow := none }
      if s.colState st c.val ≠ 0 then
        (s1.retire st c.val x.val).modStn st fun S => { S with closed := S.closed.filter (· != c) }
      else
        let s1 := s1.retire st c.val x.val
        if 5 ≤ x.val then s1.modStn st fun S => { S with closed := S.closed.filter (· != c) }
        else
          let s1 := s1.setFld (aCol st c.val) 5 1 1
          let t : TileNo := Fin.ofNat 40 (5 * c.val + x.val)
          (s1.loseTile st t).notify (.tileRestart st t)

/-- STN_REPAIR.BUSY (15 R422). -/
def Station.repairBusy (S : Station) : Bool := !S.repairs.isEmpty || S.repairNow.isSome

/-- STN_REPAIR_GO: a write of STN_REPAIR. -/
def State.stnRepairGo (s : State) (st : Stn) (v : W32) : State :=
  if !s.fitted st then s else
  let s := s.setFld (stnReg st 0x1A8) 0 6 (nat v 0 6)
  let S := s.stn st
  let n := nat v 0 6
  if !bit v 31 ∨ S.repairBusy ∨ S.run ≠ .running ∨ 40 ≤ n ∨ s.colState st (n / 5) ≠ 0 then s
  else
    let t : TileNo := Fin.ofNat 40 n
    s.askRepair st (Fin.ofNat 8 (n / 5), Fin.ofNat 6 (s.position st t))

/-! ### Worlds of tiles (06 R171, R172) -/

/-- STN_TWORLD_WRITE: the bits of tiles that are not stopped keep their value. -/
def State.twWrite (s : State) (st : Stn) (hi : Bool) (v : W32) : State :=
  let a := stnReg st (if hi then 0x144 else 0x140)
  if !s.fitted st then s
  else (List.finRange 40).foldl (init := s) fun s t =>
    if (decide (32 ≤ t.val) == hi) && (s.tile st t).isStopped then s.setFld a (t.val % 32) 1 (bit v (t.val % 32)).toNat else s

end Sys2Proof.Machine
end

