-- ==== Sys2Proof/Machine/Flash.lean ====
section
/-! DEFINITION. Operations on the boot partitions (spec 14 R397 to R399, R406, R407). -/

namespace Sys2Proof.Machine

def aBSTAT : Nat := efReg 4

/-- A result of a boot-partition command. -/
def State.bootRes (s : State) (res : Nat) : State := s.setFld aBSTAT 24 4 res

/-- Why a boot-partition command is refused, 0 if it is not: align is the sector or page size (14 R398, R399, R407). -/
def State.bootCheck (s : State) (align : Nat) : Nat :=
  let a := (s.reg (efReg 8)).toNat
  if s.flashCtl.work ≠ .idle then 1
  else if 0x400000 ≤ a ∨ a % align ≠ 0 then 3
  else if a / 0x200000 = s.fld aBSTAT 0 2 then 2
  else 0

/-- A boot-partition operation starts. While a reset waits or is asserted none does (16 R443, R448). -/
def State.bootStart (s : State) (align : Nat) (w : FlashWork) : State :=
  if s.core.holdsFlash then s
  else if s.bootCheck align ≠ 0 then s.bootRes (s.bootCheck align)
  else (s.modFlash fun F => { F with work := w }).setFld aBSTAT 31 1 1

/-- FLASH_ERASE: EF_BCTL.OP 0b01. -/
def State.bootErase (s : State) : State := s.bootStart 4096 (.erase (s.reg (efReg 8)).toNat)

/-- FLASH_PROGRAM: EF_BCTL.OP 0b10. -/
def State.bootProgram (s : State) : State :=
  s.bootStart 256 (.program (s.reg (efReg 8)).toNat (s.regBytes (efReg 0x400) 256))

/-- Flash bytes left undefined by an operation that failed: free values. -/
def State.flashFree (s : State) (o n : Nat) : State :=
  let s1 := (s.flashErase o n).flashProgram o ((List.range n).map fun i => bits (Config.freeWord (s.freeCount + i)) 0 8)
  s1.useFree n

/-- The operation that has ended leaves its result; a commit that waits then starts, or is refused and answered (14 R398; 10 R300). -/
def State.bootDone (s : State) (res : Nat) : State :=
  let s := ((s.modFlash fun F => { F with work := .idle }).setFld aBSTAT 30 2 1).bootRes res
  match s.flashCtl.waits with
  | none => s
  | some j =>
    if s.core.holdsFlash then s
    else
      let s1 := (s.modFlash fun F => { F with waits := none }).commitStart j
      if s1.flashCtl.committing then s1 else s1.commitOver j (s1.fld aPSTAT 0 4)

/-- BOOT_FLASH_OP_END. A program is verified against its page. -/
def State.bootOpEnd (s : State) (ok : Bool) : State :=
  match s.flashCtl.work with
  | .erase o => if ok then (s.flashErase o 4096).bootDone 0 else (s.flashFree o 4096).bootDone 4
  | .program o bs =>
    if ok then
      let s := s.flashProgram o bs
      s.bootDone (if s.flashBytes o 256 = bs then 0 else 4)
    else (s.flashFree o 256).bootDone 4
  | _ => s

/-- The boot window: 32 KiB of flash at PAGE (14 R407). -/
def State.bootWindow (s : State) (off : Nat) : W32 :=
  leBv 32 (s.flashBytes (s.fld (efReg 0xC) 0 7 * 0x8000 + (off - 0x8000)) 4)

end Sys2Proof.Machine
end

