-- ==== Sys2Proof/Machine/Rsa.lean ====
section
/-! DEFINITION. RSASSA-PSS signatures and their verification with RSA-4096, exponent 65537, SHA-512, MGF1 and a salt of 64 bytes (14 R401; PKCS #1 v2.2:
log entry 14). Octet strings hold numbers most significant byte first. -/

namespace Sys2Proof.Machine

/-- x squared k times, modulo m. -/
def sqMod (m : Nat) : Nat → Nat → Nat
  | 0, x => x % m
  | k + 1, x => sqMod m k (x * x % m)

/-- x to the power 65537, modulo m. -/
def pow65537 (m x : Nat) : Nat := sqMod m 16 x * x % m

/-- n bytes of MGF1 with SHA-512 from a seed. -/
def mgf1 (seed : List Byte) (n : Nat) : List Byte :=
  ((List.range ((n + 63) / 64)).flatMap fun i => sha512 (seed ++ beBytes 4 i)).take n

/-- The encoded message verifies against a digest: 447 bytes of masked data block, 64 bytes of hash, and 0xBC. -/
def pssOk (em digest : List Byte) : Bool :=
  let masked := em.take 447
  let h := (em.drop 447).take 64
  let db := List.zipWith (· ^^^ ·) masked (mgf1 h 447)
  let db := match db with
    | [] => []
    | b :: bs => (b &&& 0x7F) :: bs
  em.getD 511 0 == 0xBC && decide ((em.headD 0).toNat < 128) && db.take 383 == List.replicate 382 0 ++ [1] &&
    sha512 (List.replicate 8 0 ++ digest ++ db.drop 383) == h

/-- The encoded message of a digest with a salt, of 4095 bits. -/
def pssEncode (digest salt : List Byte) : List Byte :=
  let h := sha512 (List.replicate 8 0 ++ digest ++ salt)
  let db : List Byte := List.replicate 382 0 ++ [1] ++ salt
  let masked := match List.zipWith (· ^^^ ·) db (mgf1 h 447) with
    | [] => []
    | b :: bs => (b &&& 0x7F) :: bs
  masked ++ h ++ [0xBC]

/-- x to the power e, of at most k bits, modulo m. -/
def powMod (m : Nat) : Nat → Nat → Nat → Nat
  | 0, _, _ => 1 % m
  | k + 1, x, e =>
    let y := powMod m k (x * x % m) (e / 2)
    if e % 2 = 1 then x * y % m else y

/-- The signature over a digest with a salt, under a modulus and its private exponent. -/
def rsaSign (modulus exponent : Nat) (digest salt : List Byte) : List Byte :=
  beBytes 512 (powMod modulus 4096 (beNat (pssEncode digest salt)) exponent)

/-- A signature over a digest verifies under a modulus. -/
def rsaVerify (modulus : Nat) (digest sig : List Byte) : Bool :=
  let x := beNat sig
  decide (x < modulus) && pssOk (beBytes 512 (pow65537 modulus x)) digest

end Sys2Proof.Machine
end

