-- ==== Sys2Proof/Machine/VaultUnit.lean ====
section
/-! DEFINITION. The Garnet vault (spec 14 R411 to R414). -/

namespace Sys2Proof.Machine

def gv (off : Nat) : Nat := 0x0210000000 + off
def aGVSTAT : Nat := gv 4
def State.modVault (s : State) (f : Vault → Vault) : State := { s with vault := f s.vault }
def State.gvIn (s : State) (off n : Nat) : List Byte := s.regBytes (gv (0x1000 + off)) n
def State.gvOut (s : State) (bs : List Byte) : State := s.setRegBytes (gv 0x2000) bs

/-- The vault's clock runs (16 R440). -/
def State.vaultOn (s : State) : Bool := !s.gated 8

/-- The modulus of a key, if its slot is active: 0 is the Nialnis key (14 R411). -/
def State.keyModulus (s : State) (k : Nat) : Option Nat :=
  if k = 0 then some Config.nialnisModulus
  else if h : 1 ≤ k ∧ k ≤ 4 then
    (if s.vault.slots[k - 1]'(by omega) = .active then some (s.vault.moduli[k - 1]'(by omega)) else none)
  else none

/-- A command written to GV_CMD: refused while one runs (14 R412, R414). -/
def State.vaultStart (s : State) (c : VaultCmd) : State :=
  if !s.vaultOn then s
  else if s.vault.cmd.isSome then s.setFlag aGVSTAT 29
  else (s.modVault fun V => { V with cmd := some c, since := s.timeBase }).setFld aGVSTAT 31 1 1

/-- The command in progress ends with a result. -/
def State.vaultEnd (s : State) (res : Nat) : State :=
  (((s.modVault fun V => { V with cmd := none }).setFld aGVSTAT 31 1 0).setFlag aGVSTAT 30).setFld aGVSTAT 16 8 res

/-- Random words as bytes (14 R412). -/
def State.randomBytes (s : State) (n : Nat) : List Byte :=
  ((List.range ((n + 7) / 8)).flatMap fun i => leBytes 8 (Config.randomWord (s.vault.drawn + i)).toNat).take n
def State.draw (s : State) (words : Nat) : State := s.modVault fun V => { V with drawn := V.drawn + words }

/-- Bytes of GV_OUT over which the first of a command are written, a whole number of words. -/
def State.gvOutPart (s : State) (bs : List Byte) : State :=
  let n := (bs.length + 3) / 4 * 4
  s.gvOut (bs ++ (s.regBytes (gv 0x2000) n).drop bs.length)

/-- A slot's state, by ARG 1 to 4. -/
def Vault.slot (V : Vault) (k : Nat) : Option SlotState :=
  if h : 1 ≤ k ∧ k ≤ 4 then some (V.slots[k - 1]'(by omega)) else none

/-- Modulus under which a slot verifies once a modulus is enrolled in it, over the fuses that enrolments cut short have left. -/
def Vault.enrolled (V : Vault) (arg modulus : Nat) : Nat :=
  let n := V.burnt.toList.getD (arg - 1) 0
  if n = 0 then modulus else Config.cutModulus arg n modulus

/-- What an AUTH record does to the one-way state, if it is not refused for its OP and ARG (14 R413). -/
def Vault.authApply (V : Vault) (op arg modulus : Nat) : Option Vault :=
  if op = 1 then
    (if V.slot arg = some .empty then
      some { V with slots := V.slots.set! (arg - 1) .active, moduli := V.moduli.set! (arg - 1) (V.enrolled arg modulus) } else none)
  else if op = 2 then (if V.slot arg = some .active then some { V with slots := V.slots.set! (arg - 1) .revoked } else none)
  else if op = 3 then (if V.hallMin < arg ∧ arg ≤ 64 then some { V with hallMin := arg } else none)
  else if op = 4 then (if V.stnMin < arg ∧ arg ≤ 64 then some { V with stnMin := arg } else none)
  else if op = 5 then some { V with lock := true }
  else none

/-- The fuse counter that a record is to raise can go no further: it stands at 64, or ARG lies above 64 (14 R411, R414). -/
def Vault.spent (V : Vault) (op arg : Nat) : Bool :=
  (op == 3 && (decide (64 < arg) || V.hallMin == 64)) || (op == 4 && (decide (64 < arg) || V.stnMin == 64))

/-- The result of an AUTH record and, where it is accepted, the one-way state that it leaves (14 R413, R414). -/
def State.authResult (s : State) : Nat × Option Vault :=
  let ar := s.gvIn 0 0x410
  let f := fun (o n : Nat) => leNat (slice ar o n)
  match s.keyModulus (f 6 1) with
  | none => (3, none)
  | some key =>
    if f 0 4 ≠ 0x5541444E ∨ f 8 8 ≠ Config.serial.toNat then (3, none)
    else if !rsaVerify key (sha512 (ar.take 0x210)) (slice ar 0x210 512) then (3, none)
    else match s.vault.authApply (f 4 1) (f 5 1) (f 0x10 512) with
      | none => (if s.vault.spent (f 4 1) (f 5 1) then 4 else 3, none)
      | some V => (0, some V)

/-- AUTH: the record at GV_IN (14 R413). -/
def State.vaultAuth (s : State) : State :=
  match s.authResult with
  | (res, none) => s.vaultEnd res
  | (res, some V) => (s.modVault fun _ => V).vaultEnd res

/-- Fuses that an AUTH has programmed after some counts of the time base: the first 0.5 ms program none, then 1 ms one (14 R412). -/
def fusesAfter (counts : Nat) : Nat := (2 * counts - msCounts) / (2 * msCounts)

/-- An enrolment cut short after n fuses: they stay programmed, and the slot is then as free values tell. -/
def Vault.enrolCut (V : Vault) (arg modulus n : Nat) : Vault :=
  let m := V.burnt.toList.getD (arg - 1) 0 + n
  { V with
    burnt := V.burnt.set! (arg - 1) m
    slots := if Config.cutActive arg m modulus then V.slots.set! (arg - 1) .active else V.slots
    moduli := V.moduli.set! (arg - 1) (Config.cutModulus arg m modulus) }

/-- The vault's work is cut short: fuses already programmed stay programmed. A counter has one for each step (14 R412). -/
def State.vaultCut (s : State) : State :=
  match s.vault.cmd, s.authResult.2 with
  | some .auth, some W =>
    let n := fusesAfter (s.timeBase - s.vault.since).toNat
    let op := leNat (s.gvIn 4 1)
    if op = 3 ∨ op = 4 then
      s.modVault fun V => { V with hallMin := min W.hallMin (V.hallMin + n), stnMin := min W.stnMin (V.stnMin + n) }
    else if n = 0 then s
    else if op = 1 then s.modVault fun V => V.enrolCut (leNat (s.gvIn 5 1)) (leNat (s.gvIn 0x10 512)) n
    else s.modVault fun _ => W
  | _, _ => s

/-- VAULT_COMMAND_END: the command in progress has its result (14 R412). -/
def State.vaultCommandEnd (s : State) : State :=
  match s.vault.cmd with
  | none => s
  | some .hashInit => (s.modVault fun V => { V with hash := some [] }).vaultEnd 0
  | some .hashUpdate =>
    let n := s.fld (gv 8) 0 13
    if 4096 < n then s.vaultEnd 6
    else (s.modVault fun V => { V with hash := V.hash.map (· ++ (s.gvIn 0 4096).take n) }).vaultEnd 0
  | some .hashFinal =>
    match s.vault.hash with
    | some m => ((s.gvOut (sha512 m)).modVault fun V => { V with hash := none }).vaultEnd 0
    | none =>
      ((s.gvOut ((List.range 8).flatMap fun i => leBytes 8 (Config.freeWord (s.freeCount + i)).toNat)).useFree 8).vaultEnd 0
  | some (.verify key) =>
    match s.keyModulus key.toNat with
    | none => s.vaultEnd 2
    | some m => s.vaultEnd (if rsaVerify m (s.gvIn 0 64) (s.gvIn 0x40 512) then 0 else 1)
  | some .sign =>
    let sig := rsaSign Config.identityModulus.toNat Config.identityExponent.toNat (s.gvIn 0 64) (s.randomBytes 64)
    ((s.draw 8).gvOut sig).vaultEnd 0
  | some .auth => s.vaultAuth
  | some .random =>
    let n := s.fld (gv 8) 0 13
    if 2048 < n then s.vaultEnd 6 else ((s.draw ((n + 7) / 8)).gvOutPart (s.randomBytes n)).vaultEnd 0

/-- GV_ABORT: the command in progress ends with RES 0x05. -/
def State.vaultAbort (s : State) : State := if s.vault.cmd.isSome then s.vaultCut.vaultEnd 5 else s

/-! ### Commands that the firmware runs to their end -/

/-- The vault takes commands and runs none. -/
def State.vaultIdle (s : State) : Bool := s.vaultOn && s.vault.cmd.isNone

/-- A command from its start to its end. -/
def State.vaultRun (s : State) (c : VaultCmd) : State := (s.vaultStart c).vaultCommandEnd

/-- Bytes of GV_IN over which the first are written, a whole number of words. -/
def State.gvInPart (s : State) (bs : List Byte) : State :=
  let n := (bs.length + 3) / 4 * 4
  s.setRegBytes (gv 0x1000) (bs ++ (s.gvIn 0 n).drop bs.length)

/-- HASH_UPDATE of a message, 4096 bytes at a time. -/
def State.vaultAbsorb (s : State) : Nat → List Byte → State
  | 0, _ => s
  | n + 1, m =>
    if m.isEmpty then s
    else
      let bs := m.take 4096
      (((s.gvInPart bs).setFld (gv 8) 0 13 bs.length).vaultRun .hashUpdate).vaultAbsorb n (m.drop 4096)

/-- The SHA-512 of a message is computed in the vault, which leaves it in GV_OUT; a vault that cannot take commands is left as it is. -/
def State.vaultDigest (s : State) (m : List Byte) : State :=
  if s.vaultIdle then ((s.vaultRun .hashInit).vaultAbsorb m.length m).vaultRun .hashFinal else s

/-- A signature over a digest is verified in the vault. -/
def State.vaultVerify (s : State) (key : Byte) (digest sig : List Byte) : State :=
  if s.vaultIdle then (s.gvInPart (digest ++ sig)).vaultRun (.verify key) else s

/-- GV_KEYSTAT, GV_SVN and GV_FUSE (14 R414). -/
def slotCode : SlotState → Nat
  | .empty => 0 | .active => 1 | .revoked => 2
def State.gvKeystat (s : State) : W32 :=
  BitVec.ofNat 32 ((List.range 4).foldl (fun n i => n + slotCode (s.vault.slots.toList.getD i .empty) * 4 ^ i) 0)
def State.gvSvn (s : State) : W32 := BitVec.ofNat 32 (s.vault.stnMin * 256 + s.vault.hallMin)
def State.gvFuse (s : State) : W32 := BitVec.ofNat 32 (s.vault.lock.toNat * 2 + 1)

end Sys2Proof.Machine
end

