-- ==== Sys2Proof/Machine/Clocks.lean ====
section
/-! DEFINITION. Clock gates, thermal throttle, core voltage and resets (spec 16; 12 R342; 14 R440; 15 R418). -/

namespace Sys2Proof.Machine

def chReg (off : Nat) : Nat := devReg 7 off
def linkReg (p : Fin 2) (off : Nat) : Nat := chReg (0x10 + 0x20 * p.val + off)
def pciReg (off : Nat) : Nat := devReg 8 off

/-- Head mode (12 R362). -/
def State.headMode (s : State) : Bool := s.rbit (chReg 0) 2

/-! ### Gates (16 R439, R440) -/

/-- The block behind bit i of CPR_GATE is idle. -/
def State.gateIdle (s : State) (i : Nat) : Bool :=
  if i < 2 then !s.rbit (devReg (5 + i) 4) 0 || s.rbit (devReg (5 + i) 4) 7
  else if i = 2 then (List.finRange 16).all fun n => s.fld (dmaReg n 8) 28 4 == 0 || s.fld (dmaReg n 8) 28 4 == 5
  else if i = 3 then !s.headMode
  else if i < 8 then
    let st : Stn := Fin.ofNat 4 (i - 4)
    (List.finRange 8).all (fun k => !s.rbit (cxReg st k 0) 31) && (List.finRange 4).all fun r => !s.rbit (rxReg st r 0) 31
  else s.vault.cmd.isNone

/-- CPR_GATE_WRITE: only the Hall writes the block (16 R451). -/
def State.gateWrite (s : State) (m : Master) (v : W32) : State :=
  if s.inReset || m ≠ mHall then s
  else (List.range 9).foldl (fun s i => if bit v i || s.gateIdle i then s.setFld (cpr 0xC) i 1 (bit v i).toNat else s) s

/-! ### Thermal throttle (16 R441) -/

/-- The divisor in effect, as CPR_THSs.DIV encodes it. -/
def State.divisor (s : State) (st : Stn) : Nat := s.fld (aNetStat st) 25 2

/-- A step of the divisor is requested: in a running station it waits for a frame boundary. -/
def State.divStep (s : State) (st : Stn) (d : Nat) : State :=
  let s := { s with core := { s.core with therm := s.core.therm.set st { s.core.therm[st] with lastStep := some s.timeBase, cool := 0 } } }
  if (s.stn st).run = .running then s.modStn st fun S => { S with dueDiv := some (BitVec.ofNat 2 d) }
  else s.setFld (aNetStat st) 25 2 d

/-- No step was taken in the last 10 ms. -/
def State.stepAllowed (s : State) (st : Stn) : Bool :=
  (s.stn st).dueDiv.isNone && match s.core.therm[st].lastStep with
  | none => true
  | some tb => decide (10 * msCounts ≤ (s.timeBase - tb).toNat)

/-- THERMAL_SAMPLE: TEMP of a station and of the I/O die, and the steps that follow. -/
def State.thermalSample (s : State) (st : Stn) (temp iod : Byte) : State :=
  if !s.fitted st then s
  else
    let s := (s.setFld (thsReg st) 8 8 temp.toNat).setFld (cpr 0x14) 0 8 iod.toNat
    let thi : Int := s.fld (cpr 0x10) 8 8
    let tlo : Int := s.fld (cpr 0x10) 16 8
    let T := s.core.therm[st]
    let d := s.divisor st
    let isHot := decide (thi ≤ temp.toInt)
    let cool := if temp.toInt < tlo then T.cool + 1 else 0
    let hot := if isHot && d == 2 then T.hot + 1 else 0
    let set := decide (100 ≤ hot)
    let s := { s with core := { s.core with therm := s.core.therm.set st { T with cool := cool, hot := if set then 0 else hot } } }
    let s := if set then (s.setFlag (thsReg st) 16).notify (.thermal st) else s
    if !s.stepAllowed st then s
    else if d < s.minDiv st then s.divStep st (s.minDiv st)
    else if isHot && d < 2 then s.divStep st (d + 1)
    else if decide (10 ≤ cool) && decide (s.minDiv st < d) then s.divStep st (d - 1)
    else s

/-- A write of CPR_THSs: MIN above the divisor in effect requests a step to MIN. -/
def State.thsWrite (s : State) (st : Stn) (v : W32) : State :=
  let a := thsReg st
  let s := s.setFld a 4 2 (nat v 4 2)
  let s := if bit v 16 then s.setFld a 16 1 0 else s
  if s.stepAllowed st && decide (s.divisor st < s.minDiv st) then s.divStep st (s.minDiv st) else s

/-- A write of CPR_THCFG: a THI at or below TLO is stored as TLO + 1 (16 R451); where that exceeds the field, THI takes a free value
(log entry 2). -/
def State.thcfgWrite (s : State) (v : W32) : State :=
  let tlo := nat v 16 8
  let store := fun (s : State) (thi : Nat) => s.setReg (cpr 0x10) (BitVec.ofNat 32 (tlo * 2 ^ 16 + thi * 2 ^ 8))
  if tlo < nat v 8 8 then store s (nat v 8 8)
  else if tlo < 255 then store s (tlo + 1)
  else store (s.useFree 1) (nat s.free 0 8)

/-! ### Core voltage (16 R444) -/

/-- CPR_AVS_WRITE. -/
def State.avsWrite (s : State) (m : Master) (v : W32) : State :=
  if m = mHall ∧ !s.inReset then s.setReg (cpr 0x30) (BitVec.ofNat 32 (min 40 (nat v 0 6))) else s

/-- VID_STEP: the outputs move by at most 2 toward the value written. -/
def State.vidStep (s : State) : State :=
  if s.inReset then s else
  let want := s.fld (cpr 0x30) 0 6
  let v := s.core.vid.toNat
  let v := if v < want then min want (v + 2) else max want (v - 2)
  { s with core := { s.core with vid := BitVec.ofNat 6 v } }

/-! ### Resets (16 R446 to R449) -/

/-- The reset includes the chain ports. -/
def ResetSource.withChain : ResetSource → Bool
  | .powerOn | .pin | .clockLoss => true
  | .command | .hall => false

def ResetSource.cause : ResetSource → Nat
  | .powerOn => 0 | .pin => 1 | .command => 2 | .hall => 3 | .clockLoss => 4

/-- Bits of registers that a device reset keeps: the cause and the straps, and, without the chain-port reset, the
address and the links (12 R342, R346, R366; 16 R446, R451). -/
def keptBits (src : ResetSource) : List (Nat × W32) :=
  let straps : List (Nat × W32) := if src = .powerOn then [] else [(cpr 4, 7), (cpr 8, 7)]
  let chain := if src.withChain then [] else
    [(chReg 8, 0xFFFFFFFF), (chReg 4, 0x300), (linkReg 0 0, 0xFFFFFFFF), (linkReg 1 0, 0xFFFFFFFF),
     (linkReg 0 4, 0xFFFFFFFF), (linkReg 1 4, 0xFFFFFFFF)]
  straps ++ chain

/-- Take the bits kept over from an earlier state. -/
def State.keepBits (s old : State) (l : List (Nat × W32)) : State :=
  l.foldl (fun s k => s.setReg k.1 ((s.reg k.1 &&& ~~~k.2) ||| (old.reg k.1 &&& k.2))) s

/-- Owner fields of stations disabled by grade read as unassigned (13 R393). -/
def State.ownReset (s : State) : State :=
  ((List.range 4).filter fun st => s.grade.stations ≤ st).foldl (init := s) fun s st =>
    let s := [0, 1].foldl (fun s i => (s.setFld (winCfg (2 * st + i)) 28 3 7).setFld (drwReg (2 * st + i) 0) 29 3 7) s
    let s := [4 * st, 4 * st + 1, 4 * st + 2, 4 * st + 3, 16 + st].foldl (fun s p => s.setFld (serReg p 0) 29 3 7) s
    (s.setFld (devReg 0x32 (0x4000 * st)) 29 3 7).setFld (gioReg 0x20) (4 * st) 3 7

/-- The strap HEAD shows in CH_CTRL and opens CPR_GATE.PCIE (12 R366, 16 R451). -/
def State.headStrap (s : State) : State :=
  let h := s.fld (cpr 8) 2 1
  (s.setFld (chReg 0) 2 1 h).setFld (cpr 0xC) 3 1 h

/-- Embedded flash whose operation is cut short: a commit whose audit record is missing is torn, one past it leaves an invalid set, of
which only the erased MAGIC is fixed; an erased or programmed range holds free values (10 R299). -/
def State.cutFlash (s : State) : State :=
  let s := match s.flashCtl.work with
    | .commit _ _ false => s.modFlash fun F => { F with torn := true }
    | .commit _ _ true => (s.flashFree 0x401000 0x1000).flashErase 0x401000 4
    | .erase o => s.flashFree o 4096
    | .program o _ => s.flashFree o 256
    | _ => s
  s.modFlash fun F => { F with work := .idle, waits := none, owed := [] }

/-- The state that a device reset leaves while it is asserted. What is no state of a block in reset is kept: the queue, fuses, flash,
failed pipes, the levels at pins, and the test access port. -/
def State.deviceReset (s : State) (src : ResetSource) : State :=
  let s := s.vaultCut.cutFlash
  let n : State :=
    { State.reset with
      pending := s.pending, freeCount := s.freeCount, undef := s.undef, grade := s.grade
      flash := s.flash, flashCtl := s.flashCtl, tap := s.tap
      vault := { s.vault with hash := none, cmd := none, since := 0 }
      stns := s.stns.map fun S => { phys := S.phys }
      window := { lreset := s.window.lreset }
      serial := s.serial.map fun P => { lines := P.lines }
      gio := { pins := s.gio.pins, sense := s.gio.sense }
      links := if src.withChain then .replicate 2 {} else s.links
      hall := { run := .off }
      core := { asserted := true, withChain := src.withChain, tripped := s.core.tripped } }
  ((n.keepBits s (keptBits src)).setFld (cpr 4) 0 3 src.cause).ownReset.headStrap

/-- Only a source that cannot wait asserts at once; any other waits for DEVICE_RESET_ASSERT. One that finds a reset pending or asserted
adds nothing (16 R448). -/
def State.requestReset (s : State) (src : ResetSource) : State :=
  if s.core.asserted || s.core.wants.isSome then s else { s with core := { s.core with wants := some src } }

/-- Outputs that a reset holds otherwise than their registers and state do (16 R447): SFP+ TX_DISABLE of a chain port, and VID. LSEL_N, LD,
BNKBSY, LIRQ, DRWn and USBn_PWREN have the levels of a window, drawers and ports in their reset state. -/
def State.txDisable (s : State) (p : Fin 2) : Bool := s.rbit (chReg 0) p.val || s.portsHeld

/-- POWER_ON_RESET: PORST_N low; it also ends a thermal trip. -/
def State.powerOn (s : State) : State :=
  { s with core := { s.core with tripped := false } }.deviceReset .powerOn

/-- CLOCK_LOSS. A reset asserted already stays as recorded. -/
def State.clockLoss (s : State) : State :=
  if s.core.asserted then s
  else
    let r := s.deviceReset .clockLoss
    match s.core.wants with
    | none => r
    | some src => r.setFld (cpr 4) 0 3 src.cause

/-- THERMTRIP: the device holds itself in reset until a power-on reset (16 R443). -/
def State.thermtrip (s : State) : State := { s with core := { s.core with tripped := true } }.deviceReset .powerOn

/-- DEVICE_RESET_ASSERT: once no flash operation runs. -/
def State.resetAssert (s : State) : State :=
  match s.core.wants with
  | none => s
  | some src => if s.flashCtl.work = .idle then s.deviceReset src else s

/-- CHAIN: the chain-port reset alone (16 R446). -/
def State.chainPortReset (s : State) : State :=
  let s := [0, 1].foldl (init := s) fun s p =>
    (s.setReg (linkReg p 0) 0).setReg (linkReg p 4) 0
  { (s.setReg (chReg 8) 0).setFld (chReg 4) 8 2 0 with links := .replicate 2 {} }

end Sys2Proof.Machine
end

