-- ==== Sys2Proof/Machine/Image.lean ====
section
/-! DEFINITION. Signed images: the checks of R402 and the section directory of a station image (spec 14 R400 to R402, R408). -/

namespace Sys2Proof.Machine

/-- The first n bytes of an image, if all are present; `m` lists bytes by offset, ascending. -/
def firstBytes (n : Nat) (m : List Host.Cell) : Option (List Byte) :=
  let cells := m.take n
  if cells.map (·.1) = List.range n then some (cells.map (·.2)) else none

/-- The header field of n bytes at offset o; bytes absent count as 0. -/
def hdr (m : List Host.Cell) (o n : Nat) : Nat := leNat ((List.range n).map fun i => smGet (fun _ => 0) m (o + i))

/-- A section of a station image (14 R408). -/
structure Section where
  ty : Nat
  tile : Nat
  off : Nat
  len : Nat
  dest : Nat
  deriving DecidableEq, Repr

/-- The section directory at the start of a body. -/
def sections (body : List Byte) : List Section :=
  (List.range (min (leNat (slice body 0 4)) (body.length / 16))).map fun i =>
    let e := body.drop (8 + 16 * i) |>.take 16
    ⟨leNat (slice e 0 2), leNat (slice e 2 1), leNat (slice e 4 4), leNat (slice e 8 4), leNat (slice e 12 4)⟩

def Section.bytes (x : Section) (body : List Byte) : List Byte := (body.drop x.off).take x.len

/-- Registers that a type 0x0005 section may write (14 R408). -/
def sectionRegister (o : Nat) : Bool :=
  [0x180, 0x184, 0x140, 0x144, 0x150, 0x154, 0x200, 0x204, 0x400, 0x160].contains o ||
    (decide (0x1000 ≤ o) && decide (o < 0x1A00) && decide (o % 4 = 0))

/-- The (offset, value) pairs of a type 0x0005 section. -/
def Section.writes (x : Section) (body : List Byte) : List (Nat × W32) :=
  (List.range (x.len / 8)).map fun i =>
    (leNat (slice body (x.off + 8 * i) 4), leBv 32 (slice body (x.off + 8 * i + 4) 4))

/-- An entry of the directory is valid. -/
def Section.ok (x : Section) (body : List Byte) : Bool :=
  decide (x.off + x.len ≤ body.length) && (if x.ty ≤ 3 then decide (x.tile ≤ 39) else x.tile == 0xFF) && (match x.ty with
    | 1 => x.dest == 0 && decide (1 ≤ x.len) && decide (x.len ≤ 65536)
    | 2 => decide (x.dest + x.len ≤ 131072)
    | 3 => x.dest == 0 && x.len == 16
    | 4 => hasTable x.dest && x.len % 2 == 0 && decide (x.len ≤ 2048)
    | 5 => x.dest == 0 && x.len % 8 == 0 && (x.writes body).all fun w => sectionRegister w.1
    | 6 => decide (x.dest + x.len ≤ 0x1000000)
    | _ => false)

/-- The directory is valid. -/
def directoryOk (body : List Byte) : Bool :=
  let xs := sections body
  decide (8 + 16 * leNat (slice body 0 4) ≤ body.length) && xs.all (fun x => x.ok body) &&
    [1, 3].all fun ty => ((xs.filter fun x => x.ty == ty).map (·.tile)).Nodup

/-- What a check of an image answers: the reason of R402, and the digest and the image where it is accepted. -/
structure Verdict where
  reason : Nat
  digest : List Byte := []
  image : List Byte := []
  deriving DecidableEq, Repr

/-- Check 1 of R402, on the header. -/
def headerOk (m : List Host.Cell) : Bool :=
  hdr m 0 4 == 0x4951444E && hdr m 6 2 == 1 && hdr m 0xD 3 == 0 && hdr m 0x1C 484 == 0 &&
    (if hdr m 4 1 = 2 then decide (1024 + hdr m 0x10 4 ≤ 0x1000000) else decide (1024 + hdr m 0x10 4 ≤ 983040))

/-- The checks of R402 in their order, for an image of a kind; bytes 0x200 to 0x3FF of the header are the signature. -/
def State.verifyImage (s : State) (kind : Nat) (m : List Host.Cell) : Verdict :=
  if !headerOk m then ⟨2, [], []⟩
  else if hdr m 4 1 ≠ kind then ⟨3, [], []⟩
  else if kind = 2 ∧ hdr m 5 1 ≠ s.grade.code then ⟨4, [], []⟩
  else match firstBytes (1024 + hdr m 0x10 4) m with
  | none => ⟨5, [], []⟩
  | some img =>
    match s.keyModulus (hdr m 0xC 1) with
    | none => ⟨6, [], []⟩
    | some key =>
      let digest := sha512 (img.take 512 ++ img.drop 1024)
      if !rsaVerify key digest (slice img 512 512) then ⟨7, [], []⟩
      else if hdr m 8 4 < (if kind = 1 then s.vault.hallMin else s.vault.stnMin) then ⟨8, [], []⟩
      else if kind = 2 ∧ !directoryOk (img.drop 1024) then ⟨9, [], []⟩
      else ⟨1, digest, img⟩

/-- An image is checked with the vault's help: check 6 takes the digest and the signature to it (14 R401 to R403). -/
def State.verifyIn (s : State) (kind : Nat) (m : List Host.Cell) : State × Verdict :=
  let v := s.verifyImage kind m
  match firstBytes (1024 + hdr m 0x10 4) m with
  | some img =>
    if v.reason = 1 ∨ (7 ≤ v.reason ∧ v.reason ≤ 9) then
      let msg := img.take 512 ++ img.drop 1024
      ((s.vaultDigest msg).vaultVerify (BitVec.ofNat 8 (hdr m 0xC 1)) (sha512 msg) (slice img 512 512), v)
    else (s, v)
  | none => (s, v)

/-! ### Staged images (14 R404, R409) -/

/-- A byte of the image has been received. -/
def Staged.has (x : Staged) (i : Nat) : Bool := x.got.any fun r => decide (r.1 ≤ i) && decide (i < r.1 + r.2)

/-- What is staged from address a on, as the Hall reads it: bytes by offset; those of a line that cannot be read are absent. -/
def State.readStaged (s : State) (a : Nat) : Option Staged → State × List Host.Cell
  | none => (s, [])
  | some x => (List.range ((x.total + 63) / 64)).foldl (init := (s, [])) fun y i =>
    let r := y.1.memRead mHall (a + 64 * i) (min 64 (x.total - 64 * i))
    (r.1, if r.2.1 then y.2 ++ ((List.range 64).filter fun j => x.has (64 * i + j)).map fun j => (64 * i + j, r.2.2.getD j 0) else y.2)

end Sys2Proof.Machine
end

