-- ==== Sys2Proof/Machine/Boot.lean ====
section
/-! DEFINITION. The Cellar's boot, the release of a reset, the Hall's log and its warm restart (spec 14 R403 to R405; 15 R419, R429,
R430; 16 R449). -/

namespace Sys2Proof.Machine

def State.modHall (s : State) (f : Hall → Hall) : State := { s with hall := f s.hall }
def State.hallStn (s : State) (st : Stn) : HallStn := s.hall.stns[st]
def State.modHallStn (s : State) (st : Stn) (f : HallStn → HallStn) : State :=
  s.modHall fun H => { H with stns := H.stns.set st (f H.stns[st]) }

/-! ### The Hall's log (15 R419) -/

/-- An entry is appended: KIND, station or 0xFF, tile or 0xFF, and DATA. -/
def State.hallLog (s : State) (kind stn tile : Nat) (data : List Byte) : State :=
  let n := s.hall.logNext
  let e := leBytes 4 n ++ leBytes 2 kind ++ leBytes 1 stn ++ leBytes 1 tile ++ leBytes 8 s.timeBase.toNat ++ slice data 0 16
  (s.memWrite mHall (hallMem (0xF0000 + 32 * (n % 2048))) e).1.modHall fun H => { H with logNext := (n + 1) % 2 ^ 32 }

/-! ### Cellar (14 R403 to R405) -/

def aBOOTSTAT : Nat := devReg 0 0x200
def aHALLSTAT : Nat := devReg 0 0x110

/-- n bytes of a boot partition, by offset. -/
def State.partCells (s : State) (part n : Nat) : List Host.Cell :=
  (List.range n).map fun i => (i, s.flashByte (part * 0x200000 + i))

/-- Bytes that the Cellar copies of a partition: header and, where checks 1 and 2 pass, body. -/
def State.candidate (s : State) (part : Nat) : List Host.Cell :=
  let h := s.partCells part 1024
  if headerOk h && hdr h 4 1 == 1 then s.partCells part (1024 + hdr h 0x10 4) else h

/-- One candidate is copied into Hall SRAM and checked, unless flash returns an uncorrectable error while it is read (14 R402). -/
def State.cellarTry (s : State) (part : Nat) : State × Verdict :=
  if bit s.flashCtl.bad part then (s, ⟨10, [], []⟩)
  else
    let m := s.candidate part
    (s.setBytes (hallMem 0) (m.map (·.2))).verifyIn 1 m

/-- Candidates in their order of trial (14 R403 step 2). -/
def State.bootOrder (s : State) : List Nat :=
  match s.fld (cpr 8) 0 2 with
  | 0 =>
    let a := s.partCells 0 1024
    let b := s.partCells 1 1024
    let aFirst := decide (hdr b 8 4 < hdr a 8 4) || (hdr a 8 4 == hdr b 8 4 && decide (hdr b 0x18 4 ≤ hdr a 0x18 4))
    (if aFirst then [0, 1] else [1, 0]).filter fun p => headerOk (if p = 0 then a else b)
  | 1 => [0]
  | 2 => [1]
  | _ => []

/-- Note a partition's reason. -/
def Hall.reason (H : Hall) (part r : Nat) : Hall := if part = 0 then { H with rsnA := r } else { H with rsnB := r }

/-- Step 5 of R403: source 0 and 1 are the partitions, 2 the chain. In a warm restart the firmware begins with WARM and its log entry,
and DEV_BOOTSTAT is not written (15 R430). -/
def State.enterFirmware (s : State) (src : Nat) (v : Verdict) : State :=
  let s := s.modHall fun H => { H with
    run := .firmware, boot := none, measurement := some v.digest, entry := leBv 32 (slice v.image 0x14 4) }
  if s.rbit (mxReg 0) 0 then
    let s := s.setFld aHALLSTAT 1 1 1
    s.hallLog 7 0xFF 0xFF (leBytes 4 (s.reg aHALLSTAT).toNat)
  else
    let s := s.setReg aBOOTSTAT (BitVec.ofNat 32
      (s.hall.rsnB * 2 ^ 20 + s.hall.rsnA * 2 ^ 16 + src * 2 ^ 6 + s.fld (cpr 8) 0 2 * 2 ^ 4))
    (s.setFld aBSTAT 0 2 src).setFld (mxReg 0) 0 1 1

/-- Steps 3 and 4 of R403. -/
def State.cellarRun (s : State) : List Nat → State
  | [] => s.modHall fun H => { H with run := .chainBoot, boot := none }
  | p :: ps =>
    let x := s.cellarTry p
    let s1 := x.1.modHall fun H => H.reason p x.2.reason
    if x.2.reason = 1 then s1.enterFirmware p x.2 else s1.cellarRun ps

/-- The Cellar after a device reset. -/
def State.cellarBoot (s : State) : State :=
  let s := (s.clearMem (hallMem 0) (hallMem 0x100000)).modHall fun H => { H with run := .cellar, rsnA := 0, rsnB := 0 }
  s.cellarRun s.bootOrder

/-- A commit that power cut short leaves its record first (10 R299). -/
def State.repairAudit (s : State) : State :=
  if s.flashCtl.torn then
    ((s.auditAppend ([0x02, 0x00] ++ leBytes 2 s.flashCtl.counter ++ List.replicate 60 0)).modFlash fun F => { F with torn := false })
  else s

/-- RESET_RELEASE: the straps are sampled where the reset's source samples them, HEAD in bit 2 (16 R446, R449, R450). `bad` names the
boot partitions in which reads meet an uncorrectable error from here on. With TESTEN high the device stays in reset (17 R471). -/
def State.resetRelease (s : State) (x : ReleaseInputs) : State :=
  if !s.core.asserted || s.core.tripped || x.testen then s
  else
    let s := s.modFlash fun F => { F with bad := x.bad }
    let s := if s.fld (cpr 4) 0 3 ≤ 1 then s.setFld (cpr 8) 0 3 x.straps.toNat else s
    let s := { s with core := { s.core with asserted := false, withChain := false } }
    s.repairAudit.headStrap.cellarBoot

/-! ### Warm restart (15 R429, R430) -/

/-- WARM_RESTART: commands the Hall had accepted and not answered are lost with its duplicate cache. Before the firmware has first
been entered the remap bit is 0 and DEV_BOOTSTAT names no source yet: the Cellar begins again. -/
def State.warmRestart (s : State) : State :=
  let s := s.vaultAbort.modHall fun H => { H with
    cache := [], attest := none, boot := none
    stns := H.stns.map fun S => { S with
      starting := none, testing := false, stopping := none, inPlace := none, waiting := [], held := [], out := [], sending := none } }
  if s.hall.run = .off then s
  else if s.rbit (mxReg 0) 0 then
    let s := (s.clearMem (hallMem 0) (hallMem 0xF0000)).modHall fun H => { H with run := .cellar }
    let src := s.fld aBOOTSTAT 6 2
    if 2 ≤ src then s.modHall fun H => { H with run := .chainBoot }
    else
      let x := s.cellarTry src
      if x.2.reason = 1 then x.1.enterFirmware src x.2 else x.1.modHall fun H => { H with run := .chainBoot }
  else s.cellarBoot

/-- LOCKSTEP_DIVERGENCE. -/
def State.divergence (s : State) : State :=
  let n := s.fld aHALLSTAT 16 16
  ((s.setFlag aHALLSTAT 0).setFld aHALLSTAT 16 16 (min 0xFFFF (n + 1))).warmRestart

end Sys2Proof.Machine
end

