-- ==== Sys2Proof/Machine/DmaCtl.lean ====
section
/-! DEFINITION. DMA channel control: GO, abort, disable and the shadow registers (spec 11 R324, R327 to R329). -/

namespace Sys2Proof.Machine

/-! ### Descriptors (11 R321) -/

/-- The current descriptor's address (11 R329). -/
def State.dmaCur (s : State) (n : Fin 16) : Nat := s.fld (dmaReg n 0x10) 0 8 * 2 ^ 32 + (s.reg (dmaReg n 0xC)).toNat
def State.setDmaCur (s : State) (n : Fin 16) (a : Nat) : State :=
  (s.setReg (dmaReg n 0xC) (BitVec.ofNat 32 (a / 32 * 32))).setReg (dmaReg n 0x10) (BitVec.ofNat 32 (a / 2 ^ 32 % 256))

def State.dmaCount (s : State) (n : Fin 16) : Nat := s.fld (dmaReg n 0x14) 0 24
def State.setDmaCount (s : State) (n : Fin 16) (v : Nat) : State := s.setFld (dmaReg n 0x14) 0 24 v

/-- Fields of CTRL (11 R321). -/
def DmaDesc.count (d : DmaDesc) : Nat := nat d.ctrl 0 24
def DmaDesc.wide (d : DmaDesc) : Bool := bit d.ctrl 24
def DmaDesc.sfix (d : DmaDesc) : Bool := bit d.ctrl 25
def DmaDesc.dfix (d : DmaDesc) : Bool := bit d.ctrl 26
def DmaDesc.ieoc (d : DmaDesc) : Bool := bit d.ctrl 27
def DmaDesc.last (d : DmaDesc) : Bool := bit d.ctrl 28
def DmaDesc.next (d : DmaDesc) : Nat := nat d.ctrl 29 35 * 32
def DmaDesc.size (d : DmaDesc) : Nat := if d.wide then 64 else 4

/-- A descriptor is valid (11 R321). -/
def DmaDesc.valid (d : DmaDesc) : Bool :=
  decide (d.count ≠ 0) && decide (d.src.toNat < 2 ^ 40) && decide (d.dst.toNat < 2 ^ 40) &&
  decide (d.src.toNat % d.size = 0) && decide (d.dst.toNat % d.size = 0)

/-- Source and destination address of beat i; addresses advance modulo 2^40. -/
def DmaDesc.srcAt (d : DmaDesc) (i : Nat) : Nat := (d.src.toNat + (if d.sfix then 0 else d.size * i)) % 2 ^ 40
def DmaDesc.dstAt (d : DmaDesc) (i : Nat) : Nat := (d.dst.toNat + (if d.dfix then 0 else d.size * i)) % 2 ^ 40

/-- Beats i and j, i < j, lie in one burst: no 1 KiB boundary of either address between them (11 R321). -/
def DmaDesc.oneBurst (d : DmaDesc) (i j : Nat) : Bool :=
  d.wide && !d.sfix && !d.dfix &&
  (List.range (j - i)).all fun k => d.srcAt (i + 1 + k) % 1024 != 0 && d.dstAt (i + 1 + k) % 1024 != 0

/-! ### Control -/

def State.dmaState (s : State) (n : Fin 16) : Nat := s.fld (dmaReg n 8) 28 4
def State.setDmaState (s : State) (n : Fin 16) (v : Nat) : State := s.setFld (dmaReg n 8) 28 4 v
def State.modDma (s : State) (n : Fin 16) (f : DmaChan → DmaChan) : State := { s with dma := s.dma.set n (f s.dma[n]) }
def State.dmaOn (s : State) (n : Fin 16) : Bool := s.rbit (dmaReg n 0) 31

/-- GO: with EN 1 and STATE idle or stopped on error, the channel fetches (11 R324). -/
def State.dmaGo (s : State) (n : Fin 16) : State :=
  if s.dmaOn n ∧ (s.dmaState n = 0 ∨ s.dmaState n = 5) then (s.setDmaState n 1).modDma n fun _ => {} else s

/-- The channel stops: with beats in flight once they are answered; during a write-back it only gives up its hand-over; stopped on
error it stays so (11 R327). -/
def State.dmaStop (s : State) (n : Fin 16) : State :=
  if s.dmaState n = 5 then s
  else if s.dmaState n = 4 ∨ (s.dmaState n = 3 ∧ s.dma[n].done < s.dma[n].issued) then s.modDma n fun D => { D with halted := true }
  else (s.setDmaState n 0).modDma n fun _ => {}

/-- DMA_ABORT. -/
def State.dmaAbort (s : State) (n : Fin 16) : State := s.dmaStop n

/-- DMA_DISABLE: a write of EN = 0. -/
def State.dmaDisable (s : State) (n : Fin 16) : State := (s.setFld (dmaReg n 0) 31 1 0).dmaStop n

/-- A shadow write, seen or not by a hand-over of the same cycle as `taken` tells: SHV stood at 1 at the cycle's start with `was`
(11 R328). -/
def State.shadowStore (s : State) (n : Fin 16) (hi : Bool) (v : W32) (was : Bool) : State :=
  if was then (if hi && !bit v 31 then s.setFld (dmaReg n 0x1C) 31 1 0 else s)
  else if hi then s.setReg (dmaReg n 0x1C) (v &&& 0x800000FF)
  else s.setReg (dmaReg n 0x18) (v &&& 0xFFFFFFE0)

/-- The channel takes its valid shadow (11 R328): the next descriptor is the one at the shadow address. -/
def State.takeShadow (s : State) (n : Fin 16) : State :=
  let s := (s.setReg (dmaReg n 0xC) (s.reg (dmaReg n 0x18))).setFld (dmaReg n 0x10) 0 8 (s.fld (dmaReg n 0x1C) 0 8)
  let s := (s.setFld (dmaReg n 0x1C) 31 1 0).setFld (dmaReg n 0x20) 0 16 (s.fld (dmaReg n 0x20) 0 16 + 1)
  (s.setDmaState n 1).modDma n fun _ => {}

/-- DMA_IDLE_HANDOVER: an enabled idle channel takes a valid shadow. -/
def State.idleHandover (s : State) (n : Fin 16) : State :=
  if s.dmaOn n ∧ s.dmaState n = 0 ∧ s.rbit (dmaReg n 0x1C) 31 then s.takeShadow n else s

/-- A write of DMA_CHn_CTRL (11 R329). EN written 1 with GO: the channel is enabled first. -/
def State.dmaCtrlWrite (s : State) (n : Fin 16) (v : W32) : State :=
  if !bit v 31 then s.dmaDisable n
  else
    let s := s.setFld (dmaReg n 0) 31 1 1
    let s := if bit v 2 then s.dmaAbort n else s
    if bit v 1 then s.dmaGo n else s

end Sys2Proof.Machine
end

