-- ==== Sys2Proof/Machine/RegAccess.lean ====
section
/-! DEFINITION. 32-bit accesses to the device's registers: who may make them, what a read returns and does, and what a write does
(spec 00 R8, R9; 01 R29, R30; 11 R305, R314; 13 R395; 15 R417, R418; 16 R440; and the register tables of every chapter). -/

namespace Sys2Proof.Machine

/-- The answer to a write: the state and the error code, if it is an error. -/
abbrev WOut := State × Option MxCode

def okW (s : State) : WOut := (s, none)
/-- Answered with code 0b001, nothing changed. -/
def refusedW (s : State) : WOut := (s, some 1)
/-- Answered with code 0b101, nothing changed. -/
def stateW (s : State) : WOut := (s, some 5)

/-! ### Plain registers -/

/-- Counters that software may write while they count (15 R418). -/
def isCounter (a : Nat) : Bool :=
  let o := a % 0x10000
  if 0x0100000000 ≤ a ∧ a < 0x0140000000 then
    if a % 0x10000000 < 0xC000000 then decide (0x200 ≤ o) && decide (o < 0x218)
    else [0x214, 0x220, 0x410].contains o
  else match (a - 0x0200000000) / 0x10000 with
    | 5 | 6 => o == 8
    | 7 => [0x18, 0x1C, 0x38, 0x3C].contains o
    | 0x30 => o == 8
    | _ => false

/-- The two saturating counters of CAMs_RXr_ERRCNT. -/
def isErrCnt (a : Nat) : Bool :=
  let b := (a - 0x0200000000) / 0x10000
  decide (0x10 ≤ b) && decide (b ≤ 0x13) && decide (0x10 ≤ a % 0x10000) && decide (a % 0x10000 < 0x50) && a % 0x10 == 8

/-- A write to a register with no behaviour of its own: RW fields are set, W1C flags cleared, and flags of `hw` that the hardware sets
in the same cycle stay set (15 R417, R418). -/
def State.plainWrite (s : State) (a : Nat) (v hw : W32) : State :=
  match regInfo a with
  | none => s
  | some i =>
    let old := s.reg a
    let x := (old &&& ~~~(i.rw ||| i.w1c)) ||| (v &&& i.rw) ||| (((old &&& ~~~v) ||| hw) &&& i.w1c)
    let x := if isCounter a && hw != 0 then x + 1 else x
    let x := if isErrCnt a then
        let y := if bit hw 0 && nat x 0 16 != 0xFFFF then x + 1 else x
        if bit hw 16 && nat y 16 16 != 0xFFFF then y + 0x10000 else y
      else x
    s.setReg a x

/-! ### Tile-control part (02 R68; 05 R168, R169; 08 R252; 15 R426) -/

/-- TILE_STATE (05 R168). -/
def State.tileStateWord (s : State) (st : Stn) (t : TileNo) : W32 :=
  let T := s.tile st t
  let code : Nat := match T.run with
    | .stopped => 0
    | .selfTest => 1
    | .running => if pswLvl T.psw = 2 then 3 else if pswLvl T.psw = 3 then 4 else 2
    | .tileStopped => 5
    | .imageFailed => 6
    | .selfTestFailed => 7
  BitVec.ofNat 32 (T.lastCause.toNat * 256 + code)

/-- Word i of Attic set n (05 R169). -/
def State.atticWord (s : State) (st : Stn) (t : TileNo) (off : Nat) : W32 :=
  let n := (off - 0x800) / 0x80
  let i := off % 0x80 / 4
  bits ((s.tile st t).attic[(Fin.ofNat 3 n)].words[(Fin.ofNat 16 (i / 2))]) (32 * (i % 2)) 32

def State.tileRegRead (s : State) (st : Stn) (t : TileNo) (off : Nat) : W32 :=
  if off = 4 then s.tileStateWord st t
  else if 0x800 ≤ off ∧ off < 0x980 then s.atticWord st t off
  else s.reg (tileReg st t off)

/-- A write of a tile-control register. TILE_DPWR takes its STATE fields before its FILL bits (log entry 104). -/
def State.tileRegWrite (s : State) (m : Master) (st : Stn) (t : TileNo) (off : Nat) (v hw : W32) : WOut :=
  let a := tileReg st t off
  let hall := decide (m = mHall)
  let stopped := (s.tile st t).isStopped
  if off = 0 then
    (if !hall && bit v 2 then refusedW s
    else okW (match nat v 0 3 with
      | 1 => s.tileStart st t
      | 2 => s.tileStopRequest st t
      | 4 => s.tileTestRequest st t
      | _ => s))
  else if off = 8 ∨ off = 0xC ∨ off = 0x10 ∨ off = 0x300 ∨ (0x1000 ≤ off ∧ off < 0x1400) then
    (if stopped then okW (s.plainWrite a v hw) else stateW s)
  else if off = 0x14 then
    (if hall then okW (s.setReg a (BitVec.ofNat 32 (max 1 (min 4096 (nat v 0 13))))) else refusedW s)
  else if off = 0x1C then (if !hall && bit v 7 then refusedW s else okW (s.tileSwi st t hall v))
  else if off = 0x21C then
    (if hall then okW ((s.bankPowerWrite (.tile st t) false v).zeroFillStart (.tile st t) (bankFillOf (.tile st t) v)) else refusedW s)
  else if off = 0x220 then
    (if hall then
      let x := s.lfixWrite st t v
      if x.2 then okW (if bit hw 16 then x.1.setFlag a 16 else x.1) else stateW s
    else refusedW s)
  else if off = 0x224 ∨ (0x400 ≤ off ∧ off < 0x500) then
    (if !hall then refusedW s else if s.rbit (aLfix st t) 30 then stateW s else okW (s.setReg a v))
  else okW (s.plainWrite a v hw)

/-! ### Station registers -/

/-- Registers that accept writes only from the Hall (01 R33; 06 R172, R181; 07 R218; 08 R226; 10 R302; 12 R353; 13 R396; 15 R422). -/
def stnHallOnly (off : Nat) : Bool :=
  [0x000, 0x140, 0x144, 0x150, 0x154, 0x160, 0x164, 0x170, 0x174, 0x190, 0x1A8, 0x200, 0x204, 0x208, 0x20C, 0x400, 0x418,
   0x420, 0x424, 0x428, 0x42C].contains off

/-- STN_RUN (01 R33). -/
def State.stnRunWord (s : State) (st : Stn) : W32 :=
  let S := s.stn st
  let code : Nat := match S.run with
    | .stopped => 0
    | .running => 1
    | .failed => 2
  BitVec.ofNat 32 ((S.phase != .none).toNat * 4 + code)

/-- STN_LFLT0 or STN_LFLT1 (15 R426). -/
def State.lfltWord (s : State) (st : Stn) (hi : Bool) : W32 :=
  (List.finRange 40).foldl (fun w t =>
    if decide (32 ≤ t.val) == hi then putBit w (t.val % 32) (s.rbit (aLfix st t) 16) else w) 0

/-- STN_NET_HMBX_LO and HI for the word at the head of the Hall's FIFO (07 R219). A word's source is in bits [53:48]. -/
def State.hmbxWord (s : State) (st : Stn) (hi : Bool) : W32 :=
  match (s.stn st).hallFifo with
  | [] => 0
  | w :: _ => if hi then BitVec.ofNat 32 (2 ^ 31 + nat w 58 6 * 2 ^ 24 + nat w 32 16) else bits w 0 32

/-- A slot-table entry as software reads it, with its check bits (07 R197). -/
def slotWord (e : BitVec 11) : BitVec 16 := if e = 0 then 0 else Config.slotCheck e ++ e

/-- STN_NET_TBL[i] (07 R218). -/
def State.tblWord (s : State) (st : Stn) (i : Nat) : W32 :=
  let k := s.fld (stnReg st 0x414) 0 9 * 1024 + 2 * i
  let e := fun j => slotWord (smGet (fun _ => (0 : BitVec 11)) (s.stn st).tables j)
  e (k + 1) ++ e k

/-- A write of STN_NET_STAT: each flag that the hardware sets in the same cycle raises its notice (07 R218). -/
def State.netStatWrite (s : State) (st : Stn) (v hw : W32) : State :=
  ((List.range 8).filter fun i => bit hw i).foldl (fun s i => s.netFlag st i) (s.plainWrite (aNetStat st) v hw)

/-- A read of a station register; that of STN_NET_HMBX_HI pops the word. -/
def State.stnRegRead (s : State) (st : Stn) (off : Nat) : State × W32 :=
  let v : W32 :=
    if off = 0 then s.stnRunWord st
    else if off = 0x1A0 then s.lfltWord st false
    else if off = 0x1A4 then s.lfltWord st true
    else if off = 0x1A8 then putBit (s.reg (stnReg st off)) 30 (s.stn st).repairBusy
    else if off = 0x420 then s.hmbxWord st false
    else if off = 0x424 then s.hmbxWord st true
    else if off = 0x42C then putBit (s.reg (stnReg st off)) 30 (decide (4 ≤ (s.stn st).hallSend.length))
    else if 0x8000 ≤ off ∧ off < 0x8800 then s.tblWord st ((off - 0x8000) / 4)
    else s.reg (stnReg st off)
  (if off = 0x424 then s.hallPop st else s, v)

def State.stnRegWrite (s : State) (m : Master) (st : Stn) (off : Nat) (v hw : W32) : WOut :=
  let a := stnReg st off
  let running := decide ((s.stn st).run = .running)
  let plain := okW (s.plainWrite a v hw)
  if m ≠ mHall ∧ stnHallOnly off then refusedW s
  else if off = 0 then
    okW (match nat v 29 3 with
      | 4 => s.stnRunStart st
      | 2 => s.stnRunStop st
      | 1 => s.stnRunFail st
      | _ => s)
  else if 0x100 ≤ off ∧ off < 0x120 then (if running ∨ (s.stn st).phase ≠ .none then okW s else plain)
  else if off = 0x140 ∨ off = 0x144 then okW (s.twWrite st (off == 0x144) v)
  else if off = 0x150 ∨ off = 0x154 then (if running then okW s else plain)
  else if off = 0x170 ∨ off = 0x174 then okW (s.lioevWrite st (off == 0x174) v)
  else if off = 0x1A8 then okW (s.stnRepairGo st v)
  else if off = 0x200 ∨ off = 0x204 then okW (s.bankPowerWrite (.station st) (off == 0x204) v)
  else if off = 0x208 then okW (s.zeroFillStart (.station st) (bankFillOf (.station st) v))
  else if off = 0x21C then okW (s.setReg a ((v &&& 0x80000000) ||| BitVec.ofNat 32 (max 16 (nat v 0 16))))
  else if off = 0x400 then
    let s1 := (s.netHalt st (bit v 31)).setFld a 16 7 (nat v 16 7)
    okW (if running then s1 else s1.setFld a 0 11 (max 64 (min 1024 (nat v 0 11))))
  else if off = 0x404 then okW (s.netStatWrite st v hw)
  else if off = 0x418 then okW (s.netFixGo st v)
  else if off = 0x42C then okW (s.hallMailboxSend st v)
  else if 0x1000 ≤ off ∧ off < 0x1A00 then (if running then stateW s else plain)
  else if 0x8000 ≤ off ∧ off < 0x8800 then
    let sel := s.fld (stnReg st 0x414) 0 9
    let k := sel * 1024 + 2 * ((off - 0x8000) / 4)
    (if running then stateW s
    else if !hasTable sel then okW s
    else okW (s.modStn st fun S => (S.setEntry k (bits v 0 11)).setEntry (k + 1) (bits v 16 11)))
  else plain

/-! ### Peripheral blocks -/

/-- The block at a peripheral address is gated or out of service, or the register is a load-cell channel's of a station disabled by
grade: it reads as zero and ignores writes (09 R271; 10 R276; 12 R362; 16 R440). -/
def State.blkDead (s : State) (blk off : Nat) : Bool :=
  match blk with
  | 2 => s.gated 2
  | 5 => s.gated 0
  | 6 => s.gated 1
  | 8 => s.gated 3 || !s.headMode
  | 0x10 | 0x11 | 0x12 | 0x13 => s.gated (4 + (blk - 0x10)) || decide (s.grade.stations ≤ blk - 0x10)
  | 0x20 => decide (0x100 ≤ off) && !s.lcPresent (Fin.ofNat 8 ((off - 0x100) / 0x100))
  | _ => false

/-- The MSI-X table and the pending-bit array lie in BAR0 alone (12 R363, R367). -/
def barOnly (m : Master) (blk off : Nat) : Bool := blk == 8 && decide (0x8000 ≤ off) && m != mPcie

/-- Bit of MX_PQEs that opens a block to the queue engine of station st (11 R314, R315). -/
def pqeBit (blk st : Nat) : Option Nat :=
  match blk with
  | 3 => some 0
  | 0x31 => some 1
  | 0x32 => some 2
  | 0x33 => some 3
  | 0x30 => some 4
  | _ => if blk = 0x10 + st then some 5 else none

/-- A queue engine reaches a register of lane I/O that its station owns (13 R395). -/
def State.qeOwns (s : State) (st : Stn) (blk off : Nat) : Bool :=
  match blk with
  | 0x30 =>
    if 0x1000 ≤ off ∧ off < 0x4000 then s.winOwner (off % 0x1000 / 0x200) == some st
    else if 0x80 ≤ off ∧ off < 0x100 then s.fifoOwner (off % 0x40 / 4) == some st
    else false
  | 0x31 => decide (0x100 ≤ off) && decide (off < 0x600) && s.serOwner (Fin.ofNat 20 ((off - 0x100) / 0x40)) == some st
  | 0x32 => s.usbOwner (Fin.ofNat 4 (off / 0x4000)) == some st
  | 0x33 =>
    if 0x100 ≤ off ∧ off < 0x180 then s.drwOwner (Fin.ofNat 8 ((off - 0x100) / 0x10)) == some st
    else [0x00, 0x0C, 0x10, 0x14].contains off
  | _ => true

/-- Why a master's access to a peripheral register is refused, if it is (11 R305, R314; 10 R301, R303; 12 R366, R367; 13 R375, R395;
14 R399; 15 R429; 16 R451). -/
def State.blkRefuses (s : State) (m : Master) (blk off : Nat) (write : Bool) : Bool :=
  match qeOf m with
  | some st =>
    (match pqeBit blk st.val with
    | none => true
    | some i => !s.rbit (mxReg (0x200 + 4 * st.val)) i || (blk == 3 && write) || !s.qeOwns st blk off)
  | none =>
    m.val == 8 || (m != mHall && (match blk with
      | 0 => write && [0x100, 0x104, 0x110].contains off
      | 1 => write
      | 4 => write
      | 7 => write
      | 8 => write && m != mPcie
      | 0x20 => write
      | 0x21 => write || m != mDma || !((decide (0x100 ≤ off) && decide (off < 0x400)) || (decide (0x1000 ≤ off)))
      | 0x30 => decide (0x10 ≤ off) && decide (off < 0x20)
      | _ => false))

/-- The half of the flash that a read-only window of the Pantry shows (10 R303). -/
def State.efWindow (s : State) (off : Nat) : W32 :=
  if 0x8000 ≤ off then s.bootWindow off
  else if 0x2000 ≤ off ∧ off < 0x4000 then leBv 32 (s.flashBytes (0x400000 + (off - 0x2000)) 4)
  else leBv 32 (s.flashBytes (0x410000 + 0x1000 * s.fld (efReg 0x110) 0 8 + (off - 0x4000)) 4)

/-- Fields of peripheral registers that follow other state. -/
def State.blkValue (s : State) (m : Master) (blk off : Nat) : W32 :=
  let v := s.reg (devReg blk off)
  match blk with
  | 0 => if off = 0x200 then put v 4 2 (s.fld (cpr 8) 0 2) else v
  | 1 => if 0x20 ≤ off ∧ off < 0x30 then put v 0 2 (s.divisor (Fin.ofNat 4 ((off - 0x20) / 4))) else v
  | 3 =>
    if off = 0 then bits s.timeBase 0 32
    else if off = 4 then s.tbLatch[m]
    else v
  | 7 => if off = 0x10 ∨ off = 0x30 then put v 0 12 (s.links[(Fin.ofNat 2 ((off - 0x10) / 0x20))]).unacked.length else v
  | 0x20 => if off = 0 then putBit v 2 (calValid s.calSet) else v
  | 0x21 =>
    if off = 0x108 then BitVec.ofNat 32 s.flashCtl.counter
    else if off = 0x10C then BitVec.ofNat 32 ((decide (16384 ≤ s.flashCtl.audNext)).toNat * 2 ^ 31 + s.flashCtl.audNext % 2 ^ 14)
    else if (0x2000 ≤ off ∧ off < 0x5000) ∨ 0x8000 ≤ off then s.efWindow off
    else v
  | 0x30 =>
    if off = 4 then putBit v 4 s.window.lreset
    else if off = 0x10 then (s.window.log.headD (0, 0)).1
    else if off = 0x14 then (s.window.log.headD (0, 0)).2
    else if off = 0x18 then BitVec.ofNat 32 (s.window.log.length * 2 ^ 16 + s.window.lost.toNat)
    else if 0xC0 ≤ off ∧ off < 0x100 then put v 0 7 (s.winFifo (Fin.ofNat 16 ((off - 0xC0) / 4))).entries.length
    else if 0x2000 ≤ off ∧ off < 0x4000 then s.reg (lbReg (0x1000 + off % 0x1000))
    else v
  | 0x31 =>
    let p : Fin 20 := Fin.ofNat 20 ((off - 0x100) / 0x40)
    if off = 0 then s.serIstat
    else if off % 0x40 = 8 then s.serDataWord p
    else if off % 0x40 = 0xC then s.serStat p
    else v
  | 0x32 => if off % 0x4000 = 4 then put v 0 11 s.usb[(Fin.ofNat 4 (off / 0x4000))].frame.toNat else v
  | 0x33 => if off = 0 then s.gioIn else v
  | _ =>
    if 0x10 ≤ blk ∧ blk ≤ 0x13 ∧ 0x100 ≤ off ∧ off % 0x40 = 0x1C then
      let st : Stn := Fin.ofNat 4 (blk - 0x10)
      let k : Fin 8 := Fin.ofNat 8 ((off - 0x100) / 0x40)
      let n := (s.geom st k).nslot
      put v 26 6 (match (s.ctx st k).openSlot with
        | some S => S.index
        | none => if n = 0 then 0 else (s.ctx st k).seq.toNat % n)
    else v

/-- A read of a peripheral register with its side effect (10 R303; 11 R316; 13 R376, R386, R389). -/
def State.blkRead (s : State) (m : Master) (blk off : Nat) : State × W32 :=
  if s.blkDead blk off || (regInfo (devReg blk off)).isNone || barOnly m blk off then (s, 0)
  else
    let v := s.blkValue m blk off
    let s1 :=
      if blk = 3 ∧ off = 0 then s.tbLatchRead m
      else if blk = 0x30 ∧ off = 0x14 then s.logPop
      else if blk = 0x31 ∧ 0x100 ≤ off ∧ off % 0x40 = 8 then s.serPop (Fin.ofNat 20 ((off - 0x100) / 0x40))
      else s
    (s1, v)

/-- A write of LC_CHc_CTRL: settings fields under R288, then EXC, OWD, EN and LOAD (10 R283, R288, R290). Without OWD no line is found
open. -/
def State.lcCtrlWrite (s : State) (c : Fin 8) (v : W32) : State :=
  let a := lcReg c 0
  if !s.lcPresent c then s
  else
    let s1 := if (v ^^^ s.reg a) &&& 0x770 != 0 then s.lcSettingsWrite c 0 v else s
    let s1 := s1.setFld a 27 1 (bit v 27).toNat
    let s1 := if bit v 27 then s1 else s1.setFld (lcReg c 4) 8 6 0
    let s1 := if bit v 28 != s1.rbit a 28 then s1.lcExcitation c (bit v 28) else s1
    let s1 := if bit v 30 then s1.lcLoad c else s1
    if bit v 31 then s1.lcEnable c else s1.setFld a 31 1 0

/-- A write of the embedded flash controller (10 R303; 14 R407). -/
def State.efWrite (s : State) (off : Nat) (v hw : W32) : WOut :=
  let a := efReg off
  if off = 0 then
    okW (match nat v 30 2 with
      | 1 => s.bootErase
      | 2 => s.bootProgram
      | _ => s)
  else if off = 8 ∨ off = 0xC ∨ (0x400 ≤ off ∧ off < 0x500) then
    (if s.rbit aBSTAT 31 then stateW s else okW (s.plainWrite a v hw))
  else if off = 0x100 then
    let s1 := if bit v 1 then s.disarm else s
    let s1 := if bit v 0 then s1.commitGo s1.arming else s1
    okW (if bit v 2 then s1.appendGo else s1)
  else okW (s.plainWrite a v hw)

/-- A write of a camera register (09 R268, R269, R272). -/
def State.camWrite (s : State) (st : Stn) (off : Nat) (v hw : W32) : State :=
  let a := camReg st off
  if 0x10 ≤ off ∧ off < 0x50 ∧ off % 0x10 = 0 then
    let keep : W32 := if s.rbit a 31 then 0x001F0033 else 0
    let s1 := s.setReg a (((v &&& 0x801F0033) &&& ~~~keep) ||| (s.reg a &&& keep))
    if bit v 31 && !s.rbit a 31 then s1.setFld (a + 4) 6 1 0 else s1
  else if 0x100 ≤ off ∧ off < 0x300 ∧ off % 0x40 = 0 then
    let k : Fin 8 := Fin.ofNat 8 ((off - 0x100) / 0x40)
    if bit v 31 then s.contextEnable st k v
    else if bit v 28 then s.contextAbort st k v
    else s.contextDisable st k v
  else if 0x100 ≤ off ∧ off < 0x300 ∧ off % 0x40 < 0x14 then
    (if s.rbit (camReg st (off / 0x40 * 0x40)) 31 then s else s.plainWrite a v hw)
  else s.plainWrite a v hw

/-- A write of the Window's registers (13 R380, R382, R394). -/
def State.lbWrite (s : State) (m : Master) (off : Nat) (v hw : W32) : State :=
  let a := lbReg off
  if off = 0 then
    let s1 := s.plainWrite a v hw
    let s1 := if bit v 0 then s1 else s1.modWin fun W => { W with out := {} }
    if bit v 1 && !s.window.log.isEmpty && !s.rbit a 1 then s1.laneNotice .bus else s1
  else if 0x40 ≤ off ∧ off < 0x60 then
    let keep : W32 := (if m = mHall then 0 else 0x70000000) ||| (if s.rbit a 31 then 0x080007FF else 0)
    s.setReg a (((v &&& 0xF80007FF) &&& ~~~keep) ||| (s.reg a &&& keep))
  else if 0x80 ≤ off ∧ off < 0xC0 then s.fifoPush m (Fin.ofNat 16 ((off - 0x80) / 4)) v
  else if 0xC0 ≤ off ∧ off < 0x100 then
    let s1 := if bit v 8 then s.fifoClr m (Fin.ofNat 16 ((off - 0xC0) / 4)) else s
    s1.plainWrite a v hw
  else if 0x2000 ≤ off ∧ off < 0x4000 then
    let p := lbReg (0x1000 + off % 0x1000)
    s.setReg p (aliasOf (decide (0x3000 ≤ off)) (s.reg p) v)
  else s.plainWrite a v hw

/-- A write of a serial port's registers (13 R384, R386, R394). -/
def State.serWrite (s : State) (m : Master) (off : Nat) (v hw : W32) : State :=
  if off < 0x100 then s
  else
    let p : Fin 20 := Fin.ofNat 20 ((off - 0x100) / 0x40)
    match off % 0x40 with
    | 0x00 => s.serCtrlWrite m p v
    | 0x04 => s.serBaudWrite p v
    | 0x08 => s.serDataWrite m p v
    | _ => (s.plainWrite (devReg 0x31 off) v hw).serNotice s p

/-- A write of a USB group's registers (13 R389, R394). -/
def State.usbWrite (s : State) (m : Master) (off : Nat) (v hw : W32) : State :=
  let g : Fin 4 := Fin.ofNat 4 (off / 0x4000)
  let o := off % 0x4000
  let a := usbReg g o
  if o = 0 then s.usbCtrlWrite m g v
  else if 0x10 ≤ o ∧ o < 0x50 then
    let k : Fin 4 := Fin.ofNat 4 ((o - 0x10) / 0x10)
    let s1 := s.usbPortWrite g k v
    if bit hw 7 then s1.portChg g k else s1
  else if 0x100 ≤ o ∧ o < 0x300 then
    let p : Fin 16 := Fin.ofNat 16 ((o - 0x100) / 0x20)
    if o % 0x20 = 0xC then
      let s1 := s.plainWrite a v hw
      let s1 := if bit v 30 then s1.usbPipeAbort g p else s1
      if bit v 31 then s1.usbPipeGo g p true else s1
    else if s.pipeState g p = 1 then s
    else s.plainWrite a v hw
  else s.plainWrite a v hw

/-- A write of GPIO and drawer registers (13 R391, R392, R394, R395). -/
def State.gioWrite (s : State) (m : Master) (off : Nat) (v hw : W32) : State :=
  let a := gioReg off
  if off = 0xC then s.gioSet m v
  else if off = 0x10 then s.gioClr m v
  else if off = 0x14 then s.plainWrite a (v &&& s.gioMask m) hw
  else if off = 0x20 then (if m = mHall then s.plainWrite a v hw else s)
  else if 0x100 ≤ off ∧ off < 0x180 ∧ off % 0x10 = 0 then s.drwCtrlWrite m (Fin.ofNat 8 ((off - 0x100) / 0x10)) v
  else s.plainWrite a v hw

/-- A write of the PCIe registers; a host write to WINEN or PCI_WIN is discarded (12 R367). -/
def State.pciWrite (s : State) (m : Master) (off : Nat) (v hw : W32) : State :=
  let a := pciReg off
  let host := decide (m = mPcie)
  if off = 0 then
    let w := if host then put v 2 1 (s.fld a 2 1) else v
    let s1 := s.plainWrite a w hw
    { s1 with pcie := { s1.pcie with
        cmdStopped := s1.pcie.cmdStopped && !bit v 0, rxStopped := s1.pcie.rxStopped && !bit v 1 } }
  else if off = 8 then (if host then s else s.plainWrite a v hw)
  else if off = 0x18 ∨ off = 0x38 then
    (if s.rbit (pciReg 0) (if off = 0x18 then 0 else 1) then s
    else s.setReg a (BitVec.ofNat 32 (max 4 (min 12 (nat v 0 4)))))
  else if off = 0x10 ∨ off = 0x14 then (if s.rbit (pciReg 0) 0 then s else s.plainWrite a v hw)
  else if off = 0x30 ∨ off = 0x34 then (if s.rbit (pciReg 0) 1 then s else s.plainWrite a v hw)
  else s.plainWrite a v hw

/-- A write of the clock, power and reset registers (16 R451). -/
def State.cprWrite (s : State) (m : Master) (off : Nat) (v hw : W32) : State :=
  if off = 0 then
    let s1 := if bit v 1 then s.chainPortReset else s
    if bit v 0 then s1.requestReset .hall else s1
  else if off = 0xC then s.gateWrite m v
  else if off = 0x10 then s.thcfgWrite v
  else if 0x20 ≤ off ∧ off < 0x30 then
    let st : Stn := Fin.ofNat 4 ((off - 0x20) / 4)
    let s1 := s.thsWrite st v
    if bit hw 16 then (s1.setFlag (cpr off) 16).notify (.thermal st) else s1
  else if off = 0x30 then s.avsWrite m v
  else s.plainWrite (cpr off) v hw

/-- A write of the device identity and configuration block (08 R226, R252; 15 R418, R429). -/
def State.devWrite (s : State) (off : Nat) (v hw : W32) : State :=
  let a := devReg 0 off
  if off = 0x100 then s.bankPowerWrite .hall false v
  else if off = 0x104 then s.zeroFillStart .hall (bankFillOf .hall v)
  else if off = 0x108 then
    let s1 := s.plainWrite a v hw
    if bit v 1 then s1.setFld a 16 16 (bit hw 1).toNat else s1
  else if off = 0x110 then
    let s1 := s.plainWrite a v hw
    if bit v 2 then s1.warmRestart else s1
  else s.plainWrite a v hw

/-- A write of a peripheral register, once the master is accepted. -/
def State.blkWrite (s : State) (m : Master) (blk off : Nat) (v hw : W32) : WOut :=
  let plain := s.plainWrite (devReg blk off) v hw
  if s.blkDead blk off || (regInfo (devReg blk off)).isNone || barOnly m blk off then okW s
  else match blk with
  | 0x00 => okW (s.devWrite off v hw)
  | 0x01 => okW (s.cprWrite m off v hw)
  | 0x02 =>
    let n : Fin 16 := Fin.ofNat 16 ((off - 0x100) / 0x40)
    if off < 0x100 then okW plain
    else match off % 0x40 with
      | 0x00 => okW (s.dmaCtrlWrite n v)
      | 0x04 | 0x0C | 0x10 => okW (if s.dmaState n = 0 ∨ s.dmaState n = 5 then plain else s)
      | 0x18 => okW (s.shadowStore n false v (s.rbit (dmaReg n 0x1C) 31))
      | 0x1C => okW (s.shadowStore n true v (s.rbit (dmaReg n 0x1C) 31))
      | _ => okW plain
  | 0x03 =>
    let n : Fin 8 := Fin.ofNat 8 ((off - 0x100) / 0x20)
    if off < 0x100 then okW plain
    else match off % 0x20 with
      | 0x00 => okW (s.timerEnable n v)
      | 0x04 | 0x0C | 0x10 => okW (if s.rbit (tmrReg n 0) 31 then s else plain)
      | _ => okW plain
  | 0x04 => okW (if off = 0 then plain.setFld (mxReg 0) 0 1 (bit v 0 || s.rbit (mxReg 0) 0).toNat else plain)
  | 0x05 => okW (if off = 0 then s.lpCtrlWrite 0 v else plain)
  | 0x06 => okW (if off = 0 then s.lpCtrlWrite 1 v else plain)
  | 0x07 => okW (if off = 0 && s.vault.lock then s.plainWrite (chReg 0) (put v 3 1 (s.fld (chReg 0) 3 1)) hw else plain)
  | 0x08 => okW (s.pciWrite m off v hw)
  | 0x10 | 0x11 | 0x12 | 0x13 => okW (s.camWrite (Fin.ofNat 4 (blk - 0x10)) off v hw)
  | 0x20 =>
    let c : Fin 8 := Fin.ofNat 8 ((off - 0x100) / 0x100)
    if off < 0x100 then okW s
    else if off % 0x100 = 0 then okW (s.lcCtrlWrite c v)
    else if off % 0x100 = 8 ∨ off % 0x100 = 0xC ∨ 0x80 ≤ off % 0x100 then okW (s.lcSettingsWrite c (off % 0x100) v)
    else if off % 0x100 = 0x10 ∧ s.rbit (lcReg c 0) 31 then okW s
    else if off % 0x100 = 4 ∧ hw &&& 0x3F ≠ 0 then okW (plain.notify (.loadCell c))
    else okW plain
  | 0x21 => s.efWrite off v hw
  | 0x30 => okW (s.lbWrite m off v hw)
  | 0x31 => okW (s.serWrite m off v hw)
  | 0x32 => okW (s.usbWrite m off v hw)
  | 0x33 => okW (s.gioWrite m off v hw)
  | _ => okW plain

/-! ### Vault registers (14 R414) -/

/-- The command that an OP of GV_CMD names. -/
def vaultOp (v : W32) : Option VaultCmd :=
  match nat v 0 8 with
  | 1 => some .hashInit
  | 2 => some .hashUpdate
  | 3 => some .hashFinal
  | 4 => some (.verify (bits v 16 8))
  | 5 => some .sign
  | 6 => some .auth
  | 7 => some .random
  | _ => none

/-- The vault refuses a master's access: the Hall has every one, DMA GV_IN and GV_OUT. -/
def gvRefuses (m : Master) (off : Nat) : Bool :=
  m != mHall && !(m == mDma && decide (0x1000 ≤ off) && decide (off < 0x2800))

def State.gvRead (s : State) (off : Nat) : W32 :=
  if off = 0xC then s.gvKeystat else if off = 0x10 then s.gvSvn else if off = 0x14 then s.gvFuse else s.reg (gv off)

def State.gvWrite (s : State) (off : Nat) (v hw : W32) : WOut :=
  if off = 0 then
    if nat v 0 8 = 0xF then okW s.vaultAbort
    else if s.vault.cmd.isSome then ((s.setFlag aGVSTAT 29), some 5)
    else match vaultOp v with
      | some c => okW (s.vaultStart c)
      | none => okW (s.setFlag aGVSTAT 29)
  else if s.vault.cmd.isSome ∧ (off = 8 ∨ (0x1000 ≤ off ∧ off < 0x2800)) then (s.setFlag aGVSTAT 29, some 5)
  else okW (s.plainWrite (gv off) v hw)

/-! ### Any register -/

/-- A master may access tile apertures and station registers (01 R29). -/
def apertureMaster (m : Master) : Bool := m == mHall || m == mDma

/-- The aperture of a tile is closed during a column repair (01 R21). -/
def State.apertureClosed (s : State) (st : Stn) (t : TileNo) : Bool :=
  (s.stn st).closed.any fun c => c.val == t.val / 5

/-- An aligned 32-bit read at a mapped address that holds no memory: the state, the error code if any, and the word. -/
def State.regRead (s : State) (m : Master) (a : Nat) : State × Option MxCode × W32 :=
  if a < 0x0200000000 then
    let st : Stn := Fin.ofNat 4 ((a - 0x0100000000) / 0x10000000)
    let o := a % 0x10000000
    if !apertureMaster m then (s, some 1, 0)
    else if o < 0xC000000 then
      let t : TileNo := Fin.ofNat 40 ((o - 0x8000000) / 0x40000)
      if s.apertureClosed st t then (s, some 5, 0) else (s, none, s.tileRegRead st t (o % 0x10000))
    else
      let x := s.stnRegRead st (o % 0x10000)
      (x.1, none, x.2)
  else if a < 0x0210000000 then
    let blk := (a - 0x0200000000) / 0x10000
    if s.blkRefuses m blk (a % 0x10000) false then (s, some 1, 0)
    else
      let x := s.blkRead m blk (a % 0x10000)
      (x.1, none, x.2)
  else if gvRefuses m (a % 0x10000) then (s, some 1, 0)
  else if !s.vaultOn then (s, some 5, 0)
  else (s, none, s.gvRead (a % 0x10000))

/-- A write at a register's address by a master that its block or station accepts or refuses; `r` is the state that notes a 1 written
to a reserved bit. -/
def State.regStore (s r : State) (m : Master) (a : Nat) (v hw : W32) : WOut :=
  if a < 0x0200000000 then
    let st : Stn := Fin.ofNat 4 ((a - 0x0100000000) / 0x10000000)
    let o := a % 0x10000000
    if !apertureMaster m then refusedW s
    else if o < 0xC000000 then
      let t : TileNo := Fin.ofNat 40 ((o - 0x8000000) / 0x40000)
      if s.apertureClosed st t then stateW s else r.tileRegWrite m st t (o % 0x10000) v hw
    else r.stnRegWrite m st (o % 0x10000) v hw
  else if a < 0x0210000000 then
    let blk := (a - 0x0200000000) / 0x10000
    if s.blkRefuses m blk (a % 0x10000) true then refusedW s
    else (if s.blkDead blk (a % 0x10000) then s else r).blkWrite m blk (a % 0x10000) v hw
  else if gvRefuses m (a % 0x10000) then refusedW s
  else if !s.vaultOn then stateW s
  else r.gvWrite (a % 0x10000) v hw

/-- An aligned 32-bit write at a mapped address that holds no memory. A 1 written to a reserved bit of a register that takes the write
has no defined effect (00 R9); in a reset no register is written (16 R443). -/
def State.regWrite (s : State) (m : Master) (a : Nat) (v hw : W32) : WOut :=
  if s.inReset then okW s else
  let x := s.regStore (s.reserved a v) m a v hw
  if x.2.isSome then ({ x.1 with undef := s.undef }, x.2) else x

end Sys2Proof.Machine
end

