-- ==== Sys2Proof/Machine/Matrix.lean ====
section
/-! DEFINITION. Pieces of matrix requests as their targets perform them (01 R26 to R29; 08 R229 to R232; 11 R305, R306, R309 to
R311, R313). -/

namespace Sys2Proof.Machine

/-- An address is mapped at a grant: the low window under the remap bit, LP5 memory under the capacity presented (01 R26, R27;
11 R313). -/
def State.mapped (s : State) (a : Nat) : Bool :=
  match s.targetOf a with
  | none => false
  | some g =>
    if g.val = 0 then !(decide (a < 0x100000)) || s.rbit (mxReg 0) 0 || decide (a < 0x40000)
    else if g.val = 1 ∨ g.val = 2 then (s.memPlace a).isSome
    else true

/-- A mapped address in the Cellar (01 R26). -/
def State.inCellar (s : State) (a : Nat) : Bool :=
  (decide (a < 0x100000) && !s.rbit (mxReg 0) 0) || (decide (0x20000000 ≤ a) && decide (a < 0x20040000))

/-- An address in the station target that is no station memory: apertures and station registers. -/
def inAperture (a : Nat) : Bool :=
  decide (0x0100000000 ≤ a) && decide (a < 0x0140000000) && decide (0x1000000 ≤ a % 0x10000000)

/-- An address in the instruction memory part of an aperture. -/
def inInsnMem (a : Nat) : Bool :=
  inAperture a && decide (a % 0x10000000 < 0xC000000) && decide (0x20000 ≤ a % 0x40000) && decide (a % 0x40000 < 0x30000)

/-- The target refuses a master, peripheral registers and the vault apart (11 R305). -/
def masterRefused (m : Master) (g : Target) (a : Nat) : Bool :=
  let qe := (qeOf m).isSome
  if g.val = 0 then qe || m == mCamera
  else if g.val = 1 ∨ g.val = 2 then false
  else if 3 ≤ g.val ∧ g.val ≤ 6 then (if inAperture a then !apertureMaster m else qe)
  else m == mCamera

/-- The station and tile of an aperture address. -/
def apertureTile (a : Nat) : Stn × TileNo :=
  (Fin.ofNat 4 ((a - 0x0100000000) / 0x10000000), Fin.ofNat 40 ((a % 0x10000000 - 0x8000000) / 0x40000))

/-- The 32-bit words of a beat with some byte enabled, and whether every one of them is enabled whole. -/
def maskQuads (mask : W64) : List Nat := (List.range 16).filter fun i => nat mask (4 * i) 4 ≠ 0
def quadsWhole (mask : W64) : Bool := (maskQuads mask).all fun i => nat mask (4 * i) 4 == 15

/-- A beat's effect: the state, the error code if it failed, and the data read. -/
abbrev BeatOut := State × Option MxCode × BitVec 512

/-- A beat that fails: nothing changed and zero read (11 R309). -/
def beatFail (s : State) (c : MxCode) : BeatOut := (s, some c, 0)

def beatOfQuad (i : Nat) (v : W32) : BitVec 512 := BitVec.ofNat 512 (v.toNat * 2 ^ (32 * i))

/-- One aligned 32-bit access: word i of the beat at a. -/
def State.regBeat (s : State) (m : Master) (write : Bool) (a i : Nat) (d : BitVec 512) : BeatOut :=
  if write then
    let x := s.regWrite m (a + 4 * i) (bits d (32 * i) 32) 0
    (x.1, x.2, 0)
  else
    let x := s.regRead m (a + 4 * i)
    (x.1, x.2.1, beatOfQuad i x.2.2)

/-- A register beat: a one-beat request that enables exactly four bytes, aligned (01 R29, R30; 11 R306). A peripheral that is silent
for 256 CLK_P cycles fails it (11 R309). -/
def State.regForm (s : State) (m : Master) (write one : Bool) (a : Nat) (b : Beat) (silent : Bool) : BeatOut :=
  match maskQuads b.mask with
  | [i] =>
    if blkFirst s m write a i then beatFail s 1
    else if !one || !quadsWhole b.mask then beatFail s 4
    else if silent && !inAperture a then beatFail s 6
    else s.regBeat m write a i b.data
  | i :: _ => if blkFirst s m write a i then beatFail s 1 else beatFail s 4
  | [] => beatFail s 4
where
  /-- A peripheral block refuses the master before the form is looked at. -/
  blkFirst (s : State) (m : Master) (write : Bool) (a i : Nat) : Bool :=
    !inAperture a && s.blkRefuses m ((a - 0x0200000000) / 0x10000) ((a + 4 * i) % 0x10000) write

/-- Words of the vault one after another (14 R414). -/
def State.vaultWords (s : State) (m : Master) (write : Bool) (a : Nat) (d : BitVec 512) : List Nat → BeatOut
  | [] => (s, none, 0)
  | i :: is =>
    let x := s.regBeat m write a i d
    match x.2.1 with
    | some c => beatFail x.1 c
    | none =>
      let y := x.1.vaultWords m write a d is
      (y.1, y.2.1, x.2.2 ||| y.2.2)

/-- A beat at the vault. A write that fails changes no register but CMDERR. -/
def State.vaultBeat (s : State) (m : Master) (write : Bool) (a : Nat) (b : Beat) : BeatOut :=
  let qs := maskQuads b.mask
  if qs.any fun i => gvRefuses m ((a + 4 * i) % 0x10000) then beatFail s 1
  else if !quadsWhole b.mask then beatFail s 4
  else
    let x := s.vaultWords m write a b.data qs
    match x.2.1 with
    | none => x
    | some c => if c = 5 ∧ s.vaultOn then beatFail (s.setFlag aGVSTAT 29) 5 else beatFail s c

/-- A read of the Cellar (01 R26). -/
def cellarBeat (a : Nat) (mask : W64) : BitVec 512 :=
  bytesBeat ((List.range 64).map fun i => if bit mask i then Config.cellarByte ((a + i) % 0x40000) else 0)

/-- A beat at instruction memory, which is open while the tile is stopped (01 R29). -/
def State.insnBeat (s : State) (write : Bool) (a : Nat) (b : Beat) : BeatOut :=
  let x := apertureTile a
  if !(s.tile x.1 x.2).isStopped then beatFail s 5
  else if write then
    ((List.range 64).foldl (fun s i => if bit b.mask i then s.setByte (a + i) (bits b.data (8 * i) 8) else s) s, none, 0)
  else (s, none, bytesBeat ((List.range 64).map fun i => if bit b.mask i then s.byte (a + i) else 0))

/-- An atomic at a bank: the old value is delivered (08 R230, R245; 11 R306). -/
def State.atomicBeat (s : State) (mem : FaultMem) (p : Nat) (word : Fin 8) (new : W64 → W64) : BeatOut :=
  let w := p + 8 * word.val
  match s.memCode mem w with
  | some c => beatFail (s.memOff mem c) c
  | none =>
    if s.checked mem w == .double then beatFail (s.memUe mem w) 3
    else
      let s := if s.checked mem w == .single then s.memCe mem 1 else s
      let old := leBv 64 (s.bytes w 8)
      ((s.setLe w 8 (new old).toNat).setUpset w .none, none, BitVec.ofNat 512 (old.toNat * 2 ^ (64 * word.val)))

/-- Words of a read beat that come out undefined (08 R229). -/
def State.freeWords (s : State) (d : BitVec 512) (ws : List Nat) : State × BitVec 512 :=
  ws.foldl (fun x w => (x.1.useFree 1, put x.2 (64 * w) 64 x.1.free.toNat)) (s, d)

/-- An atomic met by the Hall side's atomic of the word is the later one at Hall SRAM: it is answered busy and performed in the next
bank cycle (08 R229 to R231). -/
def State.atomicMet (s : State) (m : Master) (mem : FaultMem) (p : Nat) (mask : W64) (word : Fin 8) (new : W64 → W64)
    (meet : Option PortMeet) : BeatOut × Bool :=
  let x := s.atomicBeat mem p word new
  if x.2.1.isNone && laterSide m mem && s.meets mem p mask meet == some .atomic then ((x.1.busyMark mem, x.2), true) else (x, false)

/-- A beat at memory, with the access of the bank's other port in the same bank cycle. Against an atomic, and at the later port, a read
is answered busy and reissued and a write is performed and answered busy; a read that is the earlier access returns free words
(08 R229 to R232). The Bool is busy on a write. -/
def State.memBeat (s : State) (m : Master) (op : MxOp) (mem : FaultMem) (p : Nat) (b : Beat) (meet : Option PortMeet) : BeatOut × Bool :=
  match op with
  | .read =>
    let x := s.beatRead mem p b.mask
    if x.2.1.isSome then (x, false)
    else match s.meets mem p b.mask meet with
    | some .atomic => ((x.1.busyMark mem, none, x.2.2), false)
    | some .write =>
      if laterSide m mem then ((x.1.busyMark mem, none, x.2.2), false)
      else
        let y := x.1.freeWords x.2.2 (s.collides mem p b.mask meet)
        ((y.1, none, y.2), false)
    | _ => (x, false)
  | .write =>
    let x := s.writeMet m mem p b.mask b.data meet
    ((x.1.1, x.1.2, 0), x.2)
  | .add w v => s.atomicMet m mem p b.mask w (· + v) meet
  | .swap w v => s.atomicMet m mem p b.mask w (fun _ => v) meet

def opWrites : MxOp → Bool
  | .read => false
  | _ => true

def opAtomic : MxOp → Bool
  | .add .. | .swap .. => true
  | _ => false

/-- An atomic has a target: station memory or Hall SRAM (11 R306). -/
def atomicHere (mem : Option (FaultMem × Nat)) : Bool :=
  match mem with
  | some (.station _, _) | some (.hall, _) => true
  | _ => false

/-- Perform one beat at a mapped 64-byte address; `one` says that the request has no other (11 R305, R306, R309). -/
def State.beat (s : State) (m : Master) (op : MxOp) (one : Bool) (a : Nat) (b : Beat) (around : Around) : BeatOut × Bool :=
  match s.targetOf a with
  | none => ((s, none, 0), false)
  | some g =>
    let mem := s.memPlace a
    if opAtomic op && !apertureMaster m then (beatFail s 1, false)
    else if masterRefused m g a then (beatFail s 1, false)
    else if opAtomic op && !atomicHere mem then (beatFail s 4, false)
    else if s.inCellar a then (if opWrites op then (beatFail s 4, false) else ((s, none, cellarBeat a b.mask), false))
    else if inAperture a && decide (a % 0x10000000 < 0xC000000) && s.apertureClosed (apertureTile a).1 (apertureTile a).2 then
      (beatFail s 5, false)
    else if inInsnMem a then (s.insnBeat (opWrites op) a b, false)
    else match mem with
    | some (mem, p) => s.memBeat m op mem p b around.meet
    | none =>
      if g.val = 8 then (s.vaultBeat m (opWrites op) a b, false)
      else (s.regForm m (opWrites op) one a b around.silent, false)

/-! ### Pieces -/

/-- The lower of two failures, by piece and beat. -/
def firstFail (old : Option (Nat × Nat × MxCode)) (new : Nat × Nat × MxCode) : Option (Nat × Nat × MxCode) :=
  match old with
  | none => some new
  | some o => if new.1 < o.1 ∨ (new.1 = o.1 ∧ new.2.1 < o.2.1) then some new else some o

/-- Note the answer to beat i of piece `part` in its request. -/
def MxOpen.noted (r : MxOpen) (part : MxPart) (i : Nat) (x : BeatOut × Bool) : MxOpen :=
  match x.1.2.1 with
  | some c => { r with err := firstFail r.err (part.idx, i, c), multi := r.multi || r.err.isSome }
  | none => { r with data := r.data.set (part.first + i) x.1.2.2, busy := r.busy || x.2 }

/-- The beats of a piece in ascending order. A piece in unmapped space is a decode error. -/
def State.pieceBeats (s : State) (m : Master) (r : MxOpen) (part : MxPart) (around : Around) : State × MxOpen :=
  let a := r.req.start.toNat + 64 * part.first
  if !s.mapped a then (s.decodeError m a, r)
  else (List.range part.len).foldl (init := (s, r)) fun x i =>
    let b := x.2.req.beats.getD (part.first + i) ⟨0, 0⟩
    let y := x.1.beat m r.req.op (r.req.beats.length == 1) (a + 64 * i) b around
    (y.1.1, x.2.noted part i y)

/-- The piece that a master has waiting first at a target: the request's place, and the piece. A tile's request waits for its earlier
ones, whatever their targets (08 R238). -/
def waitingFrom (g : Target) (seen : List TileNo) : List MxOpen → Option (Nat × MxPart)
  | [] => none
  | r :: rest =>
    let tile := r.origin.toList.map fun o => o.2.tile
    let next := (waitingFrom g (tile ++ seen) rest).map fun x => (x.1 + 1, x.2)
    if tile.any seen.contains then next
    else match r.todo.find? fun p => p.target == g with
    | some p => some (0, p)
    | none => next

def waitingAt (rs : List MxOpen) (g : Target) : Option (Nat × MxPart) := waitingFrom g [] rs

/-- The target of a mapped address. -/
def State.mxTarget (s : State) (a : Nat) : Option Target := if s.mapped a then s.targetOf a else none

/-- The target of a channel's request. -/
def State.dmaReqTarget (s : State) (d : DmaDesc) (r : DmaReq) : Option Target :=
  s.mxTarget (if r.write then d.dstAt r.first else d.srcAt r.first)

/-- The requests of a channel that can be performed next: the oldest, and the oldest of the other kind unless one issued before it waits
at its target (11 R308). -/
def State.dmaReady (s : State) (d : DmaDesc) (reqs : List DmaReq) : List DmaReq :=
  match reqs with
  | [] => []
  | r :: _ =>
    let ahead := reqs.takeWhile fun x => x.write == r.write
    match reqs.find? fun x => x.write != r.write with
    | none => [r]
    | some w => if ahead.any fun x => s.dmaReqTarget d x == s.dmaReqTarget d w then [r] else [r, w]

/-- Targets at which a DMA channel has a piece waiting: a fetch, its requests, a write-back (11 R320, R323). -/
def State.dmaTargets (s : State) (n : Fin 16) : List Target :=
  if s.gated 2 then []
  else match s.dmaState n, s.dma[n].desc with
    | 1, _ => (s.mxTarget (s.dmaCur n)).toList
    | 3, some d => (s.dmaReady d s.dma[n].reqs).filterMap (s.dmaReqTarget d)
    | 4, _ => (s.mxTarget (s.dmaCur n)).toList
    | _, _ => []

/-- A context has a write waiting, or SEQ_END of its oldest slot; at which targets (09 R261). A gated block writes nothing (16 R440). -/
def State.camTargets (s : State) (st : Stn) (k : Fin 8) : List Target :=
  (s.camAddrs st k).filterMap s.mxTarget

/-- The station whose ingest block the camera port serves: of those with a write waiting, the one whose line FIFO is fullest, ties in
ascending order (11 R304). -/
def State.camServed (s : State) : Option Stn :=
  let sts := (List.finRange 4).filter fun st => (List.finRange 8).any fun k => !(s.camAddrs st k).isEmpty
  let most := sts.foldl (fun n st => max n (s.stn st).fullest) 0
  sts.find? fun st => (s.stn st).fullest == most

/-- A master has a piece waiting at a target. -/
def State.mxWaits (s : State) (m : Master) (g : Target) : Bool :=
  (waitingAt s.mxOpen[m] g).isSome ||
  (m == mDma && (List.finRange 16).any fun n => (s.dmaTargets n).contains g) ||
  (m == mCamera && s.camServed.any fun st => (List.finRange 8).any fun k => (s.camTargets st k).contains g)

/-- Priority of a master at a target (11 R311, R315). -/
def State.mxPri (s : State) (m : Master) (g : Target) : Nat :=
  s.fld (mxReg (0x100 + 8 * m.val + 4 * (g.val / 8))) (4 * (g.val % 8)) 4

/-- Of some masters in ascending order, the one granted a target: the highest priority, round robin among equals (11 R311). -/
def State.mxPick (s : State) (g : Target) (ms : List Master) : Option (Master × Nat) :=
  let best := ms.foldl (fun p m => max p (s.mxPri m g)) 0
  let eq := ms.filter fun m => s.mxPri m g == best
  let next := match s.mxLast.lookup (16 * g.val + best) with
    | none => none
    | some l => eq.find? fun (x : Master) => decide (l < x.val)
  (next.or eq.head?).map fun m => (m, best)

/-- The master granted, of those with a piece waiting. -/
def State.mxGrant (s : State) (g : Target) : Option (Master × Nat) :=
  s.mxPick g ((List.finRange 9).filter fun m => s.mxWaits m g)

/-- It is a master's turn at the target of an address; an unmapped one has no target (11 R310, R311). -/
def State.mxTurn (s : State) (m : Master) (a : Nat) : Bool :=
  match s.mxTarget a with
  | none => true
  | some g => (s.mxGrant g).any fun x => x.1 == m

/-- The grant at the target of an address goes to a master. -/
def State.mxTake (s : State) (m : Master) (a : Nat) : State :=
  match s.mxTarget a with
  | none => s
  | some g => { s with mxLast := smInsert s.mxLast (16 * g.val + s.mxPri m g) m.val }

/-- The camera port serves a station's write at an address, and its target grants the port (11 R304, R311). -/
def State.camGrant (s : State) (st : Stn) (a : Nat) : Bool := s.camServed == some st && s.mxTurn mCamera a

/-- INGEST_WRITE: the oldest waiting write of a context is performed (09 R261). -/
def State.ingestGranted (s : State) (st : Stn) (k : Fin 8) (around : Around) : State :=
  match s.camNext st k with
  | none => s
  | some a => if s.camGrant st a then (s.mxTake mCamera a).ingestWrite st k around else s

/-- SLOT_COMPLETE: SEQ_END of the oldest slot is written (09 R261). -/
def State.slotGranted (s : State) (st : Stn) (k : Fin 8) (around : Around) : State :=
  match s.camEnd st k with
  | none => s
  | some a => if s.camGrant st a then (s.mxTake mCamera a).slotComplete st k around else s

/-- Request i of a master once its piece is done: it waits for its other pieces, or it is answered (11 R309). -/
def State.mxReplace (s : State) (m : Master) (i : Nat) (r : MxOpen) : State :=
  if r.todo.isEmpty then { s with mxOpen := s.mxOpen.set m (s.mxOpen[m].eraseIdx i) }.mxAnswer m r
  else { s with mxOpen := s.mxOpen.set m (s.mxOpen[m].set i r) }

/-- The piece that a granted master has waiting first at a target is performed. -/
def State.mxPerform (s : State) (g : Target) (m : Master) (around : Around) : State :=
  match waitingAt s.mxOpen[m] g with
  | none => s
  | some (i, part) =>
    match s.mxOpen[m][i]? with
    | none => s
    | some r =>
      let s := { s with mxLast := smInsert s.mxLast (16 * g.val + s.mxPri m g) m.val }
      let x := s.pieceBeats m { r with todo := r.todo.erase part } part around
      x.1.mxReplace m i x.2

/-- MATRIX_PIECE: the target grants a waiting piece and performs it. A grant to a DMA channel or to camera ingest is taken by the
command of its access. -/
def State.matrixPiece (s : State) (g : Target) (around : Around) : State :=
  match s.mxGrant g with
  | none => s
  | some (m, _) => s.mxPerform g m around

/-- REMAP: a write of MX_CTRL (11 R313). A master that the block refuses changes nothing. -/
def State.remap (s : State) (m : Master) (v : W32) : State := (s.regWrite m (mxReg 0) v 0).1

/-- REGISTER_WRITE: an aligned 32-bit write at a register's address, with the flags that the hardware sets in the same cycle. -/
def State.registerWrite (s : State) (m : Master) (a : Nat) (v hw : W32) : State :=
  match s.targetOf a with
  | none => s.decodeError m (a / 64 * 64)
  | some _ => if a % 4 = 0 ∧ (regInfo a).isSome then (s.regWrite m a v hw).1 else s

end Sys2Proof.Machine
end

