-- ==== Sys2Proof/Machine/Dma.lean ====
section
/-! DEFINITION. DMA channels at work: fetch, release, transfer, write-back and hand-over (spec 11 R320 to R328). -/

namespace Sys2Proof.Machine

/-- One beat of the DMA engine at an address of any kind: a decode error reads as zero and is no failure; it is one for each piece, and
`first` says that the beat begins one (11 R310, R323). -/
def State.dmaBeat (s : State) (op : MxOp) (a : Nat) (b : Beat) (around : Around) (first : Bool) : BeatOut :=
  if s.mapped a then (s.beat mDma op true a b around).1 else (if first then s.decodeError mDma a else s, none, 0)

/-- An error of the channel: ERR with DMA_ERR, and the notice when it is enabled (11 R325, R327). -/
def State.dmaError (s : State) (n : Fin 16) : State :=
  let s := (s.setFlag (dmaReg n 8) 1).setFlag (devReg 2 4) n.val
  if s.rbit (devReg 2 8) (16 + n.val) then s.notify (.dmaErr n) else s

/-- A fetch or write-back that receives an ERR response stops the channel (11 R327). -/
def State.dmaStopErr (s : State) (n : Fin 16) : State :=
  (((s.setDmaState n 5).setFlag (dmaReg n 8) 2).dmaError n).modDma n fun _ => {}

/-- DMA_DESCRIPTOR_FETCH: the 32 bytes at CUR arrive, once the target has granted the read (11 R311, R323 steps 1 to 3). -/
def State.dmaFetch (s : State) (n : Fin 16) (around : Around) : State :=
  let a := s.dmaCur n
  let off := a % 64
  if s.dmaState n ≠ 1 ∨ s.gated 2 ∨ !s.mxTurn mDma (a - off) then s
  else
    let x := (s.mxTake mDma (a - off)).dmaBeat .read (a - off) ⟨BitVec.ofNat 64 ((2 ^ 32 - 1) * 2 ^ off), 0⟩ around true
    let w := fun i => bits x.2.2 (8 * off + 64 * i) 64
    let d : DmaDesc := ⟨w 0, w 1, w 2⟩
    if x.2.1.isSome then x.1.dmaStopErr n
    else if !bit (w 3) 63 then (x.1.setDmaState n 0).setFlag (dmaReg n 8) 3
    else
      let s := x.1.setDmaCount n d.count
      if !d.valid then (s.setDmaState n 4).modDma n fun _ => { desc := some d, fail := some (0, 15) }
      else (s.setDmaState n (if s.fld (dmaReg n 4) 6 2 = 0 then 3 else 2)).modDma n fun _ => { desc := some d }

/-- Beats i to the one before `last` as requests to read: of up to 16 beats in one burst (11 R321). -/
def DmaDesc.cut (d : DmaDesc) (i : Nat) : Nat → List DmaReq
  | 0 => []
  | n + 1 =>
    let rest := d.cut (i + 1) n
    match rest with
    | r :: rs =>
      if d.oneBurst i r.first && decide (r.beats.length < 16) then { r with beats := (i, 0) :: r.beats } :: rs
      else ⟨false, [(i, 0)]⟩ :: rest
    | [] => [⟨false, [(i, 0)]⟩]

/-- Reads are issued while fewer than 16 beats are in flight; the count falls by one for each (11 R323 step 4). -/
def State.dmaIssue (s : State) (n : Fin 16) (d : DmaDesc) : State :=
  let D := s.dma[n]
  let i := min d.count (D.done + 16)
  (s.setDmaCount n (d.count - i)).modDma n fun D => { D with issued := i, reqs := D.reqs ++ d.cut D.issued (i - D.issued) }

/-- DMA_TRANSFER_START: a released descriptor takes one from PEND and begins (11 R323 steps 3 and 4). -/
def State.dmaBegin (s : State) (n : Fin 16) : State :=
  match s.dma[n].desc with
  | none => s
  | some d =>
    let p := s.fld (dmaReg n 8) 24 4
    if s.gated 2 then s
    else if s.dmaState n = 2 ∧ p ≠ 0 then ((s.setFld (dmaReg n 8) 24 4 (p - 1)).setDmaState n 3).dmaIssue n d
    else if s.dmaState n = 3 ∧ !s.dma[n].halted ∧ s.dma[n].fail.isNone then s.dmaIssue n d
    else s

/-- Byte enables of the bytes that a beat moves at an address. -/
def DmaDesc.lanes (d : DmaDesc) (a : Nat) : W64 := if d.wide then BitVec.allOnes 64 else BitVec.ofNat 64 (15 * 2 ^ (a % 64))

/-- A beat of a request is performed: an error code if it failed, and the data read. -/
def State.dmaMove (s : State) (d : DmaDesc) (r : DmaReq) (b : Nat × BitVec 512) (around : Around) : BeatOut :=
  let a := if r.write then d.dstAt b.1 else d.srcAt b.1
  let data : BitVec 512 := if r.write then BitVec.ofNat 512 (b.2.toNat * 2 ^ (8 * (a % 64))) else 0
  let x := s.dmaBeat (if r.write then .write else .read) (a / 64 * 64) ⟨d.lanes a, data⟩ around (b.1 == r.first)
  (x.1, x.2.1, BitVec.ofNat 512 (nat x.2.2 (8 * (a % 64)) (8 * d.size)))

/-- The lower of a failure and one known. -/
def lowerFail (old : Option (Nat × BitVec 4)) (i : Nat) (code : BitVec 4) : Option (Nat × BitVec 4) :=
  match old with
  | none => some (i, code)
  | some o => if i < o.1 then some (i, code) else old

/-- What a request comes to: the lowest failure known, whether a beat of its own failed, and the beats that a read passes on with
their data. -/
structure DmaDone where
  fail : Option (Nat × BitVec 4)
  bad : Bool
  got : List (Nat × BitVec 512)
  deriving DecidableEq, Repr

/-- The beats of a request in ascending order. A beat above a failed one known before may or may not be performed, as a free value
tells; a failed read passes none of its later beats on (11 R325). -/
def State.dmaPerform (s : State) (d : DmaDesc) (r : DmaReq) (known : Option (Nat × BitVec 4)) (around : Around) : State × DmaDone :=
  let s := if known.isSome then s.useFree 1 else s
  r.beats.foldl (init := (s, ⟨known, false, []⟩)) fun x b =>
    if known.any (fun k => decide (k.1 < b.1)) && bit s.free (b.1 % 16) then x
    else
      let y := x.1.dmaMove d r b around
      match y.2.1 with
      | some c => (y.1, { x.2 with fail := lowerFail x.2.fail b.1 ((if r.write then 8 else 0) + c.setWidth 4), bad := true })
      | none => (y.1, if x.2.bad then x.2 else { x.2 with got := x.2.got ++ [(b.1, y.2.2)] })

/-- A request is answered: a read that brought data goes on as a write. -/
def DmaChan.answered (D : DmaChan) (r : DmaReq) (x : DmaDone) (count : Nat) : DmaChan :=
  let write : List DmaReq := if r.write || x.got.isEmpty then [] else [⟨true, x.got⟩]
  let ended := if r.write then r.beats.length else r.beats.length - x.got.length
  { D with
    done := D.done + ended, reqs := D.reqs.erase r ++ write, fail := x.fail
    tail := if D.fail.isNone && x.fail.isSome then decide (count = 0) else D.tail }

/-- Once its beats in flight are answered, a channel that has been stopped is idle, with CUR and COUNT as they stand (11 R327), and
one whose descriptor has ended goes to its write-back (11 R323 step 5, R325). -/
def State.dmaSettle (s : State) (n : Fin 16) (d : DmaDesc) : State :=
  let D := s.dma[n]
  if D.done < D.issued then s
  else if D.halted then (s.setDmaState n 0).modDma n fun _ => {}
  else if D.fail.isSome || D.done == d.count then s.setDmaState n 4
  else s

/-- A channel performs a request at its target, and issues what may then be in flight. -/
def State.dmaStep (s : State) (n : Fin 16) (d : DmaDesc) (r : DmaReq) (around : Around) : State :=
  let x := (s.mxTake mDma (if r.write then d.dstAt r.first else d.srcAt r.first)).dmaPerform d r s.dma[n].fail around
  let s1 := x.1.modDma n fun D => D.answered r x.2 (x.1.dmaCount n)
  let D := s1.dma[n]
  (if D.fail.isSome || D.halted then s1 else s1.dmaIssue n d).dmaSettle n d

/-- DMA_BEAT_RESPONSE: the target of a request in flight grants it, performs it and answers (11 R311, R323 step 4, R325, R326). -/
def State.dmaResponse (s : State) (n : Fin 16) (around : Around) : State :=
  match s.dma[n].desc with
  | none => s
  | some d =>
    if s.dmaState n ≠ 3 ∨ s.gated 2 then s
    else match (s.dmaReady d s.dma[n].reqs).find? fun r => s.mxTurn mDma (if r.write then d.dstAt r.first else d.srcAt r.first) with
      | none => s
      | some r => s.dmaStep n d r around

/-- STAT as the channel writes it back (11 R322, R323 step 2, R325, R326). -/
def dmaStat (D : DmaChan) (count : Nat) : W64 :=
  match D.fail with
  | none => BitVec.ofNat 64 (2 ^ 62)
  | some (i, code) => BitVec.ofNat 64 (2 ^ 61 + D.tail.toNat * 2 ^ 60 + code.toNat * 2 ^ 56 + i * 2 ^ 24 + count)

/-- The write-back: an atomic swap in station memory and Hall SRAM, a plain write elsewhere (11 R322). -/
def State.dmaStatWrite (s : State) (n : Fin 16) (v : W64) (around : Around) : BeatOut :=
  let a := s.dmaCur n + 0x18
  let i := a % 64 / 8
  if atomicHere (s.memPlace (a / 64 * 64)) then s.dmaBeat (.swap (Fin.ofNat 8 i) v) (a / 64 * 64) ⟨BitVec.ofNat 64 (255 * 2 ^ (8 * i)), 0⟩ around true
  else s.dmaBeat .write (a / 64 * 64) ⟨BitVec.ofNat 64 (255 * 2 ^ (8 * i)), BitVec.ofNat 512 (v.toNat * 2 ^ (64 * i))⟩ around true

/-- What the end of a descriptor raises: an error, or an end-of-count if the descriptor asks for it (11 R323, R325, R326). -/
def State.dmaEnd (s : State) (n : Fin 16) (d : DmaDesc) (bad : Bool) : State :=
  if bad then s.dmaError n
  else if d.ieoc then
    let s := (s.setFlag (dmaReg n 8) 0).setFlag (devReg 2 0) n.val
    if s.rbit (devReg 2 8) n.val then s.notify (.dmaEoc n) else s
  else s

/-- The hand-over after a write-back; `shv` is the shadow's valid bit at the start of the cycle (11 R328). -/
def State.dmaHandover (s : State) (n : Fin 16) (d : DmaDesc) (shv : Bool) : State :=
  if s.dma[n].halted then (s.setDmaState n 0).modDma n fun _ => {}
  else if shv then s.takeShadow n
  else if d.last then (s.setDmaState n 0).modDma n fun _ => {}
  else ((s.setDmaCur n d.next).setDmaState n 1).modDma n fun _ => {}

/-- DMA_WRITEBACK: STAT is written back and answered, and a hand-over follows. -/
def State.dmaWriteback (s : State) (n : Fin 16) (shv : Bool) (around : Around) : State :=
  match s.dma[n].desc with
  | none => s
  | some d =>
    if s.dmaState n ≠ 4 ∨ s.gated 2 ∨ !s.mxTurn mDma (s.dmaCur n) then s
    else
      let x := (s.mxTake mDma (s.dmaCur n)).dmaStatWrite n (dmaStat s.dma[n] (s.dmaCount n)) around
      if x.2.1.isSome then x.1.dmaStopErr n
      else ((x.1.dmaEnd n d s.dma[n].fail.isSome).dmaRelease 2 n.val (some n)).dmaHandover n d shv

/-- DMA_SHADOW_WRITE (11 R328): with `handover`, a hand-over of the channel falls in the same cycle; it sees SHV as the cycle began,
and a cancel that meets the hand-over taking the shadow has no effect. -/
def State.dmaShadowWrite (s : State) (n : Fin 16) (hi : Bool) (v : W32) (handover : Option Around) : State :=
  if s.gated 2 then s
  else
    let was := s.rbit (dmaReg n 0x1C) 31
    match handover with
    | none => s.shadowStore n hi v was
    | some around =>
      if was then
        let t := if s.dmaState n = 4 then s.dmaWriteback n true around else s.idleHandover n
        if t.rbit (dmaReg n 0x1C) 31 then t.shadowStore n hi v true else t
      else
        let t := if s.dmaState n = 4 then s.dmaWriteback n false around else s
        t.shadowStore n hi v false

/-! ### Accesses of masters that do not wait (11 R308, R311) -/

/-- Pieces that wait at a target. -/
def State.mxPieces (s : State) (g : Target) : Nat :=
  (s.mxOpen.toList.map fun rs => (rs.map fun r => r.todo.countP fun p => p.target == g).sum).sum +
  ((List.finRange 16).map fun n => (s.dmaTargets n).length + s.dma[n].reqs.length).sum +
  ((List.finRange 4).map fun st => ((List.finRange 8).map fun k => (s.ctx st k).writes.length + (s.ctx st k).slots.length).sum).sum

/-- The piece of a granted master that its target performs next, with nothing around it. -/
def State.mxServe (s : State) (g : Target) (m : Master) : State :=
  if (waitingAt s.mxOpen[m] g).isSome then s.mxPerform g m {}
  else if m = mDma then
    match (List.finRange 16).find? fun n => (s.dmaTargets n).contains g with
    | none => s
    | some n =>
      match s.dmaState n with
      | 1 => s.dmaFetch n {}
      | 3 => s.dmaResponse n {}
      | _ => s.dmaWriteback n (s.rbit (dmaReg n 0x1C) 31) {}
  else
    match s.camServed with
    | none => s
    | some st =>
      match (List.finRange 8).find? fun k => (s.camTargets st k).contains g with
      | none => s
      | some k => if (s.camNext st k).bind s.mxTarget = some g then s.ingestGranted st k {} else s.slotGranted st k {}

/-- Pieces that a target grants before the access of one more master, at most n of them: those of masters that go before it, and its own
that were issued earlier unless the access is to go `first` within its port. -/
def State.mxAhead (s : State) (g : Target) (m : Master) (first : Bool) : Nat → State
  | 0 => s
  | n + 1 =>
    match s.mxPick g ((List.finRange 9).filter fun x => x == m || s.mxWaits x g) with
    | none => s
    | some (x, _) => if x = m ∧ (first || !s.mxWaits m g) then s else (s.mxServe g x).mxAhead g m first n

/-- An access that a master makes at once takes its grant, after the pieces that the target grants first (11 R311, log entry 106). -/
def State.mxEnter (s : State) (m : Master) (a : Nat) (first : Bool := false) : State :=
  match s.mxTarget a with
  | none => s
  | some g => (s.mxAhead g m first (s.mxPieces g)).mxTake m a

/-- An access of the Hall's firmware to n bytes takes the grants of its pieces. -/
def State.fwEnter (s : State) (a n : Nat) : State :=
  (List.range ((a + n + 1023) / 1024 - a / 1024)).foldl (fun s i => s.mxEnter mHall (max a ((a / 1024 + i) * 1024))) s

/-- A register write of the channel, ignored while the block is gated (16 R440). -/
def State.dmaGateOn (s : State) (f : State → State) : State := if s.gated 2 then s else f s

end Sys2Proof.Machine
end

