-- ==== Sys2Proof/Machine/Links.lean ====
section
/-! DEFINITION. Chain links: DATA frames, acknowledgement, link state, wrap, delay measurement, and the paths of packets that leave the
device (spec 12 R332 to R336, R349, R359, R362, R364). Port 0 is UP, port 1 DOWN. -/

namespace Sys2Proof.Machine

def otherPort (p : Fin 2) : Fin 2 := if p = 0 then 1 else 0
def State.modLink (s : State) (p : Fin 2) (f : ChainLink → ChainLink) : State := { s with links := s.links.set p (f s.links[p]) }
def State.modPcie (s : State) (f : Pcie → Pcie) : State := { s with pcie := f s.pcie }

/-- The link of a port is up; the port is wrapped (12 R366). -/
def State.linkIsUp (s : State) (p : Fin 2) : Bool := s.rbit (linkReg p 0) 31
def State.wrapped (s : State) (p : Fin 2) : Bool := s.rbit (chReg 4) (8 + p.val)

/-- The device's address, if one is assigned (12 R342). -/
def State.chAddr (s : State) : Option Byte :=
  if s.rbit (chReg 8) 31 then some (BitVec.ofNat 8 (s.fld (chReg 8) 0 6)) else none

/-! ### Flags of a packet (12 R338) -/

def Pkt.reply (k : Packet) : Bool := bit k.flags 0
def Pkt.multi (k : Packet) : Bool := bit k.flags 1
def Pkt.isWrapped (k : Packet) : Bool := bit k.flags 2
def Pkt.event (k : Packet) : Bool := bit k.flags 3

/-! ### Link frames (12 R332, R337) -/

/-- A packet as bytes: its 16-byte header and its parameters. -/
def packetBytes (k : Packet) : List Byte :=
  [k.dst, k.src, k.flags, k.opcode] ++ leBytes 2 k.seq.toNat ++ leBytes 4 k.role.toNat ++ [k.stn] ++ leBytes 2 k.params.length ++
    leBytes 3 k.rsv.toNat ++ k.params

/-- PLEN of a packet's bytes, and the packet. -/
def packetPlen (b : List Byte) : Nat := leNat (slice b 11 2)
def packetOf (b : List Byte) : Packet :=
  ⟨b.getD 0 0, b.getD 1 0, b.getD 2 0, b.getD 3 0, leBv 16 (slice b 4 2), leBv 32 (slice b 6 4), b.getD 10 0, leBv 24 (slice b 13 3),
    b.drop 16⟩

/-- The bytes of a frame that its FCS covers. -/
def frameCovered (f : LinkFrame) : List Byte :=
  [f.type, f.dir] ++ leBytes 2 f.lseq.toNat ++ leBytes 2 f.aseq.toNat ++ leBytes 2 f.len.toNat ++ f.body
def frameFcsOk (f : LinkFrame) : Bool := f.fcs == crc32 (frameCovered f)
/-- Bytes of a frame on the line. -/
def frameSize (f : LinkFrame) : Nat := 12 + f.body.length

/-- A frame with its FCS. -/
def sealFrame (f : LinkFrame) : LinkFrame := { f with fcs := crc32 (frameCovered f) }

/-- A DATA frame as a port sends it: what leaves on DOWN travels in the primary direction. -/
def dataFrame (p : Fin 2) (lseq : BitVec 12) (k : Packet) : LinkFrame :=
  sealFrame ⟨1, if p = 0 then 1 else 0, lseq.setWidth 16, 0, BitVec.ofNat 16 (16 + k.params.length), packetBytes k, 0⟩

/-- Any other frame: its TYPE, ASEQ and the 8 bytes of a probe. -/
def ctlFrame (type : Byte) (aseq : W16) (body : List Byte) : LinkFrame := sealFrame ⟨type, 0, 0, aseq, 0, body, 0⟩

/-! ### Retry buffer (12 R333) -/

/-- A frame fits the retry buffer: 64 KiB, 2048 frames. -/
def ChainLink.room (L : ChainLink) (k : Packet) : Bool :=
  decide (L.unacked.length < 2048) && decide ((L.unacked.map frameSize).sum + 28 + k.params.length ≤ 65536)

/-- Send the packets that wait at port p, oldest first, while they fit. -/
def ChainLink.sendAll (L : ChainLink) (p : Fin 2) : List Packet → ChainLink
  | [] => { L with waiting := [] }
  | k :: ks =>
    if L.room k then ChainLink.sendAll { L with unacked := L.unacked ++ [dataFrame p L.txSeq k], txSeq := L.txSeq + 1 } p ks
    else { L with waiting := k :: ks }

/-- A packet is transmitted on a port, or waits there. -/
def State.linkSend (s : State) (p : Fin 2) (k : Packet) : State :=
  s.modLink p fun L => if s.linkIsUp p then L.sendAll p (L.waiting ++ [k]) else { L with waiting := L.waiting ++ [k] }

/-- A packet that leaves at a port; a wrapped port turns it (12 R335). -/
def State.leave (s : State) (p : Fin 2) (k : Packet) : State :=
  if s.wrapped p then s.linkSend (otherPort p) { k with flags := k.flags ||| 4 } else s.linkSend p k

/-- Pass on a packet that arrived at a port (12 R330). -/
def State.forward (s : State) (p : Fin 2) (k : Packet) : State := s.leave (otherPort p) k

/-! ### Packets for the host computer (12 R362 to R364) -/

/-- An MSI-X vector is signalled: its message is sent, or, where the function or the vector is masked, its pending bit is set. -/
def State.msixRaise (s : State) (v : Fin 4) : State :=
  let c := s.pcie.cfg
  let e := pciReg (0x8000 + 16 * v.val)
  if c.msixOn && !c.msixMask && c.busMaster && !c.d3hot && !s.rbit (e + 12) 0 then
    s.modPcie fun P => { P with msix := P.msix ++ [(v, s.reg (e + 4) ++ s.reg e, s.reg (e + 8))] }
  else s.setFld (pciReg 0x9000) v.val 1 1

/-- Pending vectors that are no longer masked are signalled. -/
def State.msixFlush (s : State) : State :=
  (List.finRange 4).foldl (init := s) fun s v =>
    if s.rbit (pciReg 0x9000) v.val then (s.setFld (pciReg 0x9000) v.val 1 0).msixRaise v else s

/-- The function's accesses to host memory succeed. -/
def State.hostReach (s : State) : Bool := s.pcie.cfg.busMaster && !s.pcie.cfg.d3hot && !s.pcie.cfg.memFails

/-- A host-memory access failed: both rings stop. -/
def State.dmaErrPcie (s : State) : State :=
  ((s.setFlag (pciReg 4) 0).modPcie fun P => { P with cmdStopped := true, rxStopped := true }).msixRaise 3

/-- The receive ring can take a packet: its index. -/
def State.rxSlot (s : State) : Option (BitVec 12) :=
  let n := 2 ^ s.fld (pciReg 0x38) 0 4
  let h := s.fld (pciReg 0x40) 0 12
  if s.rbit (pciReg 0) 1 && !s.pcie.rxStopped && h % n != s.fld (pciReg 0x3C) 0 12 % n then some (BitVec.ofNat 12 h) else none

/-- Packets that wait are written to posted buffers; a write that fails leaves its packet waiting. -/
def State.hostDeliver (s : State) : List Packet → State
  | [] => s.modPcie fun P => { P with rxQueue := [] }
  | k :: ks =>
    match s.rxSlot with
    | none => s.modPcie fun P => { P with rxQueue := k :: ks }
    | some h =>
      if !s.hostReach then (s.modPcie fun P => { P with rxQueue := k :: ks }).dmaErrPcie
      else
        let n := 2 ^ s.fld (pciReg 0x38) 0 4
        (((s.modPcie fun P => { P with written := P.written ++ [(h, k)] }).msixRaise 0).setFld
          (pciReg 0x40) 0 12 ((h.toNat + 1) % n)).hostDeliver ks

def State.hostRx (s : State) (k : Packet) : State := s.hostDeliver (s.pcie.rxQueue ++ [k])

/-- A packet that answers a command which arrived at a port: in the direction of travel, or to the host computer of a head device. -/
def State.sendReply (s : State) (p : Fin 2) (k : Packet) : State :=
  if s.headMode ∧ k.dst = 0xFE then s.hostRx k else s.forward p k

/-- A packet that the device originates: in the primary direction, or to the host computer of a head device. -/
def State.originate (s : State) (k : Packet) : State := s.sendReply 0 k

/-! ### Events (12 R349) -/

/-- STN_ROLE of a station, 0 for the device itself (12 R339, R349). -/
def State.roleOf (s : State) (stn : Byte) : W32 :=
  if stn.toNat < 4 then s.reg (stnReg (Fin.ofNat 4 stn.toNat) 0x190) else 0

/-- EVENT: sent while the firmware runs and the device holds an address (12 R342, R349). -/
def State.hallEvent (s : State) (kind : Nat) (stn : Byte) (data : List Byte) : State :=
  match s.chAddr with
  | none => s
  | some a =>
    if s.hall.run ≠ .firmware then s
    else
      (s.originate ⟨0xFE, a, 8, 0x20, s.hall.events, s.roleOf stn, stn, 0, leBytes 2 kind ++ data⟩).modHall fun H =>
        { H with events := H.events + 1 }

/-! ### Link state and wrap (12 R334, R335) -/

def State.linkChanged (s : State) : State :=
  let s := s.setFlag (chReg 4) 1
  if s.headMode then s.msixRaise 2 else s

/-- LINK_DOWN: the retry buffer is discarded and the port wraps; packets that wait there leave by the other port. A stall needs eight
retransmissions in a row. EVENT LINK is sent as the wrap is applied, and not where the port is still wrapped (12 R335, R349). -/
def State.linkDown (s : State) (p : Fin 2) (why : DownCause) : State :=
  if why = .stalled ∧ s.links[p].retries < 8 then s
  else
    let s := match why with
      | .lockLost => s.setFld (linkReg p 0) 30 1 0
      | .los => s.setFld (linkReg p 0) 28 1 1
      | .stalled => s
    if !s.linkIsUp p then s
    else
      let ks := s.links[p].waiting
      let s := ((s.setFld (linkReg p 0) 31 1 0).setFlag (chReg 4) 3).linkChanged
      let s := s.modLink p fun L => { L with
        unacked := [], waiting := [], retries := 0, nakSent := false, probeT1 := none, probed := false }
      let was := s.wrapped p
      let s := ks.foldl (fun s k => s.leave p k) (s.setFlag (chReg 4) (8 + p.val))
      if was then s else s.hallEvent 2 0xFF [BitVec.ofNat 8 p.val, 0]

/-- LINK_UP: with block lock, no LOS, and a probe exchange completed since the link went down, sequence numbers restart at 0. -/
def State.linkUp (s : State) (p : Fin 2) : State :=
  let a := linkReg p 0
  if s.linkIsUp p || s.portsHeld || !s.rbit a 30 || s.rbit a 28 || !s.links[p].probed then s
  else
    ((s.setFld a 31 1 1).linkChanged).modLink p fun L =>
      { L with txSeq := 0, rxSeq := 0, unacked := [], nakSent := false, retries := 0 }.sendAll p L.waiting

/-- WRAP_REMOVE. -/
def State.wrapRemove (s : State) (p : Fin 2) : State :=
  if s.linkIsUp p ∧ s.wrapped p then (s.setFld (chReg 4) (8 + p.val) 1 0).hallEvent 2 0xFF [BitVec.ofNat 8 p.val, 1] else s

/-! ### Acknowledgement (12 R333) -/

/-- A frame whose FCS fails is counted; another is treated further. A chain port in reset takes none. -/
def State.fcsChecked (s : State) (p : Fin 2) (f : LinkFrame) (g : State → State) : State :=
  if s.portsHeld then s
  else if frameFcsOk f then g s else (s.bump (linkReg p 8) 1).setFlag (chReg 4) 0

/-- LINK_ACK: every frame up to the one named is freed. -/
def State.linkAck (s : State) (p : Fin 2) (f : LinkFrame) : State :=
  s.fcsChecked p f fun s =>
    match s.links[p].unacked.findIdx? fun x => x.lseq == f.aseq with
    | none => s
    | some i => s.modLink p fun L => { L with unacked := L.unacked.drop (i + 1), retries := 0 }.sendAll p L.waiting

/-- A retransmission of frames. -/
def State.linkRetry (s : State) (p : Fin 2) (fs : List LinkFrame) : State :=
  (s.bump (linkReg p 0xC) 1).modLink p fun L => { L with retries := L.retries + 1, resent := fs }

/-- LINK_NAK: the frames from the one named on are sent again. -/
def State.linkNak (s : State) (p : Fin 2) (f : LinkFrame) : State :=
  s.fcsChecked p f fun s =>
    match s.links[p].unacked.dropWhile fun x => x.lseq != f.aseq with
    | [] => s
    | fs => s.linkRetry p fs

/-- LINK_RETRY_TIMEOUT: every unacknowledged frame is sent again. -/
def State.linkRetryTimeout (s : State) (p : Fin 2) : State :=
  if s.links[p].unacked.isEmpty then s else s.linkRetry p s.links[p].unacked

/-- The packet of a frame has the length that the header and PLEN give. -/
def frameLenOk (f : LinkFrame) : Bool :=
  f.len.toNat == f.body.length && decide (packetPlen f.body ≤ 4096) && f.body.length == 16 + packetPlen f.body

/-- A frame as the port treats it: the packet passed on, if it is a DATA frame and accepted. One of an unknown TYPE is discarded (12
R332, R333, R337). A disagreement of PLEN and LEN counts as an FCS failure. -/
def State.frameIn (s : State) (p : Fin 2) (f : LinkFrame) : State × Option Packet :=
  if s.portsHeld then (s, none) else
  let ok := frameFcsOk f && (f.type != 1 || frameLenOk f)
  let s := if ok then s else (s.bump (linkReg p 8) 1).setFlag (chReg 4) 0
  if f.type ≠ 1 ∨ !s.linkIsUp p then (s, none)
  else if ok && bits f.lseq 0 12 == s.links[p].rxSeq then
    (s.modLink p fun L => { L with
      rxSeq := L.rxSeq + 1, nakSent := false, sentAck := some (ctlFrame 2 (L.rxSeq.setWidth 16) []) }, some (packetOf f.body))
  else (s.modLink p fun L =>
    if L.nakSent then L else { L with nakSent := true, sentNak := some (ctlFrame 3 (L.rxSeq.setWidth 16) []) }, none)

/-! ### Delay measurement (12 R359) -/

/-- PROBE_SEND: t1 in units of 2^-16 counts, with the fraction below one count. -/
def State.probeSend (s : State) (p : Fin 2) (frac : W16) : State :=
  if s.portsHeld then s else
  let t1 : W64 := BitVec.ofNat 64 (nat s.timeBase 0 48 * 2 ^ 16 + frac.toNat)
  s.modLink p fun L => { L with probeT1 := some t1, sentProbe := some (ctlFrame 4 0 (leBytes 8 t1.toNat)) }

/-- PROBE: answered with the turnaround. -/
def State.probeAnswer (s : State) (p : Fin 2) (f : LinkFrame) (turnaround : W64) : State :=
  s.fcsChecked p f fun s =>
    s.modLink p fun L => { L with sentReply := some (ctlFrame 5 f.lseq (leBytes 8 turnaround.toNat)) }

/-- PROBE_REPLY: a result, and the mean of the last 16. -/
def State.probeReply (s : State) (p : Fin 2) (f : LinkFrame) (t4 : W64) : State :=
  s.fcsChecked p f fun s =>
    match s.links[p].probeT1 with
    | none => s
    | some t1 =>
      let ds := (((t4 - t1) - leBv 64 (f.body.take 8)) / 2 :: s.links[p].delays).take 16
      (s.modLink p fun L => { L with probeT1 := none, probed := true, delays := ds }).setReg (linkReg p 4)
        (BitVec.ofNat 32 ((ds.map BitVec.toNat).sum / ds.length))

/-- SFP_MODULE_CHANGE: the module's signals and block lock; with LOS the link goes down at once. -/
def State.sfpChange (s : State) (p : Fin 2) (present los txFault lock : Bool) : State :=
  let a := linkReg p 0
  let s := (((s.setFld a 30 1 lock.toNat).setFld a 29 1 present.toNat).setFld a 28 1 los.toNat).setFld a 27 1 txFault.toNat
  if los then s.linkDown p .los else s

/-- PCIE_LINK_CHANGE, with what the host computer has then configured: out of head mode the interface stays in reset. -/
def State.pcieLinkChange (s : State) (rate width : BitVec 3) (cfg : PciCfg) : State :=
  if s.headMode && !s.inReset then
    (((s.setFld (pciReg 4) 5 3 rate.toNat).setFld (pciReg 4) 2 3 (if rate = 0 then 0 else width.toNat)).modPcie fun P =>
      { P with cfg := cfg }).msixFlush
  else s

/-- Configuration space of the function (12 R363; PCI Express 4.0): IDs, class code, and the addresses of BAR0 and BAR2. -/
def State.pciConfigWord (s : State) (off : Nat) : W32 :=
  match off with
  | 0x00 => (0x4160 : W16) ++ Config.pciVendor
  | 0x04 => BitVec.ofNat 32 (2 * s.pcie.cfg.memSpace.toNat + 4 * s.pcie.cfg.busMaster.toNat)
  | 0x08 => (0x0B4000 : BitVec 24) ++ Config.pciRevision
  | 0x10 => bits s.pcie.cfg.bar0 0 32 &&& 0xFFFF0000 ||| 0x4
  | 0x14 => bits s.pcie.cfg.bar0 32 32
  | 0x18 => bits s.pcie.cfg.bar2 0 32 &&& 0xFFC00000 ||| 0xC
  | 0x1C => bits s.pcie.cfg.bar2 32 32
  | _ => 0

end Sys2Proof.Machine
end

