-- ==== Sys2Proof/Machine/HallOps.lean ====
section
/-! DEFINITION. What the Hall firmware does to answer commands and faults: replies, station events, instruction copies and tile
restarts (spec 12 R339, R341, R349, R358; 15 R419, R421, R423). -/

namespace Sys2Proof.Machine

/-! ### Replies (12 R339, R341, R351) -/

/-- Parameters of a command; the maps of a multi-target one come before them (12 R351). -/
def Arrived.multi (a : Arrived) : Bool := Pkt.multi a.pkt && a.pkt.dst == 0xFF
def Arrived.params (a : Arrived) : List Byte := if a.multi then a.pkt.params.drop 24 else a.pkt.params

/-- A multi-target packet with bit d of DMAP or EMAP set (12 R351). -/
def mapsDone (k : Packet) (d : Nat) (ok : Bool) : Packet :=
  let i := (if ok then 8 else 16) + d / 8
  { k with params := k.params.set i (putBit (k.params.getD i 0) (d % 8) true) }

/-- Answer a command with a status, its DETAIL and results: a reply, or the multi-target packet passed on (12 R339, R351). -/
def State.answer (s : State) (a : Arrived) (status detail : Nat) (res : List Byte) (dup : Bool) : State :=
  match s.chAddr with
  | none => s
  | some me =>
    if a.multi then s.forward a.port (mapsDone a.pkt me.toNat (status == 0))
    else s.sendReply a.port ⟨a.pkt.src, me, if dup then 0x11 else 1, a.pkt.opcode, a.pkt.seq, s.roleOf a.pkt.stn, a.pkt.stn, 0,
      leBytes 2 status ++ leBytes 2 detail ++ res⟩

/-- A Hall-class command already executed: its cached status (12 R341). -/
def State.cached (s : State) (a : Arrived) : Option W32 :=
  (s.hall.cache.find? fun e =>
    e.src == a.pkt.src && e.seq == a.pkt.seq && e.opcode == a.pkt.opcode && e.stn == a.pkt.stn).map CacheEntry.status

/-- Answer a command that was executed: its header and status are kept, the last 256 of them. -/
def State.hallFinish (s : State) (a : Arrived) (status detail : Nat) (res : List Byte) : State :=
  let e : CacheEntry := ⟨a.pkt.src, a.pkt.seq, a.pkt.opcode, a.pkt.stn, BitVec.ofNat 32 (status + 65536 * detail)⟩
  (s.modHall fun H => { H with cache := (e :: H.cache).take 256 }).answer a status detail res false

/-- The end of a command of the Hall itself, of nobody else's. -/
def State.finishOpt (s : State) (a : Option Arrived) (status detail : Nat) (res : List Byte) : State :=
  match a with
  | none => s
  | some a => s.hallFinish a status detail res

/-! ### Stations as the Hall reports them (12 R349; 15 R419) -/

def stnByte (st : Stn) : Byte := BitVec.ofNat 8 st.val
def runCode : StnRun → Byte
  | .stopped => 0
  | .running => 1
  | .failed => 2

/-- EVENT STATION. -/
def State.stationEvent (s : State) (st : Stn) (state tile : Byte) : State := s.hallEvent 3 (stnByte st) [state, tile]

/-- Stations whose state has changed since an earlier state are logged and reported. -/
def State.noteStations (s old : State) : State :=
  (List.finRange 4).foldl (init := s) fun s st =>
    if (s.stn st).run = (old.stn st).run then s
    else (s.hallLog 8 st.val 0xFF [runCode (s.stn st).run]).stationEvent st (runCode (s.stn st).run) 0xFF

/-- Columns whose map has changed are logged; a change that comes with a tile-restart notice is logged by the answer to that notice
(01 R32; 15 R419). -/
def State.noteColumns (s old : State) : State :=
  (List.finRange 4).foldl (init := s) fun s st => (List.range 8).foldl (init := s) fun s c =>
    let noticed := fun (s : State) => s.notices.any fun n => match n with
      | .tileRestart st' t => st' == st && t.val / 5 == c
      | _ => false
    if (noticed s && !noticed old) || s.reg (aCol st c) == old.reg (aCol st c) then s
    else s.hallLog 3 st.val 0xFF (leBytes 4 c ++ leBytes 4 (s.reg (aCol st c)).toNat)

/-- What the Hall notes of the stations since an earlier state. -/
def State.noteAll (s old : State) : State := (s.noteStations old).noteColumns old

/-! ### Mailbox words of the Hall (07 R219; 12 R358) -/

/-- Words of the Hall that wait enter the send buffer of 4 words while it has room (07 R219); they are discarded where the station does
not run (01 R33). -/
def State.hallPump (s : State) (st : Stn) : State :=
  let out := (s.hallStn st).out
  if out.isEmpty then s
  else if (s.stn st).run ≠ .running then s.modHallStn st fun H => { H with out := [] }
  else
    let n := 4 - (s.stn st).hallSend.length
    (s.modStn st fun S => { S with hallSend := S.hallSend ++ out.take n }).modHallStn st fun H => { H with out := out.drop n }

/-- A mailbox word that the Hall places for a tile. -/
def State.hallPlace (s : State) (st : Stn) (t : BitVec 6) (payload : BitVec 48) : State :=
  (s.modHallStn st fun H => { H with out := H.out ++ [(t, payload)] }).hallPump st

/-- A column is due for repair, under repair, or waits for the tile-restart notice. -/
def Station.inRepair (S : Station) (c : Nat) : Bool :=
  (S.closed.any fun x => x.val == c) || (S.repairs.any fun r => r.1.val == c) || (S.repairNow.any fun r => r.1.val == c)

/-- The Hall places a word, or holds it while a repair of the tile's column runs. -/
def State.hallWord (s : State) (st : Stn) (t : BitVec 6) (payload : BitVec 48) : State :=
  if (s.stn st).inRepair (t.toNat / 5) then s.modHallStn st fun H => { H with held := H.held ++ [(t, payload)] }
  else s.hallPlace st t payload

/-- Held words of columns that are no longer under repair are placed. -/
def State.releaseHeld (s : State) (st : Stn) : State :=
  let ws := (s.hallStn st).held
  if ws.isEmpty then s
  else ws.foldl (fun s w => s.hallWord st w.1 w.2) (s.modHallStn st fun H => { H with held := [] })

/-! ### Epochs (12 R357) -/

/-- An epoch is newer than another. -/
def epochNewer (e1 e0 : Nat) : Bool :=
  let d := (e1 + 2 ^ 20 - e0) % 2 ^ 20
  decide (1 ≤ d) && decide (d ≤ 0x7FFFF)

/-- A newer epoch of the tag's lane is known. -/
def State.staleTag (s : State) (tag : W32) : Bool :=
  match s.hall.epochs.lookup (nat tag 20 12) with
  | none => false
  | some e => epochNewer e (nat tag 0 20)

/-- The newest epoch known of each lane is kept; 0x000 and 0xFFF are no lanes. -/
def State.learnTag (s : State) (tag : W32) : State :=
  let lane := nat tag 20 12
  if lane = 0 ∨ lane = 0xFFF ∨ s.staleTag tag then s
  else s.modHall fun H => { H with epochs := (H.epochs.filter fun x => x.1 != lane) ++ [(lane, nat tag 0 20)] }

/-! ### Codes of mailbox words -/

/-- A payload with a code in bits [47:40]. -/
def codeWord (code low : Nat) : BitVec 48 := BitVec.ofNat 48 (code * 2 ^ 40 + low)

/-! ### Instruction copies (15 R423) -/

/-- Device address of a tile's slot: of the 2^19 slots of LP5 memory a station has 40, and 128 beside them for its staged image. -/
def slotAddr (st : Stn) (t : TileNo) : Nat := 0x1000000000 + (Config.copySlot st.val % (2 ^ 19 - 168) + t.val) * 0x20000

/-- Device address of the staging area of a station (14 R409). -/
def stageAddr (st : Stn) : Nat := 0x1000000000 + (Config.copySlot st.val % (2 ^ 19 - 168) + 40) * 0x20000

/-- The firmware runs a start of the station. -/
def HallStn.inStart (H : HallStn) : Bool := H.starting.isSome || H.inPlace == some false

/-- The digest of the image that the station runs, or is being started with (14 R410; 15 R423). -/
def HallStn.imageDigest (H : HallStn) : Option (List Byte) := if H.inStart then some H.digest else H.measurement

/-- The staged image of a station, as the Hall reads it. -/
def State.stagedCells (s : State) (st : Stn) : State × List Host.Cell :=
  let n := (s.hallStn st).staged.elim 0 fun x => x.total
  (s.fwEnter (stageAddr st) n).readStaged (stageAddr st) (s.hallStn st).staged

/-- The body of the staged image, if its digest, taken again, is the one the station was started with (15 R423). -/
def State.stagedBody (s : State) (st : Stn) : State × Option (List Byte) :=
  let x := s.stagedCells st
  match firstBytes (1024 + hdr x.2 0x10 4) x.2 with
  | none => (x.1, none)
  | some img =>
    let m := img.take 512 ++ img.drop 1024
    (x.1.vaultDigest m, if (s.hallStn st).imageDigest = some (sha512 m) then some (img.drop 1024) else none)

/-- The 256 line CRCs of an instruction memory. -/
def crcBytes (insn : List Byte) : List Byte :=
  (List.range 256).flatMap fun l => leBytes 4 (crc32c ((insn.drop (256 * l)).take 256)).toNat

/-- Sections of an image for a tile. -/
def tileSections (body : List Byte) (ty : Nat) (t : TileNo) : List Section :=
  (sections body).filter fun x => x.ty == ty && x.tile == t.val

/-- Instruction memory that an image gives a tile, zero beyond its section (15 R423, 14 R410). -/
def tileInsns (body : List Byte) (t : TileNo) : Option (List Byte) :=
  (tileSections body 1 t).head?.map fun x => x.bytes body ++ List.replicate (65536 - x.len) 0

/-- The Hall writes a tile's slot. -/
def State.slotWrite (s : State) (st : Stn) (t : TileNo) (insn : List Byte) : State :=
  ((s.fwEnter (slotAddr st t) (insn.length + 1024)).memWrite mHall (slotAddr st t) (insn ++ crcBytes insn)).1

/-- The CRCs of a tile's slot, and whether the slot is valid. -/
def State.slotCrcs (s : State) (st : Stn) (t : TileNo) : State × Bool × List Byte :=
  let r := (s.fwEnter (slotAddr st t + 0x10000) 1024).memRead mHall (slotAddr st t + 0x10000) 1024
  (r.1, r.2.1 && crc32c r.2.2 == s.reg (tileReg st t 0x300), r.2.2)

/-! ### Loading a tile (14 R410; 15 R423) -/

/-- A register write of the Hall. -/
def State.hallReg (s : State) (a : Nat) (v : W32) : State := ((s.mxEnter mHall a).regWrite mHall a v 0).1

/-- The four data banks of a tile are zero-filled. -/
def State.fillTile (s : State) (st : Stn) (t : TileNo) : State :=
  (List.range 4).foldl (fun s b => s.zeroFillEnd (.tile st t) b) (s.zeroFillStart (.tile st t) fun _ => true)

/-- Instruction memory and line CRCs of a stopped tile. -/
def State.loadInsns (s : State) (st : Stn) (t : TileNo) (insn crcs : List Byte) : State :=
  ((s.clearMem (tileInsn st t 0) (tileInsn st t 0x10000)).setBytes (tileInsn st t 0) (insn.take 65536)).setRegBytes
    (tileReg st t 0x1000) (crcs.take 1024)

/-- The CRC-32C of the line CRCs, in TILE_IMG_CRC. -/
def State.loadImgCrc (s : State) (st : Stn) (t : TileNo) (crcs : List Byte) : State := s.setReg (tileReg st t 0x300) (crc32c crcs)

/-- A data section, written through the aperture. -/
def State.loadData (s : State) (st : Stn) (t : TileNo) (body : List Byte) (x : Section) : State :=
  ((s.fwEnter (tileData st t x.dest) x.len).memWrite mHall (tileData st t x.dest) (x.bytes body)).1

/-- A tile control section: START_PC, RVEC, TVEC and SHCAP. -/
def State.loadControl (s : State) (st : Stn) (t : TileNo) (body : List Byte) (x : Section) : State :=
  let w := fun i => leBv 32 (slice (x.bytes body) (4 * i) 4)
  (((s.hallReg (tileReg st t 8) (w 0)).hallReg (tileReg st t 0xC) (w 1)).hallReg (tileReg st t 0x10) (w 2)).hallReg
    (tileReg st t 0x14) (w 3)

/-- The Hall starts a tile and places the word that names its slot. -/
def State.hallTileStart (s : State) (st : Stn) (t : TileNo) : State :=
  (s.tileStart st t).hallWord st (BitVec.ofNat 6 t.val) (codeWord 0x30 (slotAddr st t))

/-! ### Restart (15 R421, R423; 09 R274) -/

/-- A tile that runs or tests its pipes is stopped first. -/
def State.haltTile (s : State) (st : Stn) (t : TileNo) : State :=
  let s := s.tileStopRequest st t
  if (s.tile st t).stopReq then s.takeStop st t else s

/-- A slot is rebuilt from the staged image; what it then holds. Where that image is not the station's, nothing is rebuilt. -/
def State.rebuild (s : State) (st : Stn) (t : TileNo) : State × Option (List Byte × List Byte) :=
  let y := s.stagedBody st
  match y.2.bind fun b => tileInsns b t with
  | none => (y.1, none)
  | some insn => (y.1.slotWrite st t insn, some (insn, crcBytes insn))

/-- The instruction memory and line CRCs to load: from the slot, which is rebuilt if it is not valid. -/
def State.copyOf (s : State) (st : Stn) (t : TileNo) : State × Option (List Byte × List Byte) :=
  let x := s.slotCrcs st t
  let r := if x.2.1 then (x.1.fwEnter (slotAddr st t) 65536).memRead mHall (slotAddr st t) 65536 else (x.1, false, [])
  if r.2.1 then (r.1, some (r.2.2, x.2.2)) else r.1.rebuild st t

/-- Restart of a tile: the copy is checked, data memory zero-filled, instructions reloaded from the copy and the tile's data and control
sections from the staged image, and the tile started; reason is that of the log's KIND 0x0002 (15 R423, R424). -/
def State.restartTile (s : State) (st : Stn) (t : TileNo) (reason : Nat) : State :=
  let x := (s.haltTile st t).copyOf st t
  let y := (x.1.fillTile st t).stagedBody st
  let body := y.2.getD []
  let s := y.1
  let s := match x.2 with
    | none => s
    | some c => s.loadInsns st t c.1 c.2
  let s := (tileSections body 2 t).foldl (fun s x => s.loadData st t body x) s
  let s := (tileSections body 3 t).foldl (fun s x => s.loadControl st t body x) s
  let s := (s.hallTileStart st t).hallWord st 0 (codeWord 1 t.val)
  (s.hallLog 2 st.val t.val [BitVec.ofNat 8 (6 * (t.val / 5) + s.position st t), BitVec.ofNat 8 reason]).stationEvent st 3
    (BitVec.ofNat 8 t.val)

/-- A fault of this logical tile lies within the last 24 h. -/
def State.faultedLately (s : State) (st : Stn) (t : TileNo) : Bool :=
  match (s.hallStn st).lastFault[t] with
  | none => false
  | some tb => decide ((s.timeBase - tb).toNat < 24 * 3600 * 1000 * msCounts)

/-- The log's KIND 0x0001. -/
def State.logStopped (s : State) (st : Stn) (t : TileNo) (action : Nat) : State :=
  s.hallLog 1 st.val t.val (leBytes 4 (s.tileStateWord st t).toNat ++ leBytes 2 (s.reg (tileReg st t 0x18)).toNat ++
    leBytes 1 action)

/-- A position is retired by column repair, or the station fails where the column has none left (01 R20). -/
def State.retireNow (s : State) (st : Stn) (t : TileNo) : State :=
  if s.colState st (t.val / 5) ≠ 0 then s.stnRunFail st else s.stnRepairGo st (BitVec.ofNat 32 (2 ^ 31 + t.val))

/-- Retirement: STN_REPAIR takes no GO while it is BUSY, so the tile waits for the repair under way (15 R421, R422). -/
def State.retireTile (s : State) (st : Stn) (t : TileNo) : State :=
  let s := s.logStopped st t 1
  if (s.stn st).repairBusy && decide (s.colState st (t.val / 5) = 0) then
    s.modHallStn st fun H => { H with retiring := H.retiring ++ [t] }
  else s.retireNow st t

/-- The next tile that waits is retired once STN_REPAIR is free. -/
def State.retirePump (s : State) (st : Stn) : State :=
  match (s.hallStn st).retiring with
  | [] => s
  | t :: ts => if (s.stn st).repairBusy then s else (s.modHallStn st fun H => { H with retiring := ts }).retireNow st t

/-- The answer to a tile's fault: a restart in place, and retirement if it comes again within 24 h. -/
def State.tileFault (s : State) (st : Stn) (t : TileNo) (reason : Nat) (logs : Bool) : State :=
  let again := s.faultedLately st t
  let s := s.modHallStn st fun H => { H with lastFault := H.lastFault.set t (some s.timeBase) }
  if again then s.retireTile st t
  else (if logs then s.logStopped st t 0 else s).restartTile st t reason

/-- Repairs that column c has left, as they stand and as they are due, exhaust it: a second position is lost (01 R20). -/
def State.exhausting (s : State) (st : Stn) (c : Nat) : Bool :=
  let S := s.stn st
  let due := (S.repairs ++ S.repairNow.toList).countP fun r => r.1.val == c
  decide (2 ≤ s.colState st c + due)

/-- The answer to a failed self-test: the station retires the position by itself; where that exhausts the column, the station fails
(01 R20; 15 R421). -/
def State.selfTestFault (s : State) (st : Stn) (t : TileNo) : State :=
  let s := s.logStopped st t 1
  if s.exhausting st (t.val / 5) then s.stnRunFail st else s

end Sys2Proof.Machine
end

