-- ==== Sys2Proof/Machine/HallServe.lean ====
section
/-! DEFINITION. The Hall-class commands as the Hall firmware executes them (spec 12 R347, R348, R353 to R358; 14 R404, R408 to R410,
R415, R416; 15 R419, R420). -/

namespace Sys2Proof.Machine

/-! ### Staging (14 R404, R409) -/

/-- What a chunk comes to: a status with its DETAIL, and what is staged after it. -/
structure Chunk where
  status : Nat
  detail : Nat
  staged : Option Staged
  deriving DecidableEq, Repr

/-- The chunk rules of R404 and R409: `limit` bounds TOTAL, `grade` is the grade code to check, if the image is a station's. A chunk
that ends beyond TOTAL is a wrong OFFSET. -/
def stageChunk (old : Option Staged) (limit : Nat) (grade : Option Nat) (p : List Byte) : Chunk :=
  let off := leNat (p.take 4)
  let total := leNat ((p.drop 4).take 4)
  let bytes := p.drop 8
  if off % 8 ≠ 0 then ⟨3, 0, old⟩
  else if limit < total then ⟨9, 2, old⟩
  else if total < off + bytes.length then ⟨3, 0, old⟩
  else
    let base := match old with
      | none => []
      | some x => if x.total = total then x.got else []
    let wrong := match grade with
      | none => false
      | some g => decide (off ≤ 5) && decide (5 < off + bytes.length) && (bytes.getD (5 - off) 0).toNat != g
    if wrong then ⟨9, 4, none⟩
    else ⟨0, 0, some ⟨total, (off, bytes.length) :: base⟩⟩

/-- A chunk that is accepted is written where its image is staged, from address a on; bytes that memory does not take count as not
received. -/
def State.stage (s : State) (a : Nat) (old : Option Staged) (limit : Nat) (grade : Option Nat) (p : List Byte) : State × Chunk :=
  let c := stageChunk old limit grade p
  if c.status ≠ 0 then (s, c)
  else
    let b := a + leNat (p.take 4)
    let w := (s.fwEnter b (p.length - 8)).memWrite mHall b (p.drop 8)
    (w.1, if w.2 then c else { c with staged := c.staged.map fun x => { x with got := x.got.tail } })

/-! ### Attestation (14 R415, R416) -/

/-- The first 512 bytes of a report. -/
def State.report (s : State) (nonce : List Byte) : List Byte :=
  let running := (List.range 4).foldl (fun n i => n + (decide ((s.stn (Fin.ofNat 4 i)).run = .running)).toNat * 2 ^ i) 0
  let flags := running + s.fld aBOOTSTAT 6 2 * 16 + s.vault.lock.toNat * 64
  let zero := List.replicate 64 (0 : Byte)
  leBytes 4 0x4151444E ++ leBytes 2 1 ++ leBytes 1 s.grade.code ++ [0xB0] ++ leBytes 8 Config.serial.toNat ++
    leBytes 8 s.timeBase.toNat ++ leBytes 4 flags ++ leBytes 2 s.flashCtl.counter ++ leBytes 2 (nat s.gvKeystat 0 8) ++
    slice nonce 0 64 ++ s.hall.measurement.getD zero ++
    (List.finRange 4).flatMap (fun st => (s.hallStn st).measurement.getD zero) ++ leBytes 4 s.gvSvn.toNat ++ List.replicate 92 0

/-- The identity certificate. -/
def certificate : List Byte :=
  leBytes 8 Config.serial.toNat ++ leBytes 512 Config.identityModulus.toNat ++ beBytes 512 Config.identityCertSignature.toNat

/-- A station start runs. -/
def State.anyStarting (s : State) : Bool :=
  (List.finRange 4).any fun st => (s.hallStn st).inStart

/-- ATTEST: the report is formed and its signature begins in the vault; the RSA engine serves one operation at a time. -/
def State.attestCmd (s : State) (a : Arrived) : State :=
  if s.anyStarting || s.hall.attest.isSome || s.vault.cmd.isSome || !s.vaultOn then s.answer a 5 0 [] false
  else
    let r := s.report a.params
    (((s.vaultDigest r).gvInPart (sha512 r)).vaultStart .sign).modHall fun H => { H with attest := some (a, r) }

/-- A signature that has ended makes the reply; one aborted is answered BUSY. -/
def State.attestEnd (s : State) (signed : Bool) : State :=
  match s.hall.attest with
  | none => s
  | some (a, r) =>
    if s.vault.cmd.isSome then s
    else
      let s1 := s.modHall fun H => { H with attest := none }
      if signed then s1.hallFinish a 0 0 (r ++ s1.regBytes (gv 0x2000) 512 ++ certificate) else s1.answer a 5 0 [] false

/-- A station start aborts a signature under way (14 R416). -/
def State.attestAbort (s : State) : State := if s.hall.attest.isSome then s.vaultAbort.attestEnd false else s

/-! ### Station start and stop (12 R347, R348; 14 R410) -/

/-- A type 0x0004 section: entries of a slot table. -/
def State.loadTable (s : State) (st : Stn) (body : List Byte) (x : Section) : State :=
  let s := s.setReg (stnReg st 0x414) (BitVec.ofNat 32 x.dest)
  s.modStn st fun S => (List.range (x.len / 2)).foldl (init := S) fun S i =>
    S.setEntry (1024 * x.dest + i) (leBv 11 (slice (x.bytes body) (2 * i) 2))

/-- Step 2 of R410: slot tables and station registers, in directory order. -/
def State.loadStation (s : State) (st : Stn) (body : List Byte) : State :=
  (sections body).foldl (init := s) fun s x =>
    if x.ty = 4 then s.loadTable st body x
    else if x.ty = 5 then (x.writes body).foldl (fun s w => s.hallReg (stnReg st w.1) w.2) s
    else s

/-- A type 0x0001 section of a starting station, with the instruction copy. -/
def State.loadTile (s : State) (st : Stn) (t : TileNo) (body : List Byte) : State :=
  match tileInsns body t with
  | none => s
  | some insn =>
    let crcs := crcBytes insn
    ((s.loadInsns st t insn crcs).loadImgCrc st t crcs).slotWrite st t insn

/-- Step 4 of R410. -/
def State.loadTiles (s : State) (st : Stn) (body : List Byte) : State :=
  let s := (List.finRange 40).foldl (fun s t => s.fillTile st t) s
  (sections body).foldl (init := s) fun s x =>
    let t : TileNo := Fin.ofNat 40 x.tile
    match x.ty with
    | 1 => s.loadTile st t body
    | 2 => s.loadData st t body x
    | 3 => s.loadControl st t body x
    | 6 => ((s.fwEnter (stnBase st + x.dest) x.len).memWrite mHall (stnBase st + x.dest) (x.bytes body)).1
    | _ => s

/-- Step 5 of R410. -/
def State.startTiles (s : State) (st : Stn) (body : List Byte) : State :=
  (List.finRange 40).foldl (fun s t => if (tileSections body 3 t).isEmpty then s else s.hallTileStart st t) s

/-- Step 1 of R410: the staged image is verified as it lies in LP5 memory. -/
def State.verifyStaged (s : State) (st : Stn) : State × Verdict :=
  let x := s.stagedCells st
  x.1.verifyIn 2 x.2

/-- Steps 2 and 3 of R410, with an accepted image. -/
def State.startJob (s : State) (st : Stn) (v : Verdict) : State :=
  let body := v.image.drop 1024
  let s := s.modHallStn st fun H => { H with body := body, digest := v.digest }
  (s.loadStation st body).stnRunStart st

/-- STATION_START of a station that does not run. -/
def State.startCmd (s : State) (st : Stn) (a : Arrived) : State :=
  let x := s.attestAbort.verifyStaged st
  if x.2.reason ≠ 1 then x.1.hallFinish a 9 x.2.reason []
  else (x.1.startJob st x.2).modHallStn st fun H => { H with starting := some a }

/-- STATION_STOP. -/
def State.stopCmd (s : State) (st : Stn) (a : Arrived) : State :=
  if (s.stn st).run = .running then (s.stnRunStop st).modHallStn st fun H => { H with stopping := some a }
  else (s.stnRunStop st).hallFinish a 0 0 []

/-! ### Roles and mailbox (12 R353 to R358) -/

/-- STN_ROLE is written and logged; NOTIFY names a tile to tell. -/
def State.setRole (s : State) (st : Stn) (tag : W32) (src notify : Byte) : State :=
  let old := s.reg (stnReg st 0x190)
  let s := ((s.setReg (stnReg st 0x190) tag).learnTag tag).hallLog 9 st.val 0xFF (leBytes 4 old.toNat ++ leBytes 4 tag.toNat ++ [src])
  if notify.toNat < 40 then s.hallWord st (notify.setWidth 6) (codeWord 0x20 tag.toNat) else s

/-- ROLE_SET. LANE lies in bytes 2 and 3. -/
def State.roleSetCmd (s : State) (st : Stn) (a : Arrived) : State :=
  let tag := leBv 32 (a.params.take 4)
  let notify := a.params.getD 4 0
  if nat tag 20 12 = 0 then s.hallFinish a 3 2 []
  else if 40 ≤ notify.toNat ∧ notify ≠ 0xFF then s.hallFinish a 3 4 []
  else (s.setRole st tag a.pkt.src notify).hallFinish a 0 0 []

/-- The first parameter byte of an MBOX_SEND found wrong, if any. -/
def mboxWrong (p : List Byte) : Option Nat :=
  let n := (p.getD 0 0).toNat
  if n = 0 ∨ 64 < n then some 0
  else (List.range n).findSome? fun i =>
    let e := 1 + 8 * i
    if 40 ≤ (p.getD e 0).toNat then some e
    else if p.getD (e + 1) 0 ≠ 0 then some (e + 1)
    else if (p.getD (e + 7) 0).toNat < 0x80 then some (e + 7)
    else none

/-- Words enter the send buffer in their order while it has room and the tile's column is not under repair; those left. -/
def mboxPlace (S : Station) : List (BitVec 6 × BitVec 48) → Station × List (BitVec 6 × BitVec 48)
  | [] => (S, [])
  | w :: ws =>
    if S.run ≠ .running ∨ 4 ≤ S.hallSend.length ∨ S.inRepair (w.1.toNat / 5) then (S, w :: ws)
    else mboxPlace { S with hallSend := S.hallSend ++ [w] } ws

/-- An MBOX_SEND goes on: OK once every word is placed, BUSY once its max time of 1 ms since its arrival has passed, and the words after
are not sent (12 R345, R347). -/
def State.mboxPump (s : State) (st : Stn) : State :=
  match (s.hallStn st).sending with
  | none => s
  | some j =>
    let age := (s.timeBase - j.cmd.since).toNat
    let x := mboxPlace (s.stn st) (if (s.hallStn st).out.isEmpty && decide (age ≤ msCounts) then j.words else [])
    let left := if (s.hallStn st).out.isEmpty && decide (age ≤ msCounts) then x.2 else j.words
    let s := s.setStn st x.1
    let ends := fun (s : State) => s.modHallStn st fun H => { H with sending := none }
    if left.isEmpty then (ends s).hallFinish j.cmd 0 0 []
    else if msCounts ≤ age then (ends s).hallFinish j.cmd 5 0 []
    else s.modHallStn st fun H => { H with sending := some { j with words := left } }

/-- MBOX_SEND to a running station. -/
def State.mboxCmd (s : State) (st : Stn) (a : Arrived) : State :=
  let p := a.params
  match mboxWrong p with
  | some o => s.hallFinish a 3 o []
  | none =>
    let ws := (List.range (p.getD 0 0).toNat).map fun i =>
      (BitVec.ofNat 6 (p.getD (1 + 8 * i) 0).toNat, leBv 48 (slice p (3 + 8 * i) 6))
    (s.modHallStn st fun H => { H with sending := some ⟨a, ws⟩ }).mboxPump st

/-! ### Commands of a station, one at a time (12 R348, R354, R356) -/

/-- A job of the station is under way. -/
def State.stnBusy (s : State) (st : Stn) : Bool :=
  let H := s.hallStn st
  H.starting.isSome || H.stopping.isSome || H.inPlace.isSome || H.sending.isSome

/-- Bytes of parameters that a command needs (12 R347, R475). -/
def needsBytes (op : Nat) (p : List Byte) : Nat :=
  match op with
  | 0x10 => 9
  | 0x13 => 5
  | 0x15 => 64
  | 0x16 => 5
  | 0x17 => if p.isEmpty then 1 else if 64 < (p.getD 0 0).toNat then 1 else 1 + 8 * (p.getD 0 0).toNat
  | 0x18 => 4
  | _ => 0

/-- Parameters too short: answered and not executed (12 R475). -/
def State.orShort (s : State) (a : Arrived) (f : State → State) : State :=
  if a.params.length < needsBytes a.pkt.opcode.toNat a.params then s.answer a 3 a.pkt.params.length [] false else f s

/-- A command for a station, past the duplicate cache and the role check: the table of R348. -/
def State.stnExec (s : State) (st : Stn) (a : Arrived) : State :=
  let run := (s.stn st).run
  match a.pkt.opcode.toNat with
  | 0x10 => s.orShort a fun s =>
    let x := s.stage (stageAddr st) (s.hallStn st).staged 0x1000000 (some s.grade.code) a.params
    (x.1.modHallStn st fun H => { H with staged := x.2.staged }).hallFinish a x.2.status x.2.detail []
  | 0x11 => if run = .running then s.answer a 5 0 [] false else s.startCmd st a
  | 0x12 => s.stopCmd st a
  | 0x13 => s.orShort a fun s => s.roleSetCmd st a
  | 0x14 => s.hallFinish a 0 0 (leBytes 4 (s.reg (stnReg st 0x190)).toNat ++ [runCode run])
  | 0x17 =>
    if run = .stopped then s.answer a 8 0 [] false
    else if run = .failed then s.answer a 10 0 [] false
    else s.orShort a fun s => s.mboxCmd st a
  | _ => s.answer a 2 0 [] false

/-- A command for a station: the duplicate cache, then the role check, then what is to follow (12 R341, R354). -/
def State.stnChecked (s : State) (st : Stn) (a : Arrived) (f : State → State) : State :=
  match s.cached a with
  | some w => s.answer a (nat w 0 16) (nat w 16 16) [] true
  | none =>
    if a.pkt.opcode = 0x17 ∧ a.pkt.role = 0 then s.answer a 11 0 [] false
    else if a.pkt.opcode ≠ 0x14 ∧ a.pkt.role ≠ 0 ∧ a.pkt.role ≠ s.reg (stnReg st 0x190) then s.answer a 1 0 [] false
    else f s

/-- A command for a station begins. -/
def State.stnCmd (s : State) (st : Stn) (a : Arrived) : State := s.stnChecked st a fun s => s.stnExec st a

/-- HOLDOV: the station restarts in place, after the job of it that is under way (15 R428). -/
def State.restartStation (s : State) (st : Stn) : State :=
  if s.stnBusy st then s.modHallStn st fun H => { H with restartDue := true }
  else
    let s := s.modHallStn st fun H => { H with restartDue := false }
    if (s.stn st).run != .running then s else (s.stnRunStop st).modHallStn st fun H => { H with inPlace := some true }

/-- Commands that wait are executed while no job is under way; a restart in place that waits comes first. -/
def State.drainStn (s : State) (st : Stn) : Nat → State
  | 0 => s
  | n + 1 =>
    if s.stnBusy st then s
    else match (s.hallStn st).waiting with
      | [] => s
      | a :: as => ((s.modHallStn st fun H => { H with waiting := as }).stnCmd st a).drainStn st n

def State.drain (s : State) (st : Stn) : State :=
  (if (s.hallStn st).restartDue then s.restartStation st else s).drainStn st (s.hallStn st).waiting.length

/-! ### Commands of the device -/

/-- PANTRY_READ. -/
def State.pantryCmd (s : State) (a : Arrived) : State :=
  let p := a.params
  let region := (p.getD 0 0).toNat
  let index := leNat (slice p 1 2)
  let count := leNat (slice p 3 2)
  if 3 < region then s.hallFinish a 3 0 []
  else if region < 2 then
    (if 1 < index then s.hallFinish a 3 1 []
    else if count ≠ 0 then s.hallFinish a 3 3 []
    else s.hallFinish a 0 0 (s.flashBytes (0x400000 + 0x1000 * region + 0x800 * index) 2048))
  else if region = 2 then
    (if count = 0 ∨ 63 < count then s.hallFinish a 3 3 []
    else if 16384 < index + count then s.hallFinish a 3 1 []
    else s.hallFinish a 0 0 (s.flashBytes (0x410000 + 64 * index) (64 * count)))
  else if index ≠ 0 then s.hallFinish a 3 1 []
  else if count ≠ 0 then s.hallFinish a 3 3 []
  else s.hallFinish a 0 0 (leBytes 2 s.flashCtl.counter)

/-- LOG_READ (15 R420). -/
def State.logCmd (s : State) (a : Arrived) : State :=
  let next := s.hall.logNext
  let start := max (leNat (a.params.take 4)) (next - 2048)
  let count := min 127 (next - start)
  let x := (List.range count).foldl (init := (s, ([] : List Byte))) fun x i =>
    let r := x.1.memRead mHall (hallMem (0xF0000 + 32 * ((start + i) % 2048))) 32
    (r.1, x.2 ++ r.2.2)
  x.1.hallFinish a 0 0 (leBytes 4 next ++ leBytes 2 count ++ [0, 0] ++ x.2)

/-- A command for the device itself. -/
def State.devCmd (s : State) (a : Arrived) : State :=
  match s.cached a with
  | some w => s.answer a (nat w 0 16) (nat w 16 16) [] true
  | none => s.orShort a fun s =>
    match a.pkt.opcode.toNat with
    | 0x15 => s.attestCmd a
    | 0x16 => s.pantryCmd a
    | 0x18 => s.logCmd a
    | _ => s.answer a 2 0 [] false

/-- A Hall-class command reaches the firmware (12 R356; 14 R409). -/
def State.hallAccept (s : State) (a : Arrived) : State :=
  if 4 ≤ a.pkt.stn.toNat then s.devCmd a
  else
    let st : Stn := Fin.ofNat 4 a.pkt.stn.toNat
    let H := s.hallStn st
    if a.pkt.opcode = 0x10 ∧ H.inStart then
      s.stnChecked st a fun s => s.answer a 5 0 [] false
    else if s.stnBusy st then s.modHallStn st fun H => { H with waiting := H.waiting ++ [a] }
    else s.stnCmd st a

/-! ### Chain boot (14 R404) -/

/-- A Hall-class command reaches the Cellar in chain boot. -/
def State.cellarAccept (s : State) (a : Arrived) : State :=
  match a.pkt.opcode.toNat with
  | 0x10 => s.orShort a fun s =>
    let x := s.stage (hallMem 0) s.hall.boot 983040 none a.params
    (x.1.modHall fun H => { H with boot := x.2.staged }).answer a x.2.status x.2.detail [] false
  | 0x11 =>
    let y := s.readStaged (hallMem 0) s.hall.boot
    let x := y.1.verifyIn 1 y.2
    if x.2.reason = 1 then (x.1.answer a 0 0 [] false).enterFirmware 2 x.2 else x.1.answer a 9 x.2.reason [] false
  | _ => s.answer a 8 0 [] false

/-! ### Ends of jobs -/

/-- Something of the starts of a station's tiles is still to come: a self-test, or the answer to one that failed (01 R18; 15 R421). -/
def State.testsRun (s : State) (st : Stn) : Bool :=
  (s.tiles[st].toList.any fun T => T.run == .selfTest) || (s.stn st).repairBusy || s.notices.any fun n => match n with
    | .selfTestFailed st' _ | .imageFailed st' _ | .tileRestart st' _ => st' == st
    | _ => false

/-- Step 6 of R410: a start has its measurement recorded and is answered once its station has failed or the starts of its tiles are over
(12 R347). -/
def State.startOver (s : State) (st : Stn) : State :=
  let H := s.hallStn st
  let ok := decide ((s.stn st).run = .running)
  if !H.inStart || (s.stn st).phase != .none || (ok && (!H.testing || s.testsRun st)) then s
  else
    ((s.modHallStn st fun H => { H with
      starting := none, inPlace := none, testing := false, measurement := some H.digest }).finishOpt H.starting
      (if ok then 0 else 10) 0 []).drain st

/-- A start of a station's network has ended: steps 4 and 5 of R410. -/
def State.startEnds (s : State) (st : Stn) : State :=
  let H := s.hallStn st
  if (s.stn st).phase ≠ .none ∨ !H.inStart ∨ H.testing then s
  else
    (if (s.stn st).run = .running then
      ((s.loadTiles st H.body).startTiles st H.body).modHallStn st fun H => { H with testing := true }
    else s).startOver st

/-- A stop of a station has ended; a restart in place goes on to its start (15 R428). -/
def State.stopEnds (s : State) (st : Stn) : State :=
  let H := s.hallStn st
  if (s.stn st).phase ≠ .none ∨ (H.stopping.isNone ∧ H.inPlace ≠ some true) then s
  else
    let s := (s.modHallStn st fun H => { H with stopping := none, inPlace := none }).finishOpt H.stopping 0 0 []
    if H.inPlace = some true then
      let x := s.attestAbort.verifyStaged st
      if x.2.reason = 1 then (x.1.startJob st x.2).modHallStn st fun H => { H with inPlace := some false } else x.1.drain st
    else s.drain st

/-! ### Slot-table repair (15 R428) -/

/-- The entry of a slot table as the image gives it. -/
def imageEntry (body : List Byte) (k : Nat) : BitVec 11 :=
  match (sections body).find? fun x => x.ty == 4 && x.dest == k / 1024 with
  | none => 0
  | some x => leBv 11 (slice (x.bytes body) (2 * (k % 1024)) 2)

/-- An uncorrectable slot-table entry, by 1024 × SEL + entry. -/
def Station.badEntry (S : Station) : Option Nat := (S.tableBad.find? fun e => e.2).map (·.1)

/-- TUE: the first uncorrectable entry is rewritten through STN_NET_FIX from the staged image, if that is the station's. -/
def State.fixEntry (s : State) (st : Stn) : State :=
  match (s.stn st).badEntry with
  | none => s
  | some k =>
    let y := s.stagedBody st
    match y.2 with
    | none => y.1.modHallStn st fun H => { H with fixing := false }
    | some body =>
      let s := y.1.hallReg (stnReg st 0x414) (BitVec.ofNat 32 (k / 1024))
      s.netFixGo st (BitVec.ofNat 32 (2 ^ 31 + (imageEntry body k).toNat * 2 ^ 16 + k % 1024))

/-- Once a rewrite has been made, the next uncorrectable entry is rewritten. -/
def State.fixPump (s : State) (st : Stn) : State :=
  if !(s.hallStn st).fixing || s.rbit (stnReg st 0x418) 30 then s
  else if (s.stn st).badEntry.isNone then s.modHallStn st fun H => { H with fixing := false }
  else s.fixEntry st

/-- What the Hall has to do for a station that waits: a start that can end does, a tile is retired, a slot-table entry rewritten; mailbox
words of the station that can enter its send buffer do, and a command that waited for it ends (07 R219; 12 R347, R358). -/
def State.hallMail (s : State) (st : Stn) : State :=
  let s := ((s.startOver st).retirePump st).fixPump st
  let H := s.hallStn st
  if H.held.isEmpty && H.out.isEmpty && H.sending.isNone then s
  else (((s.releaseHeld st).hallPump st).mboxPump st).drain st

/-- The same for every station. -/
def State.hallMails (s : State) : State := (List.finRange 4).foldl (fun s st => s.hallMail st) s

/-- What the firmware sees of a command's effect: stations that changed state, columns repaired, a signature cut short. -/
def State.hallReact (s old : State) : State :=
  if s.hall.run ≠ .firmware then s
  else
    let s := (s.noteAll old).attestEnd false
    s.hallMails.noteAll s

/-- VAULT_COMMAND_END, and the report it may have signed. -/
def State.vaultDone (s : State) : State :=
  let signed := s.vault.cmd == some .sign
  s.vaultCommandEnd.attestEnd signed

/-- STATION_START_END. -/
def State.hallStartEnd (s : State) (st : Stn) : State :=
  let t := s.stationStartEnd st
  if t.hall.run = .firmware then
    let t := t.noteAll s
    (t.startEnds st).noteAll t
  else t

/-- STATION_STOP_END. -/
def State.hallStopEnd (s : State) (st : Stn) : State :=
  let t := s.stationStopEnd st
  if t.hall.run = .firmware then
    let t := t.noteAll s
    (t.stopEnds st).noteAll t
  else t

end Sys2Proof.Machine
end

