-- ==== Sys2Proof/Machine/HallNotice.lean ====
section
/-! DEFINITION. The Hall firmware's answers to notices, and the peer watch (spec 12 R349; 15 R421 to R428, R433). -/

namespace Sys2Proof.Machine

/-- A notice that the firmware takes, if it waits. -/
def State.takeNotice (s : State) (p : Notice → Bool) (f : Notice → State → State) : State :=
  match s.notices.find? p with
  | none => s
  | some n => if s.hall.run = .firmware then (f n { s with notices := s.notices.erase n }).hallReact s else s

/-! ### Tiles -/

/-- TILE_LOST_NOTICE: tile lost, image failed or self-test failed (15 R421). -/
def State.tileLostNotice (s : State) (st : Stn) (t : TileNo) : State :=
  s.takeNotice (fun n => n == .tileLost st t || n == .imageFailed st t || n == .selfTestFailed st t) fun n s =>
    match n with
    | .tileLost .. => s.tileFault st t 0 true
    | .imageFailed .. => s.tileFault st t 1 true
    | _ => s.selfTestFault st t

/-- TILE_RESTART_NOTICE: a column repair has ended; its apertures open, the image CRC that the repair lost is written again, and the
tile restarts (01 R21; 14 R410; 15 R423). -/
def State.tileRestartNotice (s : State) (st : Stn) (t : TileNo) : State :=
  s.takeNotice (fun n => n == .tileRestart st t) fun _ s =>
    let c := t.val / 5
    let s := s.modStn st fun S => { S with closed := S.closed.filter fun x => x.val != c }
    let s := match tileInsns (s.hallStn st).body t with
      | none => s
      | some insn => s.loadImgCrc st t (crcBytes insn)
    (s.hallLog 3 st.val t.val (leBytes 4 c ++ leBytes 4 (s.reg (aCol st c)).toNat)).restartTile st t 3

/-- LINE_FAULT_NOTICE: the line and its CRC go from the slot to the tile's line buffer; where the slot is not valid, the tile restarts
in place (15 R425). A notice that finds a reload under way waits for it. -/
def State.lineFaultNotice (s : State) (st : Stn) (t : TileNo) : State :=
  if s.rbit (aLfix st t) 30 then s
  else s.takeNotice (fun n => n == .lineFault st t) fun _ s =>
    let l := s.fld (aLfix st t) 8 8
    let x := s.slotCrcs st t
    let r := (x.1.fwEnter (slotAddr st t + 256 * l) 256).memRead mHall (slotAddr st t + 256 * l) 256
    let crc := leBv 32 (slice x.2.2 (4 * l) 4)
    if x.2.1 && r.2.1 && crc32c r.2.2 == crc then
      let s := (r.1.setRegBytes (tileReg st t 0x400) r.2.2).hallReg (tileReg st t 0x224) crc
      let crcw := crc != s.storedCrc st t (BitVec.ofNat 8 l)
      let v := 2 ^ 31 + crcw.toNat * 2 ^ 29 + s.fld (aLfix st t) 28 1 * 2 ^ 28 + l
      (s.hallReg (aLfix st t) (BitVec.ofNat 32 v)).hallLog 4 st.val t.val [BitVec.ofNat 8 l, 0]
    else (r.1.hallLog 4 st.val t.val [BitVec.ofNat 8 l, 1]).restartTile st t 0

/-! ### The Pantry (10 R295, R296, R300) -/

/-- Commits of a station's tiles that have ended are answered (10 R300). -/
def State.commitAnswers (s : State) (st : Stn) : State :=
  let mine := s.flashCtl.owed.filter fun x => x.1.1 == st
  let s := s.modFlash fun F => { F with owed := F.owed.filter fun x => x.1.1 != st }
  mine.foldl (fun s x => s.hallWord st x.1.2 (codeWord 0x10 x.2)) s

/-- CODE 0x01: the set is staged with its digest and COMMIT is written; a refusal is answered at once (10 R296, R300). -/
def State.commitRequest (s : State) (st : Stn) (tile : BitVec 6) (set : Nat) : State :=
  let off := set * 0x1000
  let s := s.fwEnter (stnBase st + off) 0x1000
  let bytes := if s.stnBankOn st (off / 0x80000) then s.bytes (stnBase st + off) 0x1000 else List.replicate 0x1000 0
  let s := ((s.vaultDigest bytes).setRegBytes (efReg 0x1000) bytes).setRegBytes (efReg 0x220) ((sha512 bytes).take 32)
  let begun := fun (F : FlashCtl) => F.committing || F.waits.isSome
  let s1 := s.commitGo (st, tile)
  if s1.core.wants.isSome || (begun s1.flashCtl && !begun s.flashCtl) then s1
  else s1.hallWord st tile (codeWord 0x10 (s1.fld aPSTAT 0 4))

/-- PANTRY_NOTICE: the Hall answers commits that have ended, then takes the request that STN_PDB_REQ holds. -/
def State.pantryNotice (s : State) (st : Stn) : State :=
  s.takeNotice (fun n => n == .pantry st) fun _ s =>
    let s := s.commitAnswers st
    let r := stnReg st 0x164
    if !s.rbit r 31 then s
    else
      let s := s.setFld r 31 1 0
      match s.fld r 0 8 with
      | 1 => s.commitRequest st (BitVec.ofNat 6 (s.fld r 24 6)) (s.fld r 12 12)
      | 2 => (s.lcLoad (Fin.ofNat 8 (2 * st.val))).lcLoad (Fin.ofNat 8 (2 * st.val + 1))
      | _ => s

/-! ### Memories (15 R428) -/

/-- The log's KIND 0x0005. -/
def State.logMemFault (s : State) (m : FaultMem) (a : Nat) : State :=
  let e := fun (code stn tile off : Nat) => s.hallLog 5 stn tile (leBytes 8 code ++ leBytes 8 off)
  match m with
  | .tile st t => e 0 st.val t.val (a - tileData st t 0)
  | .station st => e 1 st.val 0xFF (a - stnBase st)
  | .hall => e 2 0xFF 0xFF (a - hallMem 0)
  | .lp5 n => e (3 + n.val) 0xFF 0xFF a

/-- An address lies in what is staged for a station. -/
def State.inStaged (s : State) (st : Stn) (a : Nat) : Bool :=
  match (s.hallStn st).staged with
  | none => false
  | some x => decide (stageAddr st ≤ a) && decide (a < stageAddr st + x.total)

/-- Copies that hold an address are invalid: a staged image is given up, an instruction copy rebuilt. -/
def State.rebuildCopies (s : State) (a : Nat) : State :=
  (List.finRange 4).foldl (init := s) fun s st =>
    let s := if s.inStaged st a then s.modHallStn st fun H => { H with staged := none } else s
    (List.finRange 40).foldl (init := s) fun s t =>
      if slotAddr st t ≤ a ∧ a < slotAddr st t + 0x10400 then (s.rebuild st t).1 else s

/-- MEM_FAULT_NOTICE. -/
def State.memFaultNotice (s : State) (m : FaultMem) (a : Addr) : State :=
  s.takeNotice (fun n => n == .memFault m a true || n == .memFault m a false) fun _ s =>
    let s := s.logMemFault m a.toNat
    match m with
    | .tile st t => s.tileFault st t 2 false
    | .station _ => s
    | .hall => s.warmRestart
    | .lp5 _ => s.rebuildCopies a.toNat

/-! ### Network (15 R428) -/

/-- NET_FAULT_NOTICE: TUE and HOLDOV are answered and cleared. A notice that finds a rewrite pending waits for it. -/
def State.netFaultNotice (s : State) (st : Stn) : State :=
  if s.rbit (stnReg st 0x418) 30 then s
  else s.takeNotice (fun n => n == .netFault st) fun _ s =>
    let w := s.reg (aNetStat st)
    let s := s.hallLog 6 st.val 0xFF (leBytes 4 w.toNat)
    let s := s.hallReg (aNetStat st) (w &&& 0x12)
    let s := if bit w 4 then (s.modHallStn st fun H => { H with fixing := true }).fixEntry st else s
    if bit w 1 then s.restartStation st else s

/-! ### Peer watch (15 R433) -/

/-- PEER_WATCH_ARM: a mailbox word 0x40 of a standby's tile 0. -/
def State.peerWatchArm (s : State) (st : Stn) (payload : BitVec 48) : State :=
  if s.hall.run ≠ .firmware ∨ !s.fitted st ∨ nat payload 40 8 ≠ 0x40 then s
  else s.modHallStn st fun H => { H with
    watch := if bit payload 0 then some (bits payload 16 6, bits payload 8 2) else none
    missed := 0, tag := none }

/-- A Hall-class command that the Hall sends to another device; its SEQ is a free value (12 R350). -/
def State.peerCommand (s : State) (dev : BitVec 6) (stn : BitVec 2) (op : Byte) (role : W32) (params : List Byte) : State :=
  match s.chAddr with
  | none => s
  | some me => (s.useFree 1).originate ⟨dev.setWidth 8, me, 0, op, bits s.free 0 16, role, stn.setWidth 8, 0, params⟩

/-- A tag with the next epoch, under a lane. -/
def nextEpoch (lane : Nat) (tag : W32) : W32 := BitVec.ofNat 32 (lane * 2 ^ 20 + (nat tag 0 20 + 1) % 2 ^ 20)

/-- The watch ends. -/
def State.watchEnds (s : State) (st : Stn) : State := s.modHallStn st fun H => { H with watch := none, missed := 0, tag := none }

/-- A reply whose tag has an older epoch than one known for its lane is discarded (12 R357). -/
def State.heard (s : State) (tag : W32) : Bool := !s.staleTag tag

/-- The failover of R433: the watched station is told, then the tag is taken. -/
def State.peerFailover (s : State) (st : Stn) (dev : BitVec 6) (stn : BitVec 2) (tag : W32) (f : FailoverReply) : State :=
  let s := s.peerCommand dev stn 0x13 tag (leBytes 4 (nextEpoch 0xFFF tag).toNat ++ [0xFF])
  let ended := match f with
    | .mismatch w => s.heard w && epochNewer (nat w 0 20) (nat tag 0 20)
    | _ => false
  let s := match f with
    | .mismatch w => s.learnTag w
    | _ => s
  if ended then s.watchEnds st
  else
    let lane := nat tag 20 12
    let me := s.chAddr.getD 0
    let s1 := if lane = 0 then s else s.setRole st (nextEpoch lane tag) me 0
    (s1.hallLog 10 st.val 0xFF [dev.setWidth 8, stn.setWidth 8, if lane = 0 then 3 else 0]).watchEnds st

/-- PEER_WATCH_POLL: a ROLE_GET is sent and its reply counted. Without a tag ever read there is nothing to take over. -/
def State.peerWatchPoll (s : State) (st : Stn) (r : PollReply) (f : FailoverReply) : State :=
  if s.hall.run ≠ .firmware then s
  else match (s.hallStn st).watch with
  | none => s
  | some (dev, stn) =>
    let s := s.peerCommand dev stn 0x14 0 []
    let r := match r with
      | .state _ tag => if s.heard tag then r else .missing
      | .missing => r
    let s := match r with
      | .missing => s.modHallStn st fun H => { H with missed := H.missed + 1 }
      | .state _ tag => (s.learnTag tag).modHallStn st fun H => { H with missed := 0, tag := some tag }
    let down := match r with
      | .missing => decide (3 ≤ (s.hallStn st).missed)
      | .state x _ => x == 2
    match (s.hallStn st).tag with
    | none => s
    | some tag => if down then s.peerFailover st dev stn tag f else s

/-- HALL_MAILBOX_POP: the Hall takes a word; codes from 0x80 up go to the host, 0x40 from tile 0 arms a watch (12 R349). -/
def State.hallTake (s : State) (st : Stn) : State :=
  match (s.stn st).hallFifo with
  | [] => s
  | w :: _ =>
    let s := s.hallPop st
    let payload := bits w 0 48
    if s.hall.run ≠ .firmware then s
    else if 0x80 ≤ nat payload 40 8 then
      s.hallEvent 1 (stnByte st) ([BitVec.ofNat 8 (nat w 58 6), 0] ++ leBytes 6 payload.toNat)
    else if nat w 58 6 = 0 then s.peerWatchArm st payload
    else s

end Sys2Proof.Machine
end

