-- ==== Sys2Proof/Machine/Porch.lean ====
section
/-! DEFINITION. The Porch: examination and forwarding of packets, enumeration, register access and time synchronisation, and the PCIe
head (spec 12 R335 to R346, R351, R360 to R365, R475). -/

namespace Sys2Proof.Machine

/-! ### Enumeration (12 R343, R344) -/

/-- An ENUMERATE that a device examines (12 R475). -/
def enumOk (p : List Byte) : Bool :=
  let npin := (p.getD 2 0).toNat
  let nent := (p.getD 3 0).toNat
  decide (8 ≤ p.length) && decide (npin ≤ 64) && decide (nent < 64) && p.length == 8 + 16 * npin + 16 * nent

/-- Pin entries: serial and address. -/
def pinEntries (p : List Byte) : List (Nat × Nat) :=
  (List.range (p.getD 2 0).toNat).map fun i => (leNat (slice p (8 + 16 * i) 8), (p.getD (16 + 16 * i) 0).toNat)

/-- The first address from `next` on that no pin entry names. -/
def freeAddr (pins : List (Nat × Nat)) : Nat → Nat → Nat
  | 0, next => next
  | fuel + 1, next => if next ≤ 0x3F ∧ pins.any (fun e => e.2 == next) then freeAddr pins fuel (next + 1) else next

/-- The address a device takes, the NEXT it passes on, and flags PINNED, NEW and NOADDR of its entry. -/
def State.enumTake (s : State) (p : List Byte) : Nat × Nat × Nat :=
  let pins := pinEntries p
  let pin := pins.foldl (fun a e => if e.1 = Config.serial.toNat then e.2 else a) 0xFF
  let next := (p.getD 0 0).toNat
  if s.rbit (chReg 8) 31 && !bit (p.getD 1 0) 0 then (s.fld (chReg 8) 0 6, next, 0)
  else if pin ≤ 0x3F then (pin, next, 3)
  else
    let n := freeAddr pins 256 next
    if n ≤ 0x3F then (n, n + 1, 2) else (0xFF, n, 4)

/-- ENUMERATE: an address is taken or kept, an entry appended, and the packet passed on. -/
def State.enumIn (s : State) (p : Fin 2) (k : Packet) : State :=
  if !enumOk k.params then s.forward p k
  else
    let x := s.enumTake k.params
    let flags := x.2.2 + (s.wrapped 0 || s.wrapped 1).toNat * 8
    let s := s.setReg (chReg 8) (BitVec.ofNat 32 ((decide (x.1 ≤ 0x3F)).toNat * 2 ^ 31 + x.1 % 64))
    let entry := leBytes 8 Config.serial.toNat ++ [BitVec.ofNat 8 x.1, BitVec.ofNat 8 s.grade.code, 0xB0, BitVec.ofNat 8 flags, 0, 0, 0, 0]
    let ps := ((k.params.set 0 (BitVec.ofNat 8 x.2.1)).set 3 (k.params.getD 3 0 + 1)) ++ entry
    s.forward p { k with params := ps }

/-! ### Time synchronisation (12 R360; 11 R318) -/

/-- n / 2^16, rounded half to even. -/
def roundEven16 (n : Int) : Int :=
  let q := n / 65536
  let r := n % 65536
  if r < 32768 then q else if 32768 < r then q + 1 else if q % 2 = 0 then q else q + 1

/-- A signed number that fits 32 bits, else the nearer bound. -/
def tsCorr (n : Int) : W32 := BitVec.ofInt 32 (max (-(2 ^ 31)) (min (2 ^ 31 - 1) n))

/-- Times noted for durations move with the time base, so that a step changes no duration (11 R318). -/
def State.shiftTimes (s : State) (d : W64) : State :=
  { s with
    core := { s.core with therm := s.core.therm.map fun T => { T with lastStep := T.lastStep.map (· + d) } }
    flashCtl := { s.flashCtl with work := match s.flashCtl.work with
      | .commit j since r => .commit j (since + d) r
      | w => w }
    gio := { s.gio with
      began := s.gio.began.map fun e => e.map (· + d)
      ended := s.gio.ended.map fun e => e.map (· + d)
      senseAt := s.gio.senseAt.map (· + d) }
    vault := { s.vault with since := s.vault.since + d }
    usb := s.usb.map fun U => { U with frameAt := U.frameAt.map (· + d) }
    hall := { s.hall with stns := s.hall.stns.map fun H => { H with
      lastFault := H.lastFault.map fun t => t.map (· + d)
      waiting := H.waiting.map fun a => { a with since := a.since + d }
      sending := H.sending.map fun j => { j with cmd := { j.cmd with since := j.cmd.since + d } } } } }

/-- Interrupt line 6 in running tiles of the stations that CH_CTRL.TSSTN names. -/
def State.syncTiles (s : State) : State :=
  (List.finRange 4).foldl (init := s) fun s st =>
    if !s.rbit (chReg 0) (8 + st.val) then s
    else (List.finRange 40).foldl (init := s) fun s t =>
      if (s.tile st t).run = .running then s.modTile st t fun T => { T with ipend := putBit T.ipend 6 true } else s

/-- The time base steps to the master's, and a forward step starts the armed timers whose AT it passes (11 R318), given the sum of the delays in units of 2^-16 counts. -/
def State.syncStep (s : State) (tmaster corr : Nat) (evt : Bool) : State :=
  let off := roundEven16 ((tmaster : Int) * 65536 + corr - (s.timeBase.toNat : Int) * 65536)
  let tb := s.timeBase + BitVec.ofInt 64 off
  let s := { s.shiftTimes (BitVec.ofInt 64 off) with timeBase := tb }
  let s := if 0 < off then (List.finRange 8).foldl (fun s n => s.timerStart n) s else s
  let s := ((s.setReg (chReg 0x50) (bits tb 0 32)).setReg (chReg 0x54) (bits tb 32 32)).setReg (chReg 0x58) (tsCorr off)
  let s := s.setFlag (chReg 4) 4
  if evt then s.syncTiles else s

/-- Parameters with an 8-byte number at offset o. -/
def setParam8 (p : List Byte) (o v : Nat) : List Byte := p.take o ++ leBytes 8 v ++ p.drop (o + 8)

/-- TIME_SYNC: residence is the time from the arrival of the start block to departure, in units of 2^-16 counts. -/
def State.syncIn (s : State) (p : Fin 2) (k : Packet) (residence : W64) : State :=
  if k.params.length < 24 then s.forward p k
  else
    let corr := leNat (slice k.params 16 8) + (s.reg (linkReg p 4)).toNat
    let s := s.syncStep (leNat (slice k.params 8 8)) corr (bit (k.params.getD 0 0) 0)
    s.forward p { k with params := setParam8 k.params 16 (corr + residence.toNat) }

/-- TIME_SYNC of a head device, which is the time master: it stamps the packet and takes no step. -/
def State.syncOut (s : State) (k : Packet) : State :=
  if k.params.length < 24 then s.forward 0 k
  else s.forward 0 { k with params := setParam8 (setParam8 k.params 8 s.timeBase.toNat) 16 0 }

/-! ### Porch commands (12 R346) -/

/-- A status with its DETAIL, and results. -/
structure PorchAns where
  status : Nat
  detail : Nat
  res : List Byte
  deriving DecidableEq, Repr

/-- One 4-byte access of the chain engine. -/
def State.chainWord (s : State) (w : Around) (write : Bool) (a : Nat) (v : W32) : State × Option MxCode × W32 :=
  let l := a / 64 * 64
  let i := a % 64 / 4
  if !s.mapped l then (s.decodeError mChain l, none, 0)
  else
    let x := ((s.mxEnter mChain l).beat mChain (if write then .write else .read) true l
      ⟨BitVec.ofNat 64 (15 * 2 ^ (4 * i)), BitVec.ofNat 512 (v.toNat * 2 ^ (32 * i))⟩ w).1
    (x.1, x.2.1, bits x.2.2 (32 * i) 32)

/-- REG_READ: words i to n - 1. -/
def State.readWords (s : State) (w : Around) (a : Nat) : Nat → Nat → List Byte → State × PorchAns
  | 0, _, acc => (s, ⟨0, 0, acc⟩)
  | n + 1, i, acc =>
    let x := s.chainWord w false ((a + 4 * i) % 2 ^ 40) 0
    match x.2.1 with
    | some c => (x.1, ⟨7, c.toNat + 8 * i, acc⟩)
    | none => x.1.readWords w a n (i + 1) (acc ++ leBytes 4 x.2.2.toNat)

/-- REG_WRITE: words i on, from their bytes. -/
def State.writeWords (s : State) (w : Around) (a : Nat) (p : List Byte) : Nat → Nat → State × PorchAns
  | 0, _ => (s, ⟨0, 0, []⟩)
  | n + 1, i =>
    let x := s.chainWord w true ((a + 4 * i) % 2 ^ 40) (leBv 32 (slice p (12 + 4 * i) 4))
    match x.2.1 with
    | some c => (x.1, ⟨7, c.toNat + 8 * i, []⟩)
    | none => x.1.writeWords w a p n (i + 1)

/-- The first parameter byte of a register access found wrong, if any. -/
def regParamsWrong (op : Byte) (p : List Byte) : Option Nat :=
  if p.length < 12 then some p.length
  else if (p.getD 0 0).toNat % 4 ≠ 0 then some 0
  else if p.getD 5 0 ≠ 0 then some 5
  else if p.getD 6 0 ≠ 0 then some 6
  else if p.getD 7 0 ≠ 0 then some 7
  else
    let n := leNat (slice p 8 4)
    if n = 0 ∨ 256 < n then some 8
    else if op = 4 ∧ p.length < 12 + 4 * n then some p.length
    else none

/-- PING, REG_READ and REG_WRITE. A reply holds 4096 bytes, of which PING returns those after the status word. -/
def State.porchCmd (s : State) (w : Around) (op : Byte) (p : List Byte) : State × PorchAns :=
  if op = 1 then (s, ⟨0, 0, p.take 4092⟩)
  else match regParamsWrong op p with
    | some o => (s, ⟨3, o, []⟩)
    | none =>
      let a := leNat (slice p 0 5)
      let n := leNat (slice p 8 4)
      if op = 3 then s.readWords w a n 0 []
      else if !s.rbit (chReg 0) 3 then (s, ⟨6, 0, []⟩)
      else s.writeWords w a p n 0

/-- A command that the device executes (12 R345, R348), with what stands around its register accesses. RESET is answered before it takes
effect. -/
def State.execCmd (s : State) (a : Arrived) (w : Around) : State :=
  let op := a.pkt.opcode
  let p := a.params
  if op = 1 ∨ op = 3 ∨ op = 4 ∨ op = 5 then
    if a.pkt.stn ≠ 0xFF then s.answer a 4 0 [] false
    else if op = 5 then
      (if p.getD 0 1 ≠ 0 then s.answer a 3 0 [] false else (s.answer a 0 0 [] false).requestReset .command)
    else
      let x := s.porchCmd w op p
      x.1.answer a x.2.status x.2.detail x.2.res false
  else if 0x10 ≤ op.toNat ∧ op.toNat ≤ 0x18 then
    match s.hall.run with
    | .firmware =>
      let dev := op = 0x15 ∨ op = 0x16 ∨ op = 0x18
      if (dev ∧ a.pkt.stn ≠ 0xFF) ∨ (¬dev ∧ s.grade.stations ≤ a.pkt.stn.toNat) then s.answer a 4 0 [] false
      else s.hallAccept a
    | .chainBoot =>
      if (op = 0x10 ∨ op = 0x11) ∧ a.pkt.stn ≠ 0xFF then s.answer a 4 0 [] false else s.cellarAccept a
    | _ => s.answer a 8 0 [] false
  else s.answer a 2 0 [] false

/-- Opcodes that may be multi-target (12 R345). -/
def multiOp (op : Byte) : Bool := [1, 4, 5, 0x10, 0x12].contains op.toNat

/-- A multi-target packet: only a named device executes it (12 R351, R475). -/
def State.multiIn (s : State) (p : Fin 2) (me : Byte) (k : Packet) (w : Around) : State :=
  if k.params.length < 24 ∨ !bit (k.params.getD (me.toNat / 8) 0) (me.toNat % 8) then s.forward p k
  else if !multiOp k.opcode then s.forward p (mapsDone k me.toNat false)
  else s.execCmd ⟨p, k, s.timeBase⟩ w

/-- A packet that the Porch examines (12 R336, R340, R342). A multi-target packet back at its source is removed. A
reply or event sent to the device is taken by the Hall, which discards one with an older epoch (12 R357). -/
def State.examine (s : State) (p : Fin 2) (k : Packet) (residence : W64) (w : Around) : State :=
  if k.dst = 0xFF ∧ !Pkt.multi k ∧ k.opcode = 2 then s.enumIn p k
  else match s.chAddr with
  | none => s.forward p k
  | some me =>
    if k.opcode = 2 ∨ k.opcode = 6 then
      (if k.opcode = 6 ∧ k.dst = 0xFF ∧ !Pkt.multi k then s.syncIn p k residence
      else if k.src = me then s.setFlag (chReg 4) 2
      else s.forward p k)
    else if Pkt.multi k ∧ k.src = me then s.setFlag (chReg 4) 2
    else if k.dst = 0xFF ∧ Pkt.multi k then s.multiIn p me k w
    else if Pkt.multi k ∧ k.params.length < 24 then s.forward p k
    else if k.dst = me then (if Pkt.reply k || Pkt.event k then s.learnTag k.role else s.execCmd ⟨p, k, s.timeBase⟩ w)
    else if k.src = me then s.setFlag (chReg 4) 2
    else s.forward p k

/-- A packet arrives at a port: a head device takes its host's packets back; one that is wrapped is passed on unexamined (12 R335,
R336, R362). -/
def State.packetIn (s : State) (p : Fin 2) (k : Packet) (residence : W64) (w : Around) : State :=
  if s.portsHeld then s
  else if s.headMode ∧ (k.dst = 0xFE ∨ k.src = 0xFE) then s.hostRx k
  else if Pkt.isWrapped k then s.forward p k
  else (s.examine p k residence w).hallReact s

/-- A command of a row of the table: the packet with that opcode. -/
def State.commandIn (s : State) (p : Fin 2) (k : Packet) (op : Byte) (residence : W64) (w : Around := {}) : State :=
  s.packetIn p { k with opcode := op } residence w

/-- CHAIN_BOOT: a packet that arrives while the Cellar waits in chain boot. -/
def State.chainBootIn (s : State) (p : Fin 2) (k : PacketIn) : State :=
  if s.hall.run = .chainBoot then s.packetIn p k.pkt 0 k.around else s

/-- LINK_DATA_FRAME: the residence of a TIME_SYNC that comes this way is a free value. -/
def State.linkDataFrame (s : State) (p : Fin 2) (f : FrameIn) : State :=
  let x := s.frameIn p f.frame
  match x.2 with
  | none => x.1
  | some k => if k.opcode = 6 then (x.1.useFree 1).packetIn p k x.1.free f.around else x.1.packetIn p k 0 f.around

/-! ### PCIe head (12 R362 to R365) -/

/-- A packet from the host computer enters the ring as if it had arrived on UP. -/
def State.hostInject (s : State) (k : Packet) (w : Around) : State :=
  let k := { k with src := 0xFE }
  if Pkt.isWrapped k then s.forward 0 k
  else if k.dst = 0xFF ∧ !Pkt.multi k ∧ k.opcode = 6 then s.syncOut k
  else (s.examine 0 k 0 w).hallReact s

/-- Descriptors posted to the command ring are taken while it runs, at most n of them. A packet that cannot be read leaves ERR and stops
the rings; a descriptor that cannot be read stops them as it is. -/
def State.cmdRing (s : State) : Nat → State
  | 0 => s
  | n + 1 =>
    let size := 2 ^ s.fld (pciReg 0x18) 0 4
    let h := s.fld (pciReg 0x20) 0 12
    if !s.rbit (pciReg 0) 0 || s.pcie.cmdStopped || h % size == s.fld (pciReg 0x1C) 0 12 % size then s
    else match s.pcie.posted with
      | [] => s
      | c :: cs =>
        if !c.accessOk || !s.hostReach then s.dmaErrPcie
        else
          let bad := !c.readOk || c.len.toNat != 16 + c.plen.toNat
          let s := s.modPcie fun P => { P with posted := cs }
          let s := if bad then s else s.hostInject c.pkt c.around
          let s := ((s.setFld (pciReg 0x20) 0 12 ((h + 1) % size)).modPcie fun P =>
            { P with cmdDone := P.cmdDone ++ [(BitVec.ofNat 12 h, bad)] }).msixRaise 1
          (if c.readOk then s else s.dmaErrPcie).cmdRing n

/-- The PCIe block works: head mode, and its clock runs. -/
def State.pcieOn (s : State) : Bool := s.headMode && !s.gated 3

/-- CMD_TAIL_WRITE, with the descriptors that it posts. -/
def State.cmdTailWrite (s : State) (tail : BitVec 12) (posted : List HostCmd) : State :=
  if !s.pcieOn then s
  else
    let s := (s.setFld (pciReg 0x1C) 0 12 tail.toNat).modPcie fun P => { P with posted := P.posted ++ posted }
    s.cmdRing s.pcie.posted.length

/-- RX_TAIL_WRITE: packets that wait are written to the buffers posted. -/
def State.rxTailWrite (s : State) (tail : BitVec 12) (accessOk : Bool) : State :=
  if !s.pcieOn then s
  else
    let s := s.setFld (pciReg 0x3C) 0 12 tail.toNat
    if !s.pcie.rxQueue.isEmpty && s.rxSlot.isSome && !accessOk then s.dmaErrPcie else s.hostDeliver s.pcie.rxQueue

/-- RX_PACKET_DISCARD. -/
def State.rxDiscard (s : State) : State :=
  if s.pcie.rxQueue.isEmpty || s.rxSlot.isSome then s
  else ((s.setFlag (pciReg 4) 1).modPcie fun P => { P with rxQueue := P.rxQueue.tail }).msixRaise 3

/-- Bytes that a request at address a gives to the 64-byte line at l: enables and data. -/
def winBeat (a l : Nat) (bytes : List (Option Byte)) : Beat :=
  (List.range 64).foldl (init := ⟨0, 0⟩) fun b i =>
    match if a ≤ l + i then bytes.getD (l + i - a) none else none with
    | none => b
    | some x => ⟨putBit b.mask i true, put b.data (8 * i) 8 x.toNat⟩

/-- A request of the host through the window, line by line from line l on: the state, an error among the beats, and the lines read. -/
def State.winLines (s : State) (w : Around) (a : Nat) (op : MxOp) (bytes : List (Option Byte)) (one : Bool) :
    Nat → Nat → Bool → List (BitVec 512) → State × Bool × List (BitVec 512)
  | 0, _, bad, acc => (s, bad, acc)
  | n + 1, l, bad, acc =>
    if !s.mapped l then (s.pieceError mPcie a l).winLines w a op bytes one n (l + 64) bad (acc ++ [0])
    else
      let y := ((if l ≤ a ∨ l % 1024 = 0 then s.mxEnter mPcie l else s).beat mPcie op one l (winBeat a l bytes) w).1
      y.1.winLines w a op bytes one n (l + 64) (bad || y.2.1.isSome) (acc ++ [y.2.2])

/-- PCIE_WINDOW_ACCESS at offset x of BAR2. An error is returned as Completer Abort, which AER records; the function claims nothing
without memory space or in D3hot (12 R363, R365). -/
def State.windowAccess (s : State) (x : BitVec 22) (op : WinOp) (w : Around) : State :=
  let answer := fun (s : State) r => s.modPcie fun P => { P with winAnswer := some r }
  let uncor := fun (s : State) (i : Nat) => s.modPcie fun P => { P with aer := putBit P.aer i true }
  let bytes : List (Option Byte) := match op with
    | .read n => List.replicate n (some 0)
    | .write bs => bs
  let reads := match op with
    | .read _ => true
    | .write _ => false
  if !s.pcieOn then s
  else if !s.pcie.cfg.memSpace || s.pcie.cfg.d3hot then (if reads then answer (uncor s 20) .unsupported else uncor s 20)
  else if !s.rbit (pciReg 0) 2 then (if reads then answer s (.data (bytes.map fun _ => 0xFF)) else s)
  else
    let a := s.fld (pciReg 8) 0 18 * 2 ^ 22 + x.toNat
    let l := a / 64 * 64
    let n := (a + bytes.length - l + 63) / 64
    let y := s.winLines w a (if reads then .read else .write) bytes (n == 1) n l false []
    if !reads then y.1
    else if y.2.1 then answer (uncor y.1 15) .abort
    else answer y.1 (.data ((List.range bytes.length).map fun i => bits (y.2.2.getD ((a - l + i) / 64) 0) (8 * ((a - l + i) % 64)) 8))

/-- A write of CMDEN or RXEN lets the rings go on, and one of a vector's mask signals what is pending (12 R363, R364). -/
def State.pcieResume (s : State) : State :=
  if !s.pcieOn then s
  else
    let s := s.cmdRing s.pcie.posted.length
    (s.hostDeliver s.pcie.rxQueue).msixFlush

/-- DEV registers and other reactions of the firmware to a register write (REGISTER_WRITE, MATRIX_PIECE). -/
def State.reacting (s : State) (f : State → State) : State := ((f s).hallReact s).pcieResume

end Sys2Proof.Machine
end

