-- ==== Sys2Proof/Machine/BootCmds.lean ====
section
/-! DEFINITION. Commands of the boot flash, the vault, resets, clocks and power (14, 15, 16). -/

namespace Sys2Proof.Machine

/-- FLASH_ERASE (R407). -/
def execFlashErase (s : State) : Host.Outcome State Fault Refusal :=
  .next (s.bootErase)

/-- FLASH_PROGRAM (R407). -/
def execFlashProgram (s : State) : Host.Outcome State Fault Refusal :=
  .next (s.bootProgram)

/-- BOOT_FLASH_OP_END (R407). -/
def execBootFlashOpEnd (ok : Bool) (s : State) : Host.Outcome State Fault Refusal :=
  .next (s.bootOpEnd ok)

/-- HASH_INIT (R412). -/
def execHashInit (s : State) : Host.Outcome State Fault Refusal :=
  .next (s.vaultStart .hashInit)

/-- HASH_UPDATE (R412). -/
def execHashUpdate (s : State) : Host.Outcome State Fault Refusal :=
  .next (s.vaultStart .hashUpdate)

/-- HASH_FINAL (R412). -/
def execHashFinal (s : State) : Host.Outcome State Fault Refusal :=
  .next (s.vaultStart .hashFinal)

/-- VERIFY (R412). -/
def execVerify (key : Byte) (s : State) : Host.Outcome State Fault Refusal :=
  .next (s.vaultStart (.verify key))

/-- SIGN (R412). -/
def execSign (s : State) : Host.Outcome State Fault Refusal :=
  .next (s.vaultStart .sign)

/-- AUTH (R413). -/
def execAuth (s : State) : Host.Outcome State Fault Refusal :=
  .next (s.vaultStart .auth)

/-- RANDOM (R412). -/
def execRandom (s : State) : Host.Outcome State Fault Refusal :=
  .next (s.vaultStart .random)

/-- GV_ABORT (R412). -/
def execGvAbort (s : State) : Host.Outcome State Fault Refusal :=
  .next (s.reacting fun s => s.vaultAbort)

/-- VAULT_COMMAND_END (R412). -/
def execVaultCommandEnd (s : State) : Host.Outcome State Fault Refusal :=
  .next (s.vaultDone)

/-- LOCKSTEP_DIVERGENCE (R429). -/
def execLockstepDivergence (s : State) : Host.Outcome State Fault Refusal :=
  .next (s.clocked fun s => s.divergence)

/-- WRST (R429). -/
def execWrst (s : State) : Host.Outcome State Fault Refusal :=
  .next (s.clocked fun s => s.warmRestart)

/-- THERMAL_SAMPLE (R441). -/
def execThermalSample (st : Stn) (temp iod : Byte) (s : State) : Host.Outcome State Fault Refusal :=
  .next (s.thermalSample st temp iod)

/-- THERMTRIP (R443). -/
def execThermtrip (s : State) : Host.Outcome State Fault Refusal :=
  .next (s.thermtrip)

/-- CPR_AVS_WRITE (R444). -/
def execCprAvsWrite (m : Master) (v : W32) (s : State) : Host.Outcome State Fault Refusal :=
  ((s.noted.reservedIf (decide (m = mHall)) (cpr 0x30) v).avsWrite m v).out

/-- VID_STEP (R444). -/
def execVidStep (s : State) : Host.Outcome State Fault Refusal :=
  .next (s.vidStep)

/-- CPR_GATE_WRITE (R440). -/
def execCprGateWrite (m : Master) (v : W32) (s : State) : Host.Outcome State Fault Refusal :=
  ((s.noted.reservedIf (decide (m = mHall)) (cpr 0xC) v).gateWrite m v).out

/-- POWER_ON_RESET (R446). -/
def execPowerOnReset (s : State) : Host.Outcome State Fault Refusal :=
  .next (s.powerOn)

/-- SYSRST (R446). -/
def execSysrst (s : State) : Host.Outcome State Fault Refusal :=
  .next (s.requestReset .pin)

/-- DEV (R446). -/
def execRstDev (s : State) : Host.Outcome State Fault Refusal :=
  .next (s.requestReset .hall)

/-- CHAIN (R446). -/
def execRstChain (s : State) : Host.Outcome State Fault Refusal :=
  .next (s.clocked fun s => s.chainPortReset)

/-- CLOCK_LOSS (R438). -/
def execClockLoss (s : State) : Host.Outcome State Fault Refusal :=
  .next (s.clockLoss)

/-- DEVICE_RESET_ASSERT (R448). -/
def execDeviceResetAssert (s : State) : Host.Outcome State Fault Refusal :=
  .next (s.resetAssert)

/-- RESET_RELEASE (R449). -/
def execResetRelease (x : ReleaseInputs) (s : State) : Host.Outcome State Fault Refusal :=
  .next (s.resetRelease x)

end Sys2Proof.Machine
end

