-- ==== Sys2Proof/Machine/CamCmds.lean ====
section
/-! DEFINITION. Commands of camera ingest (09). -/

namespace Sys2Proof.Machine

/-- FRAME_START (R256). -/
def execFrameStart (st : Stn) (r : Fin 4) (vc : BitVec 2) (fnum : W16) (s : State) : Host.Outcome State Fault Refusal :=
  .next (s.frameStart st r vc fnum)

/-- FRAME_END (R263). -/
def execFrameEnd (st : Stn) (r : Fin 4) (vc : BitVec 2) (s : State) : Host.Outcome State Fault Refusal :=
  .next (s.frameEnd st r vc)

/-- LINE_START (R256). -/
def execLineStart (st : Stn) (r : Fin 4) (vc : BitVec 2) (line : W16) (s : State) : Host.Outcome State Fault Refusal :=
  .next (s.lineStart st r vc line)

/-- LONG_PACKET (R256). -/
def execLongPacket (st : Stn) (r : Fin 4) (p : LongPkt) (s : State) : Host.Outcome State Fault Refusal :=
  .next (s.longPacket st r p)

/-- CSI_ULPS (R253). -/
def execCsiUlps (st : Stn) (r : Fin 4) (enter : Bool) (s : State) : Host.Outcome State Fault Refusal :=
  .next (s.csiUlps st r enter)

/-- INGEST_WRITE (R261). -/
def execIngestWrite (st : Stn) (x : CamAccess) (s : State) : Host.Outcome State Fault Refusal :=
  .next (s.ingestGranted st x.ctx x.around)

/-- SLOT_COMPLETE (R261). -/
def execSlotComplete (st : Stn) (x : CamAccess) (s : State) : Host.Outcome State Fault Refusal :=
  .next (s.slotGranted st x.ctx x.around)

/-- CONTEXT_ENABLE (R268). -/
def execContextEnable (st : Stn) (k : Fin 8) (v : W32) (s : State) : Host.Outcome State Fault Refusal :=
  ((s.noted.reservedIf (s.camOpen st) (cxReg st k 0) v).camWritten st fun s => s.contextEnable st k v).out

/-- CONTEXT_DISABLE (R269). -/
def execContextDisable (st : Stn) (k : Fin 8) (v : W32) (s : State) : Host.Outcome State Fault Refusal :=
  ((s.noted.reservedIf (s.camOpen st) (cxReg st k 0) v).camWritten st fun s => s.contextDisable st k v).out

/-- CONTEXT_ABORT (R269). -/
def execContextAbort (st : Stn) (k : Fin 8) (v : W32) (s : State) : Host.Outcome State Fault Refusal :=
  ((s.noted.reservedIf (s.camOpen st) (cxReg st k 0) v).camWritten st fun s => s.contextAbort st k v).out

/-- START_OF_TRANSMISSION (R272). -/
def execStartOfTransmission (st : Stn) (r : Fin 4) (recognised : Bool) (s : State) : Host.Outcome State Fault Refusal :=
  .next (s.startOfTx st r recognised)

/-- PACKET_HEADER_ERROR (R256). -/
def execPacketHeaderError (st : Stn) (r : Fin 4) (s : State) : Host.Outcome State Fault Refusal :=
  .next (s.headerError st r)

end Sys2Proof.Machine
end

