-- ==== Sys2Proof/Machine/ChainCmds.lean ====
section
/-! DEFINITION. Commands of the chain and of the PCIe head (12, 14). -/

namespace Sys2Proof.Machine

/-- LINK_DATA_FRAME (R333). -/
def execLinkDataFrame (p : Fin 2) (f : FrameIn) (s : State) : Host.Outcome State Fault Refusal :=
  (s.noted.linkDataFrame p f).out

/-- LINK_ACK (R333). -/
def execLinkAck (p : Fin 2) (f : LinkFrame) (s : State) : Host.Outcome State Fault Refusal :=
  .next (s.linkAck p f)

/-- LINK_NAK (R333). -/
def execLinkNak (p : Fin 2) (f : LinkFrame) (s : State) : Host.Outcome State Fault Refusal :=
  .next (s.linkNak p f)

/-- LINK_RETRY_TIMEOUT (R333). -/
def execLinkRetryTimeout (p : Fin 2) (s : State) : Host.Outcome State Fault Refusal :=
  .next (s.linkRetryTimeout p)

/-- LINK_DOWN (R334). -/
def execLinkDown (p : Fin 2) (why : DownCause) (s : State) : Host.Outcome State Fault Refusal :=
  .next (s.linkDown p why)

/-- LINK_UP (R334). -/
def execLinkUp (p : Fin 2) (s : State) : Host.Outcome State Fault Refusal :=
  .next (s.linkUp p)

/-- WRAP_REMOVE (R335). -/
def execWrapRemove (p : Fin 2) (s : State) : Host.Outcome State Fault Refusal :=
  .next (s.wrapRemove p)

/-- PROBE_SEND (R359). -/
def execProbeSend (p : Fin 2) (frac : W16) (s : State) : Host.Outcome State Fault Refusal :=
  .next (s.probeSend p frac)

/-- PROBE (R359). -/
def execProbe (p : Fin 2) (f : LinkFrame) (counts : BitVec 48) (frac : W16) (s : State) : Host.Outcome State Fault Refusal :=
  .next (s.probeAnswer p f (counts ++ frac))

/-- PROBE_REPLY (R359). -/
def execProbeReply (p : Fin 2) (f : LinkFrame) (t4 : W64) (s : State) : Host.Outcome State Fault Refusal :=
  .next (s.probeReply p f t4)

/-- PING (R346). -/
def execPing (p : Fin 2) (k : Packet) (s : State) : Host.Outcome State Fault Refusal :=
  .next (s.commandIn p k 0x01 0)

/-- ENUMERATE (R344). -/
def execEnumerate (p : Fin 2) (k : Packet) (s : State) : Host.Outcome State Fault Refusal :=
  .next (s.commandIn p k 0x02 0)

/-- REG_READ (R346). -/
def execRegRead (p : Fin 2) (k : PacketIn) (s : State) : Host.Outcome State Fault Refusal :=
  .next (s.commandIn p k.pkt 0x03 0 k.around)

/-- REG_WRITE (R346). -/
def execRegWrite (p : Fin 2) (k : PacketIn) (s : State) : Host.Outcome State Fault Refusal :=
  (s.noted.commandIn p k.pkt 0x04 0 k.around).out

/-- RESET (R346). -/
def execChainReset (p : Fin 2) (k : Packet) (s : State) : Host.Outcome State Fault Refusal :=
  .next (s.commandIn p k 0x05 0)

/-- TIME_SYNC (R360). -/
def execTimeSync (p : Fin 2) (k : Packet) (residence : W64) (s : State) : Host.Outcome State Fault Refusal :=
  .next (s.commandIn p k 0x06 residence)

/-- IMAGE_LOAD (R409). -/
def execImageLoad (p : Fin 2) (k : Packet) (s : State) : Host.Outcome State Fault Refusal :=
  .next (s.commandIn p k 0x10 0)

/-- STATION_START (R410). -/
def execStationStart (p : Fin 2) (k : Packet) (s : State) : Host.Outcome State Fault Refusal :=
  (s.noted.commandIn p k 0x11 0).out

/-- STATION_STOP (R348). -/
def execStationStop (p : Fin 2) (k : Packet) (s : State) : Host.Outcome State Fault Refusal :=
  .next (s.commandIn p k 0x12 0)

/-- ROLE_SET (R355). -/
def execRoleSet (p : Fin 2) (k : Packet) (s : State) : Host.Outcome State Fault Refusal :=
  .next (s.commandIn p k 0x13 0)

/-- ROLE_GET (R347). -/
def execRoleGet (p : Fin 2) (k : Packet) (s : State) : Host.Outcome State Fault Refusal :=
  .next (s.commandIn p k 0x14 0)

/-- ATTEST (R415). -/
def execAttest (p : Fin 2) (k : Packet) (s : State) : Host.Outcome State Fault Refusal :=
  .next (s.commandIn p k 0x15 0)

/-- PANTRY_READ (R347). -/
def execPantryRead (p : Fin 2) (k : Packet) (s : State) : Host.Outcome State Fault Refusal :=
  .next (s.commandIn p k 0x16 0)

/-- MBOX_SEND (R347). -/
def execMboxSend (p : Fin 2) (k : Packet) (s : State) : Host.Outcome State Fault Refusal :=
  .next (s.commandIn p k 0x17 0)

/-- LOG_READ (R420). -/
def execLogRead (p : Fin 2) (k : Packet) (s : State) : Host.Outcome State Fault Refusal :=
  .next (s.commandIn p k 0x18 0)

/-- CMD_TAIL_WRITE (R364). -/
def execCmdTailWrite (tail : BitVec 12) (posted : List HostCmd) (s : State) : Host.Outcome State Fault Refusal :=
  (s.noted.cmdTailWrite tail posted).out

/-- RX_TAIL_WRITE (R364). -/
def execRxTailWrite (tail : BitVec 12) (accessOk : Bool) (s : State) : Host.Outcome State Fault Refusal :=
  .next (s.rxTailWrite tail accessOk)

/-- RX_PACKET_DISCARD (R364). -/
def execRxPacketDiscard (s : State) : Host.Outcome State Fault Refusal :=
  .next (s.rxDiscard)

/-- PCIE_WINDOW_ACCESS (R365). -/
def execPcieWindowAccess (x : BitVec 22) (op : WinReq) (s : State) : Host.Outcome State Fault Refusal :=
  (s.noted.reacting fun s => s.windowAccess x op.op op.around).out

/-- SFP_MODULE_CHANGE (R366). -/
def execSfpModuleChange (p : Fin 2) (present : Bool) (x : PortSignals) (s : State) : Host.Outcome State Fault Refusal :=
  .next (s.sfpChange p present x.los x.txFault x.lock)

/-- PCIE_LINK_CHANGE (R367). -/
def execPcieLinkChange (x : PcieTrained) (cfg : PciCfg) (s : State) : Host.Outcome State Fault Refusal :=
  .next (s.pcieLinkChange x.rate x.width cfg)

/-- CHAIN_BOOT (R404). -/
def execChainBoot (p : Fin 2) (k : PacketIn) (s : State) : Host.Outcome State Fault Refusal :=
  .next (s.chainBootIn p k)

end Sys2Proof.Machine
end

