-- ==== Sys2Proof/Machine/CuCmds.lean ====
section
/-! DEFINITION. Commands of the control unit and of the network unit on the tile's side (05 R130 to R147, 07 R206). -/

namespace Sys2Proof.Machine

/-- JMP (R130). -/
def execJmp (st : Stn) (t : TileNo) (b : W64) (s : State) : Host.Outcome State Fault Refusal :=
  .next (s.transfer st t .jmp b)

/-- CALL (R138). -/
def execCall (st : Stn) (t : TileNo) (b : W64) (s : State) : Host.Outcome State Fault Refusal :=
  .next (s.transfer st t .call b)

/-- RET (R138). -/
def execRet (st : Stn) (t : TileNo) (s : State) : Host.Outcome State Fault Refusal :=
  .next (s.transfer st t .ret 0)

/-- SYS (R130). -/
def execSys (st : Stn) (t : TileNo) (b : W64) (s : State) : Host.Outcome State Fault Refusal :=
  .next (s.transfer st t .sys b)

/-- ERET (R155). -/
def execEret (st : Stn) (t : TileNo) (s : State) : Host.Outcome State Fault Refusal :=
  .next (s.transfer st t .eret 0)

/-- SHIELD (R147). -/
def execShield (st : Stn) (t : TileNo) (b : W64) (s : State) : Host.Outcome State Fault Refusal :=
  .next (s.trigger st t none .shield b)

/-- RDCR (R131). -/
def execRdcr (st : Stn) (t : TileNo) (b : W64) (s : State) : Host.Outcome State Fault Refusal :=
  .next (s.trigger st t none .rdcr b)

/-- WRCR (R131). -/
def execWrcr (st : Stn) (t : TileNo) (b : W64) (s : State) : Host.Outcome State Fault Refusal :=
  (s.noted.trigger st t none .wrcr b).out

/-- IDLE (R146). -/
def execIdle (st : Stn) (t : TileNo) (s : State) : Host.Outcome State Fault Refusal :=
  .next (s.idleTrigger st t)

/-- SEND (R201). -/
def execSend (st : Stn) (t : TileNo) (c : Fin 8) (b : W64) (s : State) : Host.Outcome State Fault Refusal :=
  .next (s.trigger st t none (.send c) b)

/-- MDST (R206). -/
def execMdst (st : Stn) (t : TileNo) (b : W64) (s : State) : Host.Outcome State Fault Refusal :=
  .next (s.trigger st t none .mdst b)

/-- MAILBOX_TAKE (R206). -/
def execMailboxTake (st : Stn) (t : TileNo) (nowait : Bool) (s : State) : Host.Outcome State Fault Refusal :=
  .next (s.trigger st t none .mdst (takeWord nowait))

/-- MAILBOX_TAKE_COMPLETE (R206). -/
def execMailboxTakeComplete (st : Stn) (t : TileNo) (s : State) : Host.Outcome State Fault Refusal :=
  .next (s.takeComplete st t)

/-- MBOX (R206). -/
def execMbox (st : Stn) (t : TileNo) (b : W64) (s : State) : Host.Outcome State Fault Refusal :=
  .next (s.trigger st t none .mbox b)

end Sys2Proof.Machine
end

