-- ==== Sys2Proof/Machine/DmaCmds.lean ====
section
/-! DEFINITION. Commands of the DMA engine (11). -/

namespace Sys2Proof.Machine

/-- GO (R324). -/
def execDmaGo (n : Fin 16) (s : State) : Host.Outcome State Fault Refusal :=
  .next (s.dmaGateOn fun s => s.dmaGo n)

/-- DMA_ABORT (R327). -/
def execDmaAbort (n : Fin 16) (s : State) : Host.Outcome State Fault Refusal :=
  .next (s.dmaGateOn fun s => s.dmaAbort n)

/-- DMA_DISABLE (R329). -/
def execDmaDisable (n : Fin 16) (s : State) : Host.Outcome State Fault Refusal :=
  .next (s.dmaGateOn fun s => s.dmaDisable n)

/-- DMA_DESCRIPTOR_FETCH (R323). -/
def execDmaDescriptorFetch (x : DmaAccess) (s : State) : Host.Outcome State Fault Refusal :=
  .next (s.dmaFetch x.chan x.around)

/-- DMA_TRANSFER_START (R323). -/
def execDmaTransferStart (n : Fin 16) (s : State) : Host.Outcome State Fault Refusal :=
  .next (s.dmaBegin n)

/-- DMA_BEAT_RESPONSE (R325). -/
def execDmaBeatResponse (x : DmaAccess) (s : State) : Host.Outcome State Fault Refusal :=
  (s.noted.reacting fun s => s.dmaResponse x.chan x.around).out

/-- DMA_WRITEBACK (R323). -/
def execDmaWriteback (x : DmaAccess) (s : State) : Host.Outcome State Fault Refusal :=
  (s.noted.dmaWriteback x.chan (s.rbit (dmaReg x.chan 0x1C) 31) x.around).out

/-- DMA_IDLE_HANDOVER (R328). -/
def execDmaIdleHandover (n : Fin 16) (s : State) : Host.Outcome State Fault Refusal :=
  .next (s.dmaGateOn fun s => s.idleHandover n)

/-- DMA_SHADOW_WRITE (R328). -/
def execDmaShadowWrite (n : Fin 16) (hi : Bool) (v : W32) (handover : Option Around) (s : State) : Host.Outcome State Fault Refusal :=
  ((s.noted.reservedIf (!s.gated 2) (dmaReg n (if hi then 0x1C else 0x18)) v).dmaShadowWrite n hi v handover).out

end Sys2Proof.Machine
end

