-- ==== Sys2Proof/Machine/HallCmds.lean ====
section
/-! DEFINITION. Notices that the Hall answers, and the peer watch (15). -/

namespace Sys2Proof.Machine

/-- TILE_LOST_NOTICE (R421). -/
def execTileLostNotice (st : Stn) (t : TileNo) (s : State) : Host.Outcome State Fault Refusal :=
  (s.noted.tileLostNotice st t).out

/-- TILE_RESTART_NOTICE (R423). -/
def execTileRestartNotice (st : Stn) (t : TileNo) (s : State) : Host.Outcome State Fault Refusal :=
  (s.noted.tileRestartNotice st t).out

/-- LINE_FAULT_NOTICE (R425). -/
def execLineFaultNotice (st : Stn) (t : TileNo) (s : State) : Host.Outcome State Fault Refusal :=
  (s.noted.lineFaultNotice st t).out

/-- MEM_FAULT_NOTICE (R428). -/
def execMemFaultNotice (m : FaultMem) (a : Addr) (s : State) : Host.Outcome State Fault Refusal :=
  (s.noted.memFaultNotice m a).out

/-- NET_FAULT_NOTICE (R428). -/
def execNetFaultNotice (st : Stn) (s : State) : Host.Outcome State Fault Refusal :=
  (s.noted.netFaultNotice st).out

/-- PEER_WATCH_ARM (R433). -/
def execPeerWatchArm (st : Stn) (payload : BitVec 48) (s : State) : Host.Outcome State Fault Refusal :=
  .next (s.peerWatchArm st payload)

/-- PEER_WATCH_POLL (R433). -/
def execPeerWatchPoll (st : Stn) (r : PollReply) (f : FailoverReply) (s : State) : Host.Outcome State Fault Refusal :=
  .next (s.peerWatchPoll st r f)

end Sys2Proof.Machine
end

