-- ==== Sys2Proof/Machine/LaneCmds.lean ====
section
/-! DEFINITION. Commands of lane I/O (13). -/

namespace Sys2Proof.Machine

/-- LEGACY_READ (R371). -/
def execLegacyRead (la : BitVec 20) (bheN : Bool) (fw : FwAccess) (s : State) : Host.Outcome State Fault Refusal :=
  .next (s.legacyRead la bheN fw)

/-- LEGACY_WRITE (R375). -/
def execLegacyWrite (la : BitVec 20) (x : WriteCycle) (data : W16) (fw : FwAccess) (s : State) : Host.Outcome State Fault Refusal :=
  .next (s.legacyWrite la x data fw)

/-- LRESET_RISE (R379). -/
def execLresetRise (s : State) : Host.Outcome State Fault Refusal :=
  .next (s.lresetRise)

/-- LRESET_RECORD (R379). -/
def execLresetRecord (s : State) : Host.Outcome State Fault Refusal :=
  .next (s.lresetRecord)

/-- MIRROR_WRITE (R380). -/
def execMirrorWrite (m : Master) (win : Fin 8) (pair : Fin 128) (v : W32) (s : State) : Host.Outcome State Fault Refusal :=
  .next (s.mirrorWrite m win pair v)

/-- SET_ALIAS_WRITE (R380). -/
def execSetAliasWrite (m : Master) (win : Fin 8) (pair : Fin 128) (v : W32) (s : State) : Host.Outcome State Fault Refusal :=
  .next (s.aliasWrite m false win pair v)

/-- CLR_ALIAS_WRITE (R380). -/
def execClrAliasWrite (m : Master) (win : Fin 8) (pair : Fin 128) (v : W32) (s : State) : Host.Outcome State Fault Refusal :=
  .next (s.aliasWrite m true win pair v)

/-- TYPE_WRITE (R380). -/
def execTypeWrite (m : Master) (win : Fin 8) (quad : Fin 64) (v : W32) (s : State) : Host.Outcome State Fault Refusal :=
  ((s.noted.reservedIf (s.laneMay m 4 none) (lbReg (0x4000 + 0x100 * win.val + 4 * quad.val)) v).typeWrite m win quad v).out

/-- FIFO_PUSH (R373). -/
def execFifoPush (m : Master) (k : Fin 16) (v : W32) (s : State) : Host.Outcome State Fault Refusal :=
  ((s.noted.reservedIf (s.laneMay m 4 (s.fifoOwner k.val)) (lbReg (0x80 + 4 * k.val)) v).fifoPush m k v).out

/-- FIFO_CLR (R382). -/
def execFifoClr (m : Master) (k : Fin 16) (s : State) : Host.Outcome State Fault Refusal :=
  .next (s.fifoClr m k)

/-- LOG_POP (R376). -/
def execLogPop (s : State) : Host.Outcome State Fault Refusal :=
  .next (s.clocked fun s => s.logPop)

/-- SERIAL_RX_CHAR (R383). -/
def execSerialRxChar (p : Fin 20) (c : RxChar) (s : State) : Host.Outcome State Fault Refusal :=
  .next (s.serialRx p c)

/-- SERIAL_TX_CHAR (R385). -/
def execSerialTxChar (p : Fin 20) (s : State) : Host.Outcome State Fault Refusal :=
  .next (s.serialTx p)

/-- SER_DATA_READ (R386). -/
def execSerDataRead (m : Master) (p : Fin 20) (s : State) : Host.Outcome State Fault Refusal :=
  .next (s.serDataRead m p)

/-- SER_DATA_WRITE (R386). -/
def execSerDataWrite (m : Master) (p : Fin 20) (v : W32) (s : State) : Host.Outcome State Fault Refusal :=
  ((s.noted.reservedIf (s.laneMay m 1 (s.serOwner p) && s.serOn p) (serReg p.val 8) v).serDataWrite m p v).out

/-- RX_TIMEOUT (R386). -/
def execRxTimeout (p : Fin 20) (s : State) : Host.Outcome State Fault Refusal :=
  .next (s.rxTimeout p)

/-- MODEM_CHANGE (R386). -/
def execModemChange (p : Fin 20) (lines : BitVec 4) (s : State) : Host.Outcome State Fault Refusal :=
  .next (s.modemChange p lines)

/-- DE_RELEASE (R385). -/
def execDeRelease (p : Fin 4) (s : State) : Host.Outcome State Fault Refusal :=
  .next (s.deRelease p)

/-- USB_PIPE_GO (R388). -/
def execUsbPipeGo (g : Fin 4) (p : Fin 16) (fits : Bool) (s : State) : Host.Outcome State Fault Refusal :=
  .next (s.clocked fun s => s.usbPipeGo g p fits)

/-- USB_PIPE_ABORT (R389). -/
def execUsbPipeAbort (g : Fin 4) (p : Fin 16) (s : State) : Host.Outcome State Fault Refusal :=
  .next (s.clocked fun s => s.usbPipeAbort g p)

/-- USB_INTERVAL_POLL (R388). -/
def execUsbIntervalPoll (g : Fin 4) (p : Fin 16) (o : UsbOutcome) (s : State) : Host.Outcome State Fault Refusal :=
  .next (s.clocked fun s => s.usbIntervalPoll g p o)

/-- USB_TRANSFER_END (R388). -/
def execUsbTransferEnd (g : Fin 4) (p : Fin 16) (o : UsbOutcome) (s : State) : Host.Outcome State Fault Refusal :=
  .next (s.clocked fun s => s.usbTransferEnd g p o)

/-- USB_PORT_RESET (R389). -/
def execUsbPortReset (g : Fin 4) (k : Fin 4) (s : State) : Host.Outcome State Fault Refusal :=
  .next (s.clocked fun s => s.usbPortReset g k)

/-- USB_PORT_RESET_END (R389). -/
def execUsbPortResetEnd (g : Fin 4) (k : Fin 4) (speed : BitVec 2) (s : State) : Host.Outcome State Fault Refusal :=
  .next (s.clocked fun s => s.usbPortResetEnd g k speed)

/-- USB_SUSPEND (R389). -/
def execUsbSuspend (g : Fin 4) (k : Fin 4) (s : State) : Host.Outcome State Fault Refusal :=
  .next (s.clocked fun s => s.usbSuspend g k)

/-- USB_RESUME (R389). -/
def execUsbResume (g : Fin 4) (k : Fin 4) (s : State) : Host.Outcome State Fault Refusal :=
  .next (s.clocked fun s => s.usbResume g k)

/-- USB_CONNECT_CHANGE (R389). -/
def execUsbConnectChange (g : Fin 4) (k : Fin 4) (attached : Bool) (s : State) : Host.Outcome State Fault Refusal :=
  .next (s.clocked fun s => s.usbConnectChange g k attached)

/-- USB_OVERCURRENT (R389). -/
def execUsbOvercurrent (g : Fin 4) (k : Fin 4) (s : State) : Host.Outcome State Fault Refusal :=
  .next (s.clocked fun s => s.usbOvercurrent g k)

/-- FIRE (R390). -/
def execFire (m : Master) (n : Fin 8) (s : State) : Host.Outcome State Fault Refusal :=
  .next (s.fire m n)

/-- PULSE_END (R390). -/
def execPulseEnd (n : Fin 8) (s : State) : Host.Outcome State Fault Refusal :=
  .next (s.pulseEnd n)

/-- DRAWER_SENSE_CHANGE (R390). -/
def execDrawerSenseChange (n : Fin 8) (level : Bool) (s : State) : Host.Outcome State Fault Refusal :=
  .next (s.drawerSense n level)

/-- GPIO_EDGE (R391). -/
def execGpioEdge (i : Fin 32) (level : Bool) (s : State) : Host.Outcome State Fault Refusal :=
  .next (s.gpioEdge i level)

/-- GIO_SET (R391). -/
def execGioSet (m : Master) (v : W32) (s : State) : Host.Outcome State Fault Refusal :=
  .next (s.gioSet m v)

/-- GIO_CLR (R391). -/
def execGioClr (m : Master) (v : W32) (s : State) : Host.Outcome State Fault Refusal :=
  .next (s.gioClr m v)

/-- STN_LIOEV_WRITE (R396). -/
def execStnLioevWrite (st : Stn) (hi : Bool) (v : W32) (s : State) : Host.Outcome State Fault Refusal :=
  ((s.noted.reserved (stnReg st (if hi then 0x174 else 0x170)) v).lioevWrite st hi v).out

/-- LRESET_FALL (R379). -/
def execLresetFall (s : State) : Host.Outcome State Fault Refusal :=
  .next (s.lresetFall)

end Sys2Proof.Machine
end

