-- ==== Sys2Proof/Machine/LcCmds.lean ====
section
/-! DEFINITION. Commands of the load cells and the Pantry (10, 16 R445). -/

namespace Sys2Proof.Machine

/-- LC_SAMPLE with its write, which goes through the DMA engine's matrix port before the channels (R284; 11 R311). A tile's atomic on the
entry in the same bank cycle leaves the write busy (08 R230). -/
def State.lcDeliver (s : State) (c : Fin 8) (first second : List (BitVec 24)) (x : LcTake) : State :=
  if !s.lcMakes c first second then s
  else
    let st := lcStn c
    let a := stnBase st + s.ringPlace c
    let s1 := s.mxEnter mDma a true
    let t := s1.lcSample c first second x.ovr
    let off := s1.ringPlace c
    let met := s1.meets (.station st) (a / 64 * 64) (BitVec.ofNat 64 (65535 * 2 ^ (a % 64))) x.around.meet
    if met = some .atomic ∧ banksAll off 16 (s1.bankSealed st) ∧ banksAll off 16 (s1.stnBankOn st) then t.busyMark (.station st) else t

/-- LC_SAMPLE (R280). -/
def execLcSample (c : Fin 8) (first second : List (BitVec 24)) (x : LcTake) (s : State) : Host.Outcome State Fault Refusal :=
  .next (s.lcDeliver c first second x)

/-- OPEN_WIRE (R283). -/
def execOpenWire (c : Fin 8) (line : Fin 6) (s : State) : Host.Outcome State Fault Refusal :=
  .next (s.openWire c line)

/-- EXCITATION_FAULT (R283). -/
def execExcitationFault (c : Fin 8) (s : State) : Host.Outcome State Fault Refusal :=
  .next (s.excitationFault c)

/-- SENSE_FAULT (R283). -/
def execSenseFault (c : Fin 8) (s : State) : Host.Outcome State Fault Refusal :=
  .next (s.senseFault c)

/-- CALSEAL_CHANGE (R287). -/
def execCalsealChange (isOpen : Bool) (s : State) : Host.Outcome State Fault Refusal :=
  .next (s.calsealChange isOpen)

/-- LOAD (R288). -/
def execLcLoad (c : Fin 8) (s : State) : Host.Outcome State Fault Refusal :=
  .next (s.lcLoad c)

/-- LC_LOAD_END (R288). -/
def execLcLoadEnd (c : Fin 8) (s : State) : Host.Outcome State Fault Refusal :=
  .next (s.lcLoadEnd c)

/-- LC_ENABLE (R290). -/
def execLcEnable (c : Fin 8) (s : State) : Host.Outcome State Fault Refusal :=
  .next (s.lcEnable c)

/-- LC_EXCITATION (R283). -/
def execLcExcitation (c : Fin 8) (on : Bool) (s : State) : Host.Outcome State Fault Refusal :=
  .next (s.lcExcitation c on)

/-- LC_SETTINGS_WRITE (R288). -/
def execLcSettingsWrite (c : Fin 8) (off : Byte) (v : W32) (s : State) : Host.Outcome State Fault Refusal :=
  ((s.noted.reservedIf (s.lcPresent c && s.calen) (lcReg c off.toNat) v).lcSettingsWrite c off.toNat v).out

/-- ARMING_EXPIRY (R295). -/
def execArmingExpiry (s : State) : Host.Outcome State Fault Refusal :=
  .next (s.disarm)

/-- PANTRY_NOTICE (R296). -/
def execPantryNotice (st : Stn) (s : State) : Host.Outcome State Fault Refusal :=
  (s.noted.pantryNotice st).out

/-- COMMIT (R296). -/
def execCommit (s : State) : Host.Outcome State Fault Refusal :=
  .next (s.commitGo s.arming)

/-- COMMIT_END (R296). -/
def execCommitEnd (ok : Bool) (s : State) : Host.Outcome State Fault Refusal :=
  .next (s.commitEnd ok)

/-- APPEND (R298). -/
def execAppend (s : State) : Host.Outcome State Fault Refusal :=
  .next (s.appendGo)

/-- APPEND_END (R298). -/
def execAppendEnd (ok : Bool) (s : State) : Host.Outcome State Fault Refusal :=
  .next (s.appendEnd ok)

/-- DISARM (R295). -/
def execDisarm (s : State) : Host.Outcome State Fault Refusal :=
  .next (s.disarm)

/-- VEXC_RANGE_CHANGE (R445). -/
def execVexcRangeChange (ok : Bool) (s : State) : Host.Outcome State Fault Refusal :=
  .next (s.setFld aGSTAT 1 1 ok.toNat)

/-- WIRE_RECONNECT (R283). -/
def execWireReconnect (c : Fin 8) (line : Fin 6) (s : State) : Host.Outcome State Fault Refusal :=
  .next (s.wireReconnect c line)

/-- SENSE_FAULT_END (R283). -/
def execSenseFaultEnd (c : Fin 8) (s : State) : Host.Outcome State Fault Refusal :=
  .next (s.senseFaultEnd c)

end Sys2Proof.Machine
end

