-- ==== Sys2Proof/Machine/LsuCmds.lean ====
section
/-! DEFINITION. Commands of the scan unit and the load-store unit: each is phase 4 of one trigger (02 R36; 04 R104, R114 to R125). -/

namespace Sys2Proof.Machine

/-- GRAD (R116). -/
def execGrad (st : Stn) (t : TileNo) (sg : Fin 8) (b : W64) (s : State) : Host.Outcome State Fault Refusal :=
  .next (s.trigger st t (some sg) (.scu .grad) b)

/-- THR (R116). -/
def execThr (st : Stn) (t : TileNo) (sg : Fin 8) (b : W64) (s : State) : Host.Outcome State Fault Refusal :=
  .next (s.trigger st t (some sg) (.scu .thr) b)

/-- CENSUS (R116). -/
def execCensus (st : Stn) (t : TileNo) (sg : Fin 8) (b : W64) (s : State) : Host.Outcome State Fault Refusal :=
  .next (s.trigger st t (some sg) (.scu .census) b)

/-- ABSD (R116). -/
def execAbsd (st : Stn) (t : TileNo) (sg : Fin 8) (b : W64) (s : State) : Host.Outcome State Fault Refusal :=
  .next (s.trigger st t (some sg) (.scu .absd) b)

/-- VCFG (R115). -/
def execVcfg (st : Stn) (t : TileNo) (b : W64) (s : State) : Host.Outcome State Fault Refusal :=
  .next (s.trigger st t none (.scu .vcfg) b)

/-- WIMG (R119). -/
def execWimg (st : Stn) (t : TileNo) (sg : Fin 8) (b : W64) (s : State) : Host.Outcome State Fault Refusal :=
  .next (s.trigger st t (some sg) (.scu .wimg) b)

/-- WOUT (R120). -/
def execWout (st : Stn) (t : TileNo) (sg : Fin 8) (b : W64) (s : State) : Host.Outcome State Fault Refusal :=
  .next (s.trigger st t (some sg) (.scu .wout) b)

/-- WALK (R121). -/
def execWalk (st : Stn) (t : TileNo) (b : W64) (s : State) : Host.Outcome State Fault Refusal :=
  .next (s.trigger st t none (.scu .walk) b)

/-- WALK_SAMPLE (R123). -/
def execWalkSample (st : Stn) (x : TileMeet) (s : State) : Host.Outcome State Fault Refusal :=
  .next (s.walkSample st x.tile x.meet)

/-- LD8 (R104). -/
def execLd8 (st : Stn) (t : TileNo) (sg : Fin 8) (b : W64) (s : State) : Host.Outcome State Fault Refusal :=
  .next (s.trigger st t (some sg) (.lsu .ld8) b)

/-- LD8S (R104). -/
def execLd8s (st : Stn) (t : TileNo) (sg : Fin 8) (b : W64) (s : State) : Host.Outcome State Fault Refusal :=
  .next (s.trigger st t (some sg) (.lsu .ld8s) b)

/-- LD16 (R104). -/
def execLd16 (st : Stn) (t : TileNo) (sg : Fin 8) (b : W64) (s : State) : Host.Outcome State Fault Refusal :=
  .next (s.trigger st t (some sg) (.lsu .ld16) b)

/-- LD16S (R104). -/
def execLd16s (st : Stn) (t : TileNo) (sg : Fin 8) (b : W64) (s : State) : Host.Outcome State Fault Refusal :=
  .next (s.trigger st t (some sg) (.lsu .ld16s) b)

/-- LD32 (R104). -/
def execLd32 (st : Stn) (t : TileNo) (sg : Fin 8) (b : W64) (s : State) : Host.Outcome State Fault Refusal :=
  .next (s.trigger st t (some sg) (.lsu .ld32) b)

/-- LD32S (R104). -/
def execLd32s (st : Stn) (t : TileNo) (sg : Fin 8) (b : W64) (s : State) : Host.Outcome State Fault Refusal :=
  .next (s.trigger st t (some sg) (.lsu .ld32s) b)

/-- LD64 (R104). -/
def execLd64 (st : Stn) (t : TileNo) (sg : Fin 8) (b : W64) (s : State) : Host.Outcome State Fault Refusal :=
  .next (s.trigger st t (some sg) (.lsu .ld64) b)

/-- ST8 (R104). -/
def execSt8 (st : Stn) (t : TileNo) (sg : Fin 8) (b : W64) (s : State) : Host.Outcome State Fault Refusal :=
  .next (s.trigger st t (some sg) (.lsu .st8) b)

/-- ST16 (R104). -/
def execSt16 (st : Stn) (t : TileNo) (sg : Fin 8) (b : W64) (s : State) : Host.Outcome State Fault Refusal :=
  .next (s.trigger st t (some sg) (.lsu .st16) b)

/-- ST32 (R104). -/
def execSt32 (st : Stn) (t : TileNo) (sg : Fin 8) (b : W64) (s : State) : Host.Outcome State Fault Refusal :=
  .next (s.trigger st t (some sg) (.lsu .st32) b)

/-- ST64 (R104). -/
def execSt64 (st : Stn) (t : TileNo) (sg : Fin 8) (b : W64) (s : State) : Host.Outcome State Fault Refusal :=
  .next (s.trigger st t (some sg) (.lsu .st64) b)

end Sys2Proof.Machine
end

