-- ==== Sys2Proof/Machine/MatrixCmds.lean ====
section
/-! DEFINITION. Commands of the matrix, and register writes (00, 11). -/

namespace Sys2Proof.Machine

/-- MATRIX_REQUEST (R306). -/
def execMatrixRequest (m : Master) (r : MxReq) (s : State) : Host.Outcome State Fault Refusal :=
  .next (s.matrixRequest m r)

/-- MATRIX_PIECE (R311). -/
def execMatrixPiece (g : Target) (around : Around) (s : State) : Host.Outcome State Fault Refusal :=
  (s.noted.reacting fun s => s.matrixPiece g around).out

/-- REMAP (R313). -/
def execRemap (m : Master) (v : W32) (s : State) : Host.Outcome State Fault Refusal :=
  (s.noted.remap m v).out

/-- REGISTER_WRITE (R8). -/
def execRegisterWrite (m : Master) (a : Addr) (v hw : W32) (s : State) : Host.Outcome State Fault Refusal :=
  (s.noted.reacting fun s => s.registerWrite m a.toNat v hw).out

end Sys2Proof.Machine
end

