-- ==== Sys2Proof/Machine/NetCmds.lean ====
section
/-! DEFINITION. Commands of the station network, of station start, stop and repair (01, 06, 07, 15). -/

namespace Sys2Proof.Machine

/-- STN_RUN_START (R33). -/
def execStnRunStart (st : Stn) (s : State) : Host.Outcome State Fault Refusal :=
  .next (s.reacting fun s => s.stnRunStart st)

/-- STATION_START_END (R33). -/
def execStationStartEnd (st : Stn) (s : State) : Host.Outcome State Fault Refusal :=
  (s.noted.hallStartEnd st).out

/-- STN_RUN_STOP (R33). -/
def execStnRunStop (st : Stn) (s : State) : Host.Outcome State Fault Refusal :=
  .next (s.reacting fun s => s.stnRunStop st)

/-- STATION_STOP_END (R33). -/
def execStationStopEnd (st : Stn) (s : State) : Host.Outcome State Fault Refusal :=
  (s.noted.hallStopEnd st).out

/-- STN_RUN_FAIL (R33). -/
def execStnRunFail (st : Stn) (s : State) : Host.Outcome State Fault Refusal :=
  .next (s.reacting fun s => s.stnRunFail st)

/-- STN_REPAIR_GO (R422). -/
def execStnRepairGo (st : Stn) (v : W32) (s : State) : Host.Outcome State Fault Refusal :=
  ((s.noted.reserved (stnReg st 0x1A8) v).stnRepairGo st v).out

/-- COLUMN_REPAIR (R18). -/
def execColumnRepair (st : Stn) (s : State) : Host.Outcome State Fault Refusal :=
  .next (s.reacting fun s => s.columnRepair st)

/-- STN_TWORLD_WRITE (R172). -/
def execStnTworldWrite (st : Stn) (hi : Bool) (v : W32) (s : State) : Host.Outcome State Fault Refusal :=
  ((s.noted.reserved (stnReg st (if hi then 0x144 else 0x140)) v).twWrite st hi v).out

/-- LINK_WORD_HOP (R198). -/
def execLinkWordHop (st : Stn) (sel : BitVec 9) (slot : BitVec 10) (found : LinkUpset) (s : State) : Host.Outcome State Fault Refusal :=
  .next (s.linkWordHop st sel.toNat slot.toNat found)

/-- CHANNEL_INJECT (R202). -/
def execChannelInject (st : Stn) (t : TileNo) (c : Fin 8) (slot : BitVec 10) (s : State) : Host.Outcome State Fault Refusal :=
  .next (s.channelInject st t c slot.toNat)

/-- CHANNEL_DATA_DELIVER (R203). -/
def execChannelDataDeliver (st : Stn) (t : TileNo) (slot : BitVec 10) (s : State) : Host.Outcome State Fault Refusal :=
  .next (s.channelDataDeliver st t slot.toNat)

/-- CREDIT_INJECT (R204). -/
def execCreditInject (st : Stn) (t : TileNo) (c : Fin 8) (slot : BitVec 10) (s : State) : Host.Outcome State Fault Refusal :=
  .next (s.creditInject st t c slot.toNat)

/-- CREDIT_DELIVER (R204). -/
def execCreditDeliver (st : Stn) (t : TileNo) (slot : BitVec 10) (s : State) : Host.Outcome State Fault Refusal :=
  .next (s.creditDeliver st t slot.toNat)

/-- MAILBOX_DELIVER (R207). -/
def execMailboxDeliver (st : Stn) (node : BitVec 6) (slot : BitVec 10) (s : State) : Host.Outcome State Fault Refusal :=
  .next (s.mailboxDeliver st node.toNat slot.toNat)

/-- FRAME_BOUNDARY (R212). -/
def execFrameBoundary (st : Stn) (s : State) : Host.Outcome State Fault Refusal :=
  .next (s.frameBoundary st)

/-- FREEZE_END (R213). -/
def execFreezeEnd (st : Stn) (s : State) : Host.Outcome State Fault Refusal :=
  .next (s.freezeEnd st)

/-- SLOT_TABLE_SCRUB (R214). -/
def execSlotTableScrub (st : Stn) (sel : BitVec 9) (entry : BitVec 10) (found : Upset) (s : State) : Host.Outcome State Fault Refusal :=
  .next (s.slotTableScrub st sel.toNat entry.toNat found)

/-- NET_FIX_GO (R218). -/
def execNetFixGo (st : Stn) (v : W32) (s : State) : Host.Outcome State Fault Refusal :=
  ((s.noted.reserved (stnReg st 0x418) v).netFixGo st v).out

/-- NET_HALT (R218). -/
def execNetHalt (st : Stn) (halt : Bool) (s : State) : Host.Outcome State Fault Refusal :=
  .next (s.netHalt st halt)

/-- HALL_MAILBOX_SEND (R219). -/
def execHallMailboxSend (st : Stn) (v : W32) (s : State) : Host.Outcome State Fault Refusal :=
  ((s.noted.reserved (stnReg st 0x42C) v).hallMailboxSend st v).out

/-- HALL_MAILBOX_POP (R219). -/
def execHallMailboxPop (st : Stn) (s : State) : Host.Outcome State Fault Refusal :=
  .next (s.hallTake st)

end Sys2Proof.Machine
end

