-- ==== Sys2Proof/Machine/NodeCmds.lean ====
section
/-! DEFINITION. Commands of the queues beyond the tile, of atomics and of line fills (02, 08, 15). -/

namespace Sys2Proof.Machine

/-- QUEUE_REQUEST_ARRIVAL (R246). -/
def execQueueRequestArrival (st : Stn) (t : TileNo) (x : NodeSlot) (s : State) : Host.Outcome State Fault Refusal :=
  .next (s.queueArrival st t x.node x.slot.toNat)

/-- ATOMIC_AT_BANK (R245). -/
def execAtomicAtBank (st : Stn) (x : NodeAccess) (s : State) : Host.Outcome State Fault Refusal :=
  .next (s.atomicAtBank st x.node x.collide)

/-- QUEUE_RESPONSE_ARRIVAL (R235). -/
def execQueueResponseArrival (st : Stn) (t : TileNo) (x : NodeSlot) (s : State) : Host.Outcome State Fault Refusal :=
  .next (s.queueResponse st t x.node x.slot.toNat)

/-- LINE_FILL_COMPLETE (R61). -/
def execLineFillComplete (st : Stn) (t : TileNo) (s : State) : Host.Outcome State Fault Refusal :=
  .next (s.lineFill st t)

/-- TILE_LFIX_GO (R425). -/
def execTileLfixGo (st : Stn) (t : TileNo) (v : W32) (s : State) : Host.Outcome State Fault Refusal :=
  (((s.noted.reserved (aLfix st t) v).lfixWrite st t v).1).out

/-- LINE_RELOAD_END (R425). -/
def execLineReloadEnd (st : Stn) (t : TileNo) (s : State) : Host.Outcome State Fault Refusal :=
  .next (s.lineReloadEnd st t)

end Sys2Proof.Machine
end

