-- ==== Sys2Proof/Machine/QuCmds.lean ====
section
/-! DEFINITION. Commands of the queue unit on the tile's side (08 R234 to R245). -/

namespace Sys2Proof.Machine

/-- LREQ (R234). -/
def execLreq (st : Stn) (t : TileNo) (k : Fin 4) (sg : Fin 8) (b : W64) (s : State) : Host.Outcome State Fault Refusal :=
  .next (s.trigger st t (some sg) (.lreq k) b)

/-- SADR (R234). -/
def execSadr (st : Stn) (t : TileNo) (k : Fin 4) (sg : Fin 8) (b : W64) (s : State) : Host.Outcome State Fault Refusal :=
  .next (s.trigger st t (some sg) (.sadr k) b)

/-- WAIT (R239). -/
def execWait (st : Stn) (t : TileNo) (k : Fin 4) (b : W64) (s : State) : Host.Outcome State Fault Refusal :=
  .next (s.trigger st t none (.wait k) b)

/-- BLK (R242). -/
def execBlk (st : Stn) (t : TileNo) (sg : Fin 8) (b : W64) (s : State) : Host.Outcome State Fault Refusal :=
  .next (s.trigger st t (some sg) .blk b)

/-- AADD (R245). -/
def execAadd (st : Stn) (t : TileNo) (sg : Fin 8) (b : W64) (s : State) : Host.Outcome State Fault Refusal :=
  .next (s.trigger st t (some sg) .aadd b)

/-- ASWP (R245). -/
def execAswp (st : Stn) (t : TileNo) (sg : Fin 8) (b : W64) (s : State) : Host.Outcome State Fault Refusal :=
  .next (s.trigger st t (some sg) .aswp b)

/-- ELEMENT_ISSUE (R235). -/
def execElementIssue (st : Stn) (t : TileNo) (k : Fin 4) (s : State) : Host.Outcome State Fault Refusal :=
  .next (s.elementIssue st t k)

/-- STORE_ELEMENT_SEND (R237). -/
def execStoreElementSend (st : Stn) (t : TileNo) (k : Fin 4) (s : State) : Host.Outcome State Fault Refusal :=
  .next (s.storeElementSend st t k)

/-- BLOCK_ISSUE (R243). -/
def execBlockIssue (st : Stn) (x : TileMeet) (k : Fin 4) (out : Bool) (s : State) : Host.Outcome State Fault Refusal :=
  .next (s.blockIssue st x.tile k out x.meet)

/-- BLOCK_DONE (R243). -/
def execBlockDone (st : Stn) (x : TileMeet) (k : Fin 4) (out : Bool) (s : State) : Host.Outcome State Fault Refusal :=
  .next (s.blockDone st x.tile k out x.meet)

end Sys2Proof.Machine
end

