-- ==== Sys2Proof/Machine/TestPort.lean ====
section
/-! DEFINITION. The test access port (spec 17 R471; IEEE 1149.1). -/

namespace Sys2Proof.Machine

def State.modTap (s : State) (f : Tap → Tap) : State := { s with tap := f s.tap }

/-- The IDCODE: stepping B0, part 0x4160, the JEDEC identity, and 1. -/
def idcodeWord : W32 := BitVec.ofNat 32 (0x1 * 2 ^ 28 + 0x4160 * 2 ^ 12 + Config.jedecId.toNat * 2 + 1)

/-- Bits of a word, least significant first, as they leave at TDO. -/
def wordBits (w : W32) : List Bool := (List.range 32).map fun i => bit w i

/-- BYPASS: one bit, captured as 0; pins are free of the port. -/
def State.tapBypass (s : State) : State := s.modTap fun T => { T with insn := .bypass, data := [false], driven := none }

/-- IDCODE. -/
def State.tapIdcode (s : State) : State := s.modTap fun T => { T with insn := .idcode, data := wordBits idcodeWord, driven := none }

/-- Boundary cells as they leave at TDO, cell 0 first. -/
def cellBits (b : Boundary) : List Bool := (List.range 299).map fun i => bit b i

/-- SAMPLE_PRELOAD: the pins are captured, and cells preloaded. -/
def State.tapSample (s : State) (pins preload : Boundary) : State :=
  s.modTap fun T => { T with insn := .sample, data := cellBits pins, preload := preload, driven := none }

/-- EXTEST: the pins are captured; the cells shifted in, or else those preloaded, drive the pins. -/
def State.tapExtest (s : State) (x : BoundaryScan) : State :=
  s.modTap fun T =>
    let cells := x.cells.getD T.preload
    { T with insn := .extest, data := cellBits x.pins, preload := cells, driven := some cells }

/-- While LOCK is set, TSEL, TREAD and THALT act as BYPASS. -/
def State.tapOpen (s : State) (f : State → State) : State := if s.vault.lock then s.tapBypass else f s

/-- TSEL. -/
def State.tapSel (s : State) (st : Stn) (phys : Phys) : State :=
  s.tapOpen fun s => s.modTap fun T => { T with insn := .tsel, driven := none, stn := st, phys := phys }

/-- TREAD: a word of the selected physical tile's aperture, read through the Hall's matrix access. The spare shows reset values, a
retired tile zero. -/
def State.tapRead (s : State) (off : Nat) : State :=
  s.tapOpen fun s =>
    let st := s.tap.stn
    let note := fun (s : State) (v : W32) =>
      s.modTap fun T => { T with insn := .tread, driven := none, read := some v, data := wordBits v }
    let o := off / 4 * 4
    match s.servedBy st s.tap.phys with
    | some t =>
      let a := tileBase st t + o
      if !s.mapped a then note s 0
      else
        let i := a % 64 / 4
        let x := ((s.mxEnter mHall a).beat mHall .read true (a / 64 * 64) ⟨BitVec.ofNat 64 (15 * 2 ^ (4 * i)), 0⟩ {}).1
        note x.1 (bits x.2.2 (32 * i) 32)
    | none => note s (if s.colState st (s.tap.phys.val / 6) = 0 then regReset (tileBase st 0 + o) else 0)

/-- THALT: the debug halt of the selected station. -/
def State.tapHalt (s : State) (halt : Bool) : State :=
  s.tapOpen fun s => (s.modTap fun T => { T with insn := .thalt, driven := none }).netHalt s.tap.stn halt

end Sys2Proof.Machine
end

