-- ==== Sys2Proof/Machine/TapCmds.lean ====
section
/-! DEFINITION. Instructions of the test access port (17). -/

namespace Sys2Proof.Machine

/-- BYPASS (R471). -/
def execBypass (s : State) : Host.Outcome State Fault Refusal :=
  .next (s.tapBypass)

/-- IDCODE (R471). -/
def execIdcode (s : State) : Host.Outcome State Fault Refusal :=
  .next (s.tapIdcode)

/-- SAMPLE_PRELOAD (R471). -/
def execSamplePreload (pins preload : Boundary) (s : State) : Host.Outcome State Fault Refusal :=
  .next (s.tapSample pins preload)

/-- EXTEST (R471). -/
def execExtest (x : BoundaryScan) (s : State) : Host.Outcome State Fault Refusal :=
  .next (s.tapExtest x)

/-- TSEL (R471). -/
def execTsel (st : Stn) (phys : Phys) (s : State) : Host.Outcome State Fault Refusal :=
  .next (s.tapSel st phys)

/-- TREAD (R471). -/
def execTread (off : BitVec 18) (s : State) : Host.Outcome State Fault Refusal :=
  .next (s.tapRead off.toNat)

/-- THALT (R471). -/
def execThalt (halt : Bool) (s : State) : Host.Outcome State Fault Refusal :=
  .next (s.tapHalt halt)

end Sys2Proof.Machine
end

