-- ==== Sys2Proof/Machine/TileCmds.lean ====
section
/-! DEFINITION. Commands of a tile's issue, boundaries and control registers (02 R36; 05 R146 to R169; 01 R474). -/

namespace Sys2Proof.Machine

/-- INSTRUCTION (R36). -/
def execInstruction (st : Stn) (t : TileNo) (meet : Meet) (s : State) : Host.Outcome State Fault Refusal :=
  (s.noted.issue st t meet).out

/-- INTERRUPT_ENTRY (R146). -/
def execInterruptEntry (st : Stn) (t : TileNo) (s : State) : Host.Outcome State Fault Refusal :=
  (s.noted.irqEntry st t).out

/-- ARITH_REPORT (R158). -/
def execArithReport (st : Stn) (t : TileNo) (s : State) : Host.Outcome State Fault Refusal :=
  .next (s.arithReport st t)

/-- DEFERRAL_WINDOW_END (R147). -/
def execDeferralWindowEnd (st : Stn) (t : TileNo) (s : State) : Host.Outcome State Fault Refusal :=
  .next (s.windowEnd st t)

/-- IDLE_WAKE (R146). -/
def execIdleWake (st : Stn) (t : TileNo) (s : State) : Host.Outcome State Fault Refusal :=
  (s.noted.idleWake st t).out

/-- OPERATION_COMPLETE (R46). -/
def execOperationComplete (st : Stn) (t : TileNo) (u : UnitId) (s : State) : Host.Outcome State Fault Refusal :=
  .next (s.operationComplete st t u)

/-- TILE_START (R165). -/
def execTileStart (st : Stn) (t : TileNo) (s : State) : Host.Outcome State Fault Refusal :=
  .next (s.tileStart st t)

/-- TILE_SELF_TEST_END (R165). -/
def execTileSelfTestEnd (st : Stn) (t : TileNo) (s : State) : Host.Outcome State Fault Refusal :=
  .next ((s.tileSelfTestEnd st t).hallReact s)

/-- PIPE_FAILURE (R474). -/
def execPipeFailure (st : Stn) (phys : Phys) (kind : PipeKind) (s : State) : Host.Outcome State Fault Refusal :=
  .next (s.pipeFailure st phys kind)

/-- TILE_STOP_REQUEST (R168). -/
def execTileStopRequest (st : Stn) (t : TileNo) (s : State) : Host.Outcome State Fault Refusal :=
  .next (s.tileStopRequest st t)

/-- TILE_STOP_TAKEN (R168). -/
def execTileStopTaken (st : Stn) (t : TileNo) (s : State) : Host.Outcome State Fault Refusal :=
  .next (s.tileStopTaken st t)

/-- TILE_TEST_REQUEST (R162). -/
def execTileTestRequest (st : Stn) (t : TileNo) (s : State) : Host.Outcome State Fault Refusal :=
  .next (s.tileTestRequest st t)

/-- TEST_ENTRY (R162). -/
def execTestEntry (st : Stn) (t : TileNo) (s : State) : Host.Outcome State Fault Refusal :=
  .next (s.testEntry st t)

/-- TILE_SWI (R168). -/
def execTileSwi (st : Stn) (t : TileNo) (hall : Bool) (v : W32) (s : State) : Host.Outcome State Fault Refusal :=
  ((s.noted.reserved (tileReg st t 0x1C) v).tileSwi st t hall v).out

end Sys2Proof.Machine
end

