-- ==== Sys2Proof/Machine/TimeCmds.lean ====
section
/-! DEFINITION. Commands of the time base and the device timers (11). -/

namespace Sys2Proof.Machine

/-- TIME_BASE_LATCH (R316). -/
def execTimeBaseLatch (m : Master) (s : State) : Host.Outcome State Fault Refusal :=
  .next (s.tbLatchRead m)

/-- TIMER_ENABLE (R317). -/
def execTimerEnable (n : Fin 8) (v : W32) (s : State) : Host.Outcome State Fault Refusal :=
  ((s.noted.reserved (tmrReg n 0) v).timerEnable n v).out

/-- TIMER_START (R317). -/
def execTimerStart (n : Fin 8) (s : State) : Host.Outcome State Fault Refusal :=
  .next (s.timerStart n)

/-- TIMER_EVENT (R317). -/
def execTimerEvent (n : Fin 8) (s : State) : Host.Outcome State Fault Refusal :=
  .next (s.timerEvent n)

end Sys2Proof.Machine
end

