-- ==== Sys2Proof/Machine/Dispatch.lean ====
section
/-! DEFINITION. One arm per command: a call of its meaning. -/

namespace Sys2Proof.Machine

/-- The effect of a command on everything but the queue. -/
def exec (i : Instr) (s : State) : Host.Outcome State Fault Refusal :=
  match i with
  | .instruction st t meet => Sys2Proof.Machine.execInstruction st t meet s
  | .interruptEntry st t => Sys2Proof.Machine.execInterruptEntry st t s
  | .arithReport st t => Sys2Proof.Machine.execArithReport st t s
  | .deferralWindowEnd st t => Sys2Proof.Machine.execDeferralWindowEnd st t s
  | .idleWake st t => Sys2Proof.Machine.execIdleWake st t s
  | .operationComplete st t u => Sys2Proof.Machine.execOperationComplete st t u s
  | .add st t n b => Sys2Proof.Machine.execAdd st t n b s
  | .addt st t n b => Sys2Proof.Machine.execAddt st t n b s
  | .sub st t n b => Sys2Proof.Machine.execSub st t n b s
  | .subt st t n b => Sys2Proof.Machine.execSubt st t n b s
  | .and st t n b => Sys2Proof.Machine.execAnd st t n b s
  | .or st t n b => Sys2Proof.Machine.execOr st t n b s
  | .xor st t n b => Sys2Proof.Machine.execXor st t n b s
  | .andn st t n b => Sys2Proof.Machine.execAndn st t n b s
  | .cmpeq st t n b => Sys2Proof.Machine.execCmpeq st t n b s
  | .cmpne st t n b => Sys2Proof.Machine.execCmpne st t n b s
  | .cmplt st t n b => Sys2Proof.Machine.execCmplt st t n b s
  | .cmpltu st t n b => Sys2Proof.Machine.execCmpltu st t n b s
  | .min st t n b => Sys2Proof.Machine.execMin st t n b s
  | .max st t n b => Sys2Proof.Machine.execMax st t n b s
  | .minu st t n b => Sys2Proof.Machine.execMinu st t n b s
  | .maxu st t n b => Sys2Proof.Machine.execMaxu st t n b s
  | .addw st t n b => Sys2Proof.Machine.execAddw st t n b s
  | .subw st t n b => Sys2Proof.Machine.execSubw st t n b s
  | .cmpeqw st t n b => Sys2Proof.Machine.execCmpeqw st t n b s
  | .cmpltw st t n b => Sys2Proof.Machine.execCmpltw st t n b s
  | .addh st t n b => Sys2Proof.Machine.execAddh st t n b s
  | .subh st t n b => Sys2Proof.Machine.execSubh st t n b s
  | .cmpeqh st t n b => Sys2Proof.Machine.execCmpeqh st t n b s
  | .cmplth st t n b => Sys2Proof.Machine.execCmplth st t n b s
  | .mla8 st t n k b => Sys2Proof.Machine.execMla8 st t n k b s
  | .mul8 st t n k b => Sys2Proof.Machine.execMul8 st t n k b s
  | .mla15 st t n k b => Sys2Proof.Machine.execMla15 st t n k b s
  | .mul15 st t n k b => Sys2Proof.Machine.execMul15 st t n k b s
  | .mla31 st t n k b => Sys2Proof.Machine.execMla31 st t n k b s
  | .mul31 st t n k b => Sys2Proof.Machine.execMul31 st t n k b s
  | .shl st t b => Sys2Proof.Machine.execShl st t b s
  | .shr st t b => Sys2Proof.Machine.execShr st t b s
  | .sar st t b => Sys2Proof.Machine.execSar st t b s
  | .rol st t b => Sys2Proof.Machine.execRol st t b s
  | .extu st t b => Sys2Proof.Machine.execExtu st t b s
  | .exts st t b => Sys2Proof.Machine.execExts st t b s
  | .ins st t b => Sys2Proof.Machine.execIns st t b s
  | .perm st t b => Sys2Proof.Machine.execPerm st t b s
  | .grad st t sg b => Sys2Proof.Machine.execGrad st t sg b s
  | .thr st t sg b => Sys2Proof.Machine.execThr st t sg b s
  | .census st t sg b => Sys2Proof.Machine.execCensus st t sg b s
  | .absd st t sg b => Sys2Proof.Machine.execAbsd st t sg b s
  | .vcfg st t b => Sys2Proof.Machine.execVcfg st t b s
  | .wimg st t sg b => Sys2Proof.Machine.execWimg st t sg b s
  | .wout st t sg b => Sys2Proof.Machine.execWout st t sg b s
  | .walk st t b => Sys2Proof.Machine.execWalk st t b s
  | .walkSample st x => Sys2Proof.Machine.execWalkSample st x s
  | .ld8 st t sg b => Sys2Proof.Machine.execLd8 st t sg b s
  | .ld8s st t sg b => Sys2Proof.Machine.execLd8s st t sg b s
  | .ld16 st t sg b => Sys2Proof.Machine.execLd16 st t sg b s
  | .ld16s st t sg b => Sys2Proof.Machine.execLd16s st t sg b s
  | .ld32 st t sg b => Sys2Proof.Machine.execLd32 st t sg b s
  | .ld32s st t sg b => Sys2Proof.Machine.execLd32s st t sg b s
  | .ld64 st t sg b => Sys2Proof.Machine.execLd64 st t sg b s
  | .st8 st t sg b => Sys2Proof.Machine.execSt8 st t sg b s
  | .st16 st t sg b => Sys2Proof.Machine.execSt16 st t sg b s
  | .st32 st t sg b => Sys2Proof.Machine.execSt32 st t sg b s
  | .st64 st t sg b => Sys2Proof.Machine.execSt64 st t sg b s
  | .lreq st t k sg b => Sys2Proof.Machine.execLreq st t k sg b s
  | .sadr st t k sg b => Sys2Proof.Machine.execSadr st t k sg b s
  | .wait st t k b => Sys2Proof.Machine.execWait st t k b s
  | .blk st t sg b => Sys2Proof.Machine.execBlk st t sg b s
  | .aadd st t sg b => Sys2Proof.Machine.execAadd st t sg b s
  | .aswp st t sg b => Sys2Proof.Machine.execAswp st t sg b s
  | .elementIssue st t k => Sys2Proof.Machine.execElementIssue st t k s
  | .storeElementSend st t k => Sys2Proof.Machine.execStoreElementSend st t k s
  | .blockIssue st x k out => Sys2Proof.Machine.execBlockIssue st x k out s
  | .blockDone st x k out => Sys2Proof.Machine.execBlockDone st x k out s
  | .queueRequestArrival st t x => Sys2Proof.Machine.execQueueRequestArrival st t x s
  | .atomicAtBank st g => Sys2Proof.Machine.execAtomicAtBank st g s
  | .queueResponseArrival st t x => Sys2Proof.Machine.execQueueResponseArrival st t x s
  | .jmp st t b => Sys2Proof.Machine.execJmp st t b s
  | .call st t b => Sys2Proof.Machine.execCall st t b s
  | .ret st t => Sys2Proof.Machine.execRet st t s
  | .sys st t b => Sys2Proof.Machine.execSys st t b s
  | .eret st t => Sys2Proof.Machine.execEret st t s
  | .shield st t b => Sys2Proof.Machine.execShield st t b s
  | .rdcr st t b => Sys2Proof.Machine.execRdcr st t b s
  | .wrcr st t b => Sys2Proof.Machine.execWrcr st t b s
  | .idle st t => Sys2Proof.Machine.execIdle st t s
  | .send st t c b => Sys2Proof.Machine.execSend st t c b s
  | .mdst st t b => Sys2Proof.Machine.execMdst st t b s
  | .mailboxTake st t nowait => Sys2Proof.Machine.execMailboxTake st t nowait s
  | .mailboxTakeComplete st t => Sys2Proof.Machine.execMailboxTakeComplete st t s
  | .mbox st t b => Sys2Proof.Machine.execMbox st t b s
  | .lineFillComplete st t => Sys2Proof.Machine.execLineFillComplete st t s
  | .tileStart st t => Sys2Proof.Machine.execTileStart st t s
  | .tileSelfTestEnd st t => Sys2Proof.Machine.execTileSelfTestEnd st t s
  | .pipeFailure st phys kind => Sys2Proof.Machine.execPipeFailure st phys kind s
  | .tileStopRequest st t => Sys2Proof.Machine.execTileStopRequest st t s
  | .tileStopTaken st t => Sys2Proof.Machine.execTileStopTaken st t s
  | .tileTestRequest st t => Sys2Proof.Machine.execTileTestRequest st t s
  | .testEntry st t => Sys2Proof.Machine.execTestEntry st t s
  | .tileSwi st t hall v => Sys2Proof.Machine.execTileSwi st t hall v s
  | .stnRunStart st => Sys2Proof.Machine.execStnRunStart st s
  | .stationStartEnd st => Sys2Proof.Machine.execStationStartEnd st s
  | .stnRunStop st => Sys2Proof.Machine.execStnRunStop st s
  | .stationStopEnd st => Sys2Proof.Machine.execStationStopEnd st s
  | .stnRunFail st => Sys2Proof.Machine.execStnRunFail st s
  | .stnRepairGo st v => Sys2Proof.Machine.execStnRepairGo st v s
  | .columnRepair st => Sys2Proof.Machine.execColumnRepair st s
  | .stnTworldWrite st hi v => Sys2Proof.Machine.execStnTworldWrite st hi v s
  | .linkWordHop st sel slot found => Sys2Proof.Machine.execLinkWordHop st sel slot found s
  | .channelInject st t c slot => Sys2Proof.Machine.execChannelInject st t c slot s
  | .channelDataDeliver st t slot => Sys2Proof.Machine.execChannelDataDeliver st t slot s
  | .creditInject st t c slot => Sys2Proof.Machine.execCreditInject st t c slot s
  | .creditDeliver st t slot => Sys2Proof.Machine.execCreditDeliver st t slot s
  | .mailboxDeliver st node slot => Sys2Proof.Machine.execMailboxDeliver st node slot s
  | .frameBoundary st => Sys2Proof.Machine.execFrameBoundary st s
  | .freezeEnd st => Sys2Proof.Machine.execFreezeEnd st s
  | .slotTableScrub st sel entry found => Sys2Proof.Machine.execSlotTableScrub st sel entry found s
  | .netFixGo st v => Sys2Proof.Machine.execNetFixGo st v s
  | .netHalt st halt => Sys2Proof.Machine.execNetHalt st halt s
  | .hallMailboxSend st v => Sys2Proof.Machine.execHallMailboxSend st v s
  | .hallMailboxPop st => Sys2Proof.Machine.execHallMailboxPop st s
  | .bankPowerWrite m hi v => Sys2Proof.Machine.execBankPowerWrite m hi v s
  | .bankPowerChangeEnd m bank => Sys2Proof.Machine.execBankPowerChangeEnd m bank s
  | .zeroFillStart m fill => Sys2Proof.Machine.execZeroFillStart m fill s
  | .zeroFillEnd m bank => Sys2Proof.Machine.execZeroFillEnd m bank s
  | .memScrub m bank found => Sys2Proof.Machine.execMemScrub m bank found s
  | .readReissue st g => Sys2Proof.Machine.execReadReissue st g s
  | .lp5Init n => Sys2Proof.Machine.execLp5Init n s
  | .lp5TrainingEnd n pass => Sys2Proof.Machine.execLp5TrainingEnd n pass s
  | .lp5SelfRefresh n enter => Sys2Proof.Machine.execLp5SelfRefresh n enter s
  | .lp5Mr4Read n hot => Sys2Proof.Machine.execLp5Mr4Read n hot s
  | .lp5Scrub n found => Sys2Proof.Machine.execLp5Scrub n found s
  | .frameStart st r vc fnum => Sys2Proof.Machine.execFrameStart st r vc fnum s
  | .frameEnd st r vc => Sys2Proof.Machine.execFrameEnd st r vc s
  | .lineStart st r vc line => Sys2Proof.Machine.execLineStart st r vc line s
  | .longPacket st r p => Sys2Proof.Machine.execLongPacket st r p s
  | .csiUlps st r enter => Sys2Proof.Machine.execCsiUlps st r enter s
  | .ingestWrite st k => Sys2Proof.Machine.execIngestWrite st k s
  | .slotComplete st k => Sys2Proof.Machine.execSlotComplete st k s
  | .contextEnable st k v => Sys2Proof.Machine.execContextEnable st k v s
  | .contextDisable st k v => Sys2Proof.Machine.execContextDisable st k v s
  | .contextAbort st k v => Sys2Proof.Machine.execContextAbort st k v s
  | .lcSample c first second ovr => Sys2Proof.Machine.execLcSample c first second ovr s
  | .openWire c line => Sys2Proof.Machine.execOpenWire c line s
  | .excitationFault c => Sys2Proof.Machine.execExcitationFault c s
  | .senseFault c => Sys2Proof.Machine.execSenseFault c s
  | .calsealChange isOpen => Sys2Proof.Machine.execCalsealChange isOpen s
  | .lcLoad c => Sys2Proof.Machine.execLcLoad c s
  | .lcLoadEnd c => Sys2Proof.Machine.execLcLoadEnd c s
  | .lcEnable c => Sys2Proof.Machine.execLcEnable c s
  | .lcExcitation c on => Sys2Proof.Machine.execLcExcitation c on s
  | .lcSettingsWrite c off v => Sys2Proof.Machine.execLcSettingsWrite c off v s
  | .armingExpiry => Sys2Proof.Machine.execArmingExpiry s
  | .pantryNotice st => Sys2Proof.Machine.execPantryNotice st s
  | .commit => Sys2Proof.Machine.execCommit s
  | .commitEnd ok => Sys2Proof.Machine.execCommitEnd ok s
  | .append => Sys2Proof.Machine.execAppend s
  | .appendEnd ok => Sys2Proof.Machine.execAppendEnd ok s
  | .disarm => Sys2Proof.Machine.execDisarm s
  | .matrixRequest m r => Sys2Proof.Machine.execMatrixRequest m r s
  | .matrixPiece g around => Sys2Proof.Machine.execMatrixPiece g around s
  | .remap m v => Sys2Proof.Machine.execRemap m v s
  | .timeBaseLatch m => Sys2Proof.Machine.execTimeBaseLatch m s
  | .timerEnable n v => Sys2Proof.Machine.execTimerEnable n v s
  | .timerStart n => Sys2Proof.Machine.execTimerStart n s
  | .timerEvent n => Sys2Proof.Machine.execTimerEvent n s
  | .dmaGo n => Sys2Proof.Machine.execDmaGo n s
  | .dmaAbort n => Sys2Proof.Machine.execDmaAbort n s
  | .dmaDisable n => Sys2Proof.Machine.execDmaDisable n s
  | .dmaDescriptorFetch x => Sys2Proof.Machine.execDmaDescriptorFetch x s
  | .dmaTransferStart n => Sys2Proof.Machine.execDmaTransferStart n s
  | .dmaBeatResponse x => Sys2Proof.Machine.execDmaBeatResponse x s
  | .dmaWriteback x => Sys2Proof.Machine.execDmaWriteback x s
  | .dmaIdleHandover n => Sys2Proof.Machine.execDmaIdleHandover n s
  | .dmaShadowWrite n hi v handover => Sys2Proof.Machine.execDmaShadowWrite n hi v handover s
  | .linkDataFrame p f => Sys2Proof.Machine.execLinkDataFrame p f s
  | .linkAck p f => Sys2Proof.Machine.execLinkAck p f s
  | .linkNak p f => Sys2Proof.Machine.execLinkNak p f s
  | .linkRetryTimeout p => Sys2Proof.Machine.execLinkRetryTimeout p s
  | .linkDown p why => Sys2Proof.Machine.execLinkDown p why s
  | .linkUp p => Sys2Proof.Machine.execLinkUp p s
  | .wrapRemove p => Sys2Proof.Machine.execWrapRemove p s
  | .probeSend p frac => Sys2Proof.Machine.execProbeSend p frac s
  | .probe p f counts frac => Sys2Proof.Machine.execProbe p f counts frac s
  | .probeReply p f t4 => Sys2Proof.Machine.execProbeReply p f t4 s
  | .ping p k => Sys2Proof.Machine.execPing p k s
  | .enumerate p k => Sys2Proof.Machine.execEnumerate p k s
  | .regRead p k => Sys2Proof.Machine.execRegRead p k s
  | .regWrite p k => Sys2Proof.Machine.execRegWrite p k s
  | .chainReset p k => Sys2Proof.Machine.execChainReset p k s
  | .timeSync p k residence => Sys2Proof.Machine.execTimeSync p k residence s
  | .imageLoad p k => Sys2Proof.Machine.execImageLoad p k s
  | .stationStart p k => Sys2Proof.Machine.execStationStart p k s
  | .stationStop p k => Sys2Proof.Machine.execStationStop p k s
  | .roleSet p k => Sys2Proof.Machine.execRoleSet p k s
  | .roleGet p k => Sys2Proof.Machine.execRoleGet p k s
  | .attest p k => Sys2Proof.Machine.execAttest p k s
  | .pantryRead p k => Sys2Proof.Machine.execPantryRead p k s
  | .mboxSend p k => Sys2Proof.Machine.execMboxSend p k s
  | .logRead p k => Sys2Proof.Machine.execLogRead p k s
  | .cmdTailWrite tail posted => Sys2Proof.Machine.execCmdTailWrite tail posted s
  | .rxTailWrite tail accessOk => Sys2Proof.Machine.execRxTailWrite tail accessOk s
  | .rxPacketDiscard => Sys2Proof.Machine.execRxPacketDiscard s
  | .pcieWindowAccess x op => Sys2Proof.Machine.execPcieWindowAccess x op s
  | .legacyRead la bheN fw => Sys2Proof.Machine.execLegacyRead la bheN fw s
  | .legacyWrite la bheN data fw => Sys2Proof.Machine.execLegacyWrite la bheN data fw s
  | .lresetRise => Sys2Proof.Machine.execLresetRise s
  | .lresetRecord => Sys2Proof.Machine.execLresetRecord s
  | .mirrorWrite m win pair v => Sys2Proof.Machine.execMirrorWrite m win pair v s
  | .setAliasWrite m win pair v => Sys2Proof.Machine.execSetAliasWrite m win pair v s
  | .clrAliasWrite m win pair v => Sys2Proof.Machine.execClrAliasWrite m win pair v s
  | .typeWrite m win quad v => Sys2Proof.Machine.execTypeWrite m win quad v s
  | .fifoPush m k v => Sys2Proof.Machine.execFifoPush m k v s
  | .fifoClr m k => Sys2Proof.Machine.execFifoClr m k s
  | .logPop => Sys2Proof.Machine.execLogPop s
  | .serialRxChar p c => Sys2Proof.Machine.execSerialRxChar p c s
  | .serialTxChar p => Sys2Proof.Machine.execSerialTxChar p s
  | .serDataRead m p => Sys2Proof.Machine.execSerDataRead m p s
  | .serDataWrite m p v => Sys2Proof.Machine.execSerDataWrite m p v s
  | .rxTimeout p => Sys2Proof.Machine.execRxTimeout p s
  | .modemChange p lines => Sys2Proof.Machine.execModemChange p lines s
  | .deRelease p => Sys2Proof.Machine.execDeRelease p s
  | .usbPipeGo g p fits => Sys2Proof.Machine.execUsbPipeGo g p fits s
  | .usbPipeAbort g p => Sys2Proof.Machine.execUsbPipeAbort g p s
  | .usbIntervalPoll g p o => Sys2Proof.Machine.execUsbIntervalPoll g p o s
  | .usbTransferEnd g p o => Sys2Proof.Machine.execUsbTransferEnd g p o s
  | .usbPortReset g k => Sys2Proof.Machine.execUsbPortReset g k s
  | .usbPortResetEnd g k speed => Sys2Proof.Machine.execUsbPortResetEnd g k speed s
  | .usbSuspend g k => Sys2Proof.Machine.execUsbSuspend g k s
  | .usbResume g k => Sys2Proof.Machine.execUsbResume g k s
  | .usbConnectChange g k attached => Sys2Proof.Machine.execUsbConnectChange g k attached s
  | .usbOvercurrent g k => Sys2Proof.Machine.execUsbOvercurrent g k s
  | .fire m n => Sys2Proof.Machine.execFire m n s
  | .pulseEnd n => Sys2Proof.Machine.execPulseEnd n s
  | .drawerSenseChange n level => Sys2Proof.Machine.execDrawerSenseChange n level s
  | .gpioEdge pin level => Sys2Proof.Machine.execGpioEdge pin level s
  | .gioSet m v => Sys2Proof.Machine.execGioSet m v s
  | .gioClr m v => Sys2Proof.Machine.execGioClr m v s
  | .stnLioevWrite st hi v => Sys2Proof.Machine.execStnLioevWrite st hi v s
  | .chainBoot p k => Sys2Proof.Machine.execChainBoot p k s
  | .flashErase => Sys2Proof.Machine.execFlashErase s
  | .flashProgram => Sys2Proof.Machine.execFlashProgram s
  | .bootFlashOpEnd ok => Sys2Proof.Machine.execBootFlashOpEnd ok s
  | .hashInit => Sys2Proof.Machine.execHashInit s
  | .hashUpdate => Sys2Proof.Machine.execHashUpdate s
  | .hashFinal => Sys2Proof.Machine.execHashFinal s
  | .verify key => Sys2Proof.Machine.execVerify key s
  | .sign => Sys2Proof.Machine.execSign s
  | .auth => Sys2Proof.Machine.execAuth s
  | .random => Sys2Proof.Machine.execRandom s
  | .gvAbort => Sys2Proof.Machine.execGvAbort s
  | .vaultCommandEnd => Sys2Proof.Machine.execVaultCommandEnd s
  | .tileLostNotice st t => Sys2Proof.Machine.execTileLostNotice st t s
  | .tileRestartNotice st t => Sys2Proof.Machine.execTileRestartNotice st t s
  | .tileLfixGo st t v => Sys2Proof.Machine.execTileLfixGo st t v s
  | .lineReloadEnd st t => Sys2Proof.Machine.execLineReloadEnd st t s
  | .lineFaultNotice st t => Sys2Proof.Machine.execLineFaultNotice st t s
  | .memFaultNotice m a => Sys2Proof.Machine.execMemFaultNotice m a s
  | .netFaultNotice st => Sys2Proof.Machine.execNetFaultNotice st s
  | .lockstepDivergence => Sys2Proof.Machine.execLockstepDivergence s
  | .wrst => Sys2Proof.Machine.execWrst s
  | .peerWatchArm st payload => Sys2Proof.Machine.execPeerWatchArm st payload s
  | .peerWatchPoll st r f => Sys2Proof.Machine.execPeerWatchPoll st r f s
  | .thermalSample st temp iod => Sys2Proof.Machine.execThermalSample st temp iod s
  | .thermtrip => Sys2Proof.Machine.execThermtrip s
  | .cprAvsWrite m v => Sys2Proof.Machine.execCprAvsWrite m v s
  | .vidStep => Sys2Proof.Machine.execVidStep s
  | .cprGateWrite m v => Sys2Proof.Machine.execCprGateWrite m v s
  | .powerOnReset => Sys2Proof.Machine.execPowerOnReset s
  | .sysrst => Sys2Proof.Machine.execSysrst s
  | .rstDev => Sys2Proof.Machine.execRstDev s
  | .rstChain => Sys2Proof.Machine.execRstChain s
  | .clockLoss => Sys2Proof.Machine.execClockLoss s
  | .deviceResetAssert => Sys2Proof.Machine.execDeviceResetAssert s
  | .resetRelease x => Sys2Proof.Machine.execResetRelease x s
  | .bypass => Sys2Proof.Machine.execBypass s
  | .idcode => Sys2Proof.Machine.execIdcode s
  | .samplePreload pins preload => Sys2Proof.Machine.execSamplePreload pins preload s
  | .extest pins => Sys2Proof.Machine.execExtest pins s
  | .tsel st phys => Sys2Proof.Machine.execTsel st phys s
  | .tread off => Sys2Proof.Machine.execTread off s
  | .thalt halt => Sys2Proof.Machine.execThalt halt s
  | .registerWrite m a v hw => Sys2Proof.Machine.execRegisterWrite m a v hw s
  | .startOfTransmission st r recognised => Sys2Proof.Machine.execStartOfTransmission st r recognised s
  | .packetHeaderError st r => Sys2Proof.Machine.execPacketHeaderError st r s
  | .vexcRangeChange ok => Sys2Proof.Machine.execVexcRangeChange ok s
  | .wireReconnect c line => Sys2Proof.Machine.execWireReconnect c line s
  | .senseFaultEnd c => Sys2Proof.Machine.execSenseFaultEnd c s
  | .lresetFall => Sys2Proof.Machine.execLresetFall s
  | .sfpModuleChange p present x => Sys2Proof.Machine.execSfpModuleChange p present x s
  | .pcieLinkChange x cfg => Sys2Proof.Machine.execPcieLinkChange x cfg s
  | .memoryNodeBankAccess st g collide => Sys2Proof.Machine.execMemoryNodeBankAccess st g collide s

end Sys2Proof.Machine
end

