-- ==== Sys2Proof/Machine/Tick.lean ====
section
/-! DEFINITION. One cycle of CLK_S with no command: the time base counts, and with it the timers (11 R316, R317), steps 2 and 3 of a
commit (10 R296), USB frames and drawer pulses and sense inputs (13 R389, R390), and the words that the Hall has to place (07 R219, 12 R347). -/

namespace Sys2Proof.Machine

/-- The firmware places the words that wait, on its own time. -/
def State.hallTick (s : State) : State :=
  if s.hall.run = .firmware then s.hallMails.noteAll s else s

/-- Lane I/O timed on the time base. -/
def State.laneTick (s : State) : State :=
  let s := (List.finRange 4).foldl (fun s g => s.frameTick g) s
  (List.finRange 8).foldl (fun s n => (s.pulseEnd n).senseSettle n) s

/-- One cycle of CLK_S (log entry 4): nothing counts while a device reset is asserted. -/
def State.tick (s : State) : State :=
  if s.core.asserted then s
  else ((List.finRange 8).foldl (fun (s : State) n => s.timerTick n) { s with timeBase := s.timeBase + 1 }).commitTick.laneTick.hallTick

end Sys2Proof.Machine
end

