-- ==== Sys2Proof/Safety.lean ====
section
/-! DEFINITION. What counts as a safe run: the canonical form of the state's sparse maps, kept by every step. -/

namespace Sys2Proof.Machine

/-- Memory holds its canonical form. -/
abbrev Memory.wf (s : State) : Bool := smWf memReset s.mem

/-- Registers hold their canonical form. -/
def Registers.wf (s : State) : Bool := smWf regReset s.regs

/-- A run of the queue's commands ends in no fault. -/
def safeStep (s : State) : Prop := ∃ t, step s = .next t

end Sys2Proof.Machine
end

