-- ==== Sys2Proof/WellFormed.lean ====
section
/-! DEFINITION. Which commands the world can send: ranges of operands that their types do not already give. -/

namespace Sys2Proof

/-- A SEL that names a router output (07 R196): nodes 0 to 49, ports L, N, E, S, W. -/
def selOk (sel : BitVec 9) : Bool := decide (sel.toNat / 8 < 50) && decide (sel.toNat % 8 < 5)

/-- A matrix request lies on 64-byte beats, 1 to 64 of them (11 R306). -/
def MxReq.ok (r : MxReq) : Bool :=
  decide (r.start.toNat % 64 = 0) && decide (1 ≤ r.beats.length) && decide (r.beats.length ≤ 64) && (match r.op with
    | .add .. | .swap .. => decide (r.beats.length = 1)
    | _ => true)

/-- An access of a bank's other port touches one to eight doublewords (08 R229). -/
def Around.ok (x : Around) : Bool := x.meet.all fun p => decide (1 ≤ p.n ∧ p.n ≤ 8)

/-- A chain packet has at most 4096 parameter bytes (12 R337). -/
def Packet.ok (k : Packet) : Bool := decide (k.params.length ≤ 4096)

/-- A CSI-2 long packet has a 16-bit word count (09 R256). -/
def LongPkt.ok (p : LongPkt) : Bool := decide (p.payload.length < 65536)

/-- A bank number exists in its memory (08 R220). -/
def BankMem.hasBank : BankMem → Fin 32 → Bool
  | .tile .., b => decide (b.val < 4)
  | .station _, _ => true
  | .hall, b => decide (b.val < 16)

/-- A PCIe request has 1 to 4096 bytes and crosses no 4 KiB boundary (12 R363, R365). -/
def WinOp.ok (x : BitVec 22) : WinOp → Bool
  | .read n => decide (1 ≤ n) && decide (x.toNat % 4096 + n ≤ 4096)
  | .write bs => decide (1 ≤ bs.length) && decide (x.toNat % 4096 + bs.length ≤ 4096)

/-- The command can be sent. -/
def Instr.wellFormed : Instr → Bool
  | .linkWordHop _ sel _ _ => selOk sel
  | .slotTableScrub _ sel _ _ => selOk sel
  | .mailboxDeliver _ node _ => decide (node.toNat < 50)
  | .bankPowerChangeEnd m b => m.hasBank b
  | .zeroFillEnd m b => m.hasBank b
  | .memScrub m b _ => m.hasBank b
  | .longPacket _ _ p => p.ok
  | .matrixRequest _ r => r.ok
  | .linkDataFrame _ f => decide (f.frame.body.length ≤ 65535) && !(decide (2 ≤ f.frame.type.toNat) && decide (f.frame.type.toNat ≤ 5)) &&
      f.around.ok
  | .linkAck _ f => f.type == 2
  | .linkNak _ f => f.type == 3
  | .probe _ f _ _ => f.type == 4
  | .probeReply _ f _ => f.type == 5
  | .pcieWindowAccess x r => r.op.ok x && r.around.ok
  | .cmdTailWrite _ posted => posted.all fun h => h.pkt.ok && h.around.ok
  | .ping _ k => k.ok
  | .enumerate _ k => k.ok
  | .regRead _ k => k.pkt.ok && k.around.ok
  | .regWrite _ k => k.pkt.ok && k.around.ok
  | .chainReset _ k => k.ok
  | .timeSync _ k _ => k.ok
  | .imageLoad _ k => k.ok
  | .stationStart _ k => k.ok
  | .stationStop _ k => k.ok
  | .roleSet _ k => k.ok
  | .roleGet _ k => k.ok
  | .attest _ k => k.ok
  | .pantryRead _ k => k.ok
  | .mboxSend _ k => k.ok
  | .logRead _ k => k.ok
  | .chainBoot _ k => k.pkt.ok && k.around.ok
  | .instruction _ _ _ => true
  | .interruptEntry _ _ => true
  | .arithReport _ _ => true
  | .deferralWindowEnd _ _ => true
  | .idleWake _ _ => true
  | .operationComplete _ _ _ => true
  | .add _ _ _ _ => true
  | .addt _ _ _ _ => true
  | .sub _ _ _ _ => true
  | .subt _ _ _ _ => true
  | .and _ _ _ _ => true
  | .or _ _ _ _ => true
  | .xor _ _ _ _ => true
  | .andn _ _ _ _ => true
  | .cmpeq _ _ _ _ => true
  | .cmpne _ _ _ _ => true
  | .cmplt _ _ _ _ => true
  | .cmpltu _ _ _ _ => true
  | .min _ _ _ _ => true
  | .max _ _ _ _ => true
  | .minu _ _ _ _ => true
  | .maxu _ _ _ _ => true
  | .addw _ _ _ _ => true
  | .subw _ _ _ _ => true
  | .cmpeqw _ _ _ _ => true
  | .cmpltw _ _ _ _ => true
  | .addh _ _ _ _ => true
  | .subh _ _ _ _ => true
  | .cmpeqh _ _ _ _ => true
  | .cmplth _ _ _ _ => true
  | .mla8 _ _ _ _ _ => true
  | .mul8 _ _ _ _ _ => true
  | .mla15 _ _ _ _ _ => true
  | .mul15 _ _ _ _ _ => true
  | .mla31 _ _ _ _ _ => true
  | .mul31 _ _ _ _ _ => true
  | .shl _ _ _ => true
  | .shr _ _ _ => true
  | .sar _ _ _ => true
  | .rol _ _ _ => true
  | .extu _ _ _ => true
  | .exts _ _ _ => true
  | .ins _ _ _ => true
  | .perm _ _ _ => true
  | .grad _ _ _ _ => true
  | .thr _ _ _ _ => true
  | .census _ _ _ _ => true
  | .absd _ _ _ _ => true
  | .vcfg _ _ _ => true
  | .wimg _ _ _ _ => true
  | .wout _ _ _ _ => true
  | .walk _ _ _ => true
  | .walkSample _ _ => true
  | .ld8 _ _ _ _ => true
  | .ld8s _ _ _ _ => true
  | .ld16 _ _ _ _ => true
  | .ld16s _ _ _ _ => true
  | .ld32 _ _ _ _ => true
  | .ld32s _ _ _ _ => true
  | .ld64 _ _ _ _ => true
  | .st8 _ _ _ _ => true
  | .st16 _ _ _ _ => true
  | .st32 _ _ _ _ => true
  | .st64 _ _ _ _ => true
  | .lreq _ _ _ _ _ => true
  | .sadr _ _ _ _ _ => true
  | .wait _ _ _ _ => true
  | .blk _ _ _ _ => true
  | .aadd _ _ _ _ => true
  | .aswp _ _ _ _ => true
  | .elementIssue _ _ _ => true
  | .storeElementSend _ _ _ => true
  | .blockIssue _ _ _ _ => true
  | .blockDone _ _ _ _ => true
  | .queueRequestArrival _ _ _ => true
  | .atomicAtBank _ _ => true
  | .queueResponseArrival _ _ _ => true
  | .jmp _ _ _ => true
  | .call _ _ _ => true
  | .ret _ _ => true
  | .sys _ _ _ => true
  | .eret _ _ => true
  | .shield _ _ _ => true
  | .rdcr _ _ _ => true
  | .wrcr _ _ _ => true
  | .idle _ _ => true
  | .send _ _ _ _ => true
  | .mdst _ _ _ => true
  | .mailboxTake _ _ _ => true
  | .mailboxTakeComplete _ _ => true
  | .mbox _ _ _ => true
  | .lineFillComplete _ _ => true
  | .tileStart _ _ => true
  | .tileSelfTestEnd _ _ => true
  | .pipeFailure _ _ _ => true
  | .tileStopRequest _ _ => true
  | .tileStopTaken _ _ => true
  | .tileTestRequest _ _ => true
  | .testEntry _ _ => true
  | .tileSwi _ _ _ _ => true
  | .stnRunStart _ => true
  | .stationStartEnd _ => true
  | .stnRunStop _ => true
  | .stationStopEnd _ => true
  | .stnRunFail _ => true
  | .stnRepairGo _ _ => true
  | .columnRepair _ => true
  | .stnTworldWrite _ _ _ => true
  | .channelInject _ _ _ _ => true
  | .channelDataDeliver _ _ _ => true
  | .creditInject _ _ _ _ => true
  | .creditDeliver _ _ _ => true
  | .frameBoundary _ => true
  | .freezeEnd _ => true
  | .netFixGo _ _ => true
  | .netHalt _ _ => true
  | .hallMailboxSend _ _ => true
  | .hallMailboxPop _ => true
  | .bankPowerWrite _ _ _ => true
  | .zeroFillStart _ _ => true
  | .readReissue _ _ => true
  | .lp5Init _ => true
  | .lp5TrainingEnd _ _ => true
  | .lp5SelfRefresh _ _ => true
  | .lp5Mr4Read _ _ => true
  | .lp5Scrub _ _ => true
  | .frameStart _ _ _ _ => true
  | .frameEnd _ _ _ => true
  | .lineStart _ _ _ _ => true
  | .csiUlps _ _ _ => true
  | .ingestWrite _ x => x.around.ok
  | .slotComplete _ x => x.around.ok
  | .contextEnable _ _ _ => true
  | .contextDisable _ _ _ => true
  | .contextAbort _ _ _ => true
  | .lcSample _ a b x => [10000, 5000, 2500, 2000, 1250, 1000, 500, 250].contains a.length && b.length == a.length && x.around.ok
  | .openWire _ _ => true
  | .excitationFault _ => true
  | .senseFault _ => true
  | .calsealChange _ => true
  | .lcLoad _ => true
  | .lcLoadEnd _ => true
  | .lcEnable _ => true
  | .lcExcitation _ _ => true
  | .lcSettingsWrite _ _ _ => true
  | .armingExpiry => true
  | .pantryNotice _ => true
  | .commit => true
  | .commitEnd _ => true
  | .append => true
  | .appendEnd _ => true
  | .disarm => true
  | .matrixPiece _ x => x.ok
  | .remap _ _ => true
  | .timeBaseLatch _ => true
  | .timerEnable _ _ => true
  | .timerStart _ => true
  | .timerEvent _ => true
  | .dmaGo _ => true
  | .dmaAbort _ => true
  | .dmaDisable _ => true
  | .dmaDescriptorFetch x => x.around.ok
  | .dmaTransferStart _ => true
  | .dmaBeatResponse x => x.around.ok
  | .dmaWriteback x => x.around.ok
  | .dmaIdleHandover _ => true
  | .dmaShadowWrite _ _ _ h => h.all Around.ok
  | .linkRetryTimeout _ => true
  | .linkDown _ _ => true
  | .linkUp _ => true
  | .wrapRemove _ => true
  | .probeSend _ _ => true
  | .rxTailWrite _ _ => true
  | .rxPacketDiscard => true
  | .legacyRead _ _ _ => true
  | .legacyWrite _ _ _ _ => true
  | .lresetRise => true
  | .lresetRecord => true
  | .mirrorWrite _ _ _ _ => true
  | .setAliasWrite _ _ _ _ => true
  | .clrAliasWrite _ _ _ _ => true
  | .typeWrite _ _ _ _ => true
  | .fifoPush _ _ _ => true
  | .fifoClr _ _ => true
  | .logPop => true
  | .serialRxChar _ _ => true
  | .serialTxChar _ => true
  | .serDataRead _ _ => true
  | .serDataWrite _ _ _ => true
  | .rxTimeout _ => true
  | .modemChange _ _ => true
  | .deRelease _ => true
  | .usbPipeGo _ _ _ => true
  | .usbPipeAbort _ _ => true
  | .usbIntervalPoll _ _ _ => true
  | .usbTransferEnd _ _ _ => true
  | .usbPortReset _ _ => true
  | .usbPortResetEnd _ _ _ => true
  | .usbSuspend _ _ => true
  | .usbResume _ _ => true
  | .usbConnectChange _ _ _ => true
  | .usbOvercurrent _ _ => true
  | .fire _ _ => true
  | .pulseEnd _ => true
  | .drawerSenseChange _ _ => true
  | .gpioEdge _ _ => true
  | .gioSet _ _ => true
  | .gioClr _ _ => true
  | .stnLioevWrite _ _ _ => true
  | .flashErase => true
  | .flashProgram => true
  | .bootFlashOpEnd _ => true
  | .hashInit => true
  | .hashUpdate => true
  | .hashFinal => true
  | .verify _ => true
  | .sign => true
  | .auth => true
  | .random => true
  | .gvAbort => true
  | .vaultCommandEnd => true
  | .tileLostNotice _ _ => true
  | .tileRestartNotice _ _ => true
  | .tileLfixGo _ _ _ => true
  | .lineReloadEnd _ _ => true
  | .lineFaultNotice _ _ => true
  | .memFaultNotice _ _ => true
  | .netFaultNotice _ => true
  | .lockstepDivergence => true
  | .wrst => true
  | .peerWatchArm _ _ => true
  | .peerWatchPoll _ _ _ => true
  | .thermalSample _ _ _ => true
  | .thermtrip => true
  | .cprAvsWrite _ _ => true
  | .vidStep => true
  | .cprGateWrite _ _ => true
  | .powerOnReset => true
  | .sysrst => true
  | .rstDev => true
  | .rstChain => true
  | .clockLoss => true
  | .deviceResetAssert => true
  | .resetRelease _ => true
  | .bypass => true
  | .idcode => true
  | .samplePreload _ _ => true
  | .extest _ => true
  | .tsel _ _ => true
  | .tread _ => true
  | .thalt _ => true
  | .registerWrite _ _ _ _ => true
  | .startOfTransmission _ _ _ => true
  | .packetHeaderError _ _ => true
  | .vexcRangeChange _ => true
  | .wireReconnect _ _ => true
  | .senseFaultEnd _ => true
  | .lresetFall => true
  | .sfpModuleChange _ _ _ => true
  | .pcieLinkChange _ _ => true
  | .memoryNodeBankAccess _ _ _ => true

end Sys2Proof
end

