-- ==== Sys2Proof/Certificates/Slice0/Obligations.lean ====
section
/-! DEFINITION. What is to be proved of the DQ-4160: each statement cites the rules of the manual it rests on. -/

open Sys2Proof Sys2Proof.Machine

/-! ### Arithmetic units (04) -/

/-- 04 R101: the scalar operations of both ALUs. With no operation in flight on the ALU, the trigger followed by the completion of its
operation leaves the tabled result in the result port of that ALU and changes nothing else; a is the operand port.

04 R101: the SIMD operations of both ALUs, lane by lane; no lane operation traps. `addt` and `subt` deliver the wrapped result, and
on signed overflow an arithmetic report is pending; what it holds is MacResults'. -/
def Obligations.AluOperations : Prop :=
  (∀ (s : State) (st : Stn) (t : TileNo) (n : Fin 2) (b : W64),
     let T := s.tile st t
     let a := T.opnd[n.val]
     T.run = .running → s.haltFrozen st = false → T.busy (.alu n) = false →
     ∀ row ∈ [(Instr.add st t n b, a + b), (.sub st t n b, a - b), (.and st t n b, a &&& b), (.or st t n b, a ||| b),
         (.xor st t n b, a ^^^ b), (.andn st t n b, a &&& ~~~b),
         (.cmpeq st t n b, if a = b then 1 else 0), (.cmpne st t n b, if a = b then 0 else 1),
         (.cmplt st t n b, if a.toInt < b.toInt then 1 else 0), (.cmpltu st t n b, if a.toNat < b.toNat then 1 else 0),
         (.min st t n b, if a.toInt ≤ b.toInt then a else b), (.max st t n b, if a.toInt ≤ b.toInt then b else a),
         (.minu st t n b, if a.toNat ≤ b.toNat then a else b), (.maxu st t n b, if a.toNat ≤ b.toNat then b else a)],
       ∃ u, exec row.1 s = .next u ∧
         exec (.operationComplete st t (.alu n)) u = .next (s.setTile st t { T with aluR := T.aluR.set n row.2 })) ∧
  (∀ (s : State) (st : Stn) (t : TileNo) (n : Fin 2) (b : W64),
     let T := s.tile st t
     let a := T.opnd[n.val]
     T.run = .running → s.haltFrozen st = false → T.busy (.alu n) = false →
     (∀ row ∈ [(Instr.addw st t n b, fun (x y : W32) => x + y), (.subw st t n b, fun x y => x - y),
         (.cmpeqw st t n b, fun x y => if x = y then 0xFFFFFFFF else 0),
         (.cmpltw st t n b, fun x y => if x.toInt < y.toInt then 0xFFFFFFFF else 0)],
       ∃ u r, exec row.1 s = .next u ∧
         exec (.operationComplete st t (.alu n)) u = .next (s.setTile st t { T with aluR := T.aluR.set n r }) ∧
         ∀ i < 2, r.extractLsb' (32 * i) 32 = row.2 (a.extractLsb' (32 * i) 32) (b.extractLsb' (32 * i) 32)) ∧
     (∀ row ∈ [(Instr.addh st t n b, fun (x y : W16) => x + y), (.subh st t n b, fun x y => x - y),
         (.cmpeqh st t n b, fun x y => if x = y then 0xFFFF else 0),
         (.cmplth st t n b, fun x y => if x.toInt < y.toInt then 0xFFFF else 0)],
       ∃ u r, exec row.1 s = .next u ∧
         exec (.operationComplete st t (.alu n)) u = .next (s.setTile st t { T with aluR := T.aluR.set n r }) ∧
         ∀ i < 4, r.extractLsb' (16 * i) 16 = row.2 (a.extractLsb' (16 * i) 16) (b.extractLsb' (16 * i) 16))) ∧
  (∀ (s : State) (st : Stn) (t : TileNo) (n : Fin 2) (b : W64),
     let T := s.tile st t
     let a := T.opnd[n.val]
     T.run = .running → s.haltFrozen st = false → T.busy (.alu n) = false →
     ∀ row ∈ [(Instr.addt st t n b, a + b, a.toInt + b.toInt), (.subt st t n b, a - b, a.toInt - b.toInt)],
       ∃ u r, exec row.1 s = .next u ∧
         exec (.operationComplete st t (.alu n)) u = .next (s.setTile st t { T with aluR := T.aluR.set n row.2.1, report := r }) ∧
         (-2 ^ 63 ≤ row.2.2 ∧ row.2.2 ≤ 2 ^ 63 - 1 → r = T.report) ∧
         (¬(-2 ^ 63 ≤ row.2.2 ∧ row.2.2 ≤ 2 ^ 63 - 1) → r ≠ none))

/-- 04 R103: the shift unit. b[5:0] is the position, b[13:8] + 1 the width; `ins` works on what `shf.r` shows. -/
def Obligations.ShiftResults : Prop :=
  ∀ (s : State) (st : Stn) (t : TileNo) (b : W64),
    let T := s.tile st t
    let a := T.opnd[4]
    let pos := b.toNat % 64
    let w := b.toNat / 256 % 64 + 1
    let field := BitVec.ofNat 64 (a.toNat / 2 ^ pos % 2 ^ w)
    T.run = .running → s.haltFrozen st = false → T.busy .shf = false →
    (∀ row ∈ [(Instr.shl st t b, BitVec.ofNat 64 (a.toNat * 2 ^ pos)), (.shr st t b, BitVec.ofNat 64 (a.toNat / 2 ^ pos)),
        (.sar st t b, BitVec.ofInt 64 (a.toInt / 2 ^ pos)),
        (.rol st t b, BitVec.ofNat 64 (a.toNat * 2 ^ pos + a.toNat / 2 ^ (64 - pos))), (.extu st t b, field)],
      ∃ u, exec row.1 s = .next u ∧
        exec (.operationComplete st t .shf) u = .next (s.setTile st t { T with shfR := row.2 })) ∧
    (∃ u r, exec (.exts st t b) s = .next u ∧
      exec (.operationComplete st t .shf) u = .next (s.setTile st t { T with shfR := r }) ∧
      ∀ i < 64, r.getLsbD i = field.getLsbD (min i (w - 1))) ∧
    (∃ u r, exec (.ins st t b) s = .next u ∧
      exec (.operationComplete st t .shf) u = .next (s.setTile st t { T with shfR := r }) ∧
      ∀ i < 64, r.getLsbD i = if pos ≤ i ∧ i < pos + w then a.getLsbD (i - pos) else T.shfR.getLsbD i) ∧
    (∃ u r, exec (.perm st t b) s = .next u ∧
      exec (.operationComplete st t .shf) u = .next (s.setTile st t { T with shfR := r }) ∧
      ∀ i < 8, r.extractLsb' (8 * i) 8 =
        if b.getLsbD (4 * i + 3) then 0 else a.extractLsb' (8 * (b.toNat / 16 ^ i % 8)) 8)

/-- 04 R105 to R109: `mulN` and `mlaN`, but for the divide step. A `mla` into an accumulator of another tag starts from zero; a lane sum
outside the lane's signed range sets OVS, is clamped or wrapped by SAT, and with TRAP leaves a report with the lanes and the
accumulator in IDET (05 R151).

04 R102, 05 R158: `addt` and `subt` leave a report, with the identity of the ALU, when the exact signed result lies outside 64 bits;
one that is pending then keeps its place and is marked ILOST.

05 R158, R159: a report names the offset of the triggering instruction, and its IMP is 1 with PREC = 0 and 0 with PREC = 1.
A command stands here for a trigger without an instruction around it: that its report names the offset the tile stands at, and that its
IMP follows psw.PREC alone, is the model's reading (log entries 5 and 81). -/
def Obligations.MacResults : Prop :=
  (∀ (s : State) (st : Stn) (t : TileNo) (n : Fin 2) (b : W64),
     let T := s.tile st t
     let a := T.opnd[n.val]
     T.run = .running → s.haltFrozen st = false → T.busy (.alu n) = false →
     ∀ row ∈ [(Instr.addt st t n b, a + b, a.toInt + b.toInt), (.subt st t n b, a - b, a.toInt - b.toInt)],
       ∃ u, exec row.1 s = .next u ∧
         exec (.operationComplete st t (.alu n)) u = .next (s.setTile st t
           { T with
             aluR := T.aluR.set n row.2.1
             report := if -2 ^ 63 ≤ row.2.2 ∧ row.2.2 ≤ 2 ^ 63 - 1 then T.report
               else match T.report with
               | none => some ⟨BitVec.ofNat 4 n.val, T.pc, 0, 0, false, !(T.psw.getLsbD 6)⟩
               | some r => some { r with ilost := true } })) ∧
  ∀ (s : State) (st : Stn) (t : TileNo) (n : Fin 2) (k : Fin 4) (b : W64),
    let T := s.tile st t
    let a := T.opnd[n.val + 2]
    let old := T.acc[n][k]
    let byte := fun (uns : Bool) (x : W64) (i : Nat) =>
      if uns then ((x.extractLsb' (8 * i) 8).toNat : Int) else (x.extractLsb' (8 * i) 8).toInt
    let result := fun (c : Instr) (accum : Bool) (w lanes : Nat) (tag : AccTag) (p : Nat → Int) =>
      let sum := fun (i : Nat) => (if accum ∧ old.tag = tag then accLane old.lanes w i else 0) + p i
      let fits := fun (i : Nat) => -2 ^ (w - 1) ≤ sum i ∧ sum i < 2 ^ (w - 1)
      let ovf := ∃ i < lanes, ¬fits i
      ∃ u A fxm report,
        exec c s = .next u ∧
        exec (.operationComplete st t (.mac n)) u = .next (s.setTile st t
          { T with acc := T.acc.set n (T.acc[n].set k A), macLast := T.macLast.set n (some k), fxm := fxm, report := report }) ∧
        A.tag = tag ∧
        (∀ i < lanes, accLane A.lanes w i =
          if fits i then sum i
          else if T.fxm.getLsbD 2 then (if sum i < 0 then -2 ^ (w - 1) else 2 ^ (w - 1) - 1)
          else (sum i + 2 ^ (w - 1)) % 2 ^ w - 2 ^ (w - 1)) ∧
        (ovf → fxm = T.fxm ||| 0x10000) ∧ (¬ovf → fxm = T.fxm) ∧
        (ovf ∧ T.fxm.getLsbD 3 = true →
          ∃ idet, report = some ⟨BitVec.ofNat 4 (2 + n.val), T.pc, idet, 0, false, !(T.psw.getLsbD 6)⟩ ∧
            idet.toNat % 256 = k.val ∧ idet.toNat < 65536 ∧
            ∀ i < 8, (idet.getLsbD (8 + i) = true ↔ i < lanes ∧ ¬fits i)) ∧
        (¬(ovf ∧ T.fxm.getLsbD 3 = true) → report = none)
    T.run = .running → s.haltFrozen st = false → T.busy (.mac n) = false → T.report = none →
    result (.mul8 st t n k b) false 24 8 .m8 (fun i => byte (T.fxm.getLsbD 4) a i * byte (T.fxm.getLsbD 5) b i) ∧
    result (.mla8 st t n k b) true 24 8 .m8 (fun i => byte (T.fxm.getLsbD 4) a i * byte (T.fxm.getLsbD 5) b i) ∧
    (T.fxm.getLsbD 6 = false →
      result (.mul15 st t n k b) false 40 4 .q15
        (fun i => (a.extractLsb' (16 * i) 16).toInt * (b.extractLsb' (16 * i) 16).toInt * 2) ∧
      result (.mla15 st t n k b) true 40 4 .q15
        (fun i => (a.extractLsb' (16 * i) 16).toInt * (b.extractLsb' (16 * i) 16).toInt * 2)) ∧
    result (.mul31 st t n k b) false 72 1 .q31 (fun _ => (a.extractLsb' 0 32).toInt * (b.extractLsb' 0 32).toInt * 2) ∧
    result (.mla31 st t n k b) true 72 1 .q31 (fun _ => (a.extractLsb' 0 32).toInt * (b.extractLsb' 0 32).toInt * 2)

/-- 04 R112, R113: with DIV set the Q15 triggers divide. `mul15` starts each lane with remainder aᵢ and quotient 0; `mla15` takes one
step by bᵢ, leaves a lane whose divisor is zero unchanged, and reports it, with DZ and the accumulator in IDET (05 R151) and IMP by
PREC (05 R158, R159); fxm stays as it is.
The offset and IMP of a trigger without an instruction around it are the model's reading (log entries 5 and 81). -/
def Obligations.MacDivideSteps : Prop :=
  ∀ (s : State) (st : Stn) (t : TileNo) (n : Fin 2) (k : Fin 4) (b : W64),
    let T := s.tile st t
    let a := T.opnd[n.val + 2]
    let old := T.acc[n][k]
    let r := fun (A : Acc) (i : Nat) => (A.lanes.extractLsb' (40 * i + 16) 24).toNat
    let q := fun (A : Acc) (i : Nat) => (A.lanes.extractLsb' (40 * i) 16).toNat
    let lane := fun (x : W64) (i : Nat) => (x.extractLsb' (16 * i) 16).toNat
    T.run = .running → s.haltFrozen st = false → T.busy (.mac n) = false → T.report = none → T.fxm.getLsbD 6 = true →
    (∃ u A, exec (.mul15 st t n k b) s = .next u ∧
      exec (.operationComplete st t (.mac n)) u = .next (s.setTile st t
        { T with acc := T.acc.set n (T.acc[n].set k A), macLast := T.macLast.set n (some k) }) ∧
      A.tag = .divide ∧ ∀ i < 4, r A i = lane a i ∧ q A i = 0) ∧
    (∃ u A report, exec (.mla15 st t n k b) s = .next u ∧
      exec (.operationComplete st t (.mac n)) u = .next (s.setTile st t
        { T with acc := T.acc.set n (T.acc[n].set k A), macLast := T.macLast.set n (some k), report := report }) ∧
      A.tag = .divide ∧
      (∀ i < 4,
        let r0 := if old.tag = .divide then r old i else 0
        let q0 := if old.tag = .divide then q old i else 0
        let r2 := 2 * r0 % 2 ^ 24
        let d := lane b i
        if d = 0 then r A i = r0 ∧ q A i = q0
        else if d ≤ r2 then r A i = r2 - d ∧ q A i = (2 * q0 + 1) % 2 ^ 16
        else r A i = r2 ∧ q A i = 2 * q0 % 2 ^ 16) ∧
      ((∃ i < 4, lane b i = 0) →
        report = some ⟨BitVec.ofNat 4 (2 + n.val), T.pc, BitVec.ofNat 64 (65536 + k.val), 0, false, !(T.psw.getLsbD 6)⟩) ∧
      ((∀ i < 4, lane b i ≠ 0) → report = none))

/-- 04 R114, R116: `grad`, `thr` and `census` shift the row window, compute 32 pixels for its middle row, write them to the block at a,
and deliver their summary to `scu.r`; `absd` writes nothing and leaves the window. Both blocks pass their checks, no word of them has
an error, and nothing they must wait for is under way. -/
def Obligations.VectorOperations : Prop :=
  ∀ (s : State) (st : Stn) (t : TileNo) (sg : Fin 8) (b : W64),
    let T := s.tile st t
    let a := T.opnd[5]
    let px := fun (x : BitVec 256) (i : Int) => (((x.extractLsb' (8 * (max 0 (min 31 i)).toNat) 8).toNat : Nat) : Int)
    let block := fun (off i : Nat) => ((s.byte (tileData st t (off + i))).toNat : Int)
    let readable := fun (off : Nat) (w : Bool) =>
      s.segCheck st T sg .data (!w) w false (multOf 32) [((off : Int), 32)] = none ∧ s.dataState st t off 32 = .ok ∧
      T.xferHolds off 32 w = false ∧ ∀ j < 4, s.upset (tileData st t (off + 8 * j)) = .none
    T.run = .running → s.haltFrozen st = false → T.busy .scu = false → T.scu.walk = none → Registers.wf s = true → Memory.wf s = true →
    readable b.toNat false →
    (readable a.toNat true →
      ∀ row ∈ [
          (Instr.grad st t sg b, fun (U M D : Int → Int) (i : Int) => ((M (i + 1) - M (i - 1)).natAbs + (D i - U i).natAbs) / 2,
            fun (o : Nat → Nat) => 256 * ((List.range 32).map o).foldl max 0 + (List.range 32).countP fun i => decide (T.scu.g.toNat ≤ o i)),
          (.thr st t sg b, fun U M D i =>
            if (U (i - 1) + 2 * U i + U (i + 1) + 2 * M (i - 1) + 4 * M i + 2 * M (i + 1) + D (i - 1) + 2 * D i + D (i + 1)) / 16
              + T.scu.c.toInt ≤ M i then 255 else 0,
            fun o => (List.range 32).countP fun i => decide (o i = 255)),
          (.census st t sg b, fun U M D i =>
            let less := fun (x : Int) (j : Nat) => if x < M i then 2 ^ j else 0
            less (U (i - 1)) 0 + less (U i) 1 + less (U (i + 1)) 2 + less (M (i - 1)) 3 + less (M (i + 1)) 4 + less (D (i - 1)) 5 +
              less (D i) 6 + less (D (i + 1)) 7,
            fun _ => 0)],
        ∃ u v X, exec row.1 s = .next u ∧ exec (.operationComplete st t .scu) u = .next v ∧
          (∀ i : Nat, i < 32 → px X i = block b.toNat i) ∧
          v.tile st t = { T with
            scu := { T.scu with u := T.scu.m, m := T.scu.d, d := X }
            scuR := BitVec.ofNat 64 (row.2.2 fun i => row.2.1 (px T.scu.m) (px T.scu.d) (px X) i) } ∧
          (∀ i < 32, (v.byte (tileData st t (a.toNat + i))).toNat = row.2.1 (px T.scu.m) (px T.scu.d) (px X) i) ∧
          (∀ x, x < tileData st t a.toNat ∨ tileData st t a.toNat + 32 ≤ x → v.byte x = s.byte x) ∧
          (∀ r, v.reg r = s.reg r) ∧ (∀ x y, (x, y) ≠ (st, t) → v.tile x y = s.tile x y) ∧
          v = { s with tiles := v.tiles, regs := v.regs, mem := v.mem, ecc := v.ecc }) ∧
    (readable a.toNat false →
      ∃ u v, exec (.absd st t sg b) s = .next u ∧ exec (.operationComplete st t .scu) u = .next v ∧
        v.tile st t = { T with scuR := BitVec.ofNat 64 (((List.range 32).map fun i => (block b.toNat i - block a.toNat i).natAbs).sum) } ∧
        (∀ x, v.byte x = s.byte x) ∧ (∀ r, v.reg r = s.reg r) ∧ (∀ x y, (x, y) ≠ (st, t) → v.tile x y = s.tile x y) ∧
        v = { s with tiles := v.tiles, regs := v.regs })

/-- 04 R115, R119, R120, R121: `vcfg` clears the window and sets C and G; `wimg` and `wout` set their descriptors when their spans pass
their checks, and deliver 0; `walk` begins a walk unless its parameters are invalid. No walk is under way.

04 R122, R123, 08 R231: one sample of a walk under way, that no block transfer holds back. Before the third sample no position can
be evaluated: the sample at the next pixel joins the profile, and a read that meets a write of the outside port is repeated and
counted. A walk that has left its image with fewer than two samples ends with END 1 and no edge.

04 R123, R124, R125: a later sample. Position j, with the differences about it, is an edge when its contrast reaches MINC and is a peak;
its entry has j, the sign, the contrast and the distance from the edge before in Q16.16. A full list ends the walk with END 2, an entry
or a sample in a bank that is not on with END 4 and ERR, the last sample with END 0 and the image boundary with END 1, once the last
position is found to be none. A walk with invalid parameters ends with END 3 at its trigger. A byte that a store of the walk's own
instruction has written over reads as before it (04 R118, log entry 29). -/
def Obligations.ScanWalks : Prop :=
  (∀ (s : State) (st : Stn) (t : TileNo) (sg : Fin 8) (b : W64),
     let T := s.tile st t
     let f := fun (lo w : Nat) => b.toNat / 2 ^ lo % 2 ^ w
     let banksOn := fun (off len : Nat) => ∀ w ∈ wordsOf off len, s.tileBankOn st t (bankOf w) = true
     T.run = .running → s.haltFrozen st = false → T.busy .scu = false → T.scu.walk = none →
     (∃ u, exec (.vcfg st t b) s = .next u ∧ exec (.operationComplete st t .scu) u = .next (s.setTile st t
       { T with
         scu := { T.scu with c := b.extractLsb' 0 8, g := b.extractLsb' 8 8, u := 0, m := 0, d := 0 }
         scuR := 0 })) ∧
     (let span := f 48 12 * (f 32 12 - 1) + f 20 12
      (f 20 12 = 0 ∨ f 32 12 = 0 ∨
       (s.segCheck st T sg .data true false false anyAlign [((f 0 17 : Int), span)] = none ∧ banksOn (f 0 17) span)) →
       ∃ u, exec (.wimg st t sg b) s = .next u ∧ exec (.operationComplete st t .scu) u =
         .next (s.setTile st t { T with scu := { T.scu with wimg := b }, scuR := 0 })) ∧
     ((f 20 12 = 0 ∧ f 0 17 % 8 = 0 ∨ f 20 12 ≠ 0 ∧
         s.segCheck st T sg .data false true false (multOf 8) [((f 0 17 : Int), 8 * f 20 12)] = none ∧ banksOn (f 0 17) (8 * f 20 12)) →
       ∃ u, exec (.wout st t sg b) s = .next u ∧ exec (.operationComplete st t .scu) u =
         .next (s.setTile st t { T with scu := { T.scu with wout := b }, scuR := 0 })) ∧
     (let a := T.opnd[5]
      let w : Walk := ⟨a.extractLsb' 0 32, a.extractLsb' 32 32, b, [], 0, 0, T.qu.next, []⟩
      (walkInvalid T.scu w = false →
        exec (.walk st t b) s = .next (s.setTile st t { T with scu := { T.scu with walk := some w } })) ∧
      (walkInvalid T.scu w = true →
        ∃ u, exec (.walk st t b) s = .next u ∧
          exec (.operationComplete st t .scu) u = .next (s.setTile st t { T with scuR := 0x300000000 })))) ∧
  (∀ (s : State) (st : Stn) (t : TileNo) (meet : Meet) (w : Walk),
     let T := s.tile st t
     let k := w.prof.length
     let p := walkPixel w k
     let inside := 0 ≤ p.1 ∧ p.1 < ((T.scu.wimg.toNat / 2 ^ 20 % 2 ^ 12 : Nat) : Int) ∧
       0 ≤ p.2 ∧ p.2 < ((T.scu.wimg.toNat / 2 ^ 32 % 2 ^ 12 : Nat) : Int)
     let off := T.scu.wimg.toNat % 2 ^ 17 + p.2.toNat * (T.scu.wimg.toNat / 2 ^ 48 % 2 ^ 12) + p.1.toNat
     let read := s.countCe st t off 1
     let x := (w.before.lookup off).getD (s.byte (tileData st t off))
     T.scu.walk = some w → s.haltFrozen st = false → T.walkWaits w p = false →
     (k < 2 → inside → k + 1 ≠ (w.path.toNat / 2 ^ 32) % 2 ^ 16 → s.dataState st t off 1 = .ok →
       exec (.walkSample st ⟨t, meet⟩) s = .next ((if meet = .write then read.bump (tileReg st t 0x214) 1 else read).setTile st t
         { T with scu := { T.scu with walk := some { w with prof := x :: w.prof } } })) ∧
     (k < 2 → ¬inside → T.busy .scu = false →
       exec (.walkSample st ⟨t, meet⟩) s = .next (s.setTile st t
         { T with scu := { T.scu with walk := none }, scuR := BitVec.ofNat 64 (2 ^ 32 + k * 65536 + w.edges % 65536) }))) ∧
  (∀ (s : State) (st : Stn) (t : TileNo) (w : Walk),
     let T := s.tile st t
     let k := w.prof.length
     let p := walkPixel w k
     let img := fun (lo n : Nat) => T.scu.wimg.toNat / 2 ^ lo % 2 ^ n
     let list := fun (lo n : Nat) => T.scu.wout.toNat / 2 ^ lo % 2 ^ n
     let inside := 0 ≤ p.1 ∧ p.1 < (img 20 12 : Int) ∧ 0 ≤ p.2 ∧ p.2 < (img 32 12 : Int)
     let off := img 0 17 + p.2.toNat * img 48 12 + p.1.toNat
     let x := (w.before.lookup off).getD (s.byte (tileData st t off))
     let smp := fun (i : Nat) => (((if i = k then x else w.prof.getD (k - 1 - i) 0).toNat : Nat) : Int)
     let d := fun (i : Nat) => smp i - smp (i - 1)
     let toward := fun (i j : Nat) => if 0 ≤ d i * d j then (d j).natAbs else 0
     let before := fun (j : Nat) => if j ≤ 1 then 0 else toward j (j - 1)
     let edge := fun (j after : Nat) => 0 < (d j).natAbs ∧ list 32 8 ≤ (d j).natAbs ∧ before j ≤ (d j).natAbs ∧ after < (d j).natAbs
     let ended := fun (s : State) (v : Nat) => Host.Outcome.next (φ := Fault) (ρ := Refusal)
       (s.setTile st t { T with scu := { T.scu with walk := none }, scuR := BitVec.ofNat 64 v })
     let status := fun (ended samples : Nat) => ended * 2 ^ 32 + samples % 65536 * 65536 + w.edges % 65536
     let read := s.countCe st t off 1
     let sample := exec (.walkSample st ⟨t, .none⟩) s
     let entry := list 0 17 + 8 * w.edges
     let last := (w.path.toNat / 2 ^ 32) % 2 ^ 16
     T.scu.walk = some w → s.haltFrozen st = false → T.walkWaits w p = false → T.busy .scu = false → Memory.wf s = true →
     (inside → s.dataState st t off 1 = .off → sample = ended s (2 ^ 63 + status 4 k)) ∧
     (2 ≤ k → ¬inside → ¬edge (k - 1) 0 → sample = ended s (status 1 k)) ∧
     (2 ≤ k → inside → s.dataState st t off 1 = .ok →
       let j := k - 1
       let after := toward j k
       (¬edge j after → k + 1 ≠ last →
         sample = .next (read.setTile st t { T with scu := { T.scu with walk := some { w with prof := x :: w.prof } } })) ∧
       (¬edge j after → k + 1 = last → ¬edge k 0 → sample = ended read (status 0 (k + 1))) ∧
       (edge j after → list 20 12 ≤ w.edges → sample = ended read (status 2 (k + 1))) ∧
       (edge j after → w.edges < list 20 12 → read.tileBankOn st t (bankOf entry) = false →
         sample = ended read (2 ^ 63 + status 4 (k + 1))) ∧
       (edge j after → w.edges < list 20 12 → read.tileBankOn st t (bankOf entry) = true → k + 1 ≠ last →
         let a : Int := before j
         let b : Int := (d j).natAbs
         let c : Int := after
         let pos : W32 := BitVec.ofInt 32 (j * 65536 - 32768 + Int.tdiv ((a - c) * 65536) (2 * (a - 2 * b + c)))
         ∃ u, sample = .next u ∧
           u.le (tileData st t entry) 8 =
             j % 65536 * 2 ^ 48 + (if d j < 0 then 2 ^ 40 else 0) + b.toNat % 256 * 2 ^ 32 + (pos - w.prevP).toNat ∧
           (u.tile st t).scu.walk = some { w with
             prof := x :: w.prof, edges := w.edges + 1, prevP := pos
             before := w.before.filter fun e => e.1 < entry ∨ entry + 8 ≤ e.1 } ∧
           (∀ a, a < tileData st t entry ∨ tileData st t entry + 8 ≤ a → u.byte a = s.byte a) ∧
           (∀ r, u.reg r = read.reg r) ∧ ∀ y z, (y, z) ≠ (st, t) → u.tile y z = s.tile y z)))

/-! ### Loads, stores and segments (04, 06) -/

/-- 04 R104: a load that passes its checks and waits for nothing enters stage 1 of the load line with the bytes at the address,
zero-extended or sign-extended. Corrected words are counted (`countCe`, 08 R227); nothing else changes, and no byte of memory.

04 R104, 02 R67: a store that passes its checks and waits for nothing writes the low bytes of a, and no register, tile or other
byte of memory changes. -/
def Obligations.LoadsAndStores : Prop :=
  (∀ (s : State) (st : Stn) (t : TileNo) (sg : Fin 8) (b : W64),
     let T := s.tile st t
     let zero := fun (n : Nat) => BitVec.ofNat 64 (s.le (tileData st t b.toNat) n)
     let sign := fun (n : Nat) => (BitVec.ofNat (8 * n) (s.le (tileData st t b.toNat) n)).signExtend 64
     T.run = .running → s.haltFrozen st = false →
     ∀ row ∈ [(Instr.ld8 st t sg b, 1, zero 1), (.ld8s st t sg b, 1, sign 1), (.ld16 st t sg b, 2, zero 2),
         (.ld16s st t sg b, 2, sign 2), (.ld32 st t sg b, 4, zero 4), (.ld32s st t sg b, 4, sign 4), (.ld64 st t sg b, 8, zero 8)],
       s.segCheck st T sg .data true false false alignOk [((b.toNat : Int), row.2.1)] = none →
       T.scu.walkHolds b.toNat row.2.1 = false → T.xferHolds b.toNat row.2.1 false = false →
       s.dataState st t b.toNat row.2.1 = .ok →
       exec row.1 s = .next ((s.countCe st t b.toNat row.2.1).setTile st t { T with ld1 := some row.2.2 })) ∧
  (∀ (s : State) (st : Stn) (t : TileNo) (sg : Fin 8) (b : W64),
     let T := s.tile st t
     T.run = .running → s.haltFrozen st = false → Memory.wf s = true →
     ∀ row ∈ [(Instr.st8 st t sg b, 1), (.st16 st t sg b, 2), (.st32 st t sg b, 4), (.st64 st t sg b, 8)],
       s.segCheck st T sg .data false true false alignOk [((b.toNat : Int), row.2)] = none →
       T.scu.walkHolds b.toNat row.2 = false → T.xferHolds b.toNat row.2 true = false →
       s.dataState st t b.toNat row.2 = .ok →
       ∃ u, exec row.1 s = .next u ∧
         (∀ i < row.2, u.byte (tileData st t b.toNat + i) = T.opnd[6].extractLsb' (8 * i) 8) ∧
         (∀ x, x < tileData st t b.toNat ∨ tileData st t b.toNat + row.2 ≤ x → u.byte x = s.byte x) ∧
         u = { s with mem := u.mem, ecc := u.ecc })

/-- 06 R179, 02 R38, 05 R148, R149: a load or store whose segment check fails raises the cause and the address that the check gives, at
once; the access itself does nothing. A report that an operation in flight leaves, or that is pending, is taken first.

06 R179, R180, R183: a data access, a read or a write. It is refused with cause 0x06 unless the segment is valid, a tile segment of the
tile's world, usable at its level, grants the access, and the bytes are not of instruction memory; then with cause 0x04 unless it is
aligned, or lies in one word of a segment with rotation; then with cause 0x05 when it leaves the segment or data memory. -/
def Obligations.DataAccessChecks : Prop :=
  (∀ (s : State) (st : Stn) (t : TileNo) (sg : Fin 8) (b : W64) (cause : Byte) (e : W64),
     let T := s.tile st t
     let u := s.setTile st t T.drain
     let taken := match T.drain.report with
       | none => u.enter st t { cause := cause, efaddr := e }
       | some r => u.takeReport st t r
     T.run = .running → s.haltFrozen st = false →
     (∀ row ∈ [(Instr.ld8 st t sg b, 1), (.ld8s st t sg b, 1), (.ld16 st t sg b, 2), (.ld16s st t sg b, 2), (.ld32 st t sg b, 4),
         (.ld32s st t sg b, 4), (.ld64 st t sg b, 8)],
       s.segCheck st T sg .data true false false alignOk [((b.toNat : Int), row.2)] = some (cause, e) →
       exec row.1 s = .next taken) ∧
     (∀ row ∈ [(Instr.st8 st t sg b, 1), (.st16 st t sg b, 2), (.st32 st t sg b, 4), (.st64 st t sg b, 8)],
       s.segCheck st T sg .data false true false alignOk [((b.toNat : Int), row.2)] = some (cause, e) →
       exec row.1 s = .next taken)) ∧
  (∀ (s : State) (T : Tile) (st : Stn) (k : Fin 8) (a n : Nat) (wr : Bool),
     let A := T.sgA[k]
     let lo := (A.extractLsb' 0 40).toNat
     let hi := (T.sgB[k].extractLsb' 0 40).toNat
     let check := s.segCheck st T k .data (!wr) wr false alignOk [((a : Int), n)]
     let usable := A.getLsbD 63 = true ∧ A.extractLsb' 61 2 = 0 ∧ A.getLsbD 60 = pswSealed T.psw ∧
       (pswLvl T.psw = 0 → A.getLsbD 58 = true) ∧ A.getLsbD (if wr then 56 else 55) = true ∧ (a + n ≤ 0x20000 ∨ 0x30000 ≤ a)
     let aligned := a % n = 0 ∨ (A.getLsbD 59 = true ∧ a % 8 + n ≤ 8)
     let inside := lo ≤ a ∧ a + n - 1 ≤ hi ∧ a + n ≤ 0x20000
     0 < n → n ≤ 8 →
     (¬usable → check = some (0x06, BitVec.ofNat 64 a)) ∧
     (usable → ¬aligned → check = some (0x04, BitVec.ofNat 64 a)) ∧
     (usable → aligned → ¬inside → check = some (0x05, BitVec.ofNat 64 a)) ∧
     (usable → aligned → inside → check = none))

/-! ### The queue unit and the memory nodes (08) -/

/-- 08 R234, R239, R242, R245: the triggers of the queue unit, once their checks pass, nothing makes them wait and no atomic has failed. `lreq` and `sadr`
open a stream of COUNT elements, `wait` shows the status of its queue, `blk` begins a transfer, and an atomic that its world, level
and bank permit is queued for its node. -/
def Obligations.QueueTriggers : Prop :=
  ∀ (s : State) (st : Stn) (t : TileNo) (k : Fin 4) (sg : Fin 8) (b : W64),
    let T := s.tile st t
    let u := T.qu
    let f := fun (lo w : Nat) => b.toNat / 2 ^ lo % 2 ^ w
    let count := if f 43 8 = 0 then 256 else f 43 8
    let accesses := (List.range count).map fun (i : Nat) => ((f 0 40 : Int) + i * (b.extractLsb' 52 12).toInt, 2 ^ f 40 2)
    let x : Machine.Stream := {
      addr := b.extractLsb' 0 40, stride := b.extractLsb' 52 12, left := count, size := Fin.ofNat 4 (f 40 2),
      sx := b.getLsbD 42, space := T.sgA[sg].extractLsb' 61 2, ord := u.next }
    let nblk := if f 45 11 = 0 then 2048 else f 45 11
    let o := 64 * f 0 34
    let a := 64 * f 34 11
    let w : BlockXfer := {
      taddr := BitVec.ofNat 17 a, oaddr := BitVec.ofNat 40 o, nblk := nblk,
      space := T.sgA[sg].extractLsb' 61 2, ord := u.next, issued := 0, inFlight := 0, dones := [], bad := none, back := [] }
    let j : Fin 4 := Fin.ofNat 4 (f 57 2)
    let at_ := 8 * f 0 21
    T.run = .running → s.haltFrozen st = false → u.atomicFail = none →
    (s.segCheck st T sg .qu true false false alignOk accesses = none → u.lq[k].streams.length < 4 → u.lq[k].block = none →
      exec (.lreq st t k sg b) s = .next (s.setTile st t { T with qu := { u with
        lq := u.lq.set k { u.lq[k] with streams := u.lq[k].streams ++ [x] }
        next := u.next + 1
        shown := .status k false } })) ∧
    (s.segCheck st T sg .qu false true false alignOk accesses = none → u.sq[k].streams.length < 4 → u.sq[k].block = none →
      exec (.sadr st t k sg b) s = .next (s.setTile st t { T with qu := { u with
        sq := u.sq.set k (StoreQueue.pair 16 { u.sq[k] with streams := u.sq[k].streams ++ [x] })
        next := u.next + 1
        shown := .status k true } })) ∧
    (waitOver u u.lq[k] k b = true → (f 0 2 = 1 → u.sq[k].failed = none) →
      exec (.wait st t k b) s = .next (s.setTile st t { T with qu := { u with
        lq := if f 0 2 = 0 ∧ b.getLsbD 14 then u.lq.set k { u.lq[k] with entries := u.lq[k].entries.tail } else u.lq.set k u.lq[k]
        ne := !b.getLsbD 15 && u.ne
        wb := !b.getLsbD 15 && u.wb
        shown := .status k (b.getLsbD 2) } })) ∧
    ((∀ i < 4, s.tileBankOn st t i = true) →
      (b.getLsbD 56 = false → s.segCheck st T sg .qu true false false anyAlign [((o : Int), 64 * nblk)] = none →
        s.segCheck st T 0 .data false true false anyAlign [((a : Int), 64 * nblk)] = none →
        u.lq[j].streams = [] → u.lq[j].out = 0 → u.lq[j].block = none →
        exec (.blk st t sg b) s = .next (s.setTile st t { T with qu := { u with
          lq := u.lq.set j { u.lq[j] with block := some w }
          next := u.next + 1
          shown := .status j false } })) ∧
      (b.getLsbD 56 = true → s.segCheck st T sg .qu false true false anyAlign [((o : Int), 64 * nblk)] = none →
        s.segCheck st T 0 .data true false false anyAlign [((a : Int), 64 * nblk)] = none →
        u.sq[j].streams = [] → u.sq[j].count = 0 → u.sq[j].block = none →
        exec (.blk st t sg b) s = .next (s.setTile st t { T with qu := { u with
          sq := u.sq.set j { u.sq[j] with block := some w }
          next := u.next + 1
          shown := .status j true } }))) ∧
    (s.segCheck st T sg .qu true true false alignOk [((at_ : Int), 8)] = none → T.sgA[sg].extractLsb' 61 2 = 1 →
      pswSealed T.psw = true → pswLvl T.psw ≠ 0 → s.stnBankOn st (at_ / 0x80000) = true →
      ∀ row ∈ [(Instr.aadd st t sg b, false), (.aswp st t sg b, true)],
        exec row.1 s = .next (s.setTile st t ({ T with qu := { u with
          atomics := u.atomics ++ [(u.next, row.2, (b.extractLsb' 21 43).signExtend 64, BitVec.ofNat 40 at_)]
          next := u.next + 1
          shown := .atomicPending u.next } }.pumpAtomic t)))

/-- 08 R235, R237, R243: elements and blocks on their way. The next load element reserves an entry and is sent; the next store element
is sent; the next block of a transfer is issued, an outbound one with its bytes from tile data memory; an answered block is taken
up, an inbound one into tile data memory. Word credits of the node pay for what is sent, whose queue words wait to enter the network
(R246, 07 R209). Accesses that meet the outside port are counted or flagged (R231).

08 R240, R243: the end of a transfer, in either direction. When the last block of a running transfer is taken up, BEND is 1, BDONE is the
number of blocks, the transfer is gone and interrupt line 2 is pending. The lowest block that has failed is kept until no block is in
flight; BEND then names its failure, BDONE is its number, and line 2 is pending. A block whose bytes cannot be read from tile data memory
fails in the same way. -/
def Obligations.QueueTransfers : Prop :=
  (∀ (s : State) (st : Stn) (t : TileNo) (k : Fin 4) (meet : Meet),
     let T := s.tile st t
     let u := T.qu
     let words := fun (node : Fin 9) (n : Nat) (op : QOp) (a : Addr) =>
       queueWordsOf .request (BitVec.ofNat 6 t.val) (BitVec.ofNat 6 (40 + node.val)) n (.req ⟨t, T.runs, op, a⟩)
     T.run = .running → s.haltFrozen st = false →
     (∀ x rest, u.lq[k].streams = x :: rest → u.lq[k].block = none → u.lq[k].entries.length < 16 →
       u.holds x.space (x.addr.toNat / 64) x.ord = false → 1 ≤ u.credits[nodeOf x.space x.addr] →
       exec (.elementIssue st t k) s = .next (s.setTile st t { T with qu := { u with
         lq := u.lq.set k { u.lq[k] with
           entries := u.lq[k].entries ++ [.reserved u.next x.addr]
           streams := if x.left ≤ 1 then rest else { x with addr := x.addr + x.stride.signExtend 40, left := x.left - 1 } :: rest }
         next := u.next + 1
         credits := u.credits.set (nodeOf x.space x.addr) (u.credits[nodeOf x.space x.addr] - 1)
         outbox := u.outbox ++ words (nodeOf x.space x.addr) 1 (.load k u.next x.size x.sx) x.addr } })) ∧
     (∀ e rest, u.sq[k].ready = e :: rest → 2 ≤ u.credits[nodeOf e.space e.addr] → u.atomics = [] →
       exec (.storeElementSend st t k) s = .next (s.setTile st t { T with qu := { u with
         sq := u.sq.set k { u.sq[k] with ready := rest, sent := u.sq[k].sent + 1 }
         credits := u.credits.set (nodeOf e.space e.addr) (u.credits[nodeOf e.space e.addr] - 2)
         outbox := u.outbox ++ words (nodeOf e.space e.addr) 2 (.store k e.size e.v) e.addr } })) ∧
     (∀ x, x.bad = none → x.issued < x.nblk → x.dones.length ≠ x.nblk →
       let a := x.oaddr + BitVec.ofNat 40 (64 * x.issued)
       let off := x.taddr.toNat + 64 * x.issued
       let y := { x with issued := x.issued + 1, inFlight := x.inFlight + 1 }
       let read := s.countCe st t off 64
       (u.lq[k].block = some x → x.inFlight + u.lq[k].entries.length < 16 → u.holds x.space (a.toNat / 64) x.ord = false → 1 ≤ u.credits[nodeOf x.space a] →
         exec (.blockIssue st ⟨t, meet⟩ k false) s = .next (s.setTile st t { T with qu := { u with
           lq := u.lq.set k { u.lq[k] with block := some y }
           credits := u.credits.set (nodeOf x.space a) (u.credits[nodeOf x.space a] - 1)
           outbox := u.outbox ++ words (nodeOf x.space a) 1 (.blockRead k x.issued) a } })) ∧
       (u.sq[k].block = some x → x.inFlight + u.sq[k].count < 16 → T.scu.walkHoldsBlock x.ord off true = false →
         9 ≤ u.credits[nodeOf x.space a] → s.dataState st t off 64 = .ok → u.atomics = [] →
         exec (.blockIssue st ⟨t, meet⟩ k true) s = .next ((if meet = .write then read.bump (tileReg st t 0x214) 1 else read).setTile st t
           { T with qu := { u with
           sq := u.sq.set k { u.sq[k] with block := some y }
           credits := u.credits.set (nodeOf x.space a) (u.credits[nodeOf x.space a] - 9)
           outbox := u.outbox ++ words (nodeOf x.space a) 9 (.blockWrite k x.issued (s.bytes (tileData st t off) 64)) a } }))) ∧
     (∀ x i data rest, x.bad = none → x.back = (i, .ok, data) :: rest → x.dones.length + 1 < x.nblk →
       let y := { x with back := rest, inFlight := x.inFlight - 1, dones := i :: x.dones }
       let off := x.taddr.toNat + 64 * i
       let written := s.writeData st t off data
       (u.sq[k].block = some x →
         exec (.blockDone st ⟨t, meet⟩ k true) s = .next (s.setTile st t { T with qu := { u with
           sq := u.sq.set k { u.sq[k] with block := some y } } })) ∧
       (u.lq[k].block = some x → T.scu.walkHoldsBlock x.ord off false = false → (∀ j < 4, s.tileBankOn st t j = true) →
         exec (.blockDone st ⟨t, meet⟩ k false) s = .next ((if meet = .read then written.setFlag (tileReg st t 0x218) 1 else written).setTile st t
           { T with qu := { u with lq := u.lq.set k { u.lq[k] with block := some y } } })))) ∧
  (∀ (s : State) (st : Stn) (t : TileNo) (k : Fin 4) (meet : Meet) (out : Bool) (x : BlockXfer) (i : Nat) (r : RespStat)
     (data : List Byte) (rest : List (Nat × RespStat × List Byte)),
     let T := s.tile st t
     let holding := fun (U : Tile) (b : Option BlockXfer) (e : BitVec 3) (d : Nat) =>
       if out then { U with qu := { U.qu with sq := U.qu.sq.set k { U.qu.sq[k] with block := b, bend := e, bdone := d } } }
       else { U with qu := { U.qu with lq := U.qu.lq.set k { U.qu.lq[k] with block := b, bend := e, bdone := d } } }
     let ended := fun (e : BitVec 3) (d : Nat) => holding { T with ipend := putBit T.ipend 2 true } none e d
     let code := fun (r : RespStat) => match r with
       | .ok => (1 : BitVec 3) | .busError => 2 | .notOn => 3 | .uncorrectable => 4
     let off := x.taddr.toNat + 64 * i
     let written := s.writeData st t off data
     T.run = .running → s.haltFrozen st = false → T.qu.atomics = [] →
     (if out then T.qu.sq[k].block else T.qu.lq[k].block) = some x →
     (x.back = (i, .ok, data) :: rest → x.bad = none → x.dones.length + 1 = x.nblk →
       (out = true → exec (.blockDone st ⟨t, meet⟩ k out) s = .next (s.setTile st t (ended 1 x.nblk))) ∧
       (out = false → T.scu.walkHoldsBlock x.ord off false = false → (∀ j < 4, s.tileBankOn st t j = true) →
         exec (.blockDone st ⟨t, meet⟩ k out) s = .next
           ((if meet = .read then written.setFlag (tileReg st t 0x218) 1 else written).setTile st t (ended 1 x.nblk)))) ∧
     (x.back = (i, r, data) :: rest → r ≠ .ok →
       let m := match x.bad with
         | none => (i, r)
         | some (j, q) => if i < j then (i, r) else (j, q)
       (x.inFlight = 1 → exec (.blockDone st ⟨t, meet⟩ k out) s = .next (s.setTile st t (ended (code m.2) m.1))) ∧
       (1 < x.inFlight → exec (.blockDone st ⟨t, meet⟩ k out) s = .next (s.setTile st t
         (holding T (some { x with back := rest, inFlight := x.inFlight - 1, bad := some m })
           (if out then T.qu.sq[k].bend else T.qu.lq[k].bend) (if out then T.qu.sq[k].bdone else T.qu.lq[k].bdone))))) ∧
     (out = true → i = x.issued → x.bad = none → x.issued < x.nblk → x.inFlight = 0 → T.qu.sq[k].count < 16 →
       T.scu.walkHoldsBlock x.ord off true = false → 9 ≤ T.qu.credits[nodeOf x.space (x.oaddr + BitVec.ofNat 40 (64 * x.issued))] →
       (s.dataState st t off 64 = .off → exec (.blockIssue st ⟨t, meet⟩ k true) s = .next (s.setTile st t (ended 3 x.issued))) ∧
       (s.dataState st t off 64 = .bad →
         exec (.blockIssue st ⟨t, meet⟩ k true) s = .next ((s.recordUe st t off 64).setTile st t (ended 4 x.issued)))))

/-- 07 R209, 08 R231, R245, R246: requests at their nodes. A queue word leaves its last link; with the last word of a request, taken in
turn, the node takes the request and its word credits come back. The node answers a load or a block read with the bytes of its bank,
performs a store, and performs an atomic, a sum or a swap, in one access, answering the old doubleword. A read that meets the matrix in
its bank cycle is answered busy, counted, and reissued, also when it meets it again; so is an atomic that meets one of the matrix, which
sets WB as well. A request that its bank or its word does not let be performed is answered with the failure.

08 R235, R237, R243, R245, R247: with its last word a response of the tile's present run reaches the queue unit: a load element arrives in
the entry it was reserved for, or fails there; a block's answer waits for the transfer; a store element is performed, and the first that
failed is kept; the old value of an atomic shows in `qu.r`, and a failed one is pending; a response of an earlier run is discarded.
What `qu.r` shows after a failed atomic is a free value (log entry 2). That the words of a
message name it as a whole, and that an answer other than a block read takes one word, is the model's choice (log entry 32).
How a meeting is expressed, and the answer to the later of two atomics, is the model's reading (log entry 86). -/
def Obligations.NodeRequestsAndResponses : Prop :=
  (∀ (s : State) (st : Stn) (g : Fin 8),
     let S := s.stn st
     let base := stnBase st
     let replied := fun (u : State) (n : Nat) (q : QReq) (r : RespStat) (data : List Byte) => u.modStn st fun S => { S with
       nodeQ := S.nodeQ.set g S.nodeQ[g].tail
       reissue := S.reissue.set g false
       resps := S.resps ++ queueWordsOf .response (BitVec.ofNat 6 (40 + g.val)) (BitVec.ofNat 6 q.tile.val) n
         (.resp ⟨Fin.ofNat 9 g.val, q, r, data⟩) }
     let answered := fun (u : State) (n : Nat) (q : QReq) (data : List Byte) => replied u n q .ok data
     let busy := fun (t : TileNo) => ((s.bump (tileReg st t 0x214) 1).bump (stnReg st 0x220) 1).setStn st
       { S with reissue := S.reissue.set g true }
     (∀ (t : TileNo) (slot : BitVec 10) (cyc i n : Nat) (w : LinkWord) (q : QReq),
       let T := s.tile st q.tile
       let node : Fin 9 := Fin.ofNat 9 g.val
       let key := 64 * (40 + g.val) + t.val
       let inTurn := i = 0 ∨ smGet (fun _ => 0) S.parts key = i
       let left := fun (k : Nat) => { S.clearOut (nodeSel (40 + g.val)) with parts := smSet (fun _ => 0) S.parts key k }
       s.netLive st = true → S.outWord (nodeSel (40 + g.val)) = some (cyc, w) → cyc ≤ S.frameBase + slot.toNat →
       w.src.toNat = t.val → w.queue = some ⟨i, n, .req q⟩ →
       (inTurn → i + 1 = n → exec (.queueRequestArrival st t ⟨node, slot⟩) s = .next
         ((s.setTile st q.tile ({ T with qu := { T.qu with
           credits := T.qu.credits.set node (T.qu.credits[node] + reqWords q.op) } }.pumpAtomic q.tile)).setStn st
             { left 0 with nodeQ := S.nodeQ.set g (S.nodeQ[g] ++ [q]) })) ∧
       (inTurn → i + 1 ≠ n → exec (.queueRequestArrival st t ⟨node, slot⟩) s = .next (s.setStn st (left (i + 1)))) ∧
       (¬inTurn → exec (.queueRequestArrival st t ⟨node, slot⟩) s = .next (s.setStn st (left 0)))) ∧
     (∀ (t : TileNo) (run : Nat) (addr : Addr) (rest : List QReq) (k : Fin 4) (id : Nat) (size : Fin 4),
       let off := addr.toNat % 0x1000000
       let n := 2 ^ size.val
       (∀ sx : Bool, s.stnMemState st off n = .ok →
         let q : QReq := ⟨t, run, .load k id size sx, addr⟩
         S.nodeQ[g] = q :: rest →
         (S.reissue[g] = false →
           exec (.memoryNodeBankAccess st g false) s = .next (answered (s.stnMemCe st off n) 1 q (s.bytes (base + off) n)) ∧
           exec (.memoryNodeBankAccess st g true) s = .next (busy t)) ∧
         (S.reissue[g] = true →
           exec (.readReissue st ⟨g, false⟩) s = .next (answered (s.stnMemCe st off n) 1 q (s.bytes (base + off) n)) ∧
           exec (.readReissue st ⟨g, true⟩) s = .next (busy t))) ∧
       (∀ i : Nat, s.stnMemState st off 64 = .ok → S.nodeQ[g] = ⟨t, run, .blockRead k i, addr⟩ :: rest → S.reissue[g] = false →
         exec (.memoryNodeBankAccess st g false) s = .next
           (answered (s.stnMemCe st off 64) 8 ⟨t, run, .blockRead k i, addr⟩ (s.bytes (base + off) 64))) ∧
       (∀ v : W64, s.stnMemState st off n = .ok → S.nodeQ[g] = ⟨t, run, .store k size v, addr⟩ :: rest → S.reissue[g] = false →
         exec (.memoryNodeBankAccess st g false) s = .next
           (answered (s.stnMemWrite st off (leBytes n v.toNat)) 1 ⟨t, run, .store k size v, addr⟩ [])) ∧
       (∀ (swap : Bool) (v : W64), s.stnMemState st off 8 = .ok →
         let q : QReq := ⟨t, run, .atomic id swap v, addr⟩
         S.nodeQ[g] = q :: rest →
         (swap = true → (s.reg (stnReg st 0x160)).getLsbD 31 = false ∨ (s.reg (stnReg st 0x160)).toNat / 8 % 2 ^ 21 ≠ off / 8) →
         exec (.atomicAtBank st ⟨g, false⟩) s = .next
           (answered ((s.stnMemCe st off 8).stnMemWrite st off
             (leBytes 8 (if swap then v else BitVec.ofNat 64 (s.le (base + off) 8) + v).toNat)) 1 q (s.bytes (base + off) 8)) ∧
         exec (.atomicAtBank st ⟨g, true⟩) s = .next (((busy t).setFlag (tileReg st t 0x218) 1).modTile st t fun T =>
           if T.runs = run then { T with qu := { T.qu with wb := true } } else T)) ∧
       (∀ (r : RespStat) (sx collide : Bool) (v : W64) (i : Nat) (data : List Byte), r ≠ .ok → S.reissue[g] = false →
         ∀ row ∈ [(QOp.load k id size sx, n), (.store k size v, n), (.blockRead k i, 64), (.blockWrite k i data, data.length),
             (.atomic id sx v, 8)],
           let q : QReq := ⟨t, run, row.1, addr⟩
           let whole := off % 8 = 0 ∧ row.2 % 8 = 0 ∧ (row.1 = .store k size v ∨ row.1 = .blockWrite k i data)
           S.nodeQ[g] = q :: rest → s.stnMemState st off row.2 = r → ¬(whole ∧ r = .uncorrectable) →
           exec (if row.1 = .atomic id sx v then .atomicAtBank st ⟨g, collide⟩ else .memoryNodeBankAccess st g collide) s =
             .next (replied (s.stnMemFail st off row.2 r) 1 q r [])))) ∧
  (∀ (s : State) (st : Stn) (t : TileNo) (node : Fin 9) (slot : BitVec 10) (cyc i : Nat) (w : LinkWord) (q : QReq)
     (r : RespStat) (data : List Byte),
     let T := s.tile st t
     let S := s.stn st
     let key := 64 * t.val + (40 + node.val)
     let u := s.setStn st { S.clearOut (nodeSel t.val) with parts := smSet (fun _ => 0) S.parts key 0 }
     s.netLive st = true → S.outWord (nodeSel t.val) = some (cyc, w) → cyc ≤ S.frameBase + slot.toNat →
     w.src.toNat = 40 + node.val → w.queue = some ⟨i, i + 1, .resp ⟨node, q, r, data⟩⟩ →
     (i = 0 ∨ smGet (fun _ => 0) S.parts key = i) →
     let lq := fun (k : Fin 4) (x : LoadQueue) => u.setTile st t { T with qu := { T.qu with lq := T.qu.lq.set k x } }
     let sq := fun (k : Fin 4) (x : StoreQueue) => u.setTile st t { T with qu := { T.qu with sq := T.qu.sq.set k x } }
     let arrive := exec (.queueResponseArrival st t ⟨node, slot⟩) s
     (q.run ≠ T.runs → arrive = .next u) ∧
     (q.run = T.runs →
       (∀ (k : Fin 4) (id : Nat) (size : Fin 4) (sx : Bool), q.op = .load k id size sx →
         arrive = .next (lq k { T.qu.lq[k] with entries := T.qu.lq[k].entries.map fun e =>
           if e = (.reserved id q.addr) then (if r = .ok then .arrived (elemValue size sx data) else .failed q.addr) else e })) ∧
       (∀ (k : Fin 4) (i : Nat) (x : BlockXfer), q.op = .blockRead k i → T.qu.lq[k].block = some x →
         arrive = .next (lq k { T.qu.lq[k] with block := some { x with back := x.back ++ [(i, r, data)] } })) ∧
       (∀ (k : Fin 4) (i : Nat) (bs : List Byte) (x : BlockXfer), q.op = .blockWrite k i bs → T.qu.sq[k].block = some x →
         arrive = .next (sq k { T.qu.sq[k] with block := some { x with back := x.back ++ [(i, r, [])] } })) ∧
       (∀ (k : Fin 4) (size : Fin 4) (v : W64), q.op = .store k size v →
         (r = .ok → arrive = .next (sq k { T.qu.sq[k] with sent := T.qu.sq[k].sent - 1 })) ∧
         (r ≠ .ok → arrive = .next ((sq k { T.qu.sq[k] with
           sent := T.qu.sq[k].sent - 1, failed := some (T.qu.sq[k].failed.getD q.addr) }).setFlag (tileReg st t 0x218) 3))) ∧
       (∀ (id : Nat) (swap : Bool) (v : W64), q.op = .atomic id swap v → T.qu.shown = .atomicPending id →
         (r = .ok → arrive = .next (u.setTile st t { T with qu := { T.qu with shown := .value (leBv 64 data) } })) ∧
         (r ≠ .ok → ∃ x : W64, arrive = .next (((u.useFree 1).setTile st t { T with qu := { T.qu with
           shown := .value x
           atomicFail := if T.run = .running then some q.addr else none } }).setFlag (tileReg st t 0x218) 3)))))

/-! ### Control unit and exceptions (05) -/

/-- 05 R130, R135, R136, R138, R155: a control transfer triggered outside a delay slot, with none pending, latches its pending value,
and delay slot 1 comes next; `ret` pops at its trigger; `call` and `ret` pass the return-stack check of RSOV; `eret` needs supervisor
rights, and at supervisor level TV and a frame it can read; at recovery and test level it is marked to restore from the Attic
(05 R163).

03 R93: the line of a target known at the trigger is wanted next.

05 R137, R138, R149: a transfer in a delay slot raises cause 0x01; with RSOV set, a `call` at a full return stack raises 0x0A with
`efaddr` 0 and a `ret` at an empty one 0x0A with `efaddr` 1; a report pending or left by an operation in flight is taken first. None of
them transfers. A command stands here for a trigger without an instruction around it, so `efaddr` of cause 0x01 is the offset the tile
stands at; an `eret` in a delay slot raises 0x01 at user level too: both are the model's reading (log entry 5).

05 R155, R156, R163: once the instruction in slot 2 has completed, here one without moves, a pending `eret` restores the tile from the
frame at the latched `tsbp`, or from the Attic set in use, which it releases. A psw that would give recovery or test level gives
supervisor level. -/
def Obligations.ControlTransfers : Prop :=
  (∀ (s : State) (st : Stn) (t : TileNo) (b : W64),
     let T := s.tile st t
     let target : W64 := BitVec.ofNat 64 (b.toNat % 65536)
     let p := T.rspPtr - 1
     let popped : W64 := (T.rs[p.toNat]).setWidth 64
     let latched := fun (U : Tile) (k : PKind) (v r : W64) => { U with pkind := k, pendVal := v, cuR := r, slot := 1 }
     let toLine := fun (U : Tile) => U.wantLine (U.pendVal.extractLsb' 8 8) true
     T.run = .running → s.haltFrozen st = false → T.slot = 0 → T.pkind = .none →
     exec (.jmp st t b) s = .next (s.setTile st t (toLine (latched T .jmp target target))) ∧
     exec (.sys st t b) s = .next (s.setTile st t (latched T .sys target 0)) ∧
     (¬(T.rspCnt = 16 ∧ pswRsov T.psw = true) →
       exec (.call st t b) s = .next (s.setTile st t (toLine (latched T .call target target)))) ∧
     (¬(T.rspCnt = 0 ∧ pswRsov T.psw = true) →
       exec (.ret st t) s = .next (s.setTile st t (toLine
         (latched { T with rspPtr := p, rspCnt := if T.rspCnt = 0 then 0 else T.rspCnt - 1 } .ret popped popped)))) ∧
     (pswLvl T.psw ≠ 0 → (pswLvl T.psw = 1 → pswTv T.psw = true ∧ s.frameFails st t T T.tsbp false = false) →
       exec (.eret st t) s = .next (s.setTile st t
         { latched T .eret T.tsbp 0 with eretAttic := decide (2 ≤ pswLvl T.psw) }))) ∧
  (∀ (s : State) (st : Stn) (t : TileNo) (b : W64),
     let T := s.tile st t
     let trap := fun (c : Byte) (e : W64) =>
       let u := s.setTile st t T.drain
       match T.drain.report with
       | none => u.enter st t { cause := c, efaddr := e }
       | some r => u.takeReport st t r
     T.run = .running → s.haltFrozen st = false →
     (T.slot ≠ 0 → ∀ c ∈ [Instr.jmp st t b, .call st t b, .ret st t, .sys st t b, .eret st t],
       exec c s = .next (trap 0x01 (T.pc.setWidth 64))) ∧
     (T.slot = 0 → pswRsov T.psw = true → T.rspCnt = 16 → exec (.call st t b) s = .next (trap 0x0A 0)) ∧
     (T.slot = 0 → pswRsov T.psw = true → T.rspCnt = 0 → exec (.ret st t) s = .next (trap 0x0A 1))) ∧
  (∀ (s : State) (st : Stn) (t : TileNo) (meet : Meet) (i : Insn),
     let T := s.tile st t
     let P := T.pswNext.getD T.psw
     let restored := fun (U : Tile) (f : Nat → W64) =>
       let x := f 4
       let kind := [PKind.none, .jmp, .call, .ret, .sys, .eret, .none, .none].getD (x.toNat / 4 % 8) .none
       let psw := fun (v : W64) =>
         let p := (v &&& 0xFFFF1DE3) ||| (P &&& 0x10)
         if p.getLsbD 1 then (p &&& 0xFFFFFFFFFFFFFFFC) ||| 1 else p
       U.pc = (f 0).extractLsb' 0 16 ∧ U.psw = psw (f 1) ∧ U.pswNext = (if x.getLsbD 5 then some (psw (f 6)) else none) ∧
       (x.toNat % 4 ≠ 3 → U.slot.val = x.toNat % 4) ∧ (0 < x.toNat % 4 → x.toNat % 4 < 3 → U.pkind = kind) ∧
       U.pendVal = (if kind = .eret then f 5 else ((f 5).extractLsb' 0 16).setWidth 64) ∧
       U.rip = x.getLsbD 6 ∧ U.repu = x.getLsbD 7 ∧ U.rc = (f 7).extractLsb' 0 16 ∧ U.preds = (f 8).extractLsb' 0 16 ||| 1 ∧
       U.rspPtr = (f 8).extractLsb' 16 4 ∧ U.rspCnt.toNat = min 16 ((f 8).toNat / 2 ^ 20 % 32) ∧ U.lsuR = f 9 ∧
       U.ld1 = (if x.getLsbD 8 then some (f 10) else none) ∧ U.ld2 = (if x.getLsbD 9 then some (f 11) else none) ∧
       U.ld3 = (if x.getLsbD 10 then some (f 12) else none) ∧ U.cuR = f 15
     let off := T.pendVal.toNat
     T.run = .running → s.haltFrozen st = false → T.flights = [] → T.stopReq = false → T.testReq = false → T.report = none →
     T.slot = 2 → T.pkind = .eret → T.rip = false → T.conflict = none → T.irq = none →
     decodeInsn (s.fetchByte st t) T.pc.toNat = .ok i → i.moves = [] → i.pre.rep = none →
     s.segCheck st T 6 .fetch false false true anyAlign [((0x20000 + T.pc.toNat : Int), i.len)] = none → Registers.wf s = true →
     (T.eretAttic = true ∨ s.dataState st t off 128 = .ok) →
     ∃ u, exec (.instruction st t meet) s = .next u ∧
       let U := u.tile st t
       (T.eretAttic = true → restored U (fun j => T.attic[T.atticCur].words.toList.getD j 0) ∧ U.tsbp = T.tsbp ∧
         U.attic[T.atticCur].inUse = false) ∧
       (T.eretAttic = false → restored U (fun j => BitVec.ofNat 64 (s.le (tileData st t (off + 8 * j)) 8)) ∧ U.tsbp = T.pendVal + 128 ∧
         U.attic = T.attic) ∧
       U.q = T.q ∧ U.acc = T.acc ∧ U.fxm = T.fxm ∧ U.ipend = T.ipend ∧ U.epc = T.epc ∧ U.rs = T.rs ∧
       u.reg (tileReg st t 0x200) = s.reg (tileReg st t 0x200) + 1 ∧
       (∀ a, a ≠ tileReg st t 0x200 → a ≠ tileReg st t 0x210 → u.reg a = s.reg a) ∧ (∀ a, u.byte a = s.byte a) ∧
       ∀ x y, (x, y) ≠ (st, t) → u.tile x y = s.tile x y)

/-- 05 R130, R131, R133, R134, R139; 06 R177, R185, R186, R187, R188: the control registers by number. `rdcr` shows the register in `cu.r`
and changes nothing else; `wrcr` shows the value before the write and writes the register, a `psw` value as the one that waits for the
second instruction after. At every level `psw`, `shcap`, `rc`, `fxm`, the feature words and the descriptors can be read, and `rc` and
`fxm` written; a write of a feature word is ignored. The rest needs supervisor rights, and the doublewords of the Attic set in use
recovery or test level. Values written here have no reserved bit set (log entry 3), but in descriptors, which drop them.

05 R131, R133: what the levels refuse. At user level a read of the registers 0x001 to 0x007 or of the return stack, and a write of
them, of `psw` or of a segment register, raise cause 0x0D; so do a write of `shcap` at every level, an Attic number below recovery
level, and a `psw` value with LVL 0b10 or 0b11. A number that is not assigned raises cause 0x02 with the number. A report pending or
left by an operation in flight is taken first (R149). For a trigger without an instruction around it, `efaddr` of cause 0x0D is the offset
the tile stands at, which is the model's reading (log entry 5). -/
def Obligations.ControlRegisters : Prop :=
  (∀ (s : State) (st : Stn) (t : TileNo) (k : Fin 8) (j : Fin 16),
     let T := s.tile st t
     let v := T.opnd[7]
     let w16 : W16 := v.extractLsb' 0 16
     let fits := v.toNat < 65536
     let rd := fun (n : Nat) (value : W64) =>
       exec (.rdcr st t (BitVec.ofNat 64 n)) s = .next (s.setTile st t { T with cuR := value })
     let wr := fun (n : Nat) (value : W64) (ok : Prop) (U : Tile) =>
       ok → exec (.wrcr st t (BitVec.ofNat 64 n)) s = .next (s.noted.setTile st t { U with cuR := value })
     let rw := fun (n : Nat) (value : W64) (ok : Prop) (U : Tile) => rd n value ∧ wr n value ok U
     let grade := match s.grade with
       | .dq2080 => 1 | .dq3120 => 2 | .dq4160 => 3
     let A := T.attic[T.atticCur]
     T.run = .running → s.haltFrozen st = false →
     (rd 0x000 T.psw ∧ rd 0x008 (((s.reg (tileReg st t 0x14)).extractLsb' 0 13).setWidth 64) ∧
      rw 0x009 (T.rc.setWidth 64) fits { T with rc := w16 } ∧
      rw 0x00A T.fxm (v &&& 0xFFFFFFFFFFFEE080 = 0)
        { T with fxm := (v &&& 0x1F7F) ||| (if T.fxm.getLsbD 16 ∧ v.getLsbD 16 = false then 0x10000 else 0) } ∧
      rw 0x010 0x4160B002000000FF True T ∧ rw 0x011 0 True T ∧ rw 0x012 0 True T ∧
      rw 0x013 (BitVec.ofNat 64 (grade * 2 ^ 22 + st.val * 2 ^ 12 + t.val)) True T ∧
      rd (0x020 + 2 * k.val) T.sgA[k] ∧ rd (0x021 + 2 * k.val) T.sgB[k]) ∧
     (2 ≤ pswLvl T.psw →
      rw (0x080 + j.val) A.words[j] True { T with attic := T.attic.set T.atticCur { A with words := A.words.set j v } }) ∧
     (pswLvl T.psw ≠ 0 →
     wr 0x000 T.psw (v &&& 0xFFFFFFFF0000E20E = 0) { T with pswNext := some ((v &&& 0xFFFF1DE1) ||| (T.psw &&& 0x10)) } ∧
     rw 0x001 (T.epc.setWidth 64) fits { T with epc := w16 } ∧
     rw 0x002 T.ecause (v.toNat < 2 ^ 27) { T with ecause := v } ∧
     rw 0x003 T.efaddr True { T with efaddr := v } ∧
     rw 0x004 T.tsbp True { T with tsbp := v } ∧
     rw 0x005 (T.evec.setWidth 64) fits { T with evec := w16 } ∧
     rw 0x006 (BitVec.ofNat 64 (16 * T.rspCnt.toNat + T.rspPtr.toNat)) (v.toNat < 512)
       { T with rspCnt := BitVec.ofNat 5 (min 16 (v.toNat / 16)), rspPtr := v.extractLsb' 0 4 } ∧
     rw 0x007 (T.ipend.setWidth 64) fits { T with ipend := T.ipend &&& ~~~w16 } ∧
     wr (0x020 + 2 * k.val) T.sgA[k] True { T with sgA := T.sgA.set k (v &&& 0xFF8000FFFFFFFFFF) } ∧
     wr (0x021 + 2 * k.val) T.sgB[k] True { T with sgB := T.sgB.set k (v &&& 0xFFFFFFFFFF) } ∧
     rw (0x040 + j.val) ((T.rs[j]).setWidth 64) fits { T with rs := T.rs.set j w16 })) ∧
  (∀ (s : State) (st : Stn) (t : TileNo) (n : Nat),
     let T := s.tile st t
     let b : W64 := BitVec.ofNat 64 n
     let trap := fun (s : State) (c : Byte) (e : W64) =>
       let u := s.setTile st t T.drain
       match T.drain.report with
       | none => u.enter st t { cause := c, efaddr := e }
       | some r => u.takeReport st t r
     T.run = .running → s.haltFrozen st = false →
     (pswLvl T.psw = 0 → (1 ≤ n ∧ n ≤ 7 ∨ 0x40 ≤ n ∧ n ≤ 0x4F ∨ 0x80 ≤ n ∧ n ≤ 0x8F) →
       exec (.rdcr st t b) s = .next (trap s 0x0D (T.pc.setWidth 64))) ∧
     (pswLvl T.psw = 0 → (n ≤ 7 ∨ 0x20 ≤ n ∧ n ≤ 0x2F ∨ 0x40 ≤ n ∧ n ≤ 0x4F) →
       exec (.wrcr st t b) s = .next (trap s.noted 0x0D (T.pc.setWidth 64))) ∧
     (n = 8 ∨ (0x80 ≤ n ∧ n ≤ 0x8F ∧ pswLvl T.psw ≤ 1) ∨ (n = 0 ∧ 2 ≤ pswLvl T.opnd[7]) →
       exec (.wrcr st t b) s = .next (trap s.noted 0x0D (T.pc.setWidth 64))) ∧
     (n < 4096 → (0x0B ≤ n ∧ n ≤ 0x0F ∨ 0x14 ≤ n ∧ n ≤ 0x1F ∨ 0x30 ≤ n ∧ n ≤ 0x3F ∨ 0x50 ≤ n ∧ n ≤ 0x7F ∨ 0x90 ≤ n) →
       exec (.rdcr st t b) s = .next (trap s 0x02 b) ∧ exec (.wrcr st t b) s = .next (trap s.noted 0x02 b)))

/-- 05 R146, R147: `shield` opens, shortens or closes the deferral window, never past the cap of its opening; the window ends; `idle`
completes at once when a line of IMASK is pending, and otherwise the tile stalls in it for a counted cycle.

05 R130, R146: a tile stalled in an `idle`, alone in its instruction, goes on once a line of IMASK is pending: `cu.r` shows the
lines found, the offset moves past the instruction, and the tile no longer waits; no general register changes. An interrupt that may be
taken is taken at the boundary after it. -/
def Obligations.ShieldAndIdle : Prop :=
  (∀ (s : State) (st : Stn) (t : TileNo) (b : W64),
     let T := s.tile st t
     let n := b.toNat % 2 ^ 32
     let cap := (s.reg (tileReg st t 0x14)).toNat % 2 ^ 13
     let lines := T.ipend &&& T.psw.extractLsb' 16 16
     T.run = .running → s.haltFrozen st = false →
     (n = 0 → exec (.shield st t b) s = .next (s.setTile st t { T with window := none, cuR := 0 })) ∧
     (0 < n → T.window = none → 0 < cap →
       exec (.shield st t b) s = .next (s.setTile st t
         { T with window := some ⟨cap, min cap n, false⟩, cuR := BitVec.ofNat 64 (min cap n) })) ∧
     (∀ w, 0 < n → T.window = some w → 0 < w.capLeft →
       exec (.shield st t b) s = .next (s.setTile st t
         { T with window := some ⟨w.capLeft, min w.capLeft n, w.byRepu⟩, cuR := BitVec.ofNat 64 (min w.capLeft n) })) ∧
     exec (.deferralWindowEnd st t) s = .next (s.setTile st t { T with window := none }) ∧
     (lines ≠ 0 → exec (.idle st t) s = .next (s.setTile st t { T with cuR := lines.setWidth 64, waiting := false })) ∧
     (lines = 0 → T.window = none →
       exec (.idle st t) s = .next ((s.bump (tileReg st t 0x204) 1).setTile st t { T with waiting := true }))) ∧
  (∀ (s : State) (st : Stn) (t : TileNo) (i : Insn) (m : Move),
     let T := s.tile st t
     let lines := T.ipend &&& T.psw.extractLsb' 16 16
     T.run = .running → s.haltFrozen st = false → T.flights = [] → T.stopReq = false → T.testReq = false → T.report = none →
     T.slot = 0 → T.pkind = .none → T.rip = false → T.conflict = none → T.waiting = true → lines ≠ 0 →
     decodeInsn (s.fetchByte st t) T.pc.toNat = .ok i →
     i.moves = [m] → m.src = .imm → m.dst = .trig .idle → m.guard = none → i.pre.rep = none → i.pre.cond = none →
     s.segCheck st T 6 .fetch false false true anyAlign [((0x20000 + T.pc.toNat : Int), i.len)] = none →
     ∃ u, exec (.idleWake st t) s = .next u ∧
       (u.tile st t).cuR = lines.setWidth 64 ∧ (u.tile st t).pc = T.pc + BitVec.ofNat 16 i.len ∧ (u.tile st t).waiting = false ∧
       (u.tile st t).q = T.q ∧ (u.tile st t).ipend = T.ipend ∧ (∀ a, a ≠ tileReg st t 0x200 → u.reg a = s.reg a) ∧
       (∀ a, u.byte a = s.byte a) ∧ ∀ x y, (x, y) ≠ (st, t) → u.tile x y = s.tile x y)

/-- 02 R36 to R39, R49 to R56, 05 R135, R138, R139, R141 to R143, R147: an instruction whose moves go from immediates, general registers,
predicates, `aluN.r`, `shf.r`, `lsu.r` and `cu.r` to general registers, predicates and operand ports, with guards, a condition and a repeat.
Its line is in the buffer, it passes its fetch check, no two enabled moves name one destination, and nothing else is due. Every source is
read before any destination is written; the load line moves on; the psw that waited applies. Without a repeat, or at the repeat's last
iteration or a count of zero, the offset moves on: past the instruction, and after delay slot 2 to the target of the transfer, where a
`call` pushes the offset that follows and a `sys` falls due. A repeat with iterations left stays, with the count in `rc`; the first
iteration of a `repu` opens the deferral window. No byte of memory changes.

02 R46, 04 R101, R102, 05 R158, R159: an instruction that writes the operand port of an ALU and triggers `add`, `addt`, `sub` or `subt` in
it, and the completion of the operation. An overflow leaves a report that is precise under PREC = 1 or `prec :`; the next instruction is
then held back until the operation has completed. When the check of a held operation ends is the model's choice (log entry 81). -/
def Obligations.ImmediateMove : Prop :=
  (∀ (s : State) (st : Stn) (t : TileNo) (meet : Meet) (i : Insn),
     let T := s.tile st t
     let p := fun (k : Fin 16) => k == 0 || T.preds.getLsbD k.val
     let on := fun (m : Move) =>
       (match i.pre.cond with | none => true | some k => p k) && (match m.guard with | none => true | some (k, neg) => p k != neg)
     let value := fun (m : Move) => match m.src with
       | .imm => m.imm | .reg k => T.q[k] | .pred k => if p k then 1 else 0 | .aluR n => T.aluR[n] | .shfR => T.shfR
       | .lsuR => T.ld3.getD T.lsuR | .cuR => T.cuR | _ => 0
     let plain := fun (m : Move) =>
       (match m.src with
        | .imm | .reg _ | .pred _ | .aluR _ | .shfR | .lsuR | .cuR => true
        | _ => false) = true ∧
       (match m.dst with
        | .reg _ | .pred _ | .opnd _ => true
        | _ => false) = true
     let count : Option Nat :=
       if T.rip then some T.rc.toNat
       else i.pre.rep.map fun r => match r.reg with | none => r.count | some k => T.q[k].toNat % 65536
     let moves := if count = some 0 then [] else i.moves.filter on
     let wrote := fun (d : Dest) (old : W64) => match moves.find? fun m => m.dst == d with
       | none => old
       | some m => value m
     let next := T.pc + BitVec.ofNat 16 i.len
     let cap := (s.reg (tileReg st t 0x14)).toNat % 2 ^ 13
     T.run = .running → s.haltFrozen st = false → T.flights = [] → T.stopReq = false → T.testReq = false → T.report = none →
     (T.slot = 0 → T.pkind = .none) → ¬(T.slot = 2 ∧ T.pkind = .eret) → T.conflict = none → T.irq = none →
     decodeInsn (s.fetchByte st t) T.pc.toNat = .ok i →
     (∀ m ∈ i.moves, plain m) → (i.moves.filter on).Pairwise (fun m n => m.dst ≠ n.dst) →
     (s.strict st t = false ∨ i.overPort = none) →
     s.segCheck st T 6 .fetch false false true anyAlign [((0x20000 + T.pc.toNat : Int), i.len)] = none →
     Registers.wf s = true →
     ∃ u, exec (.instruction st t meet) s = .next u ∧
       let U := u.tile st t
       (∀ k, U.q[k] = wrote (.reg k) T.q[k]) ∧ (∀ k, U.opnd[k] = wrote (.opnd k) T.opnd[k]) ∧
       (∀ k : Fin 16, k ≠ 0 →
         U.preds.getLsbD k.val = (wrote (.pred k) (if T.preds.getLsbD k.val then 1 else 0)).getLsbD 0) ∧
       U.preds.getLsbD 0 = T.preds.getLsbD 0 ∧
       U.lsuR = T.ld3.getD T.lsuR ∧ U.ld3 = T.ld2 ∧ U.ld2 = T.ld1 ∧ U.ld1 = none ∧
       U.psw = T.pswNext.getD T.psw ∧ U.pswNext = none ∧
       (∀ n, count = some (n + 2) →
         U.pc = T.pc ∧ U.slot = T.slot ∧ U.pkind = T.pkind ∧ U.pendVal = T.pendVal ∧ U.rs = T.rs ∧ U.rspPtr = T.rspPtr ∧
         U.rspCnt = T.rspCnt ∧ U.rip = true ∧ U.rc.toNat = n + 1 ∧
         (T.rip = false → T.window = none → 0 < cap → ∀ r, i.pre.rep = some r → r.unint = true → U.window = some ⟨cap, cap, true⟩)) ∧
       ((∀ n, count ≠ some (n + 2)) →
         U.rip = false ∧ U.rc = (if count = none then T.rc else 0) ∧
         (T.slot = 0 → U.pc = next ∧ U.slot = 0 ∧ U.pkind = .none) ∧
         (T.slot = 1 → U.pc = next ∧ U.slot = 2 ∧ U.pkind = T.pkind ∧ U.pendVal = T.pendVal) ∧
         (T.slot = 2 → U.slot = 0 ∧
           U.pc = (if T.pkind = .none ∨ T.pkind = .sys then next else T.pendVal.extractLsb' 0 16) ∧
           U.pkind = (if T.pkind = .sys then .sys else .none) ∧ (T.pkind = .sys → U.pendVal = T.pendVal)) ∧
         (T.slot = 2 ∧ T.pkind = .call → U.rs = T.rs.set T.rspPtr.toNat next ∧ U.rspPtr = T.rspPtr + 1 ∧
           U.rspCnt.toNat = min 16 (T.rspCnt.toNat + 1)) ∧
         (¬(T.slot = 2 ∧ T.pkind = .call) → U.rs = T.rs ∧ U.rspPtr = T.rspPtr ∧ U.rspCnt = T.rspCnt)) ∧
       U.aluR = T.aluR ∧ U.shfR = T.shfR ∧ U.cuR = T.cuR ∧ U.acc = T.acc ∧ U.fxm = T.fxm ∧ U.ipend = T.ipend ∧ U.tsbp = T.tsbp ∧
       U.flights = [] ∧ U.report = none ∧
       u.reg (tileReg st t 0x200) = s.reg (tileReg st t 0x200) + 1 ∧
       u.reg (tileReg st t 0x208) = s.reg (tileReg st t 0x208) + (if i.overPort = none then 0 else 1) ∧
       (∀ a, a ≠ tileReg st t 0x200 → a ≠ tileReg st t 0x208 → u.reg a = s.reg a) ∧ (∀ a, u.byte a = s.byte a) ∧
       ∀ x y, (x, y) ≠ (st, t) → u.tile x y = s.tile x y) ∧
  (∀ (s : State) (st : Stn) (t : TileNo) (meet : Meet) (i : Insn) (m b : Move) (n : Fin 2) (j k : Fin 64) (op : AluOp),
     let T := s.tile st t
     let x := T.q[j].toInt
     let y := T.q[k].toInt
     let exact := match op with
       | .sub | .subt => x - y
       | _ => x + y
     let overflow := (op = .addt ∨ op = .subt) ∧ ¬(-2 ^ 63 ≤ exact ∧ exact < 2 ^ 63)
     let precise := i.pre.prec || T.psw.getLsbD 6
     op ∈ [.add, .addt, .sub, .subt] →
     T.run = .running → s.haltFrozen st = false → T.flights = [] → T.stopReq = false → T.testReq = false → T.report = none →
     T.slot = 0 → T.pkind = .none → T.rip = false → T.conflict = none → T.irq = none →
     decodeInsn (s.fetchByte st t) T.pc.toNat = .ok i →
     i.moves = [m, b] → m.src = .reg j → m.dst = .opnd ⟨n.val, by omega⟩ → b.src = .reg k → b.dst = .trig (.alu n op) →
     m.guard = none → b.guard = none → i.pre.cond = none → i.pre.rep = none →
     s.segCheck st T 6 .fetch false false true anyAlign [((0x20000 + T.pc.toNat : Int), i.len)] = none →
     Registers.wf s = true →
     ∃ u v, exec (.instruction st t meet) s = .next u ∧ exec (.operationComplete st t (.alu n)) u = .next v ∧
       (u.tile st t).opnd = T.opnd.set n.val T.q[j] ∧ (u.tile st t).aluR = T.aluR ∧ (u.tile st t).q = T.q ∧
       (u.tile st t).pc = T.pc + BitVec.ofNat 16 i.len ∧ (∀ a, u.byte a = s.byte a) ∧
       (v.tile st t).aluR = T.aluR.set n (BitVec.ofInt 64 exact) ∧
       (v.tile st t).report = (if overflow then some ⟨BitVec.ofNat 4 n.val, T.pc, 0, 0, false, !precise⟩ else none) ∧
       v = u.setTile st t { u.tile st t with
         flights := [], aluR := (v.tile st t).aluR, report := (v.tile st t).report } ∧
       (overflow → precise = true → ∃ w, exec (.instruction st t meet) u = .next w ∧
         w.reg (tileReg st t 0x204) = u.reg (tileReg st t 0x204) + 1 ∧ (∀ a, a ≠ tileReg st t 0x204 → w.reg a = u.reg a) ∧
         (w.tile st t).pc = (u.tile st t).pc ∧ (w.tile st t).q = T.q ∧ (w.tile st t).opnd = (u.tile st t).opnd))

/-- 05 R146, R150 to R153: an interrupt entry. Line k is the lowest that qualifies, the tile is at a boundary with nothing else due, and the
frame can be pushed. `epc`, `ecause` and `efaddr` take the frame's values, the frame lies at `tsbp` - 128, the psw has LVL 1 and IE 0,
the handler is at `evec`, and `ipend` keeps its bits. Here where the line of the next instruction is in the buffer, and where it is not:
that an instruction that waits for a line fill is abandoned is the model's reading (log entry 26).

03 R73, R78, R88: a byte that is no prefix and no head byte raises cause 0x02 and two conditions 0x01, each with the offset of the byte that
is wrong, and the entry pushes a frame in the same way.

05 R149, R158, R152, R153: a pending arithmetic report is taken at the next boundary: cause 0x09 with the unit, IMP, ILOST and LATE of the
report in `ecause` and the offset of the triggering instruction in `efaddr`. With TV = 1 its frame is pushed, with IDET; with TV = 0 it
enters recovery level. -/
def Obligations.BoundaryEntries : Prop :=
  (∀ (s : State) (st : Stn) (t : TileNo),
     let T := s.tile st t
     let at_ := T.tsbp - 128
     let word := fun (u : State) (j : Nat) => u.le (tileData st t (at_.toNat + 8 * j)) 8
     let pushed := fun (c : Instr) (ecause efaddr idet : W64) => ∃ u, exec c s = .next u ∧
       let U := u.tile st t
       U.pc = T.evec ∧ U.epc = T.pc ∧ U.ecause = ecause ∧ U.efaddr = efaddr ∧ U.tsbp = at_ ∧
       pswLvl U.psw = 1 ∧ pswIe U.psw = false ∧ (∀ i < 64, i ≠ 0 → i ≠ 1 → i ≠ 5 → U.psw.getLsbD i = T.psw.getLsbD i) ∧
       U.ipend = T.ipend ∧ U.q = T.q ∧ U.preds = T.preds ∧ U.acc = T.acc ∧ U.window = none ∧ U.lsuR = 0 ∧ U.report = none ∧
       word u 0 = T.pc.toNat ∧ word u 1 = T.psw.toNat ∧ word u 2 = ecause.toNat ∧ word u 3 = efaddr.toNat ∧ word u 7 = T.rc.toNat ∧
       word u 9 = T.lsuR.toNat ∧ word u 13 = T.tsbp.toNat ∧ word u 14 = idet.toNat ∧ word u 15 = T.cuR.toNat ∧
       (∀ x, x < tileData st t at_.toNat ∨ tileData st t at_.toNat + 128 ≤ x → u.byte x = s.byte x) ∧
       (∀ a, u.reg a = s.reg a) ∧ ∀ x y, (x, y) ≠ (st, t) → u.tile x y = s.tile x y
     T.run = .running → s.haltFrozen st = false → T.flights = [] → T.stopReq = false → T.testReq = false →
     pswLvl T.psw < 2 → pswTv T.psw = true →
     128 ≤ T.tsbp.toNat → s.frameFails st t T at_ true = false → Memory.wf s = true → Registers.wf s = true →
     (T.report = none → T.slot = 0 → T.pkind = .none →
       (∀ k, T.waiting = false → T.irq = some k →
         (∀ l, decodeInsn (s.fetchByte st t) T.pc.toNat = .need l →
           pushed (.interruptEntry st t) (BitVec.ofNat 64 (0x10 + k)) 0 0) ∧
         (∀ (i : Insn) (m : Move) (r : Fin 64), decodeInsn (s.fetchByte st t) T.pc.toNat = .ok i → i.moves = [m] → m.src = .imm →
           m.dst = .reg r → i.pre.rep = none → T.rip = false → T.conflict = none →
           s.segCheck st T 6 .fetch false false true anyAlign [((0x20000 + T.pc.toNat : Int), i.len)] = none →
           pushed (.interruptEntry st t) (BitVec.ofNat 64 (0x10 + k)) 0 0)) ∧
       (∀ (meet : Meet) (b c : Byte), s.fetchByte st t T.pc.toNat = .ok b →
         (0xF6 ≤ b.toNat ∨ (b.toNat < 0xE0 ∧ (0x20 ≤ b.toNat ∨ 8 < b.toNat % 16)) →
           pushed (.instruction st t meet) 0x02 (T.pc.setWidth 64) 0) ∧
         (0xE0 ≤ b.toNat → b.toNat < 0xF0 → s.fetchByte st t (T.pc.toNat + 1) = .ok c → 0xE0 ≤ c.toNat → c.toNat < 0xF0 →
           pushed (.instruction st t meet) 0x01 (BitVec.ofNat 64 (T.pc.toNat + 1)) 0))) ∧
     (∀ r, T.report = some r → pushed (.arithReport st t)
       (BitVec.ofNat 64 (r.late % 32 * 2 ^ 22 + r.ilost.toNat * 2 ^ 21 + r.imp.toNat * 2 ^ 20 + r.unit.toNat * 2 ^ 16 + 9))
       (r.trig.setWidth 64) r.idet)) ∧
  (∀ (s : State) (st : Stn) (t : TileNo) (r : Report),
     let T := s.tile st t
     T.run = .running → s.haltFrozen st = false → T.flights = [] → T.stopReq = false → T.testReq = false → T.report = some r →
     pswLvl T.psw < 2 → pswTv T.psw = false → T.attic[(0 : Fin 3)].inUse = false →
     ∃ u, exec (.arithReport st t) s = .next u ∧
       let U := u.tile st t
       U.report = none ∧ U.pc = (s.reg (tileReg st t 0x0C)).setWidth 16 ∧ U.epc = T.pc ∧ pswLvl U.psw = 2 ∧ pswIe U.psw = false ∧
       U.ecause = BitVec.ofNat 64 (r.late % 32 * 2 ^ 22 + r.ilost.toNat * 2 ^ 21 + r.imp.toNat * 2 ^ 20 + r.unit.toNat * 2 ^ 16 + 9) ∧
       U.efaddr = r.trig.setWidth 64 ∧ U.attic[(0 : Fin 3)].inUse = true ∧ U.q = T.q ∧ U.acc = T.acc ∧ U.ipend = T.ipend ∧
       u = { s with tiles := u.tiles } ∧ ∀ x y, (x, y) ≠ (st, t) → u.tile x y = s.tile x y)

/-! ### The station network (07) -/

/-- 07 R201, R202, R206, R207: the triggers of the network unit while no take is pending. `send` on an enabled binding with room queues the
word; a destination that exists is latched; a take pops the oldest mailbox word and clears MOVF, answers all ones when told not to wait,
or waits for a word; `mbox` queues a word for the destination.

07 R200, R201, R206: the triggers the network unit refuses. `send` on a binding that is not enabled raises cause 0x07 with the channel; a
mailbox destination that does not exist raises it with the value; a report pending or left by an operation in flight is taken first
(05 R149). -/
def Obligations.NetworkUnit : Prop :=
  (∀ (s : State) (st : Stn) (t : TileNo) (c : Fin 8) (b : W64),
     let T := s.tile st t
     let u := T.nu
     let put := fun (v : Nu) => Host.Outcome.next (φ := Fault) (ρ := Refusal) (s.setTile st t { T with nu := v })
     let tx := s.reg (aTX st t c)
     T.run = .running → s.haltFrozen st = false →
     (u.taking = false →
       (tx.getLsbD 31 = true → tx.toNat / 256 % 64 < 40 → u.send[c].length < 4 →
         exec (.send st t c b) s = put { u with
           send := u.send.set c (u.send[c] ++ [((s.stn st).cycle + 2, b)]), shown := .status (some c) }) ∧
       (b.getLsbD 63 = false → (b.toNat % 64 < 40 ∨ b.toNat % 64 = 48) →
         exec (.mdst st t b) s = put { u with mdst := b.extractLsb' 0 6, shown := .status none }) ∧
       (u.mboxSend.length < 4 →
         exec (.mbox st t b) s = put { u with mboxSend := u.mboxSend ++ [(u.mdst, b.extractLsb' 0 48)], shown := .status none }) ∧
       (∀ w rest nowait, u.mbox = w :: rest →
         exec (.mailboxTake st t nowait) s = put { u with mbox := rest, movf := false, shown := .value w }) ∧
       (u.mbox = [] →
         exec (.mailboxTake st t true) s = put { u with shown := .value 0xFFFFFFFFFFFFFFFF } ∧
         exec (.mailboxTake st t false) s = put { u with shown := .takePending })) ∧
     (∀ w rest, u.taking = true → u.mbox = w :: rest →
       exec (.mailboxTakeComplete st t) s = put { u with mbox := rest, movf := false, shown := .value w })) ∧
  (∀ (s : State) (st : Stn) (t : TileNo) (c : Fin 8) (b : W64),
     let T := s.tile st t
     let trap := fun (e : W64) =>
       let u := s.setTile st t T.drain
       match T.drain.report with
       | none => u.enter st t { cause := 0x07, efaddr := e }
       | some r => u.takeReport st t r
     T.run = .running → s.haltFrozen st = false →
     (((s.reg (aTX st t c)).getLsbD 31 = false ∨ 40 ≤ (s.reg (aTX st t c)).toNat / 256 % 64) →
       exec (.send st t c b) s = .next (trap (BitVec.ofNat 64 c.val))) ∧
     (b.getLsbD 63 = false → 40 ≤ b.toNat % 64 → b.toNat % 64 ≠ 48 → exec (.mdst st t b) s = .next (trap b)))

/-- 07 R191, R196, R197, R202, R204, R209: what enters the network in a slot of the present frame, once the words of the network cycle before
have moved. The word of a channel leaves its send buffer when the slot of the first output of its route is the tile's own, a credit pays
for it and the output has carried nothing in the cycle; a credit word returns the freed entries of a receiving channel, at most four; a
queue word of a memory node takes a slot that names its destination.

07 R193, R194, R198, R199: one hop. A scheduled word that reaches a router in a slot its input owns, with no held word of its flow,
goes on to the output of its route in the next network cycle; in another slot it is held there and the conflict is counted and flagged; a
word with a parity error or an uncorrectable error is discarded and flagged. -/
def Obligations.SlotsAndHops : Prop :=
  (∀ (s : State) (st : Stn) (t : TileNo) (c : Fin 8) (slot : BitVec 10),
     let T := s.tile st t
     let S := s.stn st
     let cyc := S.frameBase + slot.toNat
     let sent := fun (w : LinkWord) (u : Nu) =>
       (s.setStn st { S with
         outs := smInsert S.outs (firstSel t.val w.dst.toNat) (cyc, w)
         lastOut := smInsert S.lastOut (firstSel t.val w.dst.toNat) (cyc + 1)
         cycle := max S.cycle cyc }).setTile st t { T with nu := u }
     S.run = .running → S.frozen = false → slot.toNat < s.netLen st → S.cycle ≤ cyc → S.settled cyc = true →
     (let tx := s.reg (aTX st t c)
      let dst : BitVec 6 := tx.extractLsb' 8 6
      tx.getLsbD 31 = true → dst.toNat < 40 →
       ∀ e v rest k ks, T.nu.send[c] = (e, v) :: rest → e ≤ cyc → T.nu.credits[c] = k :: ks → k ≤ cyc →
         S.outFree (firstSel t.val dst.toNat) cyc = true → entryLocal (S.entry (firstSel t.val dst.toNat) slot.toNat) 0 c.val = true →
         exec (.channelInject st t c slot) s = .next (sent
           ⟨.data, false, dst, BitVec.ofNat 6 t.val, tx.extractLsb' 0 3, BitVec.ofNat 3 c.val, v, none⟩
           { T.nu with send := T.nu.send.set c rest, credits := T.nu.credits.set c ks })) ∧
     (let rx := s.reg (aRX st t c)
      let dst : BitVec 6 := rx.extractLsb' 8 6
      let n := min 4 (T.nu.freed[c].countP fun f => decide (f + 2 ≤ cyc))
      rx.getLsbD 31 = true → dst.toNat < 40 → 0 < n →
         S.outFree (firstSel t.val dst.toNat) cyc = true → entryLocal (S.entry (firstSel t.val dst.toNat) slot.toNat) 1 c.val = true →
         exec (.creditInject st t c slot) s = .next (sent
           ⟨.credit, false, dst, BitVec.ofNat 6 t.val, rx.extractLsb' 0 3, BitVec.ofNat 3 n, 0, none⟩
           { T.nu with freed := T.nu.freed.set c (T.nu.freed[c].drop n) }))) ∧
  (∀ (s : State) (st : Stn) (g : Fin 8) (slot : BitVec 10) (found : LinkUpset) (w : LinkWord),
     let S := s.stn st
     let cyc := S.frameBase + slot.toNat
     let sel := 8 * (40 + g.val) + 1
     let e := S.entry sel (cyc % s.netLen st)
     S.run = .running → S.frozen = false → slot.toNat < s.netLen st → S.cycle ≤ cyc → S.settled cyc = true → S.outFree sel cyc = true →
     e.extractLsb' 8 3 = 1 → e.extractLsb' 6 2 = 2 →
     S.resps.find? (fun w => w.src.toNat == 40 + g.val && w.dst.toNat == (e.extractLsb' 0 6).toNat) = some w →
     exec (.linkWordHop st (BitVec.ofNat 9 sel) slot found) s = .next (s.setStn st { S with
       resps := S.resps.erase w
       outs := smInsert S.outs sel (cyc, w), lastOut := smInsert S.lastOut sel (cyc + 1), cycle := max S.cycle cyc })) ∧
  (∀ (s : State) (st : Stn) (sel : BitVec 9) (slot : BitVec 10) (c0 : Nat) (w : LinkWord) (r : Nat × Nat) (p : Nat),
     let S := s.stn st
     let sel' := routeSel r.1 r.2 w.dst.toNat
     let owner := entryOwner (S.entry sel' ((c0 + 1) % s.netLen st))
     let gone := s.setStn st { S with outs := smErase S.outs sel.toNat, cycle := max S.cycle (c0 + 1) }
     S.run = .running → S.frozen = false → c0 + 1 < S.frameBase + s.netLen st → S.settled (c0 + 1) = true →
     S.outs.lookup sel.toNat = some (c0, w) → linkEnd sel.toNat = some (r, p) → w.be = false →
     (w.kind ≠ .reserved → owner = some p → (S.held sel').any (sameFlow w) = false → S.outFree sel' (c0 + 1) = true →
       exec (.linkWordHop st sel slot .none) s = .next (s.setStn st { S with
         outs := smInsert (smErase S.outs sel.toNat) sel' (c0 + 1, w), lastOut := smInsert S.lastOut sel' (c0 + 2)
         cycle := max S.cycle (c0 + 1) })) ∧
     (w.kind ≠ .reserved → owner ≠ some p →
       exec (.linkWordHop st sel slot .none) s = .next (gone.holdWord st sel' w true)) ∧
     (exec (.linkWordHop st sel slot .parity) s = .next (gone.netFlag st 2) ∧
       exec (.linkWordHop st sel slot .dataDouble) s = .next (gone.netFlag st 2)))

/-- 07 R203, R204, R207, R219: arrivals at a node. A data word of an enabled binding enters the receive buffer of its channel; a credit word
returns its credits, usable two network cycles later; a mailbox word or a band-ready notice enters the FIFO of a tile and makes interrupt
line 0 or 1 pending; at node 48 it enters the Hall's FIFO; one that finds its FIFO full is discarded and flagged, at a tile with MOVF.

07 R219: the Hall's mailbox. A word written with SEND to a tile of a running station joins the Hall's send buffer; a pop takes the oldest
word of the FIFO. A word that came from tile 0 while no peer watch wants it is all that the pop changes. -/
def Obligations.WordsArrive : Prop :=
  (∀ (s : State) (st : Stn) (t : TileNo) (slot : BitVec 10) (cyc : Nat) (w : LinkWord),
     let T := s.tile st t
     let S := s.stn st
     let u := s.setStn st { S with outs := smErase S.outs (nodeSel t.val) }
     let c : Fin 8 := Fin.ofNat 8 w.dch.toNat
     let rx := s.reg (aRX st t c)
     S.run = .running → S.frozen = false → S.outs.lookup (nodeSel t.val) = some (cyc, w) → cyc ≤ S.frameBase + slot.toNat →
     (w.kind = .data → rx.getLsbD 31 = true → rx.extractLsb' 8 6 = w.src → w.src.toNat < 40 → rx.extractLsb' 0 3 = w.sch →
       T.nu.recv[c].length < 4 →
       exec (.channelDataDeliver st t slot) s = .next (u.setTile st t { T with nu := { T.nu with
         recv := T.nu.recv.set c (T.nu.recv[c] ++ [(cyc, w.data)]) } })) ∧
     (w.kind = .credit → w.sch.toNat + T.nu.credits[c].length ≤ 4 →
       exec (.creditDeliver st t slot) s = .next (u.setTile st t { T with nu := { T.nu with
         credits := T.nu.credits.set c (T.nu.credits[c] ++ List.replicate w.sch.toNat (cyc + 2)) } })) ∧
     (w.kind = .mailbox ∨ w.kind = .band →
       let line := if w.kind = .band then 1 else 0
       (T.nu.mbox.length < 16 →
         exec (.mailboxDeliver st (BitVec.ofNat 6 t.val) slot) s = .next (u.setTile st t { T with
           ipend := putBit T.ipend line true
           nu := { T.nu with
             mbox := T.nu.mbox ++ [BitVec.ofNat 64 (w.src.toNat * 2 ^ 58 + line * 2 ^ 56 + w.data.toNat % 2 ^ 48)] } })) ∧
       (16 ≤ T.nu.mbox.length →
         exec (.mailboxDeliver st (BitVec.ofNat 6 t.val) slot) s = .next
           ((u.setTile st t { T with nu := { T.nu with movf := true } }).netFlag st 5)))) ∧
  (∀ (s : State) (st : Stn) (slot : BitVec 10) (cyc : Nat) (w : LinkWord),
     let S := s.stn st
     let S' := { S with outs := smErase S.outs (nodeSel 48) }
     S.run = .running → S.frozen = false → S.outs.lookup (nodeSel 48) = some (cyc, w) → cyc ≤ S.frameBase + slot.toNat → w.kind = .mailbox →
     (S.hallFifo.length < 16 →
       exec (.mailboxDeliver st 48 slot) s = .next (s.setStn st { S' with
         hallFifo := S.hallFifo ++ [BitVec.ofNat 64 (w.src.toNat * 2 ^ 58 + w.data.toNat % 2 ^ 48)] })) ∧
     (16 ≤ S.hallFifo.length → exec (.mailboxDeliver st 48 slot) s = .next ((s.setStn st S').netFlag st 5))) ∧
  (∀ (s : State) (st : Stn) (v : W32),
     let S := s.stn st
     (v &&& 0x40FF0000 = 0 → v.getLsbD 31 = true → v.toNat / 2 ^ 24 % 64 < 40 → s.fitted st = true → S.run = .running →
       S.hallSend.length < 4 →
       exec (.hallMailboxSend st v) s = .next ((s.noted.setReg (stnReg st 0x42C) (v &&& 0x3F00FFFF)).setStn st { S with
         hallSend := S.hallSend ++
           [(v.extractLsb' 24 6, BitVec.ofNat 48 (v.toNat % 65536 * 2 ^ 32 + (s.reg (stnReg st 0x428)).toNat))] })) ∧
     (∀ w rest, S.hallFifo = w :: rest → S.run = .running → s.hall.run = .firmware → w.toNat / 2 ^ 58 ≠ 0 →
       w.toNat / 2 ^ 40 % 256 < 0x80 →
       exec (.hallMailboxPop st) s = .next (s.setStn st { S with hallFifo := rest })))

/-- 07 R195, R212, R213, R214, R218; 01 R19: frames and frozen frames. A boundary with nothing due begins the next frame; with a correction or
a column repair due, the correction is carried out or the repair begins, the network is frozen and WHY names the event; a frozen frame
ends and the network runs again, at the divisor that is due but not below the minimum (16 R441), while further repairs wait for a freeze of
their own; while it is frozen no word moves, and under a debug halt no tile of the station goes on; the scrubber's findings; a rewrite of
a slot-table entry; and the halt bit, of a station that the grade has (00 R3). That a correction is carried out as the frozen frame begins
and the divisor changes at its end is the model's reading (log entry 33). -/
def Obligations.FramesAndFreezes : Prop :=
  ∀ (s : State) (st : Stn),
    let S := s.stn st
    let stat := stnReg st 0x404
    let base := S.frameBase + s.netLen st
    let begun := { S with frameBase := base, cycle := max S.cycle base }
    let why := (s.reg stat).toNat / 2 ^ 27 % 16
    (S.run ≠ .running → ∀ sel entry found, exec (.slotTableScrub st sel entry found) s = .next s) ∧
    (S.frozen = true → ∀ (t : TileNo) (c : Fin 8) (sel : BitVec 9) (slot : BitVec 10) (found : LinkUpset) (node : Fin 9),
      ∀ i ∈ [Instr.channelInject st t c slot, .creditInject st t c slot, .linkWordHop st sel slot found, .channelDataDeliver st t slot,
          .creditDeliver st t slot, .mailboxDeliver st (BitVec.ofNat 6 t.val) slot, .queueRequestArrival st t ⟨node, slot⟩,
          .queueResponseArrival st t ⟨node, slot⟩],
        exec i s = .next s) ∧
    (S.frozen = true → S.halted = true → ∀ (t : TileNo) (n : Fin 2) (k : Fin 4) (b : W64) (o : Bool) (u : UnitId) (meet : Meet),
      ∀ i ∈ [Instr.operationComplete st t u, .add st t n b, .jmp st t b, .deferralWindowEnd st t, .walkSample st ⟨t, meet⟩,
          .elementIssue st t k, .storeElementSend st t k, .blockIssue st ⟨t, meet⟩ k o, .blockDone st ⟨t, meet⟩ k o, .lineFillComplete st t,
          .mailboxTakeComplete st t],
        exec i s = .next s) ∧
    (S.run = .running →
    (S.frozen = false → S.dueDiv = none → S.repairs = [] → S.repairNow = none → S.settled base = true →
      (s.reg (stnReg st 0x400)).getLsbD 31 = false →
      (S.fixes = [] → S.fix = none →
        exec (.frameBoundary st) s = .next ((s.bump (stnReg st 0x408) 1).setStn st begun)) ∧
      (∀ x, S.fixes = [x] → S.fix = none →
        exec (.frameBoundary st) s = .next
          (((((s.bump (stnReg st 0x408) 1).setStn st { (begun.setEntry x.1 x.2) with
            fixes := [], fix := none, frozen := true, halted := false }).setFld stat 31 1 1).setFld stat 27 4 (why ||| 1)).setFld
              (stnReg st 0x418) 30 1 0))) ∧
    (∀ r rest, S.frozen = false → S.dueDiv = none → S.fixes = [] → S.fix = none → S.repairs = r :: rest → S.repairNow = none →
      S.settled base = true → (s.reg (stnReg st 0x400)).getLsbD 31 = false → (s.reg stat).getLsbD 29 = false → Registers.wf s = true →
      ∃ u, exec (.frameBoundary st) s = .next u ∧
        u.stn st = { begun with frozen := true, halted := false, repairNow := some r, repairs := rest, closed := r.1 :: S.closed } ∧
        u.reg stat = s.reg stat ||| 0xA0000000 ∧ u.reg (stnReg st 0x408) = s.reg (stnReg st 0x408) + 1 ∧
        u.reg (stnReg st 0x418) = s.reg (stnReg st 0x418) &&& 0xBFFFFFFF ∧
        (∀ a, a ≠ stat → a ≠ stnReg st 0x408 → a ≠ stnReg st 0x418 → u.reg a = s.reg a) ∧
        u = { s with regs := u.regs, stns := u.stns } ∧ ∀ x, x ≠ st → u.stn x = s.stn x) ∧
    (S.frozen = true → S.fixes = [] → S.fix = none → (S.repairs = [] ∨ (s.reg stat).getLsbD 29 = true) → S.repairNow = none →
      (s.reg (stnReg st 0x400)).getLsbD 31 = false → Registers.wf s = true →
      let least := min 2 ((s.reg (devReg 1 (0x20 + 4 * st.val))).toNat / 16 % 4)
      ∃ u, exec (.freezeEnd st) s = .next u ∧
        u.stn st = { S with frozen := false, halted := false, dueDiv := none } ∧
        u.reg stat = (match S.dueDiv with
          | none => s.reg stat &&& 0x07FFFFFF
          | some d => (s.reg stat &&& 0x01FFFFFF) ||| (BitVec.ofNat 32 (max least d.toNat) <<< 25)) ∧
        u.reg (stnReg st 0x40C) = s.reg (stnReg st 0x40C) + 1 ∧
        u.reg (stnReg st 0x418) = s.reg (stnReg st 0x418) &&& 0xBFFFFFFF ∧
        (∀ a, a ≠ stat → a ≠ stnReg st 0x40C → a ≠ stnReg st 0x418 → u.reg a = s.reg a) ∧
        u = { s with regs := u.regs, stns := u.stns } ∧ ∀ x, x ≠ st → u.stn x = s.stn x) ∧
    (∀ (sel : BitVec 9) (entry : BitVec 10), hasTable sel.toNat = true →
      let k := sel.toNat * 1024 + entry.toNat
      exec (.slotTableScrub st sel entry .none) s = .next s ∧
      exec (.slotTableScrub st sel entry .single) s = .next
        ((s.setStn st { S with fixes := S.fixes ++ [(k, smGet (fun _ => 0) S.tables k)] }).netFlag st 3) ∧
      exec (.slotTableScrub st sel entry .double) s = .next
        ((s.setStn st { S with tableBad := smInsert S.tableBad k true }).netFlag st 4)) ∧
    (∀ v : W32, v &&& 0x3800FC00 = 0 → v.getLsbD 31 = true → (s.reg (stnReg st 0x418)).getLsbD 30 = false → s.fitted st = true →
      ∃ u, exec (.netFixGo st v) s = .next u ∧
        u.stn st = { S with fix := some ((s.reg (stnReg st 0x414)).toNat % 512 * 1024 + v.toNat % 1024, v.extractLsb' 16 11) } ∧
        (∀ a, a ≠ stnReg st 0x418 → u.reg a = s.reg a) ∧ u = { s.noted with regs := u.regs, stns := u.stns })) ∧
    (∀ halt, exec (.netHalt st halt) s = .next (if s.fitted st then s.setFld (stnReg st 0x400) 31 1 halt.toNat else s))

/-! ### Tiles and stations (01, 05, 15) -/

/-- 05 R165, 01 R13, R18, R19, 07 R213: a start of a stopped tile begins the self-test. The test's end records the results in the column map;
a failed self-test, whatever the image check finds, notifies, and in a running station makes the column's repair due, which begins within
a freeze under way unless that has had a repair; a failed image check notifies; the request of a start is ignored unless the tile is
stopped and the grade has the station (00 R3). That a repair begins at once in a freeze is the model's reading (log entry 33). What the
Hall's firmware does about a changed column map is `hallReact` (15 R419).

05 R166, R165 step 5; 02 R43, R45, R58, R68; 04 R107, R115; 06 R171, R172, R176; 08 R233, R239, R247: the state in which a tile starts
once both checks pass. What the manual leaves undefined (general registers, return-stack entries, Attic contents) is not constrained. -/
def Obligations.TileStarts : Prop :=
  (∀ (s : State) (st : Stn) (t : TileNo),
     let T := s.tile st t
     let S := s.stn st
     let c := t.val / 5
     let k := s.position st t
     let p := s.physAt st c k
     let col := stnReg st (0x100 + 4 * c)
     let passes := p.alu < 2 ∧ p.mac < 2 ∧ p.unspared = false
     let noted := fun (ok : Nat) =>
       ((s.setFld col k 1 ok).setFld col (12 + k) 1 (if p.alu = 1 then 1 else 0)).setFld col (6 + k) 1 (if p.mac = 1 then 1 else 0)
     let failed := ((noted 0).setTile st t { T with run := .selfTestFailed }).notify (.selfTestFailed st t)
     let due : Fin 8 × Fin 6 := (Fin.ofNat 8 c, Fin.ofNat 6 k)
     (T.run ≠ .running → T.run ≠ .selfTest → s.fitted st = true →
       exec (.tileStart st t) s = .next (s.setTile st t { T with run := .selfTest })) ∧
     (T.run = .running ∨ T.run = .selfTest ∨ s.fitted st = false → exec (.tileStart st t) s = .next s) ∧
     (T.run = .selfTest → ¬passes →
       (S.run ≠ .running → exec (.tileSelfTestEnd st t) s = .next (failed.hallReact s)) ∧
       (S.run = .running → S.repairNow = none → (S.frozen = false ∨ (s.reg (stnReg st 0x404)).getLsbD 29 = true) →
         exec (.tileSelfTestEnd st t) s = .next ((failed.setStn st { S with repairs := addRepair due S.repairs }).hallReact s)) ∧
       (S.run = .running → S.repairNow = none → S.repairs = [] → S.frozen = true → (s.reg (stnReg st 0x404)).getLsbD 29 = false →
         exec (.tileSelfTestEnd st t) s = .next
           (((failed.setStn st { S with repairNow := some due, closed := due.1 :: S.closed }).setFld (stnReg st 0x404) 29 1 1).hallReact s))) ∧
     (T.run = .selfTest → passes → (noted 1).imageOk st t = false →
       exec (.tileSelfTestEnd st t) s = .next
         ((((noted 1).setTile st t { T with run := .imageFailed }).notify (.imageFailed st t)).hallReact s))) ∧
  (∀ (s : State) (st : Stn) (t : TileNo),
     let T := s.tile st t
     let c := t.val / 5
     let k := s.position st t
     let w := s.worldBit st t
     T.run = .selfTest → (s.physAt st c k).passes = true → (s.recordTest st c k true).imageOk st t = true →
     Registers.wf s = true →
     ∃ u : State, exec (.tileSelfTestEnd st t) s = .next (u.hallReact s) ∧
       let U := u.tile st t
       U.run = .running ∧ U.pc = (s.reg (tileReg st t 0x08)).setWidth 16 ∧
       U.psw = (if w then 0x1C11 else 0x1C01) ∧ U.preds = 1 ∧ U.rc = 0 ∧ U.ipend = 0 ∧ U.fxm = 0 ∧
       U.epc = 0 ∧ U.ecause = 0 ∧ U.efaddr = 0 ∧ U.tsbp = 0 ∧ U.evec = 0 ∧ U.rspCnt = 0 ∧ U.rspPtr = 0 ∧
       U.opnd = .replicate 8 0 ∧ U.aluR = .replicate 2 0 ∧ U.shfR = 0 ∧ U.scuR = 0 ∧ U.lsuR = 0 ∧ U.cuR = 0 ∧
       U.ld1 = none ∧ U.ld2 = none ∧ U.ld3 = none ∧ U.acc = .replicate 2 (.replicate 4 {}) ∧ U.flights = [] ∧ U.report = none ∧
       U.window = none ∧ U.slot = 0 ∧ U.pkind = .none ∧ U.pswNext = none ∧ U.scu = {} ∧ U.buf = [] ∧
       (∀ n : Fin 3, U.attic[n].inUse = false) ∧ U.lastCause = T.lastCause ∧ U.runs = T.runs + 1 ∧
       U.sgA[(0 : Fin 8)] = (if w then 0x9580000000000000 else 0x8580000000000000) ∧ U.sgB[(0 : Fin 8)] = 0x1FFFF ∧
       U.sgA[(6 : Fin 8)] = (if w then 0x9600000000020000 else 0x8600000000020000) ∧ U.sgB[(6 : Fin 8)] = 0x2FFFF ∧
       (∀ n : Fin 8, n ≠ 0 → n ≠ 6 → U.sgA[n] = 0 ∧ U.sgB[n] = 0) ∧
       U.qu.lq = .replicate 4 {} ∧ U.qu.sq = .replicate 4 {} ∧
       (∀ o ∈ [0x200, 0x204, 0x208, 0x20C, 0x210, 0x214], u.reg (tileReg st t o) = 0) ∧
       (∀ a, (∀ o ∈ [0x200, 0x204, 0x208, 0x20C, 0x210, 0x214], a ≠ tileReg st t o) → a ≠ stnReg st (0x100 + 4 * c) → u.reg a = s.reg a) ∧
       (∀ a, u.byte a = s.byte a) ∧ u.stns = s.stns ∧ ∀ x y, (x, y) ≠ (st, t) → u.tile x y = s.tile x y)

/-- 05 R148, R162, R165, R168, R169: stop and test requests. A stop waits for the next boundary, where the tile shows stopped; during self-test it
abandons the start. A test request is kept unless the tile is not running or is at test level, and its entry saves into Attic set 1 with
CAUSE 0 and goes on at TILE_TVEC at test level, ahead of a report that is pending. TILE_SWI sets bits 7 to 15 of `ipend`, bit 7 from the
Hall only; of a station that the grade lacks it changes nothing (00 R3).

01 R474, 05 R164: a failed pipe of a physical tile that serves a running tile stops it at once with LASTCAUSE 0x0E and TILE_STOPPC at the
next instruction, and the Hall is notified; of a position that serves no tile, or whose tile does not run, only its health changes. -/
def Obligations.TileStopsAndTests : Prop :=
  (∀ (s : State) (st : Stn) (t : TileNo) (hall : Bool) (v : W32),
     let T := s.tile st t
     (T.run = .running → exec (.tileStopRequest st t) s = .next (s.setTile st t { T with stopReq := true })) ∧
     (T.run = .selfTest → exec (.tileStopRequest st t) s = .next (s.setTile st t { T with run := .stopped })) ∧
     (T.run ≠ .running → T.run ≠ .selfTest → exec (.tileStopRequest st t) s = .next s) ∧
     (T.run = .running → s.haltFrozen st = false → T.stopReq = true → T.flights = [] →
       exec (.tileStopTaken st t) s = .next (s.setTile st t { T with
         run := .stopped, stopReq := false, testReq := false, window := none, waiting := false, qu := { T.qu with atomicFail := none } })) ∧
     (T.run = .running → pswLvl T.psw ≠ 3 →
       exec (.tileTestRequest st t) s = .next (s.setTile st t { T with testReq := true })) ∧
     (T.run ≠ .running ∨ pswLvl T.psw = 3 → exec (.tileTestRequest st t) s = .next s) ∧
     (T.run = .running → s.haltFrozen st = false → T.stopReq = false → T.testReq = true → T.flights = [] →
       T.attic[(1 : Fin 3)].inUse = false →
       ∃ u, exec (.testEntry st t) s = .next u ∧
         let U := u.tile st t
         U.testReq = false ∧ U.attic[(1 : Fin 3)].inUse = true ∧
         U.attic[(1 : Fin 3)].words[(0 : Fin 16)] = T.pc.setWidth 64 ∧ U.attic[(1 : Fin 3)].words[(1 : Fin 16)] = T.psw ∧
         U.attic[(1 : Fin 3)].words[(2 : Fin 16)] = 0 ∧ pswLvl U.psw = 3 ∧ pswIe U.psw = false ∧
         U.pc = (s.reg (tileReg st t 0x10)).setWidth 16 ∧ U.q = T.q ∧ U.ipend = T.ipend ∧
         u = { s with tiles := u.tiles } ∧ ∀ x y, (x, y) ≠ (st, t) → u.tile x y = s.tile x y) ∧
     (v &&& 0xFFFF007F = 0 → (hall = true ∨ v.getLsbD 7 = false) → s.fitted st = true →
       exec (.tileSwi st t hall v) s = .next (s.noted.setTile st t { T with ipend := T.ipend ||| v.setWidth 16 })) ∧
     (v &&& 0xFFFF007F = 0 → (hall = false ∧ v.getLsbD 7 = true ∨ s.fitted st = false) →
       exec (.tileSwi st t hall v) s = .next s.noted)) ∧
  (∀ (s : State) (st : Stn) (p : Phys) (kind : PipeKind),
     let S := s.stn st
     let P := S.phys[p]
     let P' : PhysTile := match kind with
       | .alu => { P with alu := min 3 (P.alu + 1) }
       | .mac => { P with mac := min 3 (P.mac + 1) }
       | .unspared => { P with unspared := true }
     let u := s.setStn st { S with phys := S.phys.set p P' }
     (∀ t : TileNo, s.servedBy st p = some t →
       let T := s.tile st t
       (T.run = .running → exec (.pipeFailure st p kind) s = .next
         (((u.setTile st t { T with
           run := .tileStopped, lastCause := 0x0E, window := none, waiting := false, stopReq := false, testReq := false
           qu := { T.qu with atomicFail := none } }).setReg (tileReg st t 0x18) (T.pc.setWidth 32)).notify (.tileLost st t))) ∧
       (T.run ≠ .running → exec (.pipeFailure st p kind) s = .next u)) ∧
     (s.servedBy st p = none → exec (.pipeFailure st p kind) s = .next u))

/-- 02 R61, R62; 03 R92, R93; 15 R425, R426: a line fill that ends puts its line in front of the buffer of four, a bad one marked and reported,
and the lines that the tile waits for are filled next, before what is only prefetched; a reload of the tile's line buffer waits for the
fill in progress at its GO and holds back later ones of the line, writes the line, discards its buffered copy, and clears PEND. That a
filled line counts as the most recently used is the model's choice (log entry 71), which fills a reload holds back its reading (log entry
97). Of a station that the grade lacks nothing is written (00 R3).
That the lines waited for come before prefetches is its reading of 03 R93 (log entry 69). -/
def Obligations.LineFillsAndReloads : Prop :=
  ∀ (s : State) (st : Stn) (t : TileNo) (l : Byte) (rest : List Byte),
    let T := s.tile st t
    let a := tileReg st t 0x220
    let r := s.reg a
    let good := s.lineCrc st t l = s.storedCrc st t l
    let held := { T with fills := rest, fillFirst := false, buf := (⟨l, !decide good⟩ :: T.buf.filter fun e => e.line != l).take 4 }
    let needed := (s.setTile st t held).neededLines st t
    let filled := s.setTile st t { held with fills := needed ++ rest.filter fun l => !needed.contains l }
    (T.run = .running → s.haltFrozen st = false → T.fills = l :: rest → r.getLsbD 30 = true → r.toNat % 256 = l.toNat →
      T.fillFirst = false → exec (.lineFillComplete st t) s = .next s) ∧
    (T.run = .running → s.haltFrozen st = false → T.fills = l :: rest →
      (r.getLsbD 30 = true → r.toNat % 256 = l.toNat → T.fillFirst = true) →
      (good → exec (.lineFillComplete st t) s = .next filled) ∧
      (¬good → r.getLsbD 16 = false →
        exec (.lineFillComplete st t) s = .next (((filled.setFld a 8 8 l.toNat).setFld a 16 1 1).notify (.lineFault st t)))) ∧
    (∀ v : W32, v &&& 0x0FFE0000 = 0 → s.fitted st = false → exec (.tileLfixGo st t v) s = .next s.noted) ∧
    (∀ v : W32, v &&& 0x0FFE0000 = 0 → v.getLsbD 31 = true → r.getLsbD 30 = false → s.fitted st = true → Registers.wf s = true →
      ∃ u, exec (.tileLfixGo st t v) s = .next u ∧
        u = { (s.noted.setTile st t { T with fillFirst := !T.fills.isEmpty }) with regs := u.regs } ∧
        u.reg a = (r &&& (if v.getLsbD 16 then 0x8FFEFF00 else 0x8FFFFF00)) ||| (v &&& 0x300000FF) ||| 0x40000000 ∧
        ∀ x, x ≠ a → u.reg x = s.reg x) ∧
    (r.getLsbD 30 = true → r.toNat % 256 = l.toNat → T.fillFirst = false → Memory.wf s = true → Registers.wf s = true →
      ∃ u, exec (.lineReloadEnd st t) s = .next u ∧
        (∀ i < 64, ∀ j < 4, u.byte (tileInsn st t (256 * l.toNat + 4 * i + j)) =
          (s.reg (tileReg st t (0x400 + 4 * i))).extractLsb' (8 * j) 8) ∧
        (∀ x, x < tileInsn st t (256 * l.toNat) ∨ tileInsn st t (256 * l.toNat) + 256 ≤ x → u.byte x = s.byte x) ∧
        u.reg a = r &&& 0xBFFFFFFF ∧
        u.reg (tileReg st t (0x1000 + 4 * l.toNat)) =
          (if r.getLsbD 29 then s.reg (tileReg st t 0x224) else s.reg (tileReg st t (0x1000 + 4 * l.toNat))) ∧
        (∀ x, x ≠ a → x ≠ tileReg st t (0x1000 + 4 * l.toNat) → u.reg x = s.reg x) ∧
        u.tile st t = { T with
          buf := T.buf.filter fun e => e.line != l
          ipend := if r.getLsbD 28 then T.ipend ||| 0x0080 else T.ipend } ∧
        ∀ x y, (x, y) ≠ (st, t) → u.tile x y = s.tile x y)

/-- 01 R33, R22: the station leaves the stopped and failed states through a start. START is accepted while the station does not run and
nothing is in progress and the grade has the station: forced retirements are applied in columns whose STATE is 0b00 and FRC_EN is cleared
everywhere; at any other time START is ignored. What the Hall's firmware and the PCIe block then do is `hallReact` and `pcieResume`.

01 R33, R20, R13: the end of a start. With every physical tile passing and no column shifted, the network is reset, every buffer is
emptied but the Hall's mailbox FIFO and the notices of camera ingest, every sending channel holds 4 credits, the counters restart, the LIVE bits are those of positions 0 to 4,
and the station runs with its tiles as they were; where a column is exhausted, the station is failed. -/
def Obligations.StationStarts : Prop :=
  (∀ (s : State) (st : Stn),
     let S := s.stn st
     (S.run ≠ .running → S.phase = .none → s.fitted st = true →
       (∀ c < 8, (s.reg (stnReg st (0x100 + 4 * c))).getLsbD 31 = false) →
       exec (.stnRunStart st) s = .next ((s.setStn st { S with phase := .starting }).hallReact s).pcieResume) ∧
     (S.run ≠ .running → S.phase = .none → s.fitted st = true → s.hall.run ≠ .firmware → s.headMode = false → Registers.wf s = true →
       ∃ u, exec (.stnRunStart st) s = .next u ∧ (u.stn st).phase = .starting ∧ (u.stn st).run = S.run ∧
         ∀ c < 8,
           let r := s.reg (stnReg st (0x100 + 4 * c))
           let pos := r.toNat / 2 ^ 28 % 8
           (r.getLsbD 31 = false → u.reg (stnReg st (0x100 + 4 * c)) = r) ∧
           (r.getLsbD 31 = true → r.toNat / 2 ^ 26 % 4 = 0 → pos ≤ 5 →
             u.reg (stnReg st (0x100 + 4 * c)) =
               (r &&& (0x707FFFFF &&& ~~~((1 : W32) <<< pos))) ||| 0x04000000 ||| (BitVec.ofNat 32 pos <<< 23)) ∧
           (r.getLsbD 31 = true → r.toNat / 2 ^ 26 % 4 ≠ 0 → u.reg (stnReg st (0x100 + 4 * c)) = r &&& 0x7FFFFFFF)) ∧
     (S.run = .running ∨ S.phase ≠ .none ∨ s.fitted st = false →
       exec (.stnRunStart st) s = .next (s.hallReact s).pcieResume)) ∧
  (∀ (s : State) (st : Stn),
     let S := s.stn st
     S.phase = .starting → s.hall.run ≠ .firmware →
     ((∀ k : Fin 48, S.phys[k] = {}) → (∀ c < 8, s.colState st c = 0) → Registers.wf s = true →
       ∃ u, exec (.stationStartEnd st) s = .next u ∧
         let U := u.stn st
         U.run = .running ∧ U.phase = .none ∧ U.frameBase = 0 ∧ U.cycle = 0 ∧ U.frozen = false ∧ U.outs = [] ∧ U.hold = [] ∧ U.be = [] ∧
         U.resps = [] ∧ U.fixes = [] ∧ U.fix = none ∧ U.bandQueue = S.bandQueue ∧ U.hallSend = [] ∧ U.hallFifo = S.hallFifo ∧ U.tables = S.tables ∧ U.phys = S.phys ∧
         (∀ t, u.tile st t = { s.tile st t with nu := { (s.tile st t).nu with
           send := .replicate 8 [], recv := .replicate 8 [], credits := .replicate 8 [0, 0, 0, 0], freed := .replicate 8 []
           mbox := [], mboxSend := [] } }) ∧
         (∀ o ∈ [0x408, 0x40C, 0x410], u.reg (stnReg st o) = 0) ∧
         (∀ c < 8, (u.reg (stnReg st (0x100 + 4 * c))).toNat % 2 ^ 18 = 0x1F ∧ u.colState st c = 0) ∧
         u.mem = s.mem ∧ ∀ x, x ≠ st → u.stn x = s.stn x ∧ ∀ t, u.tile x t = s.tile x t) ∧
     ((∃ c < 8, s.colState st c = 2) →
       ∃ u, exec (.stationStartEnd st) s = .next u ∧ (u.stn st).run = .failed ∧ (u.stn st).phase = .none ∧
         (u.stn st).tables = S.tables ∧ (u.stn st).hallFifo = S.hallFifo ∧ ∀ x, x ≠ st → u.stn x = s.stn x))

/-- 01 R33: stopping and failing. STOP of a running station asks every running tile to stop and is in progress; STOP of a failed station leaves it
stopped; FAIL of a running station stops it and leaves it failed, FAIL of a stopped one only marks it, and FAIL during a stop turns its end to
failed; everything else is ignored. The stop ends once the tiles' requests are answered; what it waits for is the model's reading (log
entry 34). A divisor that is due takes effect then, not below the minimum of CPR_THSs, which is the model's reading too (log entry 98). -/
def Obligations.StationStops : Prop :=
  ∀ (s : State) (st : Stn),
    let S := s.stn st
    let asked := fun (fails : Bool) (o : Host.Outcome State Fault Refusal) =>
      ∃ u : State, o = .next (u.hallReact s).pcieResume ∧ u.stn st = { S with phase := .stopping fails } ∧
        (∀ t, u.tile st t = (match (s.tile st t).run with
          | .running => { s.tile st t with stopReq := true }
          | .selfTest => { s.tile st t with run := .stopped }
          | _ => s.tile st t)) ∧ u = { s with tiles := u.tiles, stns := u.stns } ∧
        ∀ x, x ≠ st → u.stn x = s.stn x ∧ ∀ t, u.tile x t = s.tile x t
    let sets := fun (r : StnRun) => ((s.setStn st { S with run := r }).hallReact s).pcieResume
    let same := (s.hallReact s).pcieResume
    (S.run = .failed → exec (.stnRunStop st) s = .next (sets .stopped)) ∧
    (S.phase = .none →
      (S.run = .running → asked false (exec (.stnRunStop st) s) ∧ asked true (exec (.stnRunFail st) s)) ∧
      (S.run = .failed → exec (.stnRunFail st) s = .next same) ∧
      (S.run = .stopped → exec (.stnRunStop st) s = .next same ∧
        exec (.stnRunFail st) s = .next (if s.fitted st then sets .failed else same))) ∧
    (S.phase = .starting → exec (.stnRunFail st) s = .next same) ∧
    (∀ f, S.phase = .stopping f →
      exec (.stnRunFail st) s = .next ((s.setStn st { S with phase := .stopping true }).hallReact s).pcieResume ∧
      (S.repairs = [] → S.repairNow = none → S.fixes = [] → S.fix = none → s.answered st = true → s.hall.run ≠ .firmware →
        (∀ t, (s.tile st t).stopReq = false) → Registers.wf s = true →
        let least := min 2 ((s.reg (devReg 1 (0x20 + 4 * st.val))).toNat / 16 % 4)
        ∃ u, exec (.stationStopEnd st) s = .next u ∧
          u.stn st = { S with
            phase := .none, frozen := false, halted := false, dueDiv := none, run := if f then .failed else .stopped } ∧
          u.reg (stnReg st 0x404) = (match S.dueDiv with
            | none => s.reg (stnReg st 0x404) &&& 0x07FFFFFF
            | some d => (s.reg (stnReg st 0x404) &&& 0x01FFFFFF) ||| (BitVec.ofNat 32 (max least d.toNat) <<< 25)) ∧
          u.reg (stnReg st 0x418) = s.reg (stnReg st 0x418) &&& 0xBFFFFFFF ∧
          (∀ a, a ≠ stnReg st 0x404 → a ≠ stnReg st 0x418 → u.reg a = s.reg a) ∧
          u = { s.noted with regs := u.regs, stns := u.stns } ∧ ∀ x, x ≠ st → u.stn x = s.stn x) ∧
      (s.answered st = false → s.hall.run ≠ .firmware → exec (.stationStopEnd st) s = .next s.noted)) ∧
    (S.phase ≠ .none → S.run ≠ .failed → exec (.stnRunStop st) s = .next same)

/-- 15 R422, 01 R16, R18, R19, R21: column repair. STN_REPAIR.GO takes a tile of a running station whose column has no retirement, while no repair
runs or waits; otherwise it is ignored. In the frozen frame the position is retired: STATE and RET_POS are set, the state of the logical
tiles above goes on unchanged, the logical tile of the retired position is left stopped, and the tile-restart notice is raised; repairs
that wait go on waiting. That a repair asked for in a freeze begins at once (log entry 33), what the lost tile loses (log entry 34), and
that its memory reads 0 until it is reloaded (log entry 84) are the model's. A retirement of a position that serves no tile, or in a column that has retired one before, changes the map alone: the
column is then exhausted (R20).

06 R171, R172: a write of STN_TWORLD sets the world bits of stopped tiles and of no other. -/
def Obligations.ColumnRepairsAndWorlds : Prop :=
  (∀ (s : State) (st : Stn) (v : W32) (t : TileNo) (c : Fin 8) (x : Fin 6),
     let S := s.stn st
     let go := stnReg st 0x1A8
     let col := stnReg st (0x100 + 4 * c.val)
     (v &&& 0x3FFFFFC0 = 0 → v.getLsbD 31 = true → v.toNat % 64 = t.val → S.repairs = [] → S.repairNow = none → S.run = .running →
       s.colState st (t.val / 5) = 0 → s.fitted st = true →
       let due : Fin 8 × Fin 6 := (Fin.ofNat 8 (t.val / 5), Fin.ofNat 6 (s.position st t))
       let u := s.noted.setFld go 0 6 t.val
       exec (.stnRepairGo st v) s = .next
         (if S.frozen ∧ (s.reg (stnReg st 0x404)).getLsbD 29 = false then
            (u.setStn st { S with repairNow := some due, closed := due.1 :: S.closed }).setFld (stnReg st 0x404) 29 1 1
          else u.setStn st { S with repairs := [due] })) ∧
     (v &&& 0x3FFFFFC0 = 0 → s.fitted st = false → exec (.stnRepairGo st v) s = .next s.noted) ∧
     (v &&& 0x3FFFFFC0 = 0 → s.fitted st = true → v.toNat % 64 = t.val → (v.getLsbD 31 = false ∨ S.repairs ≠ [] ∨ S.run ≠ .running) →
       exec (.stnRepairGo st v) s = .next (s.noted.setFld go 0 6 t.val)) ∧
     (S.repairNow = some (c, x) → S.frozen = true → s.colState st c.val = 0 → x.val < 5 → s.hall.run ≠ .firmware →
       s.headMode = false → Registers.wf s = true → Memory.wf s = true →
       ∃ u, exec (.columnRepair st) s = .next u ∧
         let j : TileNo := Fin.ofNat 40 (5 * c.val + x.val)
         (u.stn st).repairNow = none ∧ (u.stn st).repairs = S.repairs ∧ (u.stn st).run = S.run ∧ u.notices = s.notices ++ [.tileRestart st j] ∧
         u.reg col = (s.reg col &&& (0xF07FFFDF &&& ~~~((1 : W32) <<< x.val))) ||| 0x04000020 ||| (BitVec.ofNat 32 x.val <<< 23) ∧
         (u.tile st j).run = .stopped ∧ (u.tile st j).nu = (s.tile st j).nu ∧
         (∀ a, tileBase st j ≤ a → a < tileBase st j + 0x40000 → u.byte a = 0) ∧
         (∀ a, a < tileBase st j ∨ tileBase st j + 0x40000 ≤ a → u.byte a = s.byte a) ∧
         ∀ y z, (y, z) ≠ (st, j) → u.tile y z = s.tile y z) ∧
     (S.repairNow = some (c, x) → S.frozen = true → (x = 5 ∨ s.colState st c.val ≠ 0) → s.hall.run ≠ .firmware →
       s.headMode = false → Registers.wf s = true →
       ∃ u, exec (.columnRepair st) s = .next u ∧ (u.stn st).repairNow = none ∧
         (u.stn st).repairs = S.repairs ∧ u.notices = s.notices ∧ u.tiles = s.tiles ∧
         u.mem = s.mem ∧ u.colState st c.val = (if s.colState st c.val = 0 then 1 else 2) ∧ (∀ a, a ≠ col → u.reg a = s.reg a))) ∧
  (∀ (s : State) (st : Stn) (v : W32),
     let stopped := fun (n : Nat) => ((s.tile st (Fin.ofNat 40 n)).run != .running && (s.tile st (Fin.ofNat 40 n)).run != .selfTest) = true
     Registers.wf s = true → s.fitted st = true →
     (∃ u, exec (.stnTworldWrite st false v) s = .next u ∧
       (∀ n < 32, (u.reg (stnReg st 0x140)).getLsbD n =
         if stopped n then v.getLsbD n else (s.reg (stnReg st 0x140)).getLsbD n) ∧
       (∀ a, a ≠ stnReg st 0x140 → u.reg a = s.reg a) ∧ u = { s.noted with regs := u.regs }) ∧
     (v.toNat < 256 →
       ∃ u, exec (.stnTworldWrite st true v) s = .next u ∧
         (∀ n < 8, (u.reg (stnReg st 0x144)).getLsbD n =
           if stopped (32 + n) then v.getLsbD n else (s.reg (stnReg st 0x144)).getLsbD n) ∧
         (∀ n, 8 ≤ n → (u.reg (stnReg st 0x144)).getLsbD n = (s.reg (stnReg st 0x144)).getLsbD n) ∧
         (∀ a, a ≠ stnReg st 0x144 → u.reg a = s.reg a) ∧ u = { s.noted with regs := u.regs }))

/-! ### Banks and LP5 memory (08) -/

/-- 08 R223, R224, R226: a request for a bank's power state. A bank that serves or is to serve accesses changes in time; between standby and off
it changes at once, and off loses its contents; a request that names the present state does nothing; a request during a change or a
zero-fill waits for its end, where the state is reached. The write asks for state w of bank b and leaves the other banks alone (0b11).
Nothing is written of a station that the grade lacks (00 R3).

08 R225: a zero-fill. It starts in a bank that is on and is ignored elsewhere; while it runs the bank serves nothing; at its end every word
of the bank reads zero without an error, and no other byte of memory has changed. -/
def Obligations.BanksAndZeroFills : Prop :=
  (∀ (s : State) (m : BankMem) (b : Fin 32) (w : BitVec 2),
     let hi := match m with
       | .station _ => decide (16 ≤ b.val)
       | _ => false
     let v : W32 := put (match m with
       | .tile .. => 0xFF
       | _ => 0xFFFFFFFF) (2 * (b.val % 16)) 2 w.toNat
     let cur := s.bankPower m b.val
     let ask := exec (.bankPowerWrite m hi v) s
     m.hasBank b = true → w ≠ 3 →
     (s.bankFitted m = false → ask = .next s.noted ∧ ∀ fill, exec (.zeroFillStart m fill) s = .next s) ∧
     (s.bankFitted m = true →
     (s.change m b.val = none → s.filling m b.val = false →
       (cur = w.toNat → ask = .next s.noted) ∧
       (cur ≠ w.toNat → (cur = 2 ∨ w = 2) → ask = .next (s.noted.setChange m b.val (some w, none))) ∧
       (cur ≠ w.toNat → cur ≠ 2 → w = 1 → ask = .next (s.noted.setBankPower m b.val 1)) ∧
       (cur ≠ w.toNat → cur ≠ 2 → w = 0 → ask = .next ((s.noted.clearBank m b.val).setBankPower m b.val 0))) ∧
     (s.change m b.val = none → s.filling m b.val = true → ask = .next (s.noted.setChange m b.val (none, some w))) ∧
     (∀ r x, s.change m b.val = some (r, x) → ask = .next (s.noted.setChange m b.val (r, some w)))) ∧
     (s.change m b.val = some (some w, none) →
       exec (.bankPowerChangeEnd m b) s = .next
         (if w = 0 then ((s.endChange m b.val).setBankPower m b.val 0).clearBank m b.val
          else (s.endChange m b.val).setBankPower m b.val w.toNat)) ∧
     (s.change m b.val = none → exec (.bankPowerChangeEnd m b) s = .next s)) ∧
  (∀ (s : State) (m : BankMem) (b : Fin 32),
     let fill : W32 := (1 : W32) <<< (match m with
       | .tile .. => 8 + b.val
       | _ => b.val)
     let f := bankFillBit m b.val
     m.hasBank b = true → s.bankFitted m = true →
     (s.bankOn m b.val = true →
       exec (.zeroFillStart m fill) s = .next (s.setFld f.1 f.2 1 1) ∧
       (Registers.wf s = true → (s.setFld f.1 f.2 1 1).bankOn m b.val = false)) ∧
     (s.bankOn m b.val = false → exec (.zeroFillStart m fill) s = .next s) ∧
     (s.filling m b.val = true → s.change m b.val = none → Memory.wf s = true →
       ∃ u, exec (.zeroFillEnd m b) s = .next u ∧
         (∀ a, u.byte a = if bankHolds m b.val a then 0 else s.byte a) ∧
         (∀ a, bankHolds m b.val (a / 8 * 8) = true → u.upset a = .none) ∧
         u.reg f.1 = put (s.reg f.1) f.2 1 0 ∧ (∀ a, a ≠ f.1 → u.reg a = s.reg a) ∧
         u.tiles = s.tiles ∧ u.stns = s.stns ∧ u.change m b.val = none) ∧
     (s.filling m b.val = false → exec (.zeroFillEnd m b) s = .next s))

/-- 08 R227, R228: a scrubber reads the next row of its bank. With no error only its place moves on; a single-bit error in the row's first
word is corrected and counted; an uncorrectable one is recorded and raises the mem-fault notice. Here for rows that had no error before,
with the station's memory where a count or an address is named. In a memory of a station that the grade lacks nothing happens (00 R3).

08 R248, R249, R250; 16 R440: the LP5 controllers. One whose clock is gated does nothing. INIT with memory fitted begins training, and READY and FAIL read 0 until its end sets one of them
(READY falling at INIT is log entry 42); with none fitted nothing happens; self-refresh shows in SREF; the refresh rate follows MR4 while the controller is ready;
the scrubber reads lines of a ready controller under inline ECC, and nothing otherwise. -/
def Obligations.ScrubbingAndLp5 : Prop :=
  (∀ (s : State) (st : Stn) (m : BankMem) (b : Fin 32),
     let row := fun (m : BankMem) => smGet (fun _ => 0) s.scrubAt (bankNo m b.val)
     let moved := fun (m : BankMem) (s : State) (r : Nat) => { s with scrubAt := smSet (fun _ => 0) s.scrubAt (bankNo m b.val) r }
     let a0 := stnBase st + b.val * 0x80000 + 64 * row (.station st)
     let on := fun (m : BankMem) => m.hasBank b = true ∧ s.bankFitted m = true ∧ s.bankOn m b.val = true ∧
       ∀ a ∈ bankScrubRow m b.val (row m), s.upset a = .none
     ((∀ x, m ≠ .station x) → on m →
       exec (.memScrub m b .none) s = .next (moved m s ((row m + 1) % bankRows m))) ∧
     (on (.station st) → (s.reg (stnReg st 0x21C)).getLsbD 31 = true → Registers.wf s = true →
       exec (.memScrub (.station st) b .none) s = .next (moved (.station st) s ((row (.station st) + 1) % 8192)) ∧
       (∃ u, exec (.memScrub (.station st) b .single) s = .next u ∧ u.upset a0 = .none ∧
         u.reg (stnReg st 0x214) = s.reg (stnReg st 0x214) + 1 ∧ u.reg (stnReg st 0x210) = s.reg (stnReg st 0x210) ||| 2 ∧
         (∀ a, a ≠ stnReg st 0x214 → a ≠ stnReg st 0x210 → u.reg a = s.reg a) ∧ u.notices = s.notices ∧ u.mem = s.mem ∧
         u.tiles = s.tiles) ∧
       ((s.reg (stnReg st 0x210)).getLsbD 0 = false →
         ∃ u, exec (.memScrub (.station st) b .double) s = .next u ∧ u.upset a0 = .double ∧
           u.reg (stnReg st 0x218) = BitVec.ofNat 32 (a0 - stnBase st) ∧ u.reg (stnReg st 0x210) = s.reg (stnReg st 0x210) ||| 1 ∧
           (∀ a, a ≠ stnReg st 0x218 → a ≠ stnReg st 0x210 → u.reg a = s.reg a) ∧
           u.notices = s.notices ++ [.memFault (.station st) (BitVec.ofNat 40 a0) true] ∧ u.mem = s.mem ∧ u.tiles = s.tiles)) ∧
     (s.bankFitted m = false → ∀ x, exec (.memScrub m b x) s = .next s) ∧
     ((s.reg (stnReg st 0x21C)).getLsbD 31 = false → ∀ x, exec (.memScrub (.station st) b x) s = .next s)) ∧
  (∀ (s : State) (n : Fin 2) (ok : Bool),
     let ctrl := lpReg n 0
     let stat := lpReg n 4
     let dens := (s.reg ctrl).toNat / 16 % 8
     (s.gated n.val = true → ∀ x, ∀ c ∈ [Instr.lp5Init n, .lp5TrainingEnd n ok, .lp5SelfRefresh n ok, .lp5Mr4Read n ok, .lp5Scrub n x],
       exec c s = .next s) ∧
     (s.gated n.val = false →
     (1 ≤ dens → dens ≤ 5 →
       exec (.lp5Init n) s = .next { s.setFld stat 0 2 0 with lp5Train := s.lp5Train.set n true }) ∧
     (dens = 0 ∨ 6 ≤ dens → exec (.lp5Init n) s = .next s) ∧
     (s.lp5Train[n] = true →
       exec (.lp5TrainingEnd n ok) s = .next { s.setFld stat 0 2 (if ok then 1 else 2) with lp5Train := s.lp5Train.set n false }) ∧
     (s.lp5Train[n] = false → exec (.lp5TrainingEnd n ok) s = .next s) ∧
     exec (.lp5SelfRefresh n ok) s = .next ((s.setFld ctrl 10 1 ok.toNat).setFld stat 7 1 ok.toNat) ∧
     ((s.reg stat).getLsbD 0 = true → exec (.lp5Mr4Read n ok) s = .next (s.setFld stat 6 1 ok.toNat)) ∧
     ((s.reg stat).getLsbD 0 = true → (s.reg ctrl).getLsbD 10 = false → (s.reg ctrl).getLsbD 9 = true → (s.reg ctrl).getLsbD 8 = true →
       (∀ i < 8, s.upset (lpBase n + 64 * s.lp5Scrub[n] + 8 * i) = .none) →
       exec (.lp5Scrub n .none) s = .next { s with
         lp5Scrub := s.lp5Scrub.set n ((s.lp5Scrub[n] + 1) % (s.lpPresented n / 64)) }) ∧
     ((s.reg ctrl).getLsbD 9 = false ∨ (s.reg ctrl).getLsbD 8 = false ∨ (s.reg stat).getLsbD 0 = false →
       ∀ x, exec (.lp5Scrub n x) s = .next s)))

/-! ### Camera ingest (09) -/

/-- 09 R253, R256, R257, R272: the short packets and the state of a receiver. A receiver that is off or of an absent station takes nothing. On one
that is on: ULPS and start-of-transmission show in its status, high-speed data sets SYNC, a packet-header error is flagged and counted,
LINE_START names the next line of a context, and FRAME_START opens slot 1 of a ring context's frame (SEQ_BEGIN is its first write) or just begins the frame of a band
context. Here for a virtual channel that one context receives.

09 R255, R256, R258, R260, R263: a long packet of each data type and each way of storing it arrives for a context that is capturing. Its row
is the number of packets before it, or the line that LS named; in ring mode it belongs to the open slot, in band mode to the band of its
row, which is opened, and an earlier band closed, when it is not the open one. The pixels go to their row and the 16-byte descriptor, with
time, data type, flags, byte count and row, to its place, in that order, and the line stands in the receiver's line FIFO until it is
written. A failed CRC, a corrected header, a short or long line and an overflow of the FIFO are flagged in the descriptor and in the
context, the first and the last in the receiver too. A packet that no context takes is counted for no row and flagged. How RAW10 and
RAW12 pixels are packed is taken from CSI-2 (log entry 16).
How long a line stands in its FIFO is the model's reading (log entry 88). -/
def Obligations.CameraInput : Prop :=
  (∀ (s : State) (st : Stn) (r : Fin 4) (vc : BitVec 2) (n : W16) (p : LongPkt) (ok : Bool),
     let stat := rxReg st r 4
     let cnt := rxReg st r 8
     let got := s.setFld stat 6 1 1
     (s.rxOn st r = false →
       ∀ c ∈ [Instr.frameStart st r vc n, .frameEnd st r vc, .lineStart st r vc n, .longPacket st r p, .csiUlps st r ok,
         .startOfTransmission st r ok, .packetHeaderError st r], exec c s = .next s) ∧
     (s.rxOn st r = true →
       exec (.csiUlps st r ok) s = .next (s.setFld stat 7 1 ok.toNat) ∧
       exec (.startOfTransmission st r ok) s = .next (s.setFld stat (if ok then 6 else 3) 1 1) ∧
       ((∀ k, (s.ctx st k).active = false) →
         exec (.packetHeaderError st r) s = .next
           ((got.setFld stat 2 1 1).setFld cnt 0 16 (min 0xFFFF ((s.reg cnt).toNat % 65536 + 1)))) ∧
       (s.ctxsOf st r vc = [] → exec (.frameStart st r vc n) s = .next got ∧ exec (.frameEnd st r vc) s = .next got) ∧
       ∀ k, s.ctxsOf st r vc = [k] →
         let C := s.ctx st k
         let g := s.geom st k
         let begun := fun (D : CamCtx) => (got.modCtx st k fun _ => { D with
           active := true, fnum := n, tfs := s.timeBase, count := 0, had := [], ls := none, lost := 0, longf := false }).setFld
             (cxReg st k 0x1C) 25 1 1
         let addr := g.base + C.seq.toNat % g.nslot * g.sz * 4096
         exec (.lineStart st r vc n) s = .next (got.modCtx st k fun C => { C with ls := some n }) ∧
         (C.active = false → g.ring = false → exec (.frameStart st r vc n) s = .next (begun C)) ∧
         (C.active = false → g.ring = true → 0 < g.nslot → C.seq.toNat < 2 ^ 32 - 1 → Registers.wf s = true →
           exec (.frameStart st r vc n) s = .next (begun { C with
             seq := C.seq + 1
             slots := C.slots ++ [{ seq := C.seq + 1, addr := addr, row0 := 0, rows := [], tfirst := 0, tlast := 0, err := false
                                    fs := true, fe := false, inc := false, shortf := false, longf := false, fnum := n
                                    tfs := s.timeBase, lost := 0, closed := none, index := C.seq.toNat % g.nslot
                                    size := g.sz * 4096, dt := g.dt, width := g.width, stride := g.stride }]
             writes := C.writes ++ [.bytes addr (leBytes 4 (C.seq.toNat + 1))] })))) ∧
  (∀ (s : State) (st : Stn) (r : Fin 4) (k : Fin 8) (p : LongPkt),
     let C := s.ctx st k
     let g := s.geom st k
     let c0 := s.reg (cxReg st k 0)
     let got := match p.fifoCut with
       | none => p.payload
       | some n => p.payload.take n
     let at_ := fun (l : List Byte) (i : Nat) => (l.getD i 0).toNat
     let ten := fun (l : List Byte) => (List.range (l.length / 5 * 4)).map fun j =>
       at_ l (5 * (j / 4) + j % 4) * 4 + at_ l (5 * (j / 4) + 4) / 4 ^ (j % 4) % 4
     let twelve := fun (l : List Byte) => (List.range (l.length / 3 * 2)).map fun j =>
       at_ l (3 * (j / 2) + j % 2) * 16 + at_ l (3 * (j / 2) + 2) / 16 ^ (j % 2) % 16
     let narrow := fun (l : List Nat) => l.map fun v => BitVec.ofNat 8 (min 255 (v / 2 ^ min 4 (c0.toNat / 2 ^ 13 % 8)))
     let wide := fun (l : List Nat) => l.flatMap fun v => [BitVec.ofNat 8 v, BitVec.ofNat 8 (v / 256)]
     let w := g.width
     let raw := got.take w
     let packed10 := got.take (w * 5 / 4)
     let packed12 := got.take (w * 3 / 2)
     let yuv := got.take (2 * w)
     s.rxOn st r = true → Registers.wf s = true →
     (s.ctxsOf st r p.vc = [] → p.crcOk = true → p.fifoCut = none →
       exec (.longPacket st r p) s = .next ((s.setFld (rxReg st r 4) 6 1 1).setFld (rxReg st r 4) 4 1 1)) ∧
     (∀ form ∈ [(0x2A, 0, 1, w, raw), (0x2A, 1, 2, w, wide (raw.map BitVec.toNat)), (0x2A, 2, 1, w, raw),
         (0x2B, 0, 1, w * 5 / 4, narrow (ten packed10)), (0x2B, 1, 2, w * 5 / 4, wide (ten packed10)),
         (0x2C, 0, 1, w * 3 / 2, narrow (twelve packed12)), (0x2C, 1, 2, w * 3 / 2, wide (twelve packed12)),
         (0x1E, 2, 2, 2 * w, yuv), (0x1E, 3, 1, 2 * w, (List.range (yuv.length / 2)).map fun j => yuv.getD (2 * j + 1) 0)],
       let short := p.payload.length < form.2.2.2.1
       let long := form.2.2.2.1 < p.payload.length
       let flags := (if p.crcOk then 0 else 1) + (if p.hdrCorrected then 2 else 0) + (if short then 4 else 0) +
         (if long then 8 else 0) + (if p.fifoCut = none then 0 else 16)
       let rows := if g.ring then g.height else g.rows
       let pixOff := (64 + 16 * rows + 63) / 64 * 64
       let stride := (w * form.2.2.1 + 63) / 64 * 64
       s.ctxsOf st r p.vc = [k] → c0.toNat / 2 ^ 18 % 64 = form.1 → c0.toNat / 2 ^ 16 % 4 = form.2.1 → p.dt.toNat = form.1 →
       C.active = true → ∀ row, (g.lsnum = false → row = C.count) → (g.lsnum = true → ∃ l, C.ls = some l ∧ row = (l - 1).toNat) →
       row < g.height →
       let first := if g.ring then 0 else row / g.rows * g.rows
       let i := row - first
       let stored := fun (before : List CamSlot) (B : CamSlot) (seq : W32) (ws : List CamWrite) =>
         ∃ u, exec (.longPacket st r p) s = .next u ∧
           u.ctx st k = { C with
             count := C.count + 1, ls := none, seq := seq
             had := if C.had.contains row then C.had else C.had ++ [row]
             slots := before ++ [{ B with
               rows := if B.rows.contains i then B.rows else B.rows ++ [i]
               tfirst := if B.rows.isEmpty then s.timeBase else B.tfirst
               tlast := s.timeBase, err := B.err || decide (flags ≠ 0) }]
             writes := C.writes ++ ws ++ [.row r (B.addr + pixOff + i * stride) form.2.2.2.2,
               .bytes (B.addr + 64 + 16 * i) (leBytes 8 s.timeBase.toNat ++
                 leBytes 8 (form.1 * 2 ^ 40 + flags * 2 ^ 32 + got.length % 65536 * 65536 + row % 65536))] } ∧
           u.stn st = { s.stn st with
             lines := (s.stn st).lines.set r
               ((s.stn st).lines[r] ++ [⟨min (p.fifoCut.getD p.payload.length) p.payload.length, [k]⟩]) } ∧
           u.reg (rxReg st r 4) = s.reg (rxReg st r 4) ||| 0x40 ||| (if p.crcOk then 0 else 2) ||| (if p.fifoCut = none then 0 else 1) ∧
           u.reg (rxReg st r 8) = (if p.crcOk then s.reg (rxReg st r 8)
             else put (s.reg (rxReg st r 8)) 16 16 (min 0xFFFF ((s.reg (rxReg st r 8)).toNat / 65536 + 1))) ∧
           u.reg (cxReg st k 0x1C) = s.reg (cxReg st k 0x1C) ||| (if flags = 0 then 0 else 0x10) |||
             (if p.fifoCut = none then 0 else 1) ∧
           (∀ a, a ≠ rxReg st r 4 → a ≠ rxReg st r 8 → a ≠ cxReg st k 0x1C → u.reg a = s.reg a) ∧
           u = { s with regs := u.regs, cam := u.cam, stns := u.stns } ∧ (∀ x, x ≠ st → u.stn x = s.stn x) ∧
           ∀ y x, (y, x) ≠ (st, k) → u.ctx y x = s.ctx y x
       let addr := g.base + C.seq.toNat % g.nslot * g.sz * 4096
       let opened : CamSlot := {
         seq := C.seq + 1, addr := addr, row0 := first, rows := [], tfirst := 0, tlast := 0, err := false
         fs := decide (first = 0), fe := false, inc := false, shortf := false, longf := false, fnum := C.fnum, tfs := C.tfs, lost := 0
         closed := none, index := C.seq.toNat % g.nslot, size := g.sz * 4096, dt := form.1, width := w, stride := stride }
       let begin_ := CamWrite.bytes addr (leBytes 4 (C.seq + 1).toNat)
       (∀ S, C.slots = [S] → S.closed = none → S.row0 = first → stored [] S C.seq []) ∧
       (g.ring = false → 0 < g.nslot →
         (C.slots = [] → stored [] opened (C.seq + 1) [begin_]) ∧
         (∀ S, C.slots = [S] → S.closed = none → S.row0 < first → S.seq = C.seq → g.lsnum = false →
           stored [{ S with fe := false, inc := false, shortf := false, longf := C.longf, lost := C.lost, closed := some S.rows.length }]
             opened (C.seq + 1) [.header S.seq, begin_]))))

/-- 09 R256, R259, R261, R263, R264, R265, R267: the end of a frame closes its slot, short when rows are missing, with descriptors for the
rows that LS named none of, and the header is queued after the rows; an FS in a frame of a band context closes its slot with INC. The
queued writes are performed oldest first, each when the camera port serves the station and its target grants the port (11 R304, R311); a
row so written leaves the line FIFO; the header has its 13 fields. A failed write marks its slot and sets WERR. Once all of a slot's writes
are answered, SEQ_END is written in the same way, LASTSEQ shows the slot, a notice waits for each target in ascending order with the Hall
last, and a slot that ends its frame raises the frame-end event. That INGEST_WRITE performs the oldest waiting write and SLOT_COMPLETE waits
for the rest is the model's reading (log entry 17).

09 R268, R269: enabling, disabling and aborting a context. An enable whose settings satisfy the conditions starts the sequence at 0 and clears CFGERR,
one whose settings do not sets CFGERR and stays off; of a context that is on it only calls off a disable. A disable waits for the frame
being captured; an abort does not. On a station that the grade lacks, or whose ingest block's clock is gated (16 R440), the write changes
nothing.
That an enable calls off a disable that waits is its choice (log entry 17), and when a line leaves its FIFO its reading (log entry 88). -/
def Obligations.CameraSlots : Prop :=
  (∀ (s : State) (st : Stn) (r : Fin 4) (vc : BitVec 2) (fnum : W16) (k : Fin 8) (S : CamSlot),
     let C := s.ctx st k
     let g := s.geom st k
     let status := cxReg st k 0x1C
     let cfg := cxReg st k 0
     let full := min (if g.ring then g.height else g.rows) (g.height - S.row0)
     let missing := if g.lsnum then (List.range full).filter fun i => !S.rows.contains i else []
     let flagged := if missing = [] then (0 : W32) else 0x10
     let closing := fun (D : CamCtx) (fe inc shortf : Bool) => { D with
       slots := [{ S with fe := fe, inc := inc, shortf := shortf, longf := C.longf, lost := C.lost
                          closed := some (if g.lsnum then full else S.rows.length), err := S.err || decide (missing ≠ []) }]
       writes := C.writes ++ (missing.map fun i => .bytes (S.addr + 64 + 16 * i)
         (leBytes 8 0 ++ leBytes 8 (g.dt * 2 ^ 40 + 0x20 * 2 ^ 32 + (S.row0 + i) % 65536))) ++ [.header S.seq] }
     let got := s.setFld (rxReg st r 4) 6 1 1
     s.rxOn st r = true → s.ctxsOf st r vc = [k] → C.active = true → C.slots = [S] → S.closed = none → Registers.wf s = true →
     (∃ u, exec (.frameEnd st r vc) s = .next u ∧
       u.ctx st k = closing { C with active := false, disabling := false } true false (decide (C.had.length < g.height)) ∧
       u.reg status = (s.reg status &&& 0xFDFFFFFF) ||| flagged ∧
       u.reg cfg = (if C.disabling then s.reg cfg &&& 0x7FFFFFFF else s.reg cfg) ∧
       (∀ x, x ≠ status → x ≠ cfg → u.reg x = got.reg x) ∧ u = { s with regs := u.regs, cam := u.cam } ∧
       ∀ y x, (y, x) ≠ (st, k) → u.ctx y x = s.ctx y x) ∧
     (C.disabling = false → g.ring = false →
       ∃ u, exec (.frameStart st r vc fnum) s = .next u ∧
         u.ctx st k = closing { C with
           fnum := fnum, tfs := s.timeBase, count := 0, had := [], ls := none, lost := 0, longf := false } false true true ∧
         u.reg status = s.reg status ||| 0x02000008 ||| flagged ∧ (∀ x, x ≠ status → u.reg x = got.reg x) ∧
         u = { s with regs := u.regs, cam := u.cam } ∧ ∀ y x, (y, x) ≠ (st, k) → u.ctx y x = s.ctx y x)) ∧
  (∀ (s : State) (st : Stn) (k : Fin 8) (x : CamAccess) (S : CamSlot) (a : Nat) (bs : List Byte) (w : CamWrite) (ws : List CamWrite),
     let C := s.ctx st k
     let status := cxReg st k 0x1C
     let popped := fun (a : Nat) => (s.mxTake mCamera a).modCtx st k fun C => { C with writes := ws }
     let served := fun (a : Nat) => s.camServed = some st ∧ s.mxTurn mCamera a = true
     let mark := fun (u : State) (S : CamSlot) => (u.setFld status 5 1 1).modCtx st k fun C =>
       { C with slots := C.slots.map fun y => if y.seq = S.seq then { S with err := true } else y }
     x.ctx = k →
     (C.writes = [] → exec (.ingestWrite st x) s = .next s) ∧
     (C.writes = w :: ws → (w = .bytes a bs ∨ ∃ q, w = .row q a bs) →
       let done := (popped a).memWrite mCamera a bs x.around
       let kept := match w with
         | .row q _ _ => done.1.modStn st fun Z => { Z with lines := Z.lines.set q (lineWritten k Z.lines[q]) }
         | _ => done.1
       (¬served a → exec (.ingestWrite st x) s = .next s) ∧
       (served a → done.2 = true → exec (.ingestWrite st x) s = .next kept) ∧
       (served a → done.2 = false →
         (C.slots.find? (fun S => decide (S.addr ≤ a) && decide (a < S.addr + S.size)) = some S →
           exec (.ingestWrite st x) s = .next (mark kept S)) ∧
         (C.slots = [] → exec (.ingestWrite st x) s = .next (kept.setFld status 5 1 1)))) ∧
     (C.writes = .header S.seq :: ws → C.slots.find? (fun y => y.seq == S.seq) = some S → served (S.addr + 4) →
       let header := leBytes 2 S.fnum.toNat ++ leBytes 2 S.row0 ++ leBytes 2 (S.closed.getD 0) ++
         leBytes 1 ((if S.fs then 1 else 0) + (if S.fe then 2 else 0) + (if S.err then 4 else 0) + (if S.inc then 8 else 0) +
           (if S.shortf then 16 else 0) + (if S.longf then 32 else 0)) ++
         leBytes 1 S.dt ++ leBytes 2 S.width ++ leBytes 2 S.stride ++ leBytes 8 S.tfs.toNat ++ leBytes 8 S.tfirst.toNat ++
         leBytes 8 S.tlast.toNat ++ leBytes 4 S.lost ++ List.replicate 12 0
       let one := (popped (S.addr + 4)).memWrite mCamera (S.addr + 4) header x.around
       let two := one.1.memWrite mCamera (S.addr + 0x3C) [0, 0, 0, 0] x.around
       (one.2 = true → two.2 = true → exec (.ingestWrite st x) s = .next two.1) ∧
       (one.2 = false ∨ two.2 = false → exec (.ingestWrite st x) s = .next (mark two.1 S))) ∧
     ((∀ y ∈ C.slots.head?, y.closed = none) → exec (.slotComplete st x) s = .next s) ∧
     (∀ n rest, C.slots = S :: rest → S.closed = some n → .header S.seq ∉ C.writes →
       let end_ := S.addr + 0x38
       let done := (s.mxTake mCamera end_).memWrite mCamera end_ (leBytes 4 S.seq.toNat) x.around
       let ended := ((if done.2 then done.1 else done.1.setFld status 5 1 1).modCtx st k fun C => { C with slots := rest }).setReg
         (cxReg st k 0x20) S.seq
       let payload : BitVec 48 := BitVec.ofNat 48 (S.seq.toNat % 4096 * 2 ^ 36 + S.row0 % 4096 * 2 ^ 24 + n % 4096 * 2 ^ 12 +
         S.index % 64 * 64 + k.val * 8 + (if S.fs then 4 else 0) + (if S.fe then 2 else 0) +
         (if S.err || !done.2 || S.inc || S.shortf || S.longf then 1 else 0))
       let lo := ended.reg (cxReg st k 0x14)
       let hi := ended.reg (cxReg st k 0x18)
       let targets := ((List.range 40).filter fun t => if t < 32 then lo.getLsbD t else hi.getLsbD (t - 32)) ++
         (if hi.getLsbD 8 then [48] else [])
       let posted := ended.modStn st fun Z => { Z with bandQueue := Z.bandQueue ++ targets.map fun t => (BitVec.ofNat 6 t, payload) }
       let event := posted.setFld (devReg (0x10 + st.val) 0) k.val 1 1
       let told := if (event.reg (devReg (0x10 + st.val) 0)).getLsbD (8 + k.val) then event.notify (.camera st) else event
       (¬served end_ → exec (.slotComplete st x) s = .next s) ∧
       (served end_ → (s.stn st).bandQueue.length + targets.length ≤ 32 →
         (S.fe = false → S.inc = false → exec (.slotComplete st x) s = .next posted) ∧
         (S.fe = true ∨ S.inc = true → exec (.slotComplete st x) s = .next (told.dmaRelease 3 (8 * st.val + k.val) none))))) ∧
  (∀ (s : State) (st : Stn) (k : Fin 8) (v : W32),
     let C := s.ctx st k
     let a := cxReg st k 0
     let status := cxReg st k 0x1C
     let present := st.val < s.grade.stations ∧ s.gated (4 + st.val) = false
     let fields := s.noted.setReg a ((v &&& 0x6FFFE000) ||| (s.reg a &&& 0x80000000))
     (¬present → ∀ c ∈ [Instr.contextEnable st k v, .contextDisable st k v, .contextAbort st k v], exec c s = .next s.noted) ∧
     (present → v &&& ((regInfo a).map RegInfo.rsv).getD 0 = 0 →
       ((s.reg a).getLsbD 31 = false →
         exec (.contextDisable st k v) s = .next fields ∧ exec (.contextAbort st k v) s = .next fields ∧
         (C.writes = [] → C.slots = [] →
           (fields.ctxOk st k = true → exec (.contextEnable st k v) s = .next
             ((((fields.setFld a 31 1 1).setFld status 24 1 0).setReg (cxReg st k 0x20) 0).modCtx st k fun C =>
               { C with disabling := false, active := false, seq := 0, slots := [], writes := [] })) ∧
           (fields.ctxOk st k = false → exec (.contextEnable st k v) s = .next (fields.setFld status 24 1 1)))) ∧
       ((s.reg a).getLsbD 31 = true →
         exec (.contextEnable st k v) s = .next (s.noted.modCtx st k fun C => { C with disabling := false }) ∧
         (C.active = true →
           exec (.contextDisable st k v) s = .next (s.noted.modCtx st k fun C => { C with disabling := true })) ∧
         (C.active = false →
           exec (.contextDisable st k v) s = .next (s.noted.setFld a 31 1 0) ∧
           exec (.contextAbort st k v) s = .next ((s.noted.modCtx st k fun C => { C with disabling := false }).setFld a 31 1 0)) ∧
         (C.active = true → C.slots = [] → Registers.wf s = true →
           ∃ u, exec (.contextAbort st k v) s = .next u ∧ (u.ctx st k).active = false ∧ (u.ctx st k).disabling = false ∧
             u.reg a = s.reg a &&& 0x7FFFFFFF ∧ u.reg status = s.reg status &&& 0xFDFFFFFF))))

/-! ### Load cells and the Pantry (10) -/

/-- 10 R283; 16 R445: fault detection of a channel of a present station. Excitation cannot be switched on while VEXC is out of range. Each fault sets its status flag and raises the load-cell notice; an open wire is
seen only with OWD set and shows its line until it is connected again; an excitation fault holds until EXC is written 0 and then 1. VEXCOK
follows the supply.

10 R287 to R290, R293, R294, R282, R301: settings, loads and enables. A write of FILT and RATE, OFFS, GAIN or a FIR tap counts only while the seal is open, clears MSRC and, where it
changes the setting, unsettles the next 34 samples; a LOAD is under way until its end, which waits for a commit, takes record c of a valid set with the device trims and sets
MSRC, and leaves NOCAL set otherwise; closing the seal loads every channel; an enable is refused with ENERR without settings from the Pantry or an open seal.
That a write of EXC 1 while VEXC is out of range leaves EXC 0 is the model's choice (log entry 105). -/
def Obligations.LoadCellFaultsAndSettings : Prop :=
  (∀ (s : State) (c : Fin 8) (line : Fin 6) (ok : Bool),
     let ctrl := lcReg c 0
     let stat := lcReg c 4
     let L := s.lc[c]
     let present := s.fitted (lcStn c) = true
     let put := fun (s : State) (M : LcChan) => { s with lc := s.lc.set c M }
     let flag := fun (s : State) (i : Nat) => (s.setFld stat i 1 1).notify (.loadCell c)
     (present → (s.reg ctrl).getLsbD 27 = true →
       exec (.openWire c line) s = .next (flag (s.setFld stat (8 + line.val) 1 1) 1)) ∧
     ((s.reg ctrl).getLsbD 27 = false → exec (.openWire c line) s = .next s) ∧
     exec (.wireReconnect c line) s = .next (s.setFld stat (8 + line.val) 1 0) ∧
     (present → (s.reg ctrl).getLsbD 28 = true → L.excf = .none →
       exec (.excitationFault c) s = .next (flag (put s { L with excf := .faulted }) 2)) ∧
     (present → exec (.senseFault c) s = .next (flag (put s { L with sense := true }) 3)) ∧
     exec (.senseFaultEnd c) s = .next (put s { L with sense := false }) ∧
     (present → L.excf = .faulted →
       exec (.lcExcitation c false) s = .next (put (s.setFld ctrl 28 1 0) { L with excf := .released })) ∧
     (present → (s.reg ctrl).getLsbD 28 = false → (s.reg aGSTAT).getLsbD 1 = false → exec (.lcExcitation c true) s = .next s) ∧
     (present → (s.reg ctrl).getLsbD 28 = false → (s.reg aGSTAT).getLsbD 1 = true → L.excf ≠ .faulted →
       exec (.lcExcitation c true) s = .next (put (s.setFld ctrl 28 1 1) { L with settle := 34, excf := .none })) ∧
     (¬present → ∀ x ∈ [Instr.openWire c line, .excitationFault c, .senseFault c, .lcExcitation c ok], exec x s = .next s) ∧
     exec (.vexcRangeChange ok) s = .next (s.setFld aGSTAT 1 1 ok.toNat)) ∧
  (∀ (s : State) (c : Fin 8) (off : Byte) (v : W32),
     let ctrl := lcReg c 0
     let stat := lcReg c 4
     let present := s.fitted (lcStn c) = true
     let a := lcReg c off.toNat
     let setting := off = 0 ∨ off = 8 ∨ off = 0xC ∨ (0x80 ≤ off.toNat ∧ off.toNat % 4 = 0 ∧ off.toNat < 0x100)
     let value := if off = 0 then (s.reg a &&& 0xFFFFF88F) ||| (v &&& 0x770) else if off = 8 ∨ off = 0xC then v else v &&& 0xFFFFFF
     let set := s.flashBytes 0x401000 0x1000
     let rcd := (set.drop (0x40 + 0x100 * c.val)).take 256
     let ring := banksAll (s.ringOff c) (16 * s.ringLen c) fun j => s.bankSealed (lcStn c) j && s.bankPower (.station (lcStn c)) j == 2
     let committing := ∃ j since recorded, s.flashCtl.work = .commit j since recorded
     (present → s.calen = true → v &&& ((regInfo a).map RegInfo.rsv).getD 0 = 0 →
       (setting → Registers.wf s = true →
         ∃ u, exec (.lcSettingsWrite c off v) s = .next u ∧ u.reg ctrl = (if off = 0 then value else s.reg ctrl) &&& 0xDFFFFFFF ∧
           (off ≠ 0 → u.reg a = value) ∧ (∀ x, x ≠ a → x ≠ ctrl → u.reg x = s.reg x) ∧
           u = { s.noted with regs := u.regs, lc := if value = s.reg a then s.lc else s.lc.set c { s.lc[c] with settle := 34 } }) ∧
       (¬setting → exec (.lcSettingsWrite c off v) s = .next s.noted)) ∧
     (¬present ∨ s.calen = false → exec (.lcSettingsWrite c off v) s = .next s.noted) ∧
     (present → exec (.lcLoad c) s = .next { s with lc := s.lc.set c { s.lc[c] with loading := true } }) ∧
     (s.lc[c].loading = false ∨ committing → exec (.lcLoadEnd c) s = .next s) ∧
     (s.lc[c].loading = true → ¬committing →
       ((calValid set = false ∨ (rcd.getD 0 0).getLsbD 0 = false) →
         exec (.lcLoadEnd c) s = .next ({ s with lc := s.lc.set c { s.lc[c] with loading := false } }.setFld stat 30 1 1)) ∧
       (calValid set = true → (rcd.getD 0 0).getLsbD 0 = true → (rcd.getD 4 0).toNat < 8 → (rcd.getD 5 0).toNat < 8 → Registers.wf s = true →
         ∃ u, exec (.lcLoadEnd c) s = .next u ∧ u.lc[c].loading = false ∧ u.lc[c].trims = (set.drop 0x840).take 64 ∧
           (u.reg ctrl).getLsbD 29 = true ∧ (u.reg stat).getLsbD 30 = false ∧
           (u.reg ctrl).toNat / 256 % 8 = (rcd.getD 4 0).toNat ∧ (u.reg ctrl).toNat / 16 % 8 = (rcd.getD 5 0).toNat ∧
           (u.reg (lcReg c 8)).toNat = leNat ((rcd.drop 8).take 4) ∧ (u.reg (lcReg c 0xC)).toNat = leNat ((rcd.drop 12).take 4) ∧
           ∀ i < 32, (u.reg (lcReg c (0x80 + 4 * i))).toNat = leNat ((rcd.drop (0x40 + 4 * i)).take 3))) ∧
     (s.calen = true → ∃ u, exec (.calsealChange false) s = .next u ∧ u.regs = (s.setFld aGSTAT 0 1 0).regs ∧
       ∀ d : Fin 8, s.fitted (lcStn d) = true → u.lc[d].loading = true) ∧
     exec (.calsealChange true) s = .next (s.setFld aGSTAT 0 1 1) ∧
     ((¬present ∨ ((s.reg ctrl).getLsbD 29 = false ∧ s.calen = false) ∨ ring = false) →
       exec (.lcEnable c) s = .next (s.setFld stat 31 1 1)) ∧
     (present → ((s.reg ctrl).getLsbD 29 = true ∨ s.calen = true) → ring = true → (s.reg ctrl).getLsbD 31 = false → Registers.wf s = true →
       ∃ u, exec (.lcEnable c) s = .next u ∧ (u.reg ctrl) = s.reg ctrl ||| 0x80000000 ∧ (u.reg stat).getLsbD 31 = false ∧
         u.reg (lcReg c 0x1C) = s.reg (lcReg c 0x1C) ∧ u.lc[c].settle = 34 ∧ u.lc[c].seq = 0))

/-- 10 R278 to R286: a sample, from the modulator words of its 2 R periods, which the sinc3 decimator turns into two inputs of the FIR. y is
the exact FIR sum over the newest 64 inputs, scaled and saturated, then trimmed and clamped; the entry of the
ring takes the timestamp, the sequence number, the flags and y when it lies in banks that are on and Sealed; in a bank that is not Sealed
nothing is written, WLDERR is set and EN is cleared; in one that is not on, WERR is set and the sequence goes on.
A tile's atomic met in the same bank cycle leaves the write busy (08 R230, R231). That a list of words of another length makes no sample, and that
the decimator rounds nothing before the FIR, are the model's choices (log entry 89). Here nothing waits at the matrix targets, so
the write of the DMA engine's port is granted at once (11 R311).

10 R286: the notice of a sample. With every sample notified, each tile that DEST names and that is of the Sealed world gets `ipend`
bit 4; the others keep theirs.
That the write takes its grant within the sample's command, and how it meets an atomic, are the model's (log entries 106 and 86). -/
def Obligations.LoadCellSamples : Prop :=
  (∀ (s : State) (c : Fin 8) (a b : List (BitVec 24)) (x : LcTake),
     let st : Stn := lcStn c
     let ctrl := s.reg (lcReg c 0)
     let L := s.lc[c]
     let rate := ctrl.toNat / 16 % 8
     let R := [10000, 5000, 2500, 2000, 1250, 1000, 500, 250].getD rate 0
     let reach := fun (j : Nat) (ms : List (BitVec 24)) =>
       (((List.range R).map fun i => (sincTap R (j * R + R - 1 - i) : Int) * (ms.getD i 0).toInt).foldl (· + ·) 0) *
         (((10000 / R) ^ 3 : Nat) : Int)
     let hist := ((L.next2 + reach 1 a + reach 0 b) :: (L.next1 + reach 0 a) :: L.hist).take 64
     let tap := fun (k : Nat) => ((s.reg (lcReg c (0x80 + 4 * (if k < 32 then k else 63 - k)))).setWidth 24 : BitVec 24).toInt
     let clamp := fun (v : Int) => max (-(2 ^ 31)) (min (2 ^ 31 - 1) v)
     let f := clamp (roundEven ((List.range 64).foldl (fun acc k => acc + tap k * hist.getD k 0) (0 : Int) * 2 ^ 8) (2 ^ 23 * 10 ^ 12))
     let y := scaleEven ((f + (s.reg (lcReg c 8)).toInt) * ((s.reg (lcReg c 0xC)).toNat : Int)) 22
     let seq := L.seq + 1
     let len := 64 * 2 ^ min 6 ((s.reg (lcReg c 0x10)).toNat / 2 ^ 28 % 8)
     let off := (s.reg (lcReg c 0x10)).toNat / 64 % 2 ^ 18 * 64 + 16 * (L.seq.toNat % len)
     let flags := (if 0 < L.settle then 2 else 0) + (if (s.reg (lcReg c 4)).toNat / 256 % 64 ≠ 0 then 4 else 0) +
       (if L.excf ≠ .none then 8 else 0) + (if L.sense then 16 else 0) + (if s.calen then 32 else 0) +
       (if ctrl.getLsbD 29 then 0 else 64) + (if x.ovr = false ∧ clamp y = y then 0 else 1)
     let quiet := s.reg (lcReg c 0x14) = 0 ∧ (s.reg (lcReg c 0x18)).toNat % 256 = 0
     let place := stnBase st + off
     let busy := off + 16 ≤ 0x1000000 ∧
       s.meets (.station st) (place / 64 * 64) (BitVec.ofNat 64 (65535 * 2 ^ (place % 64))) x.around.meet = some .atomic
     ((a.length ≠ R ∨ b.length ≠ R ∨ s.fitted st = false ∨ ctrl.getLsbD 31 = false) → exec (.lcSample c a b x) s = .next s) ∧
     (s.fitted st = true → (∀ m g, s.mxWaits m g = false) → ctrl.getLsbD 31 = true → a.length = R → b.length = R → L.seq.toNat < 2 ^ 24 - 1 → quiet → Memory.wf s = true →
       Registers.wf s = true →
     ∃ u, exec (.lcSample c a b x) s = .next u ∧
       u.lc[c].hist = hist ∧ u.lc[c].next1 = reach 2 a + reach 1 b ∧ u.lc[c].next2 = reach 2 b ∧ u.lc[c].seq = seq ∧ u.lc[c].settle = L.settle - 1 ∧ u.lc[c].last.toNat = flags ∧
       (∀ d, d ≠ c → u.lc[d] = s.lc[d]) ∧ u.tiles = s.tiles ∧
       (off + 16 ≤ 0x1000000 → (∀ j, (j = off / 0x80000 ∨ j = (off + 15) / 0x80000) → s.bankSealed st j = true ∧ s.stnBankOn st j = true) →
         u.le (stnBase st + off) 8 = (s.timeBase.toNat + 2 ^ 64 - ((66 * R - 3) * 625 + 4) / 8) % 2 ^ 64 ∧
         u.le (stnBase st + off + 8) 8 = (seq.toNat * 256 + flags) * 2 ^ 32 + ((clamp y) % 2 ^ 32).toNat ∧
         u.reg (lcReg c 0x1C) = seq.setWidth 32 ∧
         (∀ a, a < stnBase st + off ∨ stnBase st + off + 16 ≤ a → u.byte a = s.byte a) ∧
         u.reg (stnReg st 0x220) = s.reg (stnReg st 0x220) + (if busy then 1 else 0) ∧
         (∀ a, a ≠ lcReg c 0x1C → a ≠ lcReg c 4 → a ≠ stnReg st 0x220 → u.reg a = s.reg a)) ∧
       (s.bankSealed st (off / 0x80000) = false →
         u.mem = s.mem ∧ (u.reg (lcReg c 0)).getLsbD 31 = false ∧ (u.reg (lcReg c 4)).getLsbD 5 = true) ∧
       (off + 16 ≤ 0x1000000 → (∀ j, s.bankSealed st j = true) → s.stnBankOn st (off / 0x80000) = false →
         u.mem = s.mem ∧ u.reg (lcReg c 0) = ctrl ∧ (u.reg (lcReg c 4)).getLsbD 4 = true))) ∧
  (∀ (s : State) (c : Fin 8) (a b : List (BitVec 24)) (x : LcTake) (t : TileNo),
     let st : Stn := lcStn c
     let named := if t.val < 32 then (s.reg (lcReg c 0x14)).getLsbD t.val else (s.reg (lcReg c 0x18)).getLsbD (t.val - 32)
     s.fitted st = true → (∀ m g, s.mxWaits m g = false) → (s.reg (lcReg c 0)).getLsbD 31 = true → (s.reg (lcReg c 0x18)).toNat / 256 % 256 = 1 →
     let R := decimation ((s.reg (lcReg c 0)).toNat / 16 % 8)
     a.length = R → b.length = R →
     ∃ u, exec (.lcSample c a b x) s = .next u ∧
       u.tile st t = (if named ∧ (s.tile st t).psw.getLsbD 4 then { s.tile st t with ipend := (s.tile st t).ipend ||| 0x10 } else s.tile st t) ∧
       ∀ x y, x ≠ st → u.tile x y = s.tile x y)

/-- 10 R295, R296, R300; 14 R398; 16 R448: the checks of a commit and its beginning. A commit that is not armed, that finds the seal closed, the
counter at 10,000, the audit log full, or a buffer that is no valid set with the next counter is refused with its code and nothing is
written; a commit or an append that runs, or a commit that waits, makes it busy; a boot-partition operation is waited for, with the set as
it is now; otherwise the counter advances and the commit runs. While a reset waits or is asserted nothing begins (16 R443). DISARM and the arming's expiry clear
ARMED.

10 R296, R298, R300: the end of a commit that succeeded: unless it was appended before, the audit record is appended after those there,
with the time at which step 3 began; the flash holds the set that COMMIT found, the buffer is cleared, ARMED and BUSY fall, RES is 0 and
DONE is set, and the Pantry notice tells the Hall, which has the asking tile still to answer.

The cut of a commit into events, RES 7 for an append under way or a commit that waits, and the record's time 20 us after the start are the
model's reading (log entry 19). -/
def Obligations.PantryCommits : Prop :=
  (∀ (s : State) (j : CommitJob) (since : W64) (recorded : Bool) (bytes : List Byte) (o : Nat),
     let F := s.flashCtl
     let pstat := s.reg aPSTAT
     let by_ : Stn × BitVec 6 := (Fin.ofNat 4 (pstat.toNat / 2 ^ 12 % 4), BitVec.ofNat 6 (pstat.toNat / 2 ^ 6 % 64))
     let buf := s.regBytes (efReg 0x1000) 0x1000
     let job : CommitJob := ⟨by_, by_, buf, s.regBytes (efReg 0x200) 64⟩
     let armed := pstat.getLsbD 15 = true
     let refused := fun (code : Nat) => exec .commit s = .next ((s.setFld aPSTAT 0 4 code).setFld aPSTAT 5 1 1)
     let held := s.core.wants ≠ none ∨ s.inReset = true
     let busy := exec .commit s = .next (s.setFld aPSTAT 0 4 7)
     (¬held → F.waits = none → F.work = .idle →
       (¬armed → refused 1) ∧
       (armed → s.calen = false → refused 2) ∧
       (armed → s.calen = true → 10000 ≤ F.counter → refused 3) ∧
       (armed → s.calen = true → F.counter < 10000 →
         (16384 ≤ F.audNext → refused 4) ∧
         (F.audNext < 16384 →
           ((calValid buf = false ∨ leNat ((buf.drop 4).take 2) ≠ F.counter + 1) → refused 5) ∧
           (calValid buf = true → leNat ((buf.drop 4).take 2) = F.counter + 1 →
             exec .commit s = .next ({ s with flashCtl := { F with
               work := .commit job s.timeBase false, waits := none, counter := F.counter + 1 } }.setFld aPSTAT 14 1 1))))) ∧
     (¬held → (F.work = .commit j since recorded ∨ F.work = .append bytes ∨ F.waits = some j) → busy) ∧
     (¬held → F.waits = none → (F.work = .erase o ∨ F.work = .program o bytes) →
       exec .commit s = .next { s with flashCtl := { F with waits := some job } }) ∧
     (held → exec .commit s = .next s) ∧
     exec .disarm s = .next (s.setFld aPSTAT 15 1 0) ∧ exec .armingExpiry s = .next (s.setFld aPSTAT 15 1 0)) ∧
  (∀ (s : State) (j : CommitJob) (since : W64) (recorded : Bool),
     let F := s.flashCtl
     let n := if recorded then 0 else 64
     let recd := [0x01, 0x00] ++ leBytes 2 F.counter ++ [BitVec.ofNat 8 j.arming.1.val, BitVec.ofNat 8 j.arming.2.toNat, 0, 0] ++
       leBytes 8 ((since.toNat + 7500) % 2 ^ 64) ++ j.set.drop 0xFFC ++ j.aud.drop 0x14
     F.work = .commit j since recorded → j.set.length = 0x1000 → j.aud.length = 64 → F.audNext < 16384 →
     smWf flashReset s.flash = true → Registers.wf s = true →
     (∀ i < 64, s.flashByte (0x410000 + 64 * F.audNext + i) = 0xFF) →
     ∃ u, exec (.commitEnd true) s = .next u ∧
       u.flashCtl = { F with work := .idle, audNext := F.audNext + (if recorded then 0 else 1), owed := F.owed ++ [(j.asker, 0)] } ∧
       u.flashBytes 0x401000 0x1000 = j.set ∧ (recorded = false → u.flashBytes (0x410000 + 64 * F.audNext) 64 = recd) ∧
       (∀ o, ¬(0x401000 ≤ o ∧ o < 0x402000) → ¬(0x410000 + 64 * F.audNext ≤ o ∧ o < 0x410000 + 64 * F.audNext + n) →
         u.flashByte o = s.flashByte o) ∧
       (∀ i < 1024, u.reg (efReg (0x1000 + 4 * i)) = 0) ∧
       u.reg aPSTAT = (s.reg aPSTAT &&& 0xFFFF3FF0) ||| 0x20 ∧ u.notices = s.notices ++ [.pantry j.asker.1] ∧
       u.mem = s.mem ∧ u.tiles = s.tiles ∧ u.stns = s.stns)

/-- 10 R298, R300: appending a record of Sealed-world software. A TYPE below 0x8000 and a full log are refused with their codes, a controller at work
is busy; otherwise the record as staged is programmed after those there. A failed append reports 6. While a reset waits or is asserted no append begins (16 R443, R448). RES 7 while the controller works, and
PANTRY_NOTICE answering the results still owed and clearing VALID, are the model's reading (log entry 19).

10 R295, R296, R300: the Hall's answer to a doorbell. Commits that have ended are answered first, here none; CODE 1 stages the set and the
digest of the set, which the vault computes, and begins the commit, here with every bank on, and a refusal is answered at once; CODE 2
loads the two channels of the station; without a notice, or with nothing latched and nothing to answer, nothing happens. Here with no
command waiting for a station; what the firmware then sees of it is `hallReact`. -/
def Obligations.AuditAndDoorbell : Prop :=
  (∀ (s : State) (bytes : List Byte),
     let F := s.flashCtl
     let aud := s.regBytes (efReg 0x200) 64
     let res := fun (s : State) (code : Nat) => (s.setFld aPSTAT 0 4 code).setFld aPSTAT 5 1 1
     (s.core.wants ≠ none ∨ s.inReset = true → exec .append s = .next s) ∧
     (s.core.wants = none → s.inReset = false →
     (F.work ≠ .idle → exec .append s = .next (s.setFld aPSTAT 0 4 7)) ∧
     (F.work = .idle → leNat (aud.take 2) < 0x8000 → exec .append s = .next (res s 5)) ∧
     (F.work = .idle → 0x8000 ≤ leNat (aud.take 2) → 16384 ≤ F.audNext → exec .append s = .next (res s 4)) ∧
     (F.work = .idle → 0x8000 ≤ leNat (aud.take 2) → F.audNext < 16384 →
       exec .append s = .next ({ s with flashCtl := { F with work := .append aud } }.setFld aPSTAT 14 1 1)) ∧
     (F.work = .append bytes → bytes.length = 64 → smWf flashReset s.flash = true → Registers.wf s = true →
       (∀ i < 64, s.flashByte (0x410000 + 64 * F.audNext + i) = 0xFF) →
       exec (.appendEnd false) s = .next (res ({ s with flashCtl := { F with work := .idle } }.setFld aPSTAT 14 1 0) 6) ∧
       ∃ u, exec (.appendEnd true) s = .next u ∧ u.flashCtl = { F with work := .idle, audNext := F.audNext + 1 } ∧
         u.flashBytes (0x410000 + 64 * F.audNext) 64 = bytes ∧
         (∀ o, o < 0x410000 + 64 * F.audNext ∨ 0x410000 + 64 * F.audNext + 64 ≤ o → u.flashByte o = s.flashByte o) ∧
         u.reg aPSTAT = (s.reg aPSTAT &&& 0xFFFFBFF0) ||| 0x20 ∧ (∀ a, a ≠ aPSTAT → u.reg a = s.reg a)))) ∧
  (∀ (s : State) (st : Stn),
     let r := stnReg st 0x164
     let req := s.reg r
     let off := req.toNat / 2 ^ 12 % 4096 * 0x1000
     let tile := BitVec.ofNat 6 (req.toNat / 2 ^ 24 % 64)
     let set := s.bytes (stnBase st + off) 0x1000
     let z := s.noted
     let after := { z with notices := s.notices.erase (.pantry st) }
     let taken := after.setFld r 31 1 0
     let seen := taken.fwEnter (stnBase st + off) 0x1000
     let staged := ((seen.vaultDigest set).setRegBytes (efReg 0x1000) set).setRegBytes (efReg 0x220) ((sha512 set).take 32)
     let job : CommitJob := ⟨staged.arming, (st, tile), staged.pbuf, staged.paud⟩
     (∀ x, (s.hallStn x).waiting = []) → (∀ m g, s.mxWaits m g = false) →
     ((Notice.pantry st ∉ s.notices ∨ s.hall.run ≠ .firmware) → exec (.pantryNotice st) s = .next z) ∧
     (Notice.pantry st ∈ s.notices → s.hall.run = .firmware → s.flashCtl.owed = [] → req.getLsbD 31 = false →
       exec (.pantryNotice st) s = .next (after.hallReact z)) ∧
     (Notice.pantry st ∈ s.notices → s.hall.run = .firmware → s.flashCtl.owed = [] → req.getLsbD 31 = true → req.toNat % 256 = 1 →
       s.stnBankOn st (off / 0x80000) = true → s.core.wants = none → s.inReset = false → s.flashCtl.work = .idle → s.flashCtl.waits = none →
       (staged.commitCheck job = 0 →
         exec (.pantryNotice st) s = .next ((({ staged with flashCtl := { s.flashCtl with
           work := .commit job s.timeBase false, waits := none, counter := s.flashCtl.counter + 1 } }.setFld aPSTAT 14 1 1)).hallReact z)) ∧
       (staged.commitCheck job ≠ 0 →
         let refused := (staged.setFld aPSTAT 0 4 (staged.commitCheck job)).setFld aPSTAT 5 1 1
         exec (.pantryNotice st) s = .next
           ((refused.hallWord st tile (codeWord 0x10 (refused.fld aPSTAT 0 4))).hallReact z))) ∧
     (Notice.pantry st ∈ s.notices → s.hall.run = .firmware → s.flashCtl.owed = [] → req.getLsbD 31 = true → req.toNat % 256 = 2 →
       s.fitted st = true →
       let c0 : Fin 8 := Fin.ofNat 8 (2 * st.val)
       let c1 : Fin 8 := Fin.ofNat 8 (2 * st.val + 1)
       exec (.pantryNotice st) s = .next (({ taken with
         lc := (s.lc.set c0 { s.lc[c0] with loading := true }).set c1 { s.lc[c1] with loading := true } }).hallReact z)))

/-! ### Matrix, timers and DMA (11) -/

/-- 11 R304 to R311, 01 R25, 08 R223, R227: requests of the Hall for one line of station memory. The request waits at its target with one piece;
in unmapped space it is a decode error and is answered at once with zeros. The grant of the only piece that waits performs it: a read delivers the enabled
bytes, a write stores them and nothing else, and a bank that is not on answers code 0b010 and changes no byte.

11 R305, R310, R313, R314; 00 R8; 15 R417: register writes. A write of 1 to REMAP sets it and a write of 0 leaves it; only the Hall may write the
MX block; a plain register takes its value and W1C bits are cleared by 1s unless set in the same cycle; a master that the target refuses
changes nothing; a write to unmapped space is a decode error. While the device is held in reset nothing is requested or written (16 R443).

07 R218: a flag of STN_NET_STAT that the hardware sets in the cycle of a write wins over the write's 1, and raises the net-fault notice where
its bit of IEN is 1, HOLDOV always.
That the command itself names the flags set in its cycle is the model's reading (log entry 107). -/
def Obligations.MatrixAndRegisters : Prop :=
  (∀ (s : State) (st : Stn) (a : Addr) (write : Bool) (b : Beat),
     let req : MxReq := ⟨a, if write then .write else .read, [b]⟩
     let g : Target := Fin.ofNat 9 (3 + st.val)
     let part : MxPart := ⟨0, g, 0, 1⟩
     let open_ : MxOpen := ⟨req, none, [part], none, false, false, [0]⟩
     let answer := fun (e : Option (Nat × Nat × MxCode)) (d : BitVec 512) => some (MxAnswer.mk e false false [d])
     let in_ := stnBase st ≤ a.toNat ∧ a.toNat < stnBase st + 0x1000000 ∧ st.val < s.grade.stations
     let bank := (a.toNat - stnBase st) / 0x80000
     a.toNat % 64 = 0 →
     (s.inReset = true → exec (.matrixRequest 0 req) s = .next s) ∧ (s.inReset = false →
     (in_ → exec (.matrixRequest 0 req) s = .next { s with mxOpen := s.mxOpen.set 0 (s.mxOpen[(0 : Master)] ++ [open_]) }) ∧
     (s.targetOf a.toNat = none →
       exec (.matrixRequest 0 req) s = .next { s.decodeError 0 a.toNat with mxDone := s.mxDone.set 0 (answer none 0) }) ∧
     (in_ → s.mxOpen[(0 : Master)] = [open_] → (∀ m : Master, m ≠ 0 → s.mxWaits m g = false) → s.hall.run ≠ .firmware →
       s.headMode = false → b.mask ≠ 0 → Memory.wf s = true →
       ∃ u, exec (.matrixPiece g {}) s = .next u ∧ u.mxOpen = s.mxOpen.set 0 [] ∧ u.tiles = s.tiles ∧
         (s.stnBankOn st bank = true → (∀ i < 8, s.upset (a.toNat + 8 * i) = .none) →
           u.mxDone[(0 : Master)] = answer none (if write then 0 else
             BitVec.ofNat 512 (leNat ((List.range 64).map fun i => if b.mask.getLsbD i then s.byte (a.toNat + i) else 0))) ∧
           (∀ x, u.byte x = if write ∧ a.toNat ≤ x ∧ x < a.toNat + 64 ∧ b.mask.getLsbD (x - a.toNat) then
             b.data.extractLsb' (8 * (x - a.toNat)) 8 else s.byte x) ∧ u.regs = s.regs) ∧
         (s.stnBankOn st bank = false → u.mxDone[(0 : Master)] = answer (some (0, 0, 2)) 0 ∧ u.mem = s.mem)))) ∧
  (∀ (s : State) (m : Master) (n : Fin 8) (st : Stn) (i : Fin 8) (a : Addr) (v hw : W32),
     let mx := mxReg 0
     let net := stnReg st 0x404
     let ien := (s.reg (stnReg st 0x400)).getLsbD (if i.val ≤ 2 then 16 + i.val else 15 + i.val)
     Registers.wf s = true →
     (s.inReset = true → exec (.remap m v) s = .next s.noted) ∧ (s.inReset = false →
     (v &&& 0xFFFFFFFC = 0 →
       (∃ u, exec (.remap 0 v) s = .next u ∧ (∀ x, x ≠ mx → u.reg x = s.reg x) ∧ u = { s.noted with regs := u.regs } ∧
         (u.reg mx).getLsbD 0 = (v.getLsbD 0 || (s.reg mx).getLsbD 0) ∧ (u.reg mx).getLsbD 1 = v.getLsbD 1)) ∧
     (m ≠ 0 → exec (.remap m v) s = .next s.noted) ∧
     (s.hall.run ≠ .firmware → s.headMode = false →
       (∃ u, exec (.registerWrite 0 (BitVec.ofNat 40 (tmrReg n 0x14)) v 0) s = .next u ∧ u.reg (tmrReg n 0x14) = v ∧
         (∀ x, x ≠ tmrReg n 0x14 → u.reg x = s.reg x) ∧ u = { s.noted with regs := u.regs }) ∧
       (v.toNat < 256 → hw.toNat < 256 →
         ∃ u, exec (.registerWrite 0 (BitVec.ofNat 40 (devReg 3 8)) v hw) s = .next u ∧
           u.reg (devReg 3 8) = (s.reg (devReg 3 8) &&& ~~~(v &&& 0xFF)) ||| hw ∧
           (∀ x, x ≠ devReg 3 8 → u.reg x = s.reg x) ∧ u = { s.noted with regs := u.regs }) ∧
       (s.fitted st = true → v &&& 0x01FFFF00 = 0 →
         ∃ u, exec (.registerWrite 0 (BitVec.ofNat 40 net) v ((1 : W32) <<< i.val)) s = .next u ∧
           u.reg net = (s.reg net &&& ~~~(v &&& 0xFF)) ||| ((1 : W32) <<< i.val) ∧
           u.notices = (if i = 1 ∨ (i ≠ 3 ∧ ien) then s.notices ++ [.netFault st] else s.notices) ∧
           (∀ x, x ≠ net → u.reg x = s.reg x) ∧ u = { s.noted with regs := u.regs, notices := u.notices }) ∧
       (m ≠ 0 → exec (.registerWrite m (BitVec.ofNat 40 (lcReg n 0x14)) v hw) s = .next s.noted) ∧
       (s.targetOf a.toNat = none → exec (.registerWrite m a v hw) s = .next (s.noted.decodeError m (a.toNat / 64 * 64))))))

/-- 11 R316, R317, R324; 05 R145: the time base and the timers. The low word's read latches the high word for its master; EN 1 loads COUNT and runs, or
arms with ATEN, and is without effect on a timer that is enabled; EN 0 stops; an armed timer starts once AT is reached; the event of a timer at 0
reloads it or ends a one-shot, flags it, notifies on request, and sets interrupt line 3 of the tiles named. While the device is held in reset no timer is written (16 R443). -/
def Obligations.TimeBaseAndTimers : Prop :=
  ∀ (s : State) (m : Master) (n : Fin 8) (v : W32),
    let ctrl := tmrReg n 0
    let count := tmrReg n 8
    let reload := s.reg (tmrReg n 4)
    let at_ := (s.reg (tmrReg n 0x10)).toNat * 2 ^ 32 + (s.reg (tmrReg n 0xC)).toNat
    exec (.timeBaseLatch m) s = .next { s with tbLatch := s.tbLatch.set m (s.timeBase.extractLsb' 32 32) } ∧
    (s.inReset = true → v &&& 0x0FFFFFF0 = 0 → exec (.timerEnable n v) s = .next s.noted) ∧
    (v &&& 0x0FFFFFF0 = 0 → s.inReset = false → Registers.wf s = true →
      (v.getLsbD 31 = false → ∃ u, exec (.timerEnable n v) s = .next u ∧ u.tmrRun = s.tmrRun.set n false ∧
        u.tmrArmed = s.tmrArmed.set n false ∧ (u.reg ctrl).getLsbD 31 = false ∧ ∀ a, a ≠ ctrl → u.reg a = s.reg a) ∧
      (v.getLsbD 31 = true → (s.reg ctrl).getLsbD 31 = true → ∃ u, exec (.timerEnable n v) s = .next u ∧ u.tmrRun = s.tmrRun ∧
        u.tmrArmed = s.tmrArmed ∧ (u.reg ctrl).getLsbD 31 = true ∧ ∀ a, a ≠ ctrl → u.reg a = s.reg a) ∧
      (v.getLsbD 31 = true → (s.reg ctrl).getLsbD 31 = false →
        (v.getLsbD 29 = true → ∃ u, exec (.timerEnable n v) s = .next u ∧ u.tmrRun = s.tmrRun ∧ u.tmrArmed = s.tmrArmed.set n true ∧
          u.reg ctrl = v ∧ ∀ a, a ≠ ctrl → u.reg a = s.reg a) ∧
        (v.getLsbD 29 = false → ∃ u, exec (.timerEnable n v) s = .next u ∧ u.tmrRun = s.tmrRun.set n true ∧ u.tmrArmed = s.tmrArmed.set n false ∧
          u.reg ctrl = v ∧ u.reg count = reload ∧ ∀ a, a ≠ ctrl → a ≠ count → u.reg a = s.reg a))) ∧
    (s.tmrArmed[n] = true → at_ ≤ s.timeBase.toNat →
      exec (.timerStart n) s = .next { s.setReg count reload with tmrRun := s.tmrRun.set n true, tmrArmed := s.tmrArmed.set n false }) ∧
    ((s.tmrArmed[n] = false ∨ s.timeBase.toNat < at_) → exec (.timerStart n) s = .next s) ∧
    ((s.tmrRun[n] = false ∨ s.reg count ≠ 0) → exec (.timerEvent n) s = .next s) ∧
    (s.tmrRun[n] = true → s.reg count = 0 → Registers.wf s = true →
      ∃ u, exec (.timerEvent n) s = .next u ∧
        u.reg (devReg 3 8) = s.reg (devReg 3 8) ||| ((1 : W32) <<< n.val) ∧
        ((s.reg ctrl).getLsbD 30 = false → u.reg count = reload ∧ u.tmrRun = s.tmrRun ∧ u.reg ctrl = s.reg ctrl) ∧
        ((s.reg ctrl).getLsbD 30 = true → u.reg count = 0 ∧ u.tmrRun = s.tmrRun.set n false ∧ u.reg ctrl = s.reg ctrl &&& 0x7FFFFFFF) ∧
        u.notices = (if (s.reg ctrl).getLsbD 28 then s.notices ++ [.timer n] else s.notices) ∧ u.mem = s.mem ∧
        ∀ st t, u.tile st t = (if (s.reg ctrl).getLsbD st.val ∧ (if t.val < 32 then (s.reg (tmrReg n 0x14)).getLsbD t.val
            else (s.reg (tmrReg n 0x18)).getLsbD (t.val - 32)) then { s.tile st t with ipend := (s.tile st t).ipend ||| 8 } else s.tile st t))

/-- 11 R324, R327, R329; 16 R440: control of a DMA channel. GO of an enabled idle channel, or of one stopped on error, fetches, and is ignored otherwise; an
abort with nothing in flight idles it, one with beats in flight or during a write-back waits for them, and one of a channel stopped on
error changes nothing; EN 0 does the same and disables; a gated block takes none of these and makes no access. That an abort leaves a channel
in STATE 5 there is the model's reading (log entry 40).

11 R311, R320 to R323, R325: a descriptor's way through its channel, in the states the channel shows. An access waits for its target's
grant. The fetch reads the 32 bytes at CUR, here in station
memory: not ready makes it idle with NRDY, an invalid one goes to write-back with ECODE 0xF, a valid one is kept with its count and goes on at once or waits
for its release. The transfer issues up to 16 beats, those of 4 bytes as
one request each, those of one W64 burst as one request. The oldest read performed goes on as a write with its data, behind what was issued
before it; the write stores those bytes and nothing else, and after the last beat the channel goes to the write-back. A failed beat is kept
as the lowest one known, and nothing further is issued. That all beats up to 16 are issued at once and that a request is performed
when it is answered are the model's reading (log entry 40).

11 R322, R323 step 5, R326, R328: the write-back of a descriptor in station memory and the hand-over after it. A finished one is written DONE, a failed one BAD
with its ECODE, BEAT and RESID; an end-of-count is flagged where IEOC asks for it, an error always; then a valid shadow is taken and counted, or the next
descriptor fetched, or after the last one the channel is idle. An enabled idle channel takes a valid shadow. Shadow writes: refused while SHV is
1 but for the cancel; a hand-over in the same cycle sees SHV as the cycle began. -/
def Obligations.DmaChannels : Prop :=
  (∀ (s : State) (n : Fin 16),
     let stat := dmaReg n 8
     let state := (s.reg stat).toNat / 2 ^ 28
     let moved := fun (s : State) (v : Nat) => { s.setFld stat 28 4 v with dma := s.dma.set n {} }
     let off := s.setFld (dmaReg n 0) 31 1 0
     (s.gated 2 = false →
       ((s.reg (dmaReg n 0)).getLsbD 31 = true → (state = 0 ∨ state = 5) → exec (.dmaGo n) s = .next (moved s 1)) ∧
       (((s.reg (dmaReg n 0)).getLsbD 31 = false ∨ (state ≠ 0 ∧ state ≠ 5)) → exec (.dmaGo n) s = .next s) ∧
       ((state ≤ 2 ∨ (state = 3 ∧ s.dma[n].issued ≤ s.dma[n].done)) →
         exec (.dmaAbort n) s = .next (moved s 0) ∧ exec (.dmaDisable n) s = .next (moved off 0)) ∧
       (state = 5 → exec (.dmaAbort n) s = .next s ∧ exec (.dmaDisable n) s = .next off) ∧
       ((state = 4 ∨ (state = 3 ∧ s.dma[n].done < s.dma[n].issued)) →
         exec (.dmaAbort n) s = .next { s with dma := s.dma.set n { s.dma[n] with halted := true } } ∧
         exec (.dmaDisable n) s = .next { off with dma := s.dma.set n { s.dma[n] with halted := true } })) ∧
     (s.gated 2 = true → (∀ x : DmaAccess, exec (.dmaWriteback x) s = .next s.noted) ∧
       ∀ x : DmaAccess, ∀ c ∈ [Instr.dmaGo n, .dmaAbort n, .dmaDisable n, .dmaIdleHandover n, .dmaDescriptorFetch x, .dmaTransferStart n],
         exec c s = .next s)) ∧
  (∀ (s : State) (n : Fin 16) (st : Stn) (d : DmaDesc) (x : DmaAccess),
     let stat := s.reg (dmaReg n 8)
     let state := stat.toNat / 2 ^ 28
     let cur := (s.reg (dmaReg n 0x10)).toNat % 256 * 2 ^ 32 + (s.reg (dmaReg n 0xC)).toNat
     let word := fun (i : Nat) => s.le (cur + 8 * i) 8
     let ready := fun (a k : Nat) => stnBase st ≤ a ∧ a + k ≤ stnBase st + 0x1000000 ∧ s.stnBankOn st ((a - stnBase st) / 0x80000) = true ∧
       ∀ i < k, s.upset (a + i) = .none
     let valid := d.ctrl.toNat % 2 ^ 24 ≠ 0 ∧ d.src.toNat < 2 ^ 40 ∧ d.dst.toNat < 2 ^ 40 ∧
       d.src.toNat % (if d.ctrl.getLsbD 24 then 64 else 4) = 0 ∧ d.dst.toNat % (if d.ctrl.getLsbD 24 then 64 else 4) = 0
     let reads := word 0 = d.src.toNat ∧ word 1 = d.dst.toNat ∧ word 2 = d.ctrl.toNat
     let line := cur / 64 * 64
     let given := s.mxTake mDma line
     let moved := fun (v : Nat) (c : Nat) => ((given.setFld (dmaReg n 0x14) 0 24 c).setFld (dmaReg n 8) 28 4 v)
     let count := d.ctrl.toNat % 2 ^ 24
     let single := d.ctrl.getLsbD 24 = false ∨ d.ctrl.getLsbD 25 = true ∨ d.ctrl.getLsbD 26 = true
     let begun : DmaChan := {
       desc := some d, issued := count
       reqs := if single then (List.range count).map fun i => ⟨false, [(i, 0)]⟩ else [⟨false, (List.range count).map fun i => (i, 0)⟩] }
     x.chan = n → x.around.meet = none → st.val < s.grade.stations → s.gated 2 = false → Registers.wf s = true →
     (s.mxTurn mDma line = false → exec (.dmaDescriptorFetch x) s = .next s) ∧
     (state = 1 → cur % 32 = 0 → ready cur 32 → reads → s.mxTurn mDma line = true →
       (word 3 < 2 ^ 63 → exec (.dmaDescriptorFetch x) s = .next ((given.setFld (dmaReg n 8) 28 4 0).setFld (dmaReg n 8) 3 1 1)) ∧
       (2 ^ 63 ≤ word 3 → ¬valid → exec (.dmaDescriptorFetch x) s = .next { moved 4 (d.ctrl.toNat % 2 ^ 24) with
         dma := s.dma.set n { desc := some d, fail := some (0, 15) } }) ∧
       (2 ^ 63 ≤ word 3 → valid → exec (.dmaDescriptorFetch x) s = .next
         { moved (if (s.reg (dmaReg n 4)).toNat / 64 % 4 = 0 then 3 else 2) (d.ctrl.toNat % 2 ^ 24) with
           dma := s.dma.set n { desc := some d } })) ∧
     (s.dma[n] = { desc := some d } → valid → count ≤ 16 →
       (d.ctrl.getLsbD 24 = true → d.src.toNat % 1024 + 64 * count ≤ 1024 ∧ d.dst.toNat % 1024 + 64 * count ≤ 1024) →
       (state = 3 → exec (.dmaTransferStart n) s = .next { s.setFld (dmaReg n 0x14) 0 24 0 with dma := s.dma.set n begun }) ∧
       (state = 2 → stat.toNat / 2 ^ 24 % 16 ≠ 0 →
         exec (.dmaTransferStart n) s = .next
           { ((s.setFld (dmaReg n 8) 24 4 (stat.toNat / 2 ^ 24 % 16 - 1)).setFld (dmaReg n 8) 28 4 3).setFld (dmaReg n 0x14) 0 24 0 with
             dma := s.dma.set n begun }) ∧
       (state = 2 → stat.toNat / 2 ^ 24 % 16 = 0 → exec (.dmaTransferStart n) s = .next s)) ∧
     (∀ i done (rest : List DmaReq) (data : BitVec 512),
       let src := d.src.toNat + (if d.ctrl.getLsbD 25 then 0 else 4 * i)
       let dst := d.dst.toNat + (if d.ctrl.getLsbD 26 then 0 else 4 * i)
       let chan := fun (done : Nat) (reqs : List DmaReq) => ({ desc := some d, issued := count, done := done, reqs := reqs } : DmaChan)
       let read : DmaReq := ⟨false, [(i, 0)]⟩
       let write := fun (v : BitVec 512) => (⟨true, [(i, v)]⟩ : DmaReq)
       state = 3 → valid → count ≤ 16 → i < count → done < count → d.ctrl.getLsbD 24 = false → (s.reg (dmaReg n 0x14)).toNat % 2 ^ 24 = 0 →
       s.hall.run ≠ .firmware → s.headMode = false → Memory.wf s = true →
       (stnBase st ≤ src → src + 4 ≤ stnBase st + 0x1000000 → s.dma[n] = chan done (read :: rest) →
         (s.mxTurn mDma src = false → rest = [] →
           ∃ u, exec (.dmaBeatResponse x) s = .next u ∧ u.dma = s.dma ∧ u.mem = s.mem ∧ u.regs = s.regs) ∧
         (s.mxTurn mDma src = true → ready src 4 → (∀ j < 8, s.upset (src / 8 * 8 + j) = .none) →
           ∃ u, exec (.dmaBeatResponse x) s = .next u ∧ u.mem = s.mem ∧ u.tiles = s.tiles ∧ (∀ a, u.reg a = s.reg a) ∧
             u.dma = s.dma.set n (chan done (rest ++ [write (BitVec.ofNat 512 (s.le src 4))]))) ∧
         (s.mxTurn mDma src = true → s.stnBankOn st ((src - stnBase st) / 0x80000) = false → done + 1 < count →
           ∃ u, exec (.dmaBeatResponse x) s = .next u ∧ u.mem = s.mem ∧ (u.reg (dmaReg n 8)).toNat / 2 ^ 28 = 3 ∧
             u.dma = s.dma.set n { chan (done + 1) rest with fail := some (i, 2), tail := true })) ∧
       (s.dma[n] = chan done (write data :: rest) → s.mxTurn mDma dst = true → ready dst 4 →
         (∀ j < 8, s.upset (dst / 8 * 8 + j) = .none) →
         ∃ u, exec (.dmaBeatResponse x) s = .next u ∧ u.tiles = s.tiles ∧ u.dma = s.dma.set n (chan (done + 1) rest) ∧
           (∀ a, u.byte a = if dst ≤ a ∧ a < dst + 4 then data.extractLsb' (8 * (a - dst)) 8 else s.byte a) ∧
           (u.reg (dmaReg n 8)).toNat / 2 ^ 28 = (if done + 1 = count then 4 else 3) ∧ ∀ a, a ≠ dmaReg n 8 → u.reg a = s.reg a))) ∧
  (∀ (s : State) (n : Fin 16) (st : Stn) (d : DmaDesc) (x : DmaAccess) (v : W32) (hi : Bool),
     let D := s.dma[n]
     let chStat := dmaReg n 8
     let sh := dmaReg n 0x1C
     let cur := (s.reg (dmaReg n 0x10)).toNat % 256 * 2 ^ 32 + (s.reg (dmaReg n 0xC)).toNat
     let a := cur + 0x18
     let shv := (s.reg sh).getLsbD 31
     let quiet := ∀ k : Fin 16, (s.reg (dmaReg k 4)).toNat / 64 % 4 ≠ 2
     let next := d.ctrl.toNat / 2 ^ 29 * 32
     let taken := fun (u : State) => u.reg (dmaReg n 0xC) = s.reg (dmaReg n 0x18) ∧
       (u.reg (dmaReg n 0x10)).toNat % 256 = (s.reg sh).toNat % 256 ∧ u.reg sh = s.reg sh &&& 0x7FFFFFFF ∧
       (u.reg (dmaReg n 0x20)).toNat % 65536 = ((s.reg (dmaReg n 0x20)).toNat + 1) % 65536 ∧
       (u.reg chStat).toNat / 2 ^ 28 = 1 ∧ u.dma = s.dma.set n {}
     x.chan = n → x.around.meet = none → s.gated 2 = false → Registers.wf s = true →
     (s.mxTurn mDma cur = false → exec (.dmaWriteback x) s = .next s.noted) ∧
     (D.desc = some d → D.halted = false → (s.reg chStat).toNat / 2 ^ 28 = 4 → cur % 32 = 0 → st.val < s.grade.stations →
       stnBase st ≤ cur → cur + 32 ≤ stnBase st + 0x1000000 → s.stnBankOn st ((cur - stnBase st) / 0x80000) = true → s.upset a = .none →
       quiet → Memory.wf s = true → s.mxTurn mDma cur = true →
       ∃ u, exec (.dmaWriteback x) s = .next u ∧
         u.le a 8 = (match D.fail with
           | none => 2 ^ 62
           | some (i, code) => (2 ^ 61 + (if D.tail then 2 ^ 60 else 0) + code.toNat * 2 ^ 56 + i * 2 ^ 24 +
               (s.reg (dmaReg n 0x14)).toNat % 2 ^ 24) % 2 ^ 64) ∧
         (∀ y, y < a ∨ a + 8 ≤ y → u.byte y = s.byte y) ∧
         (D.fail = none → (u.reg (devReg 2 0)).getLsbD n.val = (d.ctrl.getLsbD 27 || (s.reg (devReg 2 0)).getLsbD n.val) ∧
           u.reg (devReg 2 4) = s.reg (devReg 2 4)) ∧
         (D.fail ≠ none → (u.reg (devReg 2 4)).getLsbD n.val = true ∧ u.reg (devReg 2 0) = s.reg (devReg 2 0)) ∧
         (shv = true → taken u) ∧
         (shv = false → d.ctrl.getLsbD 28 = true → (u.reg chStat).toNat / 2 ^ 28 = 0 ∧ u.dma = s.dma.set n {}) ∧
         (shv = false → d.ctrl.getLsbD 28 = false → (u.reg chStat).toNat / 2 ^ 28 = 1 ∧
           (u.reg (dmaReg n 0xC)).toNat = next % 2 ^ 32 ∧ (u.reg (dmaReg n 0x10)).toNat = next / 2 ^ 32)) ∧
     ((s.reg (dmaReg n 0)).getLsbD 31 = true → (s.reg chStat).toNat / 2 ^ 28 = 0 → shv = true →
       ∃ u, exec (.dmaIdleHandover n) s = .next u ∧ taken u) ∧
     (shv = false → exec (.dmaIdleHandover n) s = .next s) ∧
     (shv = false → v &&& 0x7FFFFF00 = 0 → exec (.dmaShadowWrite n true v none) s = .next (s.noted.setReg sh v)) ∧
     (shv = false → v &&& 0x1F = 0 → exec (.dmaShadowWrite n false v none) s = .next (s.noted.setReg (dmaReg n 0x18) v)) ∧
     (shv = true → v &&& 0x1F = 0 → exec (.dmaShadowWrite n false v none) s = .next s.noted) ∧
     (shv = true → v.toNat < 256 → exec (.dmaShadowWrite n true v none) s = .next (s.noted.setFld sh 31 1 0)) ∧
     (v &&& (if hi then 0x7FFFFF00 else 0x1F) = 0 → (s.reg chStat).toNat / 2 ^ 28 = 0 →
       (shv = true → (s.reg (dmaReg n 0)).getLsbD 31 = true →
         ∃ u, exec (.dmaShadowWrite n hi v (some x.around)) s = .next u ∧ taken u) ∧
       (shv = false → exec (.dmaShadowWrite n hi v (some x.around)) s = exec (.dmaShadowWrite n hi v none) s)))

/-! ### The Welrik chain (12) -/

/-- 12 R332, R333: frames and their acknowledgement. A DATA frame with the LSEQ expected, a correct FCS and a LEN that agrees is accepted, here with
a packet the device forwards unexamined; another one is discarded and answered by one NAK until the frame expected arrives. A frame of
any kind whose FCS fails is counted and has no other effect but that NAK. An ACK frees the frames up to the one named; a NAK of a frame
held sends the frames from it on again, and a time-out every unacknowledged one; each counts a retransmission. A frame whose LEN disagrees
being answered by a NAK and the counting of rounds are the model's reading (log entry 43), which bytes the FCS covers log entry 90.

12 R334, R335, R359, R366, R367: link state and delay. A link that goes down discards its retry buffer, sets LOST and LINKCHG and wraps the port; one
with block lock, no LOS and a probe exchange completed since comes up and restarts its sequence numbers; a wrap is removed from a link
that is up; a probe keeps t1, is answered with its turnaround, and its reply enters the mean of the last 16; module and PCIe link changes
show in their registers, and LOS takes the link down. Here with nothing waiting at the port and the firmware, which reports events, not
running. In a reset that includes the chain-port reset no frame has an effect and no link comes up, and the PCIe interface is in reset with the device (16 R443, R447).
The conditions of LINK_UP are log entry 91, the mean of the delays log entry 43. -/
def Obligations.ChainLinks : Prop :=
  (∀ (s : State) (p : Fin 2) (f : LinkFrame) (i : Nat) (around : Around) (n : BitVec 48) (q : W16) (y : W64),
     let L := s.links[p]
     let k := packetOf f.body
     let up := (s.reg (linkReg p 0)).getLsbD 31
     let put := fun (s : State) (M : ChainLink) => { s with links := s.links.set p M }
     let retry := fun (fs : List LinkFrame) => put (s.bump (linkReg p 0xC) 1) { L with retries := L.retries + 1, resent := fs }
     let counted := fun (s : State) => (s.bump (linkReg p 8) 1).setFld (chReg 4) 0 1 1
     let good := frameFcsOk f = true ∧ f.type = 1 ∧ frameLenOk f = true
     let next := f.lseq.extractLsb' 0 12 = L.rxSeq
     let nak := if L.nakSent then L else { L with nakSent := true, sentNak := some (ctlFrame 3 (L.rxSeq.setWidth 16) []) }
     (s.portsHeld = true → exec (.linkDataFrame p ⟨f, around⟩) s = .next s.noted ∧
       ∀ c ∈ [Instr.linkAck p f, .linkNak p f, .probe p f n q, .probeReply p f y, .probeSend p q], exec c s = .next s) ∧ (s.portsHeld = false →
     (frameFcsOk f = true → f.type ≠ 1 → exec (.linkDataFrame p ⟨f, around⟩) s = .next s.noted) ∧
     (good → up = false → exec (.linkDataFrame p ⟨f, around⟩) s = .next s.noted) ∧
     (good → up = true → s.headMode = false → next → k.opcode ≠ 6 → k.flags.getLsbD 2 = true →
       exec (.linkDataFrame p ⟨f, around⟩) s = .next ((put s.noted { L with
         rxSeq := L.rxSeq + 1, nakSent := false, sentAck := some (ctlFrame 2 (L.rxSeq.setWidth 16) []) }).forward p k)) ∧
     (good → up = true → ¬next → exec (.linkDataFrame p ⟨f, around⟩) s = .next (put s.noted nak)) ∧
     (frameFcsOk f = false → f.type = 1 → up = true → exec (.linkDataFrame p ⟨f, around⟩) s = .next (put (counted s.noted) nak)) ∧
     (frameFcsOk f = false → (f.type ≠ 1 ∨ up = false) → exec (.linkDataFrame p ⟨f, around⟩) s = .next (counted s.noted)) ∧
     (frameFcsOk f = false → ∀ c ∈ [Instr.linkAck p f, .linkNak p f, .probe p f n q, .probeReply p f y], exec c s = .next (counted s)) ∧
     (frameFcsOk f = true →
       (L.unacked.findIdx? (fun x => x.lseq == f.aseq) = some i → L.waiting = [] →
         exec (.linkAck p f) s = .next (put s { L with unacked := L.unacked.drop (i + 1), retries := 0 })) ∧
       (L.unacked.findIdx? (fun x => x.lseq == f.aseq) = some i → exec (.linkNak p f) s = .next (retry (L.unacked.drop i))) ∧
       ((∀ x ∈ L.unacked, x.lseq ≠ f.aseq) → exec (.linkAck p f) s = .next s ∧ exec (.linkNak p f) s = .next s))) ∧
     (L.unacked ≠ [] → exec (.linkRetryTimeout p) s = .next (retry L.unacked)) ∧
     (L.unacked = [] → exec (.linkRetryTimeout p) s = .next s)) ∧
  (∀ (s : State) (p : Fin 2) (why : DownCause) (frac : W16) (f : LinkFrame) (x : W64) (n : BitVec 48) (q : W16) (present fault lock : Bool)
     (rate width : BitVec 3) (cfg : PciCfg),
     let L := s.links[p]
     let ctrl := linkReg p 0
     let up := (s.reg ctrl).getLsbD 31
     let put := fun (s : State) (M : ChainLink) => { s with links := s.links.set p M }
     let seen := match why with
       | .lockLost => s.setFld ctrl 30 1 0
       | .los => s.setFld ctrl 28 1 1
       | .stalled => s
     let able := (s.reg ctrl).getLsbD 30 = true ∧ (s.reg ctrl).getLsbD 28 = false ∧ L.probed = true
     (why = .stalled → L.retries < 8 → exec (.linkDown p why) s = .next s) ∧
     ((why = .stalled → 8 ≤ L.retries) → up = false → exec (.linkDown p why) s = .next seen) ∧
     ((why = .stalled → 8 ≤ L.retries) → up = true → s.headMode = false → L.waiting = [] → s.hall.run ≠ .firmware →
       exec (.linkDown p why) s = .next
         ((put ((((seen.setFld ctrl 31 1 0).setFld (chReg 4) 3 1 1).setFld (chReg 4) 1 1 1))
           { L with unacked := [], waiting := [], retries := 0, nakSent := false, probeT1 := none
                    probed := false }).setFld (chReg 4) (8 + p.val) 1 1)) ∧
     ((up = true ∨ ¬able ∨ s.portsHeld = true) → exec (.linkUp p) s = .next s) ∧
     (up = false → able → s.portsHeld = false → s.headMode = false → L.waiting = [] →
       exec (.linkUp p) s = .next (put ((s.setFld ctrl 31 1 1).setFld (chReg 4) 1 1 1)
         { L with txSeq := 0, rxSeq := 0, unacked := [], nakSent := false, retries := 0 })) ∧
     (up = true → (s.reg (chReg 4)).getLsbD (8 + p.val) = true → s.hall.run ≠ .firmware →
       exec (.wrapRemove p) s = .next (s.setFld (chReg 4) (8 + p.val) 1 0)) ∧
     ((up = false ∨ (s.reg (chReg 4)).getLsbD (8 + p.val) = false) → exec (.wrapRemove p) s = .next s) ∧
     (s.portsHeld = false →
      let t1 : W64 := s.timeBase <<< 16 ||| frac.setWidth 64
      exec (.probeSend p frac) s = .next (put s { L with probeT1 := some t1, sentProbe := some (ctlFrame 4 0 (leBytes 8 t1.toNat)) })) ∧
     (s.portsHeld = false → frameFcsOk f = true →
       exec (.probe p f n q) s = .next (put s { L with sentReply := some (ctlFrame 5 f.lseq (leBytes 8 (n.toNat * 2 ^ 16 + q.toNat))) }) ∧
       (L.probeT1 = none → exec (.probeReply p f x) s = .next s) ∧
       (∀ t1, L.probeT1 = some t1 →
         let ds := ((x - t1 - leBv 64 (f.body.take 8)) / 2 :: L.delays).take 16
         exec (.probeReply p f x) s = .next ((put s { L with probeT1 := none, probed := true, delays := ds }).setReg (linkReg p 4)
           (BitVec.ofNat 32 ((ds.map BitVec.toNat).sum / ds.length))))) ∧
     (let shown := fun (los : Bool) => (((s.setFld ctrl 30 1 lock.toNat).setFld ctrl 29 1 present.toNat).setFld ctrl 28 1 los.toNat).setFld
        ctrl 27 1 fault.toNat
      exec (.sfpModuleChange p present ⟨false, fault, lock⟩) s = .next (shown false) ∧
      exec (.sfpModuleChange p present ⟨true, fault, lock⟩) s = exec (.linkDown p .los) (shown true)) ∧
     ((s.headMode = false ∨ s.inReset = true) → exec (.pcieLinkChange ⟨rate, width⟩ cfg) s = .next s) ∧
     (s.headMode = true → s.inReset = false → exec (.pcieLinkChange ⟨rate, width⟩ cfg) s = .next
       { (s.setFld (pciReg 4) 5 3 rate.toNat).setFld (pciReg 4) 2 3 (if rate = 0 then 0 else width.toNat) with
         pcie := { s.pcie with cfg := cfg } }.msixFlush))

/-- 12 R339, R340, R345, R346: the commands that the Porch executes, addressed to this device, on a device that is no head. PING returns its bytes, as
many as a reply holds; REG_READ
and REG_WRITE, here of one word of a timer's TILES register, read and write it through the chain engine, whose access is granted at once where
nothing waits at the target (11 R311), and answers BUS_ERROR with code 0b110 where the peripheral stays silent (11 R309); REG_WRITE is denied while
REGWEN is 0; RESET answers first and then makes the device reset wait; a STN other than 0xFF is refused; a command for another device is
forwarded as it came.

12 R342 to R344, R360; 11 R318; 05 R145: the two broadcasts. ENUMERATE without pins: a device that has no address, or is told to reassign, takes NEXT, and
one that has an address keeps it; each appends its entry and passes the packet on. TIME_SYNC steps the time base by the rounded offset, records it,
starts the armed timers that a forward step passes, sets interrupt line 6 in the running tiles selected, and passes the packet on with the delay and the residence added; a device without an address
forwards it. That a PING returns the first 4092 bytes is the model's reading (log entry 92). While a reset that includes the chain-port reset is
asserted no packet has an effect (16 R443).
That such an access takes its grant within its command, and that a silent peripheral's register keeps its value, are the model's choices
(log entries 106 and 87). -/
def Obligations.PorchAndBroadcasts : Prop :=
  (∀ (s : State) (p : Fin 2) (k : Packet) (n : Fin 8) (v : W32) (me : Byte) (w : Around),
     let answer := fun (op : Byte) (status detail : Nat) (res : List Byte) =>
       Packet.mk k.src me 1 op k.seq 0 0xFF 0 (leBytes 2 status ++ leBytes 2 detail ++ res)
     let reply := fun (op : Byte) (status : Nat) (res : List Byte) => answer op status 0 res
     let out := fun (s u : State) (op : Byte) (status : Nat) (res : List Byte) => (u.forward p (reply op status res)).hallReact s
     let silent := fun (s u : State) (op : Byte) => (u.forward p (answer op 7 6 [])).hallReact s
     let tiles := tmrReg n 0x14
     let line := tiles / 64 * 64
     let one := leBytes 8 tiles ++ leBytes 4 1
     (s.portsHeld = true →
       exec (.regWrite p ⟨k, w⟩) s = .next s.noted ∧ exec (.stationStart p k) s = .next s.noted ∧
       ∀ c ∈ [Instr.ping p k, .regRead p ⟨k, w⟩, .chainReset p k, .roleGet p k, .roleSet p k, .imageLoad p k, .stationStop p k, .mboxSend p k,
         .attest p k, .pantryRead p k, .logRead p k, .enumerate p k, .timeSync p k 0, .chainBoot p ⟨k, w⟩], exec c s = .next s) ∧
     (s.inReset = false → s.headMode = false → s.chAddr = some me → k.flags = 0 →
     (k.dst = me → k.stn = 0xFF →
       exec (.ping p k) s = .next (out s s 1 0 (k.params.take 4092)) ∧
       (k.params = one → (∀ m g, s.mxWaits m g = false) →
         (w.silent = false → exec (.regRead p ⟨k, w⟩) s = .next (out s (s.mxTake mChain line) 3 0 (leBytes 4 (s.reg tiles).toNat))) ∧
         (w.silent = true → exec (.regRead p ⟨k, w⟩) s = .next (silent s (s.mxTake mChain line) 3))) ∧
       (k.params = one ++ leBytes 4 v.toNat → (∀ x, (s.hallStn x).waiting = []) → (∀ m g, s.mxWaits m g = false) →
         ((s.reg (chReg 0)).getLsbD 3 = true →
           (w.silent = false → exec (.regWrite p ⟨k, w⟩) s = .next (out s.noted ((s.noted.mxTake mChain line).setReg tiles v) 4 0 [])) ∧
           (w.silent = true → exec (.regWrite p ⟨k, w⟩) s = .next (silent s.noted (s.noted.mxTake mChain line) 4))) ∧
         ((s.reg (chReg 0)).getLsbD 3 = false → exec (.regWrite p ⟨k, w⟩) s = .next (out s.noted s.noted 4 6 []))) ∧
       (k.params.head? = some 0 → s.core.asserted = false → s.core.wants = none →
         exec (.chainReset p k) s = .next
           ({ s.forward p (reply 5 0 []) with core := { s.core with wants := some .command } }.hallReact s))) ∧
     (k.dst = me → k.stn ≠ 0xFF →
       exec (.ping p k) s = .next ((s.forward p { reply 1 4 [] with stn := k.stn, role := s.roleOf k.stn }).hallReact s)) ∧
     (k.dst ≠ me → k.dst ≠ 0xFF → k.src ≠ me → ∀ c ∈ [(Instr.ping p k, (1 : Byte)), (.regRead p ⟨k, w⟩, 3), (.chainReset p k, 5), (.roleGet p k, 0x14)],
       exec c.1 s = .next ((s.forward p { k with opcode := c.2 }).hallReact s)))) ∧
  (∀ (s : State) (p : Fin 2) (k : Packet) (residence : W64) (next nent : Byte) (flags : Byte) (entries : List Byte),
     let reassign := flags.getLsbD 0
     let valid := (s.reg (chReg 8)).getLsbD 31
     let wrap := if (s.reg (chReg 4)).getLsbD 8 ∨ (s.reg (chReg 4)).getLsbD 9 then 8 else 0
     let entry := fun (a fl : Nat) => leBytes 8 Config.serial.toNat ++
       [BitVec.ofNat 8 a, BitVec.ofNat 8 s.grade.code, 0xB0, BitVec.ofNat 8 (fl + wrap), 0, 0, 0, 0]
     let corr := leNat ((k.params.drop 16).take 8) + (s.reg (linkReg p 4)).toNat
     let off := roundEven16 ((leNat ((k.params.drop 8).take 8) : Int) * 65536 + corr - (s.timeBase.toNat : Int) * 65536)
     let tb := s.timeBase + BitVec.ofInt 64 off
     s.inReset = false → s.headMode = false → k.dst = 0xFF → k.flags = 0 → Registers.wf s = true →
     (k.params = [next, flags, 0, nent, 0, 0, 0, 0] ++ entries → entries.length = 16 * nent.toNat → nent.toNat < 64 →
       (valid = false ∨ reassign = true → next.toNat ≤ 0x3F →
         exec (.enumerate p k) s = .next
           (((s.setReg (chReg 8) (BitVec.ofNat 32 (2 ^ 31 + next.toNat))).forward p { k with
             opcode := 2
             params := [next + 1, flags, 0, nent + 1, 0, 0, 0, 0] ++ entries ++ entry next.toNat 2 }).hallReact s)) ∧
       (valid = true → reassign = false → (s.reg (chReg 8)).toNat % 2 ^ 31 < 64 →
         exec (.enumerate p k) s = .next ((s.forward p { k with
           opcode := 2
           params := [next, flags, 0, nent + 1, 0, 0, 0, 0] ++ entries ++ entry ((s.reg (chReg 8)).toNat % 64) 0 }).hallReact s))) ∧
     (valid = true → s.hall.run ≠ .firmware → k.params.length = 24 →
       ∃ u, exec (.timeSync p k residence) s = .next u ∧ u.timeBase = tb ∧
         u.reg (chReg 0x50) = tb.extractLsb' 0 32 ∧ u.reg (chReg 0x54) = tb.extractLsb' 32 32 ∧
         u.reg (chReg 0x58) = BitVec.ofInt 32 (max (-(2 ^ 31)) (min (2 ^ 31 - 1) off)) ∧
         u.reg (chReg 4) = s.reg (chReg 4) ||| 0x10 ∧
         (∀ st t, u.tile st t = if (k.params.headD 0).getLsbD 0 ∧ (s.reg (chReg 0)).getLsbD (8 + st.val) ∧ (s.tile st t).run = .running then
           { s.tile st t with ipend := (s.tile st t).ipend ||| 0x40 } else s.tile st t) ∧
         u.links = (s.forward p { k with
           opcode := 6, params := k.params.take 16 ++ leBytes 8 (corr + residence.toNat) }).links ∧
         u.mem = s.mem ∧
         ∀ n : Fin 8, u.tmrRun[n] = (s.tmrRun[n] || (s.tmrArmed[n] && decide (0 < off) && decide (s.timerAt n ≤ tb.toNat)))) ∧
     (valid = false → s.hall.run ≠ .firmware → exec (.timeSync p k residence) s = .next (s.forward p { k with opcode := 6 })))

/-- 12 R339, R341, R345, R347, R348, R353 to R358; 14 R409, R410; 01 R33: the commands for a station, at the firmware, past the duplicate cache and the role check,
with no job of the station under way. What is executed is kept in the cache and answered; an IMAGE_LOAD chunk is staged in LP5 memory; an
MBOX_SEND is answered once its word is placed, and waits while the send buffer is full; a STATION_START begins the start of a station
that does not run, once its image verifies, and is answered at the start's end; so is a STATION_STOP of a running one. The order of cache, role check, table and parameters and DETAIL 2 are the model's reading (log entry
46), so are which answers enter the cache (log entry 47) and the wait of an MBOX_SEND for room (log entry 92). At the start nothing waits at
the matrix targets. -/
def Obligations.StationCommands : Prop :=
  ∀ (s : State) (p : Fin 2) (k : Packet) (st : Stn) (me : Byte) (tag : W32) (t : TileNo) (payload : BitVec 48),
    let S := s.stn st
    let H := s.hallStn st
    let role := s.reg (stnReg st 0x190)
    let reply := fun (u : State) (op : Byte) (status detail : Nat) (res : List Byte) =>
      u.forward p ⟨k.src, me, 1, op, k.seq, u.reg (stnReg st 0x190), k.stn, 0, leBytes 2 status ++ leBytes 2 detail ++ res⟩
    let kept := fun (u : State) (op : Byte) (status detail : Nat) (res : List Byte) =>
      reply (u.modHall fun H => { H with cache :=
        (⟨k.src, k.seq, op, k.stn, BitVec.ofNat 32 (status + 65536 * detail)⟩ :: H.cache).take 256 }) op status detail res
    let done := fun (u : State) (op : Byte) (status detail : Nat) (res : List Byte) => (kept u op status detail res).hallReact s
    let turned := fun (op : Byte) (status : Nat) => (reply s op status 0 []).hallReact s
    let new := fun (op : Byte) => ∀ e ∈ s.hall.cache, ¬(e.src = k.src ∧ e.seq = k.seq ∧ e.opcode = op ∧ e.stn = k.stn)
    s.inReset = false → s.headMode = false → s.chAddr = some me → k.dst = me → k.flags = 0 → s.hall.run = .firmware → k.stn.toNat = st.val →
    s.fitted st = true → H.starting = none → H.stopping = none → H.inPlace = none → H.sending = none →
    (k.role = 0 ∨ k.role = role) →
    (new 0x14 → exec (.roleGet p k) s = .next (done s 0x14 0 0 (leBytes 4 role.toNat ++ [runCode S.run]))) ∧
    (new 0x13 → k.params = leBytes 4 tag.toNat ++ [0xFF] →
      (tag.toNat / 2 ^ 20 = 0 → exec (.roleSet p k) s = .next (done s 0x13 3 2 [])) ∧
      (tag.toNat / 2 ^ 20 ≠ 0 → exec (.roleSet p k) s = .next
        (done (((s.setReg (stnReg st 0x190) tag).learnTag tag).hallLog 9 st.val 0xFF (leBytes 4 role.toNat ++ leBytes 4 tag.toNat ++ [k.src])) 0x13 0 0 []))) ∧
    (new 0x10 → 9 ≤ k.params.length →
      let c := s.stage (stageAddr st) H.staged 0x1000000 (some s.grade.code) k.params
      exec (.imageLoad p k) s = .next
        (done (c.1.modHallStn st fun H => { H with staged := c.2.staged }) 0x10 c.2.status c.2.detail [])) ∧
    (new 0x17 → k.params = [1, BitVec.ofNat 8 t.val, 0] ++ leBytes 6 payload.toNat → 0x80 ≤ payload.toNat / 2 ^ 40 →
      (k.role = 0 → exec (.mboxSend p k) s = .next (turned 0x17 11)) ∧
      (k.role ≠ 0 → S.run = .stopped → exec (.mboxSend p k) s = .next (turned 0x17 8)) ∧
      (k.role ≠ 0 → S.run = .failed → exec (.mboxSend p k) s = .next (turned 0x17 10)) ∧
      (k.role ≠ 0 → S.run = .running →
        (S.inRepair (t.val / 5) = false → H.out = [] → S.hallSend.length < 4 →
          exec (.mboxSend p k) s = .next
            (done (s.setStn st { S with hallSend := S.hallSend ++ [(BitVec.ofNat 6 t.val, payload)] }) 0x17 0 0 [])) ∧
        (4 ≤ S.hallSend.length → exec (.mboxSend p k) s = .next ((s.modHallStn st fun H => { H with
          sending := some ⟨⟨p, { k with opcode := 0x17 }, s.timeBase⟩, [(BitVec.ofNat 6 t.val, payload)]⟩ }).hallReact s)))) ∧
    (new 0x12 → S.phase = .none →
      (S.run = .stopped → exec (.stationStop p k) s = .next (done s 0x12 0 0 [])) ∧
      (S.run = .running → ∃ u : State, exec (.stationStop p k) s = .next (u.hallReact s) ∧ u.stn st = { S with phase := .stopping false } ∧
        u.hallStn st = { H with stopping := some ⟨p, { k with opcode := 0x12 }, s.timeBase⟩ } ∧
        (∀ t, (s.tile st t).run = .running → (u.tile st t).stopReq = true) ∧ u.links = s.links ∧ u.regs = s.regs ∧ u.mem = s.mem)) ∧
    (new 0x11 → (∀ x, (s.hallStn x).waiting = []) → (∀ m g, s.mxWaits m g = false) →
      let x := s.noted.verifyStaged st
      (S.run = .running → exec (.stationStart p k) s = .next ((reply s.noted 0x11 5 0 []).hallReact s.noted)) ∧
      (S.run ≠ .running → s.hall.attest = none → x.2.reason ≠ 1 →
        exec (.stationStart p k) s = .next ((kept x.1 0x11 9 x.2.reason []).hallReact s.noted)) ∧
      (S.run ≠ .running → S.phase = .none → s.hall.attest = none → x.2.reason = 1 → (∀ y ∈ sections (x.2.image.drop 1024), y.ty ≠ 5) →
        ∃ u : State, exec (.stationStart p k) s = .next (u.hallReact s.noted) ∧ (u.stn st).phase = .starting ∧
          u.hallStn st = { H with body := x.2.image.drop 1024, digest := x.2.digest
                                  starting := some ⟨p, { k with opcode := 0x11 }, s.timeBase⟩ }))

/-- 12 R341, R345, R347; 14 R404, R415; 15 R420; 10 R291, R298: the commands for the device at the firmware. PANTRY_READ of the counter, of half a page and of audit records; LOG_READ of
the newest entry; ATTEST begins the signature of its report in the vault. While the Hall is not running every one of them is answered NOT_READY. In chain
boot the Cellar takes chunks of the Hall's image, and a CHAIN_BOOT packet at any other time is no event. -/
def Obligations.DeviceCommands : Prop :=
  ∀ (s : State) (p : Fin 2) (k : Packet) (me : Byte) (i n : Nat) (w : Around),
    let reply := fun (u : State) (op : Byte) (status : Nat) (res : List Byte) =>
      u.forward p ⟨k.src, me, 1, op, k.seq, 0, k.stn, 0, leBytes 2 status ++ leBytes 2 0 ++ res⟩
    let done := fun (op : Byte) (res : List Byte) =>
      (reply (s.modHall fun H => { H with cache := (⟨k.src, k.seq, op, k.stn, 0⟩ :: H.cache).take 256 }) op 0 res).hallReact s
    let new := fun (op : Byte) => ∀ e ∈ s.hall.cache, ¬(e.src = k.src ∧ e.seq = k.seq ∧ e.opcode = op ∧ e.stn = k.stn)
    let at_ := hallMem (0xF0000 + 32 * ((s.hall.logNext - 1) % 2048))
    s.inReset = false → s.headMode = false → s.chAddr = some me → k.dst = me → k.flags = 0 → k.stn = 0xFF →
    (s.hall.run = .firmware →
      (new 0x16 → k.params = [3, 0, 0, 0, 0] → exec (.pantryRead p k) s = .next (done 0x16 (leBytes 2 s.flashCtl.counter))) ∧
      (new 0x16 → i < 2 → k.params = [1] ++ leBytes 2 i ++ [0, 0] →
        exec (.pantryRead p k) s = .next (done 0x16 (s.flashBytes (0x401000 + 0x800 * i) 2048))) ∧
      (new 0x16 → 1 ≤ n → n ≤ 63 → i + n ≤ 16384 → k.params = [2] ++ leBytes 2 i ++ leBytes 2 n →
        exec (.pantryRead p k) s = .next (done 0x16 (s.flashBytes (0x410000 + 64 * i) (64 * n)))) ∧
      (new 0x18 → 0 < s.hall.logNext → s.hall.logNext < 2 ^ 32 → k.params = leBytes 4 (s.hall.logNext - 1) →
        s.hallBankOn 15 = true → (∀ j < 4, s.upset (at_ + 8 * j) = .none) →
        exec (.logRead p k) s = .next (done 0x18 (leBytes 4 s.hall.logNext ++ [1, 0, 0, 0] ++ s.bytes at_ 32))) ∧
      (new 0x15 → k.params.length = 64 → s.anyStarting = false → s.hall.attest = none → s.vault.cmd = none → s.gated 8 = false →
        ∃ u : State, exec (.attest p k) s = .next (u.hallReact s) ∧
          u.vault = { s.vault with cmd := some .sign, since := s.timeBase, hash := none } ∧
          u.gvIn 0 64 = sha512 (s.report k.params) ∧
          u.hall = { s.hall with attest := some (⟨p, { k with opcode := 0x15 }, s.timeBase⟩, s.report k.params) } ∧
          (u.reg aGVSTAT).getLsbD 31 = true ∧ u.links = s.links ∧ u.mem = s.mem ∧ u.tiles = s.tiles)) ∧
    (s.hall.run ≠ .firmware → s.hall.run ≠ .chainBoot → ∀ c ∈ [(Instr.attest p k, (0x15 : Byte)), (.pantryRead p k, 0x16), (.logRead p k, 0x18),
      (.imageLoad p k, 0x10)], exec c.1 s = .next (reply s c.2 8 [])) ∧
    (s.hall.run ≠ .chainBoot → exec (.chainBoot p ⟨k, w⟩) s = .next s) ∧
    (s.hall.run = .chainBoot → k.opcode = 0x10 → 9 ≤ k.params.length →
      let c := s.stage (hallMem 0) s.hall.boot 983040 none k.params
      c.2.status = 0 →
      exec (.chainBoot p ⟨k, w⟩) s = .next (reply (c.1.modHall fun H => { H with boot := c.2.staged }) 0x10 0 []))

/-- 12 R362 to R365: the PCIe head. Out of head mode its commands do nothing. A posted command whose buffer is read and whose PLEN agrees with LEN enters the ring
with SRC 0xFE and its descriptor is done, one that is not is done with ERR; a failed host access stops both rings; a waiting packet is
written to a posted buffer as it arrives or when the tail moves on, or discarded with RXOVF; what an event signals is `msixRaise`. The window claims nothing without memory
space, which AER records; it reads all ones while WINEN is 0, and reaches the device's addresses, here a timer's TILES register, while it
is 1. A peripheral that stays silent makes the window's read a Completer Abort (11 R309). Here
with one descriptor and, at the window, none that waits, and nothing waiting at the matrix targets. AER bit 20 and its masks are PRESUMED
(log entry 83); that both rings stop with packets that wait kept is the model's reading (log entry 45).
That the window's access takes its grant within its command, and that a silent peripheral's register keeps its value, are the model's
choices (log entries 106 and 87). -/
def Obligations.PcieHead : Prop :=
  ∀ (s : State) (c : HostCmd) (tail : BitVec 12) (ok : Bool) (k : Packet) (ks : List Packet) (x : BitVec 22) (op : WinOp) (n : Nat)
    (bs : List (Option Byte)) (w : W32) (p : Fin 2) (z : Around),
    let head := (s.reg (pciReg 0x20)).toNat % 4096
    let size := 2 ^ ((s.reg (pciReg 0x18)).toNat % 16)
    let rhead := (s.reg (pciReg 0x40)).toNat % 4096
    let rsize := 2 ^ ((s.reg (pciReg 0x38)).toNat % 16)
    let ctrl := s.reg (pciReg 0)
    let on := s.headMode = true ∧ s.gated 3 = false
    let reach := s.pcie.cfg.busMaster = true ∧ s.pcie.cfg.d3hot = false ∧ s.pcie.cfg.memFails = false
    let pcie := fun (u : State) (P : Pcie) => { u with pcie := P }
    let stopped := fun (u : State) => (pcie (u.setFld (pciReg 4) 0 1 1) { u.pcie with cmdStopped := true, rxStopped := true }).msixRaise 3
    let tailed := s.noted.setFld (pciReg 0x1C) 0 12 tail.toNat
    let posted := ctrl.getLsbD 0 = true ∧ s.pcie.cmdStopped = false ∧ s.pcie.posted = [] ∧ size ≤ 4096 ∧ head < size ∧
      tail.toNat = (head + 1) % size ∧ 1 < size
    let consumed := fun (u : State) (bad : Bool) => (pcie (u.setFld (pciReg 0x20) 0 12 ((head + 1) % size)) { u.pcie with
      cmdDone := u.pcie.cmdDone ++ [(BitVec.ofNat 12 head, bad)] }).msixRaise 1
    let short := c.len.toNat ≠ 16 + c.plen.toNat
    let answered := fun (u : State) (a : WinAnswer) => (pcie u { u.pcie with winAnswer := some a }).pcieResume
    let claims := s.pcie.cfg.memSpace = true ∧ s.pcie.cfg.d3hot = false
    (¬on → s.hall.run ≠ .firmware → ∀ i ∈ [Instr.cmdTailWrite tail [c], .pcieWindowAccess x ⟨op, z⟩], exec i s = .next s.noted) ∧
    (¬on → exec (.rxTailWrite tail ok) s = .next s) ∧
    (on →
      (posted → Registers.wf s = true →
        ((c.accessOk = false ∨ ¬reach) → exec (.cmdTailWrite tail [c]) s = .next (stopped (pcie tailed { s.pcie with posted := [c] }))) ∧
        (c.accessOk = true → reach → c.readOk = false → exec (.cmdTailWrite tail [c]) s = .next (stopped (consumed tailed true))) ∧
        (c.accessOk = true → reach → c.readOk = true → short → exec (.cmdTailWrite tail [c]) s = .next (consumed tailed true)) ∧
        (c.accessOk = true → reach → c.readOk = true → ¬short → c.pkt.flags.getLsbD 2 = true →
          exec (.cmdTailWrite tail [c]) s = .next (consumed (tailed.forward 0 { c.pkt with src := 0xFE }) false))) ∧
      (s.pcie.rxQueue = [] → exec (.rxTailWrite tail ok) s = .next (s.setFld (pciReg 0x3C) 0 12 tail.toNat)) ∧
      (let t := s.setFld (pciReg 0x3C) 0 12 tail.toNat
       s.pcie.rxQueue = [k] → ctrl.getLsbD 1 = true → s.pcie.rxStopped = false → rhead % rsize ≠ tail.toNat % rsize → Registers.wf s = true →
        (reach →
          let u := ((pcie t { s.pcie with written := s.pcie.written ++ [(BitVec.ofNat 12 rhead, k)] }).msixRaise 0).setFld
            (pciReg 0x40) 0 12 ((rhead + 1) % rsize)
          exec (.rxTailWrite tail true) s = .next (pcie u { u.pcie with rxQueue := [] })) ∧
        (¬reach → exec (.rxTailWrite tail true) s = .next (stopped t)) ∧
        exec (.rxTailWrite tail false) s = .next (stopped t)) ∧
      (let arrived := { k with opcode := 1 }
       k.dst = 0xFE → s.pcie.rxQueue = [] → ctrl.getLsbD 1 = true → s.pcie.rxStopped = false →
       rhead % rsize ≠ (s.reg (pciReg 0x3C)).toNat % 4096 % rsize → Registers.wf s = true →
        (reach →
          exec (.ping p k) s = .next (((pcie s { s.pcie with written := s.pcie.written ++ [(BitVec.ofNat 12 rhead, arrived)] }).msixRaise
            0).setFld (pciReg 0x40) 0 12 ((rhead + 1) % rsize))) ∧
        (¬reach → exec (.ping p k) s = .next (stopped (pcie s { s.pcie with rxQueue := [arrived] })))) ∧
      (s.hall.run ≠ .firmware → s.pcie.posted = [] →
        (¬claims →
          exec (.pcieWindowAccess x ⟨.read n, z⟩) s =
            .next (answered (pcie s.noted { s.pcie with aer := s.pcie.aer ||| 0x100000 }) .unsupported) ∧
          exec (.pcieWindowAccess x ⟨.write bs, z⟩) s = .next (pcie s.noted { s.pcie with aer := s.pcie.aer ||| 0x100000 }).pcieResume) ∧
        (claims → ctrl.getLsbD 2 = false →
          exec (.pcieWindowAccess x ⟨.read n, z⟩) s = .next (answered s.noted (.data (List.replicate n 0xFF))) ∧
          exec (.pcieWindowAccess x ⟨.write bs, z⟩) s = .next s.noted.pcieResume) ∧
        (∀ n : Fin 8, claims → ctrl.getLsbD 2 = true → (∀ m g, s.mxWaits m g = false) → (s.reg (pciReg 8)).toNat % 2 ^ 18 * 2 ^ 22 + x.toNat = tmrReg n 0x14 →
          let taken := s.noted.mxTake mPcie (tmrReg n 0x14 / 64 * 64)
          (z.silent = false →
            exec (.pcieWindowAccess x ⟨.read 4, z⟩) s = .next (answered taken (.data (leBytes 4 (s.reg (tmrReg n 0x14)).toNat))) ∧
            exec (.pcieWindowAccess x ⟨.write ((leBytes 4 w.toNat).map some), z⟩) s =
              .next (taken.setReg (tmrReg n 0x14) w).pcieResume) ∧
          (z.silent = true →
            exec (.pcieWindowAccess x ⟨.read 4, z⟩) s =
              .next (answered (pcie taken { s.pcie with aer := s.pcie.aer ||| 0x8000 }) .abort))))) ∧
    (s.pcie.rxQueue = k :: ks → (ctrl.getLsbD 1 = false ∨ rhead % rsize = (s.reg (pciReg 0x3C)).toNat % 4096 % rsize) →
      exec .rxPacketDiscard s = .next ((pcie (s.setFld (pciReg 4) 1 1 1) { s.pcie with rxQueue := ks }).msixRaise 3)) ∧
    (s.pcie.rxQueue = [] → exec .rxPacketDiscard s = .next s)

/-! ### Lane I/O (13) -/

/-- 13 R369 to R374, R377, R379: a terminal read. Without a hit, or with no byte selected, nothing is driven and nothing changes; a hit drives the selected
bytes: a plain word, a read-to-clear word whose bytes are then zero, the head of a FIFO or its EMPTYVAL with the high byte latched, the
latch for a high-byte read, or the sources of a composite word. A firmware write of the same mirror word makes the read collide: the write
is performed, the side effect withheld, BNKBSY high, RCOLL set and counted, and the data is a free value.

13 R369, R370, R372, R375, R376, R378: a terminal write. Every hit is logged with its window, bytes, word, data and time, or counted as lost when 256
entries wait; only a plain word of a window with WTHRU takes the written bytes; a byte written by firmware in the same cycle keeps the
firmware value; a firmware read of that word returns a free half, with BNKBSY and LWBUSY. Without a hit nothing changes. A write during which the read strobe is low as well is not taken and not logged
(17 R467).

13 R379; 17 R467: the terminal's bus reset. At the rise the Window stops and releases its outputs; the record appends an entry of kind 0b01 with the
time base of the rise and sets LRST; after the fall it answers again. Mirror, types and FIFOs are kept. That LRESET_FALL without a record
leaves none, and that the field of the last firmware read is kept, is the model's reading (log entry 49). While the device is held in reset the
Window's clock stands still (16 R443). -/
def Obligations.LegacyBus : Prop :=
  (∀ (s : State) (la : BitVec 20) (bheN : Bool) (n : Fin 8) (k : Fin 16) (e : W16) (rest : List W16) (pairValue : W32),
     s.inReset = false →
     let cfg := fun (x : Fin 8) => s.reg (devReg 0x30 (0x40 + 4 * x.val))
     let on := (s.reg (devReg 0x30 0)).getLsbD 0 = true ∧ s.window.lreset = false
     let hits := fun (x : Fin 8) => (cfg x).getLsbD 31 = true ∧ (cfg x).toNat % 2 ^ 11 = la.toNat / 512
     let hit := on ∧ hits n ∧ ∀ x, x < n → ¬hits x
     let lo := !la.getLsbD 0
     let hi := !bheN
     let i := la.toNat % 512 / 2
     let pair : Fin 128 := Fin.ofNat 128 (i / 2)
     let mir := devReg 0x30 (0x1000 + 0x200 * n.val + 4 * (i / 2))
     let word : W16 := (s.reg mir).extractLsb' (16 * (i % 2)) 16
     let type : Byte := (s.reg (devReg 0x30 (0x4000 + 0x100 * n.val + 4 * (i / 4)))).extractLsb' (8 * (i % 4)) 8
     let drive := fun (s : State) (w : W16) (busy : Bool) => ({ s with
       window := { s.window with
         out := { low := if lo then some (w.setWidth 8) else none
                  high := if hi then some (w.extractLsb' 8 8) else none
                  bnkbsy := busy
                  lselN := false } } } : State)
     let fifo := fun (s : State) (F : WinFifo) => ({ s with window := { s.window with fifos := s.window.fifos.set k F } } : State)
     let select := fun (j : Nat) => (s.reg (devReg 0x30 (0x200 + 0x10 * (type.toNat % 8) + 4 * (j / 4)))).extractLsb' (8 * (j % 4)) 8
     let notices := if (s.reg (devReg 0x30 0)).getLsbD 2 then s.notices ++ [Notice.lane .bus] else s.notices
     let cleared : W32 := ((if lo then 0xFF else 0) ||| (if hi then 0xFF00 else 0)) <<< (16 * (i % 2))
     ((¬on ∨ (∀ x, ¬hits x) ∨ (lo = false ∧ hi = false)) →
       exec (.legacyRead la bheN .none) s = .next { s with window := { s.window with out := {} } }) ∧
     (hit → (lo = true ∨ hi = true) →
       (type.toNat / 64 = 0 → exec (.legacyRead la bheN .none) s = .next (drive s word false)) ∧
       (type.toNat / 64 = 1 → Registers.wf s = true →
         ∃ u : State, exec (.legacyRead la bheN .none) s = .next (drive u word false) ∧ u = { s with regs := u.regs } ∧
           u.reg mir = s.reg mir &&& ~~~cleared ∧ ∀ a, a ≠ mir → u.reg a = s.reg a) ∧
       (type.toNat / 64 = 2 → type.toNat % 16 = k.val →
         (lo = true → s.window.fifos[k].entries = e :: rest →
           exec (.legacyRead la bheN .none) s = .next (drive (fifo s ⟨rest, e.extractLsb' 8 8⟩) e false)) ∧
         (lo = true → s.window.fifos[k].entries = [] →
           let v : W16 := (s.reg (devReg 0x30 (0x100 + 4 * k.val))).setWidth 16
           exec (.legacyRead la bheN .none) s = .next (drive (fifo s ⟨[], v.extractLsb' 8 8⟩) v false)) ∧
         (lo = false → exec (.legacyRead la bheN .none) s = .next (drive s (s.window.fifos[k].latch.setWidth 16 <<< 8) false))) ∧
       (type.toNat / 64 = 3 → ∃ v : W16, exec (.legacyRead la bheN .none) s = .next (drive s v false) ∧
         ∀ j < 16, ∀ d : Fin 8,
           ((select j).toNat % 128 = 0 → v.getLsbD j = (word.getLsbD j != (select j).getLsbD 7)) ∧
           ((select j).toNat % 128 = 1 → v.getLsbD j = (select j).getLsbD 7) ∧
           ((select j).toNat % 128 = 0x10 + k.val → v.getLsbD j = (!s.window.fifos[k].entries.isEmpty != (select j).getLsbD 7)) ∧
           ((select j).toNat % 128 = 0x20 + d.val →
             v.getLsbD j = ((s.reg (devReg 0x33 (0x104 + 0x10 * d.val))).getLsbD 30 != (select j).getLsbD 7)) ∧
           ((select j).toNat % 128 = 0x28 + d.val →
             v.getLsbD j = ((s.reg (devReg 0x33 (0x104 + 0x10 * d.val))).getLsbD 31 != (select j).getLsbD 7)) ∧
           ((select j).toNat % 128 = 0x30 + k.val →
             v.getLsbD j = (!s.serial[(Fin.ofNat 20 k.val)].rx.isEmpty != (select j).getLsbD 7))) ∧
       (type.toNat / 64 ≤ 1 → Registers.wf s = true →
         ∃ u : State, exec (.legacyRead la bheN (.mirror n pair pairValue)) s =
             .next (drive { s with regs := u.regs, freeCount := s.freeCount + 1, notices := notices } ((Config.freeWord s.freeCount).setWidth 16) true) ∧
           u.reg mir = pairValue ∧ (u.reg (devReg 0x30 4)) = s.reg (devReg 0x30 4) ||| 1 ∧
           u.reg (devReg 0x30 8) = s.reg (devReg 0x30 8) + 1 ∧
           ∀ a, a ≠ mir → a ≠ devReg 0x30 4 → a ≠ devReg 0x30 8 → u.reg a = s.reg a))) ∧
  (∀ (s : State) (la : BitVec 20) (bheN : Bool) (data : W16) (n : Fin 8) (pairValue : W32),
     s.inReset = false →
     let cfg := fun (x : Fin 8) => s.reg (devReg 0x30 (0x40 + 4 * x.val))
     let on := (s.reg (devReg 0x30 0)).getLsbD 0 = true ∧ s.window.lreset = false
     let hits := fun (x : Fin 8) => (cfg x).getLsbD 31 = true ∧ (cfg x).toNat % 2 ^ 11 = la.toNat / 512
     let hit := on ∧ hits n ∧ ∀ x, x < n → ¬hits x
     let lo := !la.getLsbD 0
     let hi := !bheN
     let i := la.toNat % 512 / 2
     let pair : Fin 128 := Fin.ofNat 128 (i / 2)
     let mir := devReg 0x30 (0x1000 + 0x200 * n.val + 4 * (i / 2))
     let type : Byte := (s.reg (devReg 0x30 (0x4000 + 0x100 * n.val + 4 * (i / 4)))).extractLsb' (8 * (i % 4)) 8
     let through := type.toNat / 64 = 0 ∧ (cfg n).getLsbD 27 = true
     let mask : W16 := (if lo then 0xFF else 0) ||| (if hi then 0xFF00 else 0)
     let mask32 : W32 := mask.setWidth 32 <<< (16 * (i % 2))
     let data32 : W32 := (data &&& mask).setWidth 32 <<< (16 * (i % 2))
     let entry : W32 × W32 :=
       (BitVec.ofNat 32 (n.val * 2 ^ 27 + (if hi then 2 ^ 26 else 0) + (if lo then 2 ^ 25 else 0) + i * 2 ^ 16 + (data &&& mask).toNat),
         0x80000000 ||| (s.timeBase.extractLsb' 8 31).setWidth 32)
     let W := s.window
     let logged := fun (busy : Bool) =>
       ({ (if 256 ≤ W.log.length then { W with lost := if W.lost = 0xFFFF then 0xFFFF else W.lost + 1 }
           else { W with log := W.log ++ [entry] }) with
         out := { low := none, high := none, bnkbsy := busy, lselN := false } } : WinState)
     let logNotice := if W.log.length < 256 ∧ (s.reg (devReg 0x30 0)).getLsbD 1 = true then [Notice.lane .bus] else []
     let collNotice := if (s.reg (devReg 0x30 0)).getLsbD 2 then [Notice.lane .bus] else []
     exec (.legacyWrite la ⟨bheN, true⟩ data .none) s = .next s ∧
     exec (.legacyWrite la ⟨bheN, true⟩ data (.mirror n pair pairValue)) s =
       .next (s.setReg (devReg 0x30 (0x1000 + 0x200 * n.val + 4 * pair.val)) pairValue) ∧
     ((¬on ∨ (∀ x, ¬hits x) ∨ (lo = false ∧ hi = false)) →
       exec (.legacyWrite la ⟨bheN, false⟩ data .none) s = .next { s with window := { s.window with out := {} } }) ∧
     (hit → (lo = true ∨ hi = true) →
       (¬through → exec (.legacyWrite la ⟨bheN, false⟩ data .none) s = .next { s with window := logged false, notices := s.notices ++ logNotice }) ∧
       (through → Registers.wf s = true →
         (∃ u, exec (.legacyWrite la ⟨bheN, false⟩ data .none) s = .next u ∧ u = { s with regs := u.regs, window := logged false, notices := s.notices ++ logNotice } ∧
           u.reg mir = (s.reg mir &&& ~~~mask32) ||| data32 ∧ ∀ a, a ≠ mir → u.reg a = s.reg a) ∧
         (∃ u, exec (.legacyWrite la ⟨bheN, false⟩ data (.mirror n pair pairValue)) s = .next u ∧
           u = { s with regs := u.regs, window := logged false, notices := s.notices ++ logNotice } ∧ u.reg mir = pairValue ∧ ∀ a, a ≠ mir → u.reg a = s.reg a) ∧
         (∃ (u : State) (v : W32), exec (.legacyWrite la ⟨bheN, false⟩ data (.read n pair)) s = .next u ∧
             u = { s with
               notices := s.notices ++ collNotice ++ logNotice
               regs := u.regs
               freeCount := s.freeCount + 1
               window := { logged true with fwRead := some v } } ∧
             v.extractLsb' (16 * (i % 2)) 16 = (Config.freeWord s.freeCount).setWidth 16 ∧
             v.extractLsb' (16 * ((i + 1) % 2)) 16 = (s.reg mir).extractLsb' (16 * ((i + 1) % 2)) 16 ∧
             u.reg mir = (s.reg mir &&& ~~~mask32) ||| data32 ∧ u.reg (devReg 0x30 4) = s.reg (devReg 0x30 4) ||| 2 ∧
             ∀ a, a ≠ mir → a ≠ devReg 0x30 4 → u.reg a = s.reg a)))) ∧
  (∀ (s : State) (tb : W64),
     let W := s.window
     let put := fun (W : WinState) => ({ s with window := W } : State)
     (W.lreset = false → exec .lresetRise s =
       .next (put { W with lreset := true, rise := if s.inReset then none else some s.timeBase, out := {} })) ∧
     (W.lreset = true → exec .lresetRise s = .next s) ∧
     (W.rise = none → exec .lresetRecord s = .next s) ∧
     (W.rise = some tb → W.log.length < 256 →
       let t := put { W with
         rise := none
         log := W.log ++ [(0x40000000, 0x80000000 ||| (tb.extractLsb' 8 31).setWidth 32)] }
       ((s.reg (devReg 0x30 0)).getLsbD 1 = false → exec .lresetRecord s = .next (t.setFlag (devReg 0x30 4) 3)) ∧
       ((s.reg (devReg 0x30 0)).getLsbD 1 = true →
         exec .lresetRecord s = .next { t.setFlag (devReg 0x30 4) 3 with notices := s.notices ++ [Notice.lane .bus] })) ∧
     (W.rise = some tb → 256 ≤ W.log.length → W.lost ≠ 0xFFFF →
       exec .lresetRecord s = .next ((put { W with rise := none, lost := W.lost + 1 }).setFlag (devReg 0x30 4) 3)) ∧
     exec .lresetFall s = .next (put { W with lreset := false, rise := none }))

/-- 13 R372, R373, R375, R376, R380, R393, R395: the firmware side, for the Hall, and for a station's queue engine as far as MX_PQEs opens the block and its
station owns the window. A mirror write stores both words, SET ors and CLR clears them; a push appends to the FIFO or, at 64 entries, is
discarded and sets OVF; CLR empties FIFO and latch; only the Hall here writes types; a pop of the log gives its HI word and, with entries
lost, appends the loss marker to the entries left and sets LOGOVF. That the marker is appended at the pop, with the time of the pop, is the
model's reading (log entry 49). While the device is held in reset nothing is written (16 R443). -/
def Obligations.WindowFirmware : Prop :=
  ∀ (s : State) (m : Master) (st : Stn) (n : Fin 8) (pair : Fin 128) (q : Fin 64) (k : Fin 16) (v : W32) (e : W32 × W32) (rest : List (W32 × W32)),
    let cfg := s.reg (devReg 0x30 (0x40 + 4 * n.val))
    let mir := devReg 0x30 (0x1000 + 0x200 * n.val + 4 * pair.val)
    let open_ := (s.reg (mxReg (0x200 + 4 * st.val))).getLsbD 4
    let may := m = 0 ∨ (m.val = 1 + st.val ∧ open_ = true ∧ cfg.toNat / 2 ^ 28 % 8 = st.val)
    let fifoWin := (s.reg (devReg 0x30 (0x100 + 4 * k.val))).toNat / 2 ^ 16 % 8
    let fifoOwn := (s.reg (devReg 0x30 (0x40 + 4 * fifoWin))).toNat / 2 ^ 28 % 8 = st.val
    let mayPush := m = 0 ∨ (m.val = 1 + st.val ∧ open_ = true ∧ fifoOwn)
    let F := s.window.fifos[k]
    let fifo := fun (s : State) (F : WinFifo) => ({ s with window := { s.window with fifos := s.window.fifos.set k F } } : State)
    let marker : W32 × W32 := (0x80000000 ||| s.window.lost.setWidth 32, 0x80000000 ||| (s.timeBase.extractLsb' 8 31).setWidth 32)
    (s.inReset = true → ∀ c ∈ [Instr.mirrorWrite m n pair v, .setAliasWrite m n pair v, .clrAliasWrite m n pair v, .fifoClr m k, .logPop],
      exec c s = .next s) ∧ (s.inReset = false →
    (may →
      exec (.mirrorWrite m n pair v) s = .next (s.setReg mir v) ∧
      exec (.setAliasWrite m n pair v) s = .next (s.setReg mir (s.reg mir ||| v)) ∧
      exec (.clrAliasWrite m n pair v) s = .next (s.setReg mir (s.reg mir &&& ~~~v))) ∧
    (m.val = 1 + st.val → ¬may →
      ∀ c ∈ [Instr.mirrorWrite m n pair v, .setAliasWrite m n pair v, .clrAliasWrite m n pair v], exec c s = .next s) ∧
    (v &&& 0x30303030 = 0 → exec (.typeWrite 0 n q v) s = .next (s.noted.setReg (devReg 0x30 (0x4000 + 0x100 * n.val + 4 * q.val)) v)) ∧
    (m.val = 1 + st.val → exec (.typeWrite m n q v) s = .next s.noted) ∧
    (mayPush →
      exec (.fifoClr m k) s = .next (fifo s {}) ∧
      (v.toNat < 2 ^ 16 → F.entries.length < 64 →
        exec (.fifoPush m k v) s = .next (fifo s.noted { F with entries := F.entries ++ [v.setWidth 16] })) ∧
      (v.toNat < 2 ^ 16 → 64 ≤ F.entries.length → exec (.fifoPush m k v) s = .next (s.noted.setFlag (devReg 0x30 (0xC0 + 4 * k.val)) 7))) ∧
    (m.val = 1 + st.val → ¬mayPush → exec (.fifoClr m k) s = .next s ∧ exec (.fifoPush m k v) s = .next s.noted) ∧
    (s.window.log = [] → exec .logPop s = .next { s with window := { s.window with fwRead := some 0 } }) ∧
    (s.window.log = e :: rest → s.window.lost = 0 →
      exec .logPop s = .next { s with window := { s.window with log := rest, fwRead := some e.2 } }) ∧
    (s.window.log = e :: rest → s.window.lost ≠ 0 → rest.length < 256 →
      exec .logPop s = .next ({ s with
        notices := if (s.reg (devReg 0x30 0)).getLsbD 1 then s.notices ++ [Notice.lane .bus] else s.notices
        window := { s.window with log := rest ++ [marker], lost := 0, fwRead := some e.2 } }.setFlag (devReg 0x30 4) 2)))

/-- 13 R383, R385, R386: what the line does to a port. A character received is kept with its errors, or sets OVR at 64 characters; a disabled port
and an RS-485 port that drives the line without ECHO receive nothing. The end of a character starts the next one unless AUTOCTS or a break
holds it; RXTO, the modem lines and DE follow their events. AUTORTS raises RTS_N at 56 characters. A condition that comes to hold sends one notice.

13 R386, R393, R395: the firmware side of a port, for the Hall and, where MX_PQEs opens the block, for the queue engine of the owning station. A read of
DATA pops the oldest character with its errors and VALID, and reads 0 when there is none; a write pushes a character of 5 + BITS bits, which is
sent at once when the transmitter is free and no break holds it, and sets TXOVF at 64 characters.

That PE is kept for PAR 1 to 4 alone, that OVR alone is set at a full FIFO, when the transmitter starts and that BRK holds it are the model's
reading and choice (log entry 52). While the device is held in reset the modem lines are seen without an event (16 R443). -/
def Obligations.SerialPorts : Prop :=
  (∀ (s : State) (p : Fin 20) (n : Fin 4) (c : RxChar) (b : Byte) (tx : List Byte) (lines : BitVec 4),
     let base := 0x100 + 0x40 * p.val
     let ctrl := s.reg (devReg 0x31 base)
     let stat := devReg 0x31 (base + 0xC)
     let ien := s.reg (devReg 0x31 (base + 0x10))
     let P := s.serial[p]
     let pend := fun (s : State) =>
       (ien.getLsbD 9 = true ∧ max 1 (ien.toNat / 2 ^ 24 % 64) ≤ s.serial[p].rx.length) ∨
       (ien.getLsbD 8 = true ∧ s.serial[p].tx.length ≤ ien.toNat / 2 ^ 16 % 64) ∨ ien &&& s.reg stat &&& 0xFE ≠ 0
     let becomes := fun (u : State) (Q : SerPort) (flags : W32) =>
       u = { s with regs := u.regs, serial := s.serial.set p Q, notices := u.notices } ∧
       u.reg stat = s.reg stat ||| flags ∧ (∀ a, a ≠ stat → u.reg a = s.reg a) ∧
       (pend u → ¬pend s → u.notices = s.notices ++ [Notice.lane (.serial p)]) ∧ ((¬pend u ∨ pend s) → u.notices = s.notices)
     let rs485 := 16 ≤ p.val
     let kept : RxChar := ⟨BitVec.ofNat 8 (c.char.toNat % 2 ^ (5 + ctrl.toNat / 2 ^ 17 % 4)),
       c.pe && decide (1 ≤ ctrl.toNat / 2 ^ 19 % 8 ∧ ctrl.toNat / 2 ^ 19 % 8 ≤ 4), c.fe, c.brk⟩
     let count := P.rx.length + 1
     let starts := fun (Q : SerPort) => { Q with sending := some b, tx := tx, de := Q.de || decide rs485 }
     let q : Fin 20 := Fin.ofNat 20 (16 + n.val)
     let free := ctrl.getLsbD 23 = false ∧ (ctrl.getLsbD 27 = false ∨ rs485 ∨ P.lines.getLsbD 0 = true)
     (s.inReset = true → ¬rs485 → exec (.modemChange p lines) s = .next { s with serial := s.serial.set p { P with lines := lines } }) ∧
     (s.inReset = false → Registers.wf s = true →
     ((ctrl.getLsbD 28 = false ∨ (rs485 ∧ P.de = true ∧ ctrl.getLsbD 25 = false)) → exec (.serialRxChar p c) s = .next s) ∧
     (ctrl.getLsbD 28 = true → (¬rs485 ∨ P.de = false ∨ ctrl.getLsbD 25 = true) →
       (P.rx.length < 64 → ∃ u, exec (.serialRxChar p c) s = .next u ∧
         becomes u { P with rx := P.rx ++ [kept], rtsHigh := if 56 ≤ count then true else if count ≤ 32 then false else P.rtsHigh }
           ((if kept.pe then 8 else 0) ||| (if c.fe then 16 else 0) ||| (if c.brk then 32 else 0))) ∧
       (64 ≤ P.rx.length → ∃ u, exec (.serialRxChar p c) s = .next u ∧ becomes u P 4)) ∧
     (P.tx = [] → ∃ u, exec (.serialTxChar p) s = .next u ∧ becomes u { P with sending := none } 0) ∧
     (P.tx = b :: tx → ctrl.getLsbD 28 = true → free →
       ∃ u, exec (.serialTxChar p) s = .next u ∧ becomes u (starts P) 0) ∧
     (P.tx = b :: tx → (ctrl.getLsbD 28 = false ∨ ¬free) →
       ∃ u, exec (.serialTxChar p) s = .next u ∧ becomes u { P with sending := none } 0) ∧
     (P.rx = [] → exec (.rxTimeout p) s = .next s) ∧
     (P.rx ≠ [] → ∃ u, exec (.rxTimeout p) s = .next u ∧ becomes u P 0x40) ∧
     ((rs485 ∨ P.lines = lines) → exec (.modemChange p lines) s = .next s) ∧
     (¬rs485 → P.lines ≠ lines → P.tx = [] → ∃ u, exec (.modemChange p lines) s = .next u ∧ becomes u { P with lines := lines } 0x80) ∧
     (¬rs485 → P.lines ≠ lines → P.tx = b :: tx → P.sending = none → ctrl.getLsbD 28 = true → ctrl.getLsbD 23 = false → lines.getLsbD 0 = true →
       ∃ u, exec (.modemChange p lines) s = .next u ∧ becomes u (starts { P with lines := lines }) 0x80) ∧
     exec (.deRelease n) s = .next (if s.serial[q].tx = [] ∧ s.serial[q].sending = none then
       { s with serial := s.serial.set q { s.serial[q] with de := false } } else s))) ∧
  (∀ (s : State) (m : Master) (st : Stn) (p : Fin 20) (c : RxChar) (rx : List RxChar) (v : W32),
     let base := 0x100 + 0x40 * p.val
     let ctrl := s.reg (devReg 0x31 base)
     let P := s.serial[p]
     let may := m = 0 ∨ (m.val = 1 + st.val ∧ (s.reg (mxReg (0x200 + 4 * st.val))).getLsbD 1 = true ∧ ctrl.toNat / 2 ^ 29 = st.val)
     let char : Byte := BitVec.ofNat 8 (v.toNat % 2 ^ (5 + ctrl.toNat / 2 ^ 17 % 4))
     let put := fun (s : State) (Q : SerPort) => ({ s with serial := s.serial.set p Q } : State)
     let gives := fun (s : State) (w : W32) => ({ s with window := { s.window with fwRead := some w } } : State)
     s.inReset = false → s.reg (devReg 0x31 (base + 0x10)) &&& 0x3FE = 0 →
     (may →
       (P.rx = [] → P.rtsHigh = false → exec (.serDataRead m p) s = .next (gives s 0)) ∧
       (P.rx = c :: rx → exec (.serDataRead m p) s = .next (gives (put s { P with
           rx := rx
           rtsHigh := if 56 ≤ rx.length then true else if rx.length ≤ 32 then false else P.rtsHigh })
         (BitVec.ofNat 32 (2 ^ 31 + (if c.brk then 1024 else 0) + (if c.fe then 512 else 0) + (if c.pe then 256 else 0) + c.char.toNat)))) ∧
       (v.toNat < 256 →
         (ctrl.getLsbD 28 = false → exec (.serDataWrite m p v) s = .next s.noted) ∧
         (ctrl.getLsbD 28 = true → 64 ≤ P.tx.length →
           exec (.serDataWrite m p v) s = .next (s.noted.setFlag (devReg 0x31 (base + 0xC)) 1)) ∧
         (ctrl.getLsbD 28 = true → P.tx.length < 64 → P.sending ≠ none →
           exec (.serDataWrite m p v) s = .next (put s.noted { P with tx := P.tx ++ [char] })) ∧
         (ctrl.getLsbD 28 = true → P.tx.length < 64 → ctrl.getLsbD 23 = true →
           exec (.serDataWrite m p v) s = .next (put s.noted { P with tx := P.tx ++ [char] })) ∧
         (ctrl.getLsbD 28 = true → P.tx = [] → P.sending = none → ctrl.getLsbD 23 = false →
           (ctrl.getLsbD 27 = false ∨ 16 ≤ p.val ∨ P.lines.getLsbD 0 = true) →
           exec (.serDataWrite m p v) s = .next (put s.noted { P with sending := some char, de := P.de || decide (16 ≤ p.val) })))) ∧
     (m.val = 1 + st.val → ¬may → exec (.serDataRead m p) s = .next s ∧ exec (.serDataWrite m p v) s = .next s.noted))

/-- 13 R388, R389: transfers of a pipe. GO starts a transfer or ends it at once with the reason it is refused, and is ignored while one is active; an abort
ends it with RES 7. An IN transfer stores what arrived and ends, short if bytes are missing; whole packets of one that goes on are stored and counted; an OUT transfer counts what is acknowledged and
ends with its last byte; neither takes an outcome of the other direction; a poll of an interrupt pipe moves one packet and ends the transfer when it is complete; errors end it with their code; the toggle follows the packets; the end sets
PDONE and sends the notice PIEN asks for. The order of the reasons, and RES 7 without EN, RES 4 without an enabled port and RES 6 for a size outside 1 to
1024 are the model's choice (log entry 50). While the device is held in reset nothing happens at a group (16 R443).

13 R389: the ports of a group. A reset that ends with a device of a known speed enables the port at that speed and ends a suspension, and nothing is enabled
otherwise; suspend needs an enabled port; attach and detach change CONN, a detach also disables the port and ends its active pipes with RES 4; an
overcurrent reports OC and takes the power. That a detach ends active pipes with RES 4, that an error outcome carries no data and that an
outcome of the other direction changes nothing are the model's reading (log entry 50). A change of CONN, ENA or OC sets CHG with the notice PCIEN asks for. -/
def Obligations.UsbGroups : Prop :=
  (∀ (s : State) (g : Fin 4) (p : Fin 16) (fits : Bool) (bytes : List Byte) (count : Nat),
     let base := 0x4000 * g.val
     let pipe := fun (off : Nat) => devReg 0x32 (base + 0x100 + 0x20 * p.val + off)
     let cfg := s.reg (pipe 0)
     let buf := s.reg (pipe 8)
     let ctrl := s.reg (pipe 0xC)
     let stat := pipe 0x10
     let gstat := devReg 0x32 (base + 4)
     let state := (s.reg stat).toNat / 2 ^ 28
     let type := cfg.toNat / 2 ^ 30
     let mps := cfg.toNat % 2 ^ 11
     let len := buf.toNat / 2 ^ 16
     let off := buf.toNat / 8 % 2 ^ 10 * 8
     let port := s.reg (devReg 0x32 (base + 0x10 + 0x10 * (cfg.toNat / 2 ^ 25 % 4)))
     let moved := s.usb[g].moved[p]
     let move := fun (n : Nat) => s.usb.set g { s.usb[g] with moved := s.usb[g].moved.set p n }
     let buffer := fun (i : Nat) => devReg 0x32 (base + 0x2000 + i / 4 * 4)
     let bufByte := fun (s : State) (i : Nat) => (s.reg (buffer i)).extractLsb' (8 * (i % 4)) 8
     let toggled := fun (u : State) (packets : Nat) =>
       u.reg (pipe 0xC) = if packets % 2 = 1 ∧ type ≠ 0 then ctrl ^^^ 0x20000000 else ctrl
     let ends := fun (u : State) (state res n : Nat) (short : Bool) =>
       u.reg stat = BitVec.ofNat 32 (state * 2 ^ 28 + res * 2 ^ 24 + (if short then 2 ^ 23 else 0) + n) ∧
       u.reg gstat = s.reg gstat ||| ((0x10000 : W32) <<< p.val) ∧
       u = { s with
         regs := u.regs
         usb := move 0
         notices := if (s.reg (devReg 0x32 base)).getLsbD p.val then s.notices ++ [Notice.lane (.usb g)] else s.notices }
     let quiet := fun (u : State) => ∀ a, a ≠ stat → a ≠ gstat → u.reg a = s.reg a
     let good := (s.reg (devReg 0x32 base)).getLsbD 28 = true ∧ type < 3 ∧ cfg.toNat / 2 ^ 27 % 4 ≠ 0 ∧ off + len ≤ 8192 ∧
       (type = 0 → ctrl.getLsbD 28 = true ∧ 8 ≤ len) ∧ 1 ≤ mps ∧ mps ≤ 1024 ∧ port.getLsbD 28 = true
     (s.inReset = true → ∀ o, ∀ c ∈ [Instr.usbPipeGo g p fits, .usbPipeAbort g p, .usbTransferEnd g p o, .usbIntervalPoll g p o],
       exec c s = .next s) ∧ (s.inReset = false → Registers.wf s = true →
     (state = 1 → exec (.usbPipeGo g p fits) s = .next s) ∧
     (state ≠ 1 → good → (type = 2 → fits = true) →
       exec (.usbPipeGo g p fits) s = .next { s.setReg stat 0x10000000 with usb := move 0 }) ∧
     (state ≠ 1 → ∀ res, (res = 7 ∧ (s.reg (devReg 0x32 base)).getLsbD 28 = false) ∨
         ((s.reg (devReg 0x32 base)).getLsbD 28 = true ∧
           ((res = 6 ∧ (type = 3 ∨ cfg.toNat / 2 ^ 27 % 4 = 0 ∨ 8192 < off + len ∨ (type = 0 ∧ ctrl.getLsbD 28 = false))) ∨
           (res = 5 ∧ good ∧ type = 2 ∧ fits = false))) →
       ∃ u, exec (.usbPipeGo g p fits) s = .next u ∧ ends u 3 res 0 false ∧ quiet u) ∧
     (state ≠ 1 → exec (.usbPipeAbort g p) s = .next s ∧ ∀ o, exec (.usbTransferEnd g p o) s = .next s ∧ exec (.usbIntervalPoll g p o) s = .next s) ∧
     (state = 1 → moved < 2 ^ 16 →
       (∃ u, exec (.usbPipeAbort g p) s = .next u ∧ ends u 3 7 moved false ∧ quiet u) ∧
       (∀ x ∈ [(UsbOutcome.stall, 1), (.txErrors, 2), (.babble, 3), (.portGone, 4), (.noBandwidth, 5)],
         (∃ u, exec (.usbTransferEnd g p x.1) s = .next u ∧ ends u 3 x.2 moved false ∧ quiet u) ∧
         (type = 2 → ∃ u, exec (.usbIntervalPoll g p x.1) s = .next u ∧ ends u 3 x.2 moved false ∧ quiet u)) ∧
       (type = 1 → cfg.getLsbD 29 = true → moved = 0 → off + len ≤ 8192 → bytes.length ≤ len → 1 ≤ mps →
         ∃ u, exec (.usbTransferEnd g p (.data bytes)) s = .next u ∧ ends u 2 0 bytes.length (decide (bytes.length < len)) ∧
           toggled u (if bytes.length < len then bytes.length / mps + 1 else max 1 ((len + mps - 1) / mps)) ∧
           (∀ i < 8192, bufByte u i = if off ≤ i ∧ i < off + bytes.length then bytes.getD (i - off) 0 else bufByte s i) ∧
           ∀ a, a ≠ stat → a ≠ gstat → a ≠ pipe 0xC → (∀ i < 8192, a ≠ buffer i) → u.reg a = s.reg a) ∧
       (type ≠ 0 → cfg.getLsbD 29 = false → moved = 0 → 1 ≤ mps →
         (len ≤ count → ∃ u, exec (.usbTransferEnd g p (.acked count)) s = .next u ∧ ends u 2 0 len false ∧
           toggled u (max 1 ((len + mps - 1) / mps)) ∧ ∀ a, a ≠ stat → a ≠ gstat → a ≠ pipe 0xC → u.reg a = s.reg a) ∧
         (count < len → ∃ u, exec (.usbTransferEnd g p (.acked count)) s = .next u ∧
           u = { s with regs := u.regs, usb := move count } ∧ toggled u (max 1 ((count + mps - 1) / mps)) ∧
           ∀ a, a ≠ pipe 0xC → u.reg a = s.reg a)) ∧
       (type ≠ 0 → (cfg.getLsbD 29 = true → exec (.usbTransferEnd g p (.acked count)) s = .next s) ∧
         (cfg.getLsbD 29 = false → exec (.usbTransferEnd g p (.data bytes)) s = .next s)) ∧
       (type = 2 → cfg.getLsbD 29 = true → moved + bytes.length ≤ len → bytes.length ≤ mps → off + len ≤ 8192 →
         ∃ u, exec (.usbIntervalPoll g p (.data bytes)) s = .next u ∧ toggled u 1 ∧
           (∀ i < 8192, bufByte u i = if off + moved ≤ i ∧ i < off + moved + bytes.length then bytes.getD (i - off - moved) 0 else bufByte s i) ∧
           (bytes.length < mps ∨ moved + bytes.length = len → ends u 2 0 (moved + bytes.length) (decide (moved + bytes.length < len))) ∧
           (bytes.length = mps → moved + bytes.length < len →
             u.reg stat = s.reg stat ∧ u = { s with regs := u.regs, usb := move (moved + bytes.length) }) ∧
           ∀ a, a ≠ stat → a ≠ gstat → a ≠ pipe 0xC → (∀ i < 8192, a ≠ buffer i) → u.reg a = s.reg a) ∧
       (type = 1 → cfg.getLsbD 29 = true → off + len ≤ 8192 → moved + bytes.length < len → 1 ≤ mps → bytes.length % mps = 0 →
         ∃ u, exec (.usbTransferEnd g p (.part bytes)) s = .next u ∧ u = { s with regs := u.regs, usb := move (moved + bytes.length) } ∧
           toggled u (bytes.length / mps) ∧
           (∀ i < 8192, bufByte u i = if off + moved ≤ i ∧ i < off + moved + bytes.length then bytes.getD (i - off - moved) 0 else bufByte s i) ∧
           ∀ a, a ≠ pipe 0xC → (∀ i < 8192, a ≠ buffer i) → u.reg a = s.reg a) ∧
       (type = 1 → cfg.getLsbD 29 = true → moved + bytes.length = len → 1 ≤ mps → bytes.length % mps = 0 →
         ∃ u, exec (.usbTransferEnd g p (.part bytes)) s = .next u ∧ ends u 2 0 len false) ∧
       (type ≠ 2 → ∀ o, exec (.usbIntervalPoll g p o) s = .next s)))) ∧
  (∀ (s : State) (g k : Fin 4) (speed : BitVec 2),
     let base := 0x4000 * g.val
     let a := devReg 0x32 (base + 0x10 + 0x10 * k.val)
     let port := s.reg a
     let reset := fun (s : State) (b : Bool) => ({ s with usb := s.usb.set g { s.usb[g] with inReset := s.usb[g].inReset.set k b } } : State)
     let told := fun (s : State) => if (s.reg (devReg 0x32 base)).getLsbD (16 + k.val) then s.notify (.lane (.usb g)) else s
     let ends := s.usb[g].inReset[k] = true
     let active := fun (p : Fin 16) => (s.reg (devReg 0x32 (base + 0x110 + 0x20 * p.val))).toNat / 2 ^ 28 = 1
     (s.inReset = true → ∀ b, ∀ c ∈ [Instr.usbPortReset g k, .usbPortResetEnd g k speed, .usbSuspend g k, .usbResume g k, .usbConnectChange g k b,
       .usbOvercurrent g k], exec c s = .next s) ∧ (s.inReset = false →
     exec (.usbPortReset g k) s = .next (reset s true) ∧
     (¬ends → exec (.usbPortResetEnd g k speed) s = .next s) ∧
     (ends → (port.getLsbD 31 = false ∨ speed = 0) → exec (.usbPortResetEnd g k speed) s = .next (reset s false)) ∧
     (ends → port.getLsbD 31 = true → speed ≠ 0 → Registers.wf s = true →
       (port.getLsbD 28 = true →
         exec (.usbPortResetEnd g k speed) s =
           .next ((reset s false).setReg a ((port &&& 0x87FFFFFF) ||| 0x10000000 ||| (speed.setWidth 32 <<< 29)))) ∧
       (port.getLsbD 28 = false →
         exec (.usbPortResetEnd g k speed) s =
           .next (told ((reset s false).setReg a ((port &&& 0x87FFFFFF) ||| 0x10000080 ||| (speed.setWidth 32 <<< 29)))))) ∧
     (port.getLsbD 28 = true → exec (.usbSuspend g k) s = .next (s.setReg a (port ||| 0x08000000))) ∧
     (port.getLsbD 28 = false → exec (.usbSuspend g k) s = .next s) ∧
     exec (.usbResume g k) s = .next (s.setReg a (port &&& 0xF7FFFFFF)) ∧
     (Registers.wf s = true →
       exec (.usbOvercurrent g k) s = .next (told (s.setReg a ((port ||| 0x04000080) &&& 0xFFFFFFF7))) ∧
       exec (.usbConnectChange g k (port.getLsbD 31)) s = .next s ∧
       (port.getLsbD 31 = false → exec (.usbConnectChange g k true) s = .next (told (s.setReg a (port ||| 0x80000080)))) ∧
       (port.getLsbD 31 = true →
         let t := told (s.setReg a ((port &&& 0x07FFFFFF) ||| 0x80))
         ((∀ p, ¬active p) → exec (.usbConnectChange g k false) s = .next t) ∧
         ∃ u, exec (.usbConnectChange g k false) s = .next u ∧ ∀ p : Fin 16,
           let stat := devReg 0x32 (base + 0x110 + 0x20 * p.val)
           let mine := active p ∧ (s.reg (devReg 0x32 (base + 0x100 + 0x20 * p.val))).toNat / 2 ^ 25 % 4 = k.val
           (mine → u.reg stat = BitVec.ofNat 32 (3 * 2 ^ 28 + 4 * 2 ^ 24 + s.usb[g].moved[p] % 2 ^ 16)) ∧ (¬mine → u.reg stat = s.reg stat)))))

/-- 13 R390 to R396: drawers, GPIO and the forwarding of notices. A FIRE starts a pulse, or sets REFUSED while one runs and until OFFMIN ms have passed; it lasts
WIDTH ms, 0 taken as 1, and its end is kept; a level at a sense pin that has stood for DBN ms of the time
base shows in SENSE and sets RISE or FALL with the notice enabled; an enabled change at an input pin sets its EDGE bit with the notice; SET and CLR change the OUT
bits of the pins the master owns; a write of STN_LIOEV sets interrupt line 5 of the tiles named. OFFMIN and WIDTH on the time base, and a PULSE_END before WIDTH doing nothing, are the
model's reading (log entry 53). While the device is held in reset nothing fires or is set (16 R443), and a station that the grade lacks takes no write (00 R3). -/
def Obligations.DrawersAndPins : Prop :=
  ∀ (s : State) (m : Master) (st : Stn) (n : Fin 8) (i : Fin 32) (level hi : Bool) (v : W32) (e : W64),
    let ctrl := s.reg (devReg 0x33 (0x100 + 0x10 * n.val))
    let stat := devReg 0x33 (0x104 + 0x10 * n.val)
    let out := devReg 0x33 4
    let open_ := (s.reg (mxReg (0x200 + 4 * st.val))).getLsbD 3
    let may := m = 0 ∨ (m.val = 1 + st.val ∧ open_ = true ∧ ctrl.toNat / 2 ^ 29 = st.val)
    let early := s.gio.ended[n] = some e ∧ (s.timeBase - e).toNat < ctrl.toNat / 2 ^ 16 % 256 * 375000
    let lasted := ∀ b, s.gio.began[n] = some b → max 1 (ctrl.toNat / 2 ^ 8 % 256) * 375000 ≤ (s.timeBase - b).toNat
    let pins := fun (b : Bool) => if b then s.gio.pins ||| ((1 : W32) <<< i.val) else s.gio.pins &&& ~~~((1 : W32) <<< i.val)
    let mine : W32 := (List.range 32).foldl (fun w j =>
      if (s.reg (devReg 0x33 0x20)).toNat / 2 ^ (4 * (j / 8)) % 8 = st.val then w ||| ((1 : W32) <<< j) else w) 0
    (s.inReset = true → ∀ c ∈ [Instr.fire m n, .gioSet m v, .gioClr m v], exec c s = .next s) ∧
    (s.inReset = false → may →
      ((s.reg stat).getLsbD 31 = false → (s.gio.ended[n] = none ∨ (s.gio.ended[n] = some e ∧ ¬early)) →
        exec (.fire m n) s = .next { s.setReg stat (s.reg stat ||| 0x80000000) with
          gio := { s.gio with began := s.gio.began.set n (some s.timeBase) } }) ∧
      (((s.reg stat).getLsbD 31 = true ∨ early) → exec (.fire m n) s = .next (s.setReg stat (s.reg stat ||| 4)))) ∧
    (m.val = 1 + st.val → ¬may → exec (.fire m n) s = .next s) ∧
    ((s.reg stat).getLsbD 31 = true → lasted → exec (.pulseEnd n) s =
      .next { s.setReg stat (s.reg stat &&& 0x7FFFFFFF) with gio := { s.gio with ended := s.gio.ended.set n (some s.timeBase) } }) ∧
    (((s.reg stat).getLsbD 31 = false ∨ ¬lasted) → exec (.pulseEnd n) s = .next s) ∧
    (let seen := if s.gio.sense[n] = level then s.gio else
        { s.gio with sense := s.gio.sense.set n level, senseAt := s.gio.senseAt.set n s.timeBase }
     let u := { s with gio := seen }
     let stood := ctrl.toNat / 2 ^ 24 % 32 * 375000 ≤ (s.timeBase - seen.senseAt[n]).toNat
     ((s.inReset = true ∨ (s.reg stat).getLsbD 30 = level ∨ ¬stood) → exec (.drawerSenseChange n level) s = .next u) ∧
     (s.inReset = false → (s.reg stat).getLsbD 30 ≠ level → stood → Registers.wf s = true →
      let t := u.setReg stat (if level then s.reg stat ||| 0x40000001 else (s.reg stat &&& 0xBFFFFFFF) ||| 2)
      exec (.drawerSenseChange n level) s = .next (if ctrl.getLsbD (if level then 1 else 2) then t.notify (.lane (.drawer n)) else t))) ∧
    exec (.gpioEdge i (s.gio.pins.getLsbD i.val)) s = .next s ∧
    (s.gio.pins.getLsbD i.val ≠ level →
      let t := { s with gio := { s.gio with pins := pins level } }
      let seen := (s.reg (devReg 0x33 8)).getLsbD i.val = false ∧ (s.reg (devReg 0x33 (if level then 0x18 else 0x1C))).getLsbD i.val = true
      (seen → exec (.gpioEdge i level) s =
        .next ((t.setReg (devReg 0x33 0x14) (s.reg (devReg 0x33 0x14) ||| ((1 : W32) <<< i.val))).notify (.lane .gpio))) ∧
      (¬seen → exec (.gpioEdge i level) s = .next t)) ∧
    (s.inReset = false →
      exec (.gioSet 0 v) s = .next (s.setReg out (s.reg out ||| v)) ∧ exec (.gioClr 0 v) s = .next (s.setReg out (s.reg out &&& ~~~v))) ∧
    (s.inReset = false → m.val = 1 + st.val →
      (open_ = true → exec (.gioSet m v) s = .next (s.setReg out (s.reg out ||| (v &&& mine))) ∧
        exec (.gioClr m v) s = .next (s.setReg out (s.reg out &&& ~~~(v &&& mine)))) ∧
      (open_ = false → exec (.gioSet m v) s = .next s ∧ exec (.gioClr m v) s = .next s)) ∧
    ((hi = true → v.toNat < 256) → s.fitted st = false → exec (.stnLioevWrite st hi v) s = .next s.noted) ∧
    ((hi = true → v.toNat < 256) → s.fitted st = true →
      ∃ u, exec (.stnLioevWrite st hi v) s = .next u ∧ u = { s.noted with tiles := u.tiles } ∧
        ∀ x t, u.tile x t = if x = st ∧ (decide (32 ≤ t.val) = hi) ∧ v.getLsbD (t.val % 32) = true
          then { s.tile x t with ipend := (s.tile x t).ipend ||| 0x20 } else s.tile x t)

/-! ### Flash, vault and the Hall (14, 15) -/

/-- 14 R397 to R399, R406, R407; 10 R299: operations on the boot partitions. One is refused with RES 1 while the flash works, RES 3 outside the partitions or off its
sector or page, RES 2 in the locked partition; else it runs. An erase sets its sector to FF, a program clears bits of its page and is verified; other flash keeps
its bytes. While a reset waits or is asserted none starts (16 R443, R448). A failed operation ends with RES 4, and its range holds free values. A commit that waited for the operation then begins, or is refused
and answered. That a refusal changes RES alone, and the order of the checks, are the model's choice (log entry 51). -/
def Obligations.BootFlash : Prop :=
  ∀ (s : State) (ok : Bool) (o : Nat),
    let stat := efReg 4
    let addr := (s.reg (efReg 8)).toNat
    let idle := s.flashCtl.work = .idle
    let locked := fun (a : Nat) => a / 0x200000 = (s.reg stat).toNat % 4
    let res := fun (n : Nat) => s.setReg stat ((s.reg stat &&& 0xF0FFFFFF) ||| BitVec.ofNat 32 (n * 2 ^ 24))
    let starts := fun (w : FlashWork) => ({ s.setReg stat (s.reg stat ||| 0x80000000) with flashCtl := { s.flashCtl with work := w } } : State)
    let buffer := (List.range 64).flatMap fun i => leBytes 4 (s.reg (efReg (0x400 + 4 * i))).toNat
    let ended := fun (u : State) (n : Nat) =>
      u.reg stat = ((s.reg stat &&& 0x30FFFFFF) ||| 0x40000000 ||| BitVec.ofNat 32 (n * 2 ^ 24)) ∧ u.flashCtl = { s.flashCtl with work := .idle } ∧
      (∀ a, a ≠ stat → u.reg a = s.reg a) ∧ u.mem = s.mem ∧ u.vault = s.vault
    ((s.core.wants ≠ none ∨ s.inReset = true) → ∀ c ∈ [Instr.flashErase, .flashProgram], exec c s = .next s) ∧
    (Registers.wf s = true → s.core.wants = none → s.inReset = false →
    (∀ x ∈ [(Instr.flashErase, 4096, FlashWork.erase addr), (.flashProgram, 256, .program addr buffer)],
      (¬idle → exec x.1 s = .next (res 1)) ∧
      (idle → (0x400000 ≤ addr ∨ addr % x.2.1 ≠ 0) → exec x.1 s = .next (res 3)) ∧
      (idle → addr < 0x400000 → addr % x.2.1 = 0 → locked addr → exec x.1 s = .next (res 2)) ∧
      (idle → addr < 0x400000 → addr % x.2.1 = 0 → ¬locked addr → exec x.1 s = .next (starts x.2.2))) ∧
    ((idle ∨ (∃ j since b, s.flashCtl.work = .commit j since b) ∨ ∃ r, s.flashCtl.work = .append r) → exec (.bootFlashOpEnd ok) s = .next s) ∧
    (∀ j, s.flashCtl.waits = some j → s.flashCtl.work = .erase o →
      let F := s.flashCtl
      let t := ((({ s.flashErase o 4096 with flashCtl := { F with work := .idle, waits := none } } : State).setFld stat 30 2 1).setFld stat 24 4 0)
      let code := t.commitCheck j
      exec (.bootFlashOpEnd true) s = .next (if code = 0 then
          { t with flashCtl := { F with work := .commit j s.timeBase false, waits := none, counter := F.counter + 1 } }.setFld aPSTAT 14 1 1
        else { (t.setFld aPSTAT 0 4 code).setFld aPSTAT 5 1 1 with
          flashCtl := { F with work := .idle, waits := none, owed := F.owed ++ [(j.asker, code)] }
          notices := s.notices ++ [.pantry j.asker.1] })) ∧
    (s.flashCtl.waits = none → o < 0x400000 → smWf flashReset s.flash = true →
      (s.flashCtl.work = .erase o →
        (∃ u, exec (.bootFlashOpEnd true) s = .next u ∧ ended u 0 ∧
          ∀ a, u.flashByte a = if o ≤ a ∧ a < o + 4096 ∧ ¬(0x400000 ≤ a ∧ a < 0x401000) then 0xFF else s.flashByte a) ∧
        ∃ u, exec (.bootFlashOpEnd false) s = .next u ∧ ended u 4 ∧ u.freeCount = s.freeCount + 4096 ∧
          (∀ i < 4096, o + i < 0x400000 → u.flashByte (o + i) = (Config.freeWord (s.freeCount + i)).setWidth 8) ∧
          ∀ a, ¬(o ≤ a ∧ a < o + 4096) → u.flashByte a = s.flashByte a) ∧
      ∀ bs : List Byte, s.flashCtl.work = .program o bs → bs.length = 256 → o + 256 ≤ 0x400000 →
        (∃ u n, exec (.bootFlashOpEnd true) s = .next u ∧ ended u n ∧
          (n = 0 ↔ ∀ i < 256, u.flashByte (o + i) = bs.getD i 0) ∧ (n = 0 ∨ n = 4) ∧
          ∀ a, u.flashByte a = if o ≤ a ∧ a < o + 256 then s.flashByte a &&& bs.getD (a - o) 0 else s.flashByte a) ∧
        ∃ u, exec (.bootFlashOpEnd false) s = .next u ∧ ended u 4 ∧ u.freeCount = s.freeCount + 256 ∧
          (∀ i < 256, u.flashByte (o + i) = (Config.freeWord (s.freeCount + i)).setWidth 8) ∧
          ∀ a, ¬(o ≤ a ∧ a < o + 256) → u.flashByte a = s.flashByte a))

/-- 14 R411, R412, R414; 16 R440: commands of the vault. Each is taken when none runs, is refused with CMDERR while one does, and is without effect with the clock
gated. Its end clears BUSY, sets DONE and leaves its result: the hash begins, takes GV_LEN bytes, or gives its digest; a signature is the RSA
power of the PSS encoding of the digest with 64 random bytes of salt, under the identity key (R401); a key that is not active ends with 2, a
signature that does not verify with 1; a length beyond the limit with 6; an abort with 5.

14 R412: an AUTH that is cut short leaves the fuses programmed by then, those of a counter one by one, those of an enrolment in its slot, which
then is active or not, and under which modulus, as free values tell. The moment of each fuse is the model's reading (log entry 54).

14 R411, R413, R414: one-way state. Only an AUTH record changes it: a slot goes from empty to active and from active to revoked and never back, a
minimum only rises and never beyond 64, LOCK is never cleared. A record of another device, without its magic, or whose signer is neither the Nialnis key nor an
active slot is refused with 3 and changes nothing; one that would raise a counter that can go no further, with 4: which refusals are 4 is the
model's reading (log entry 54).
The identity key is a constant that the model leaves open (log entry 12). -/
def Obligations.VaultCommands : Prop :=
  (∀ (s : State) (key : Byte) (m : List Byte) (modulus : Nat),
     let reg := fun (off : Nat) => 0x0210000000 + off
     let stat := reg 4
     let len := (s.reg (reg 8)).toNat % 2 ^ 13
     let on := s.gated 8 = false
     let V := s.vault
     let input := fun (n : Nat) => (List.range n).map fun i => (s.reg (reg (0x1000 + i / 4 * 4))).extractLsb' (8 * (i % 4)) 8
     let outByte := fun (u : State) (i : Nat) => (u.reg (reg (0x2000 + i / 4 * 4))).extractLsb' (8 * (i % 4)) 8
     let done := fun (s : State) (n : Nat) => s.setReg stat ((s.reg stat &&& 0x3F00FFFF) ||| 0x40000000 ||| BitVec.ofNat 32 (n * 2 ^ 16))
     let with_ := fun (V : Vault) (n : Nat) => done { s with vault := V } n
     let quiet := fun (u : State) => ∀ a, a ≠ stat → ¬(reg 0x2000 ≤ a ∧ a < reg 0x2800) → u.reg a = s.reg a
     let modulusOf := if key = 0 then some Config.nialnisModulus else
       if key.toNat ≤ 4 ∧ V.slots.toList.getD (key.toNat - 1) .empty = .active then some (V.moduli.toList.getD (key.toNat - 1) 0) else none
     let op := (input 5).getD 4 0
     let arg := ((input 6).getD 5 0).toNat
     let enrolling := leNat ((input 0x210).drop 0x10)
     let salt := (List.range 64).map fun i => (Config.randomWord (V.drawn + i / 8)).extractLsb' (8 * (i % 8)) 8
     let fuses := (2 * (s.timeBase - V.since).toNat - 375000) / 750000
     Registers.wf s = true → s.hall.attest = none →
     (∀ x ∈ [(Instr.hashInit, VaultCmd.hashInit), (.hashUpdate, .hashUpdate), (.hashFinal, .hashFinal), (.verify key, .verify key), (.sign, .sign),
         (.auth, .auth), (.random, .random)],
       (¬on → exec x.1 s = .next s) ∧
       (on → V.cmd ≠ none → exec x.1 s = .next (s.setReg stat (s.reg stat ||| 0x20000000))) ∧
       (on → V.cmd = none → exec x.1 s = .next { s.setReg stat (s.reg stat ||| 0x80000000) with
         vault := { V with cmd := some x.2, since := s.timeBase } })) ∧
     (V.cmd = none → exec .vaultCommandEnd s = .next s) ∧
     (s.hall.run ≠ .firmware → s.headMode = false →
       (V.cmd = none → exec .gvAbort s = .next s) ∧
       (V.cmd ≠ none → (V.cmd ≠ some .auth ∨ s.authResult.2 = none) → exec .gvAbort s = .next (with_ { V with cmd := none } 5)) ∧
       (∀ W, V.cmd = some .auth → s.authResult.2 = some W →
         ((op = 3 ∨ op = 4) → exec .gvAbort s = .next (with_ { V with
           cmd := none, hallMin := min W.hallMin (V.hallMin + fuses), stnMin := min W.stnMin (V.stnMin + fuses) } 5)) ∧
         (op = 1 → fuses ≠ 0 →
           let burnt := V.burnt.toList.getD (arg - 1) 0 + fuses
           exec .gvAbort s = .next (with_ { V with
             cmd := none, burnt := V.burnt.set! (arg - 1) burnt
             slots := if Config.cutActive arg burnt enrolling then V.slots.set! (arg - 1) .active else V.slots
             moduli := V.moduli.set! (arg - 1) (Config.cutModulus arg burnt enrolling) } 5)) ∧
         (op ≠ 3 → op ≠ 4 → fuses = 0 → exec .gvAbort s = .next (with_ { V with cmd := none } 5)) ∧
         (op ≠ 1 → op ≠ 3 → op ≠ 4 → fuses ≠ 0 → exec .gvAbort s = .next (with_ { W with cmd := none } 5)))) ∧
     (V.cmd = some .hashInit → exec .vaultCommandEnd s = .next (with_ { V with cmd := none, hash := some [] } 0)) ∧
     (V.cmd = some .hashUpdate →
       (4096 < len → exec .vaultCommandEnd s = .next (with_ { V with cmd := none } 6)) ∧
       (len ≤ 4096 → V.hash = some m →
         exec .vaultCommandEnd s = .next (with_ { V with cmd := none, hash := some (m ++ input len) } 0))) ∧
     (V.cmd = some .hashFinal → V.hash = some m →
       ∃ u, exec .vaultCommandEnd s = .next u ∧ u.vault = { V with cmd := none, hash := none } ∧ u.reg stat = (done s 0).reg stat ∧
         (∀ i < 64, outByte u i = (sha512 m).getD i 0) ∧ quiet u ∧ u = { s with regs := u.regs, vault := u.vault }) ∧
     (V.cmd = some (.verify key) →
       (modulusOf = none → exec .vaultCommandEnd s = .next (with_ { V with cmd := none } 2)) ∧
       (modulusOf = some modulus →
         let sig := beNat ((List.range 512).map fun i => (s.reg (reg (0x1040 + i / 4 * 4))).extractLsb' (8 * (i % 4)) 8)
         exec .vaultCommandEnd s = .next (with_ { V with cmd := none }
           (if sig < modulus ∧ pssOk (beBytes 512 (sig ^ 65537 % modulus)) (input 64) = true then 0 else 1)))) ∧
     (V.cmd = some .sign →
       ∃ u, exec .vaultCommandEnd s = .next u ∧ u.vault = { V with cmd := none, drawn := V.drawn + 8 } ∧ u.reg stat = (done s 0).reg stat ∧
         (∀ i < 512, outByte u i = (beBytes 512 (powMod Config.identityModulus.toNat 4096 (beNat (pssEncode (input 64) salt))
           Config.identityExponent.toNat)).getD i 0) ∧ quiet u ∧
         u = { s with regs := u.regs, vault := u.vault }) ∧
     (V.cmd = some .random →
       (2048 < len → exec .vaultCommandEnd s = .next (with_ { V with cmd := none } 6)) ∧
       (len ≤ 2048 → ∃ u, exec .vaultCommandEnd s = .next u ∧ u.vault = { V with cmd := none, drawn := V.drawn + (len + 7) / 8 } ∧
         u.reg stat = (done s 0).reg stat ∧
         (∀ i < 2048, outByte u i = if i < len then (Config.randomWord (V.drawn + i / 8)).extractLsb' (8 * (i % 8)) 8 else outByte s i) ∧
         quiet u ∧ u = { s with regs := u.regs, vault := u.vault }))) ∧
  (∀ (s u : State) (k : Fin 4),
     let reg := fun (off : Nat) => 0x0210000000 + off
     let le := fun (o n : Nat) => leNat ((List.range n).map fun i => (s.reg (reg (0x1000 + (o + i) / 4 * 4))).extractLsb' (8 * ((o + i) % 4)) 8)
     let signer := le 6 1
     let rank := fun (x : SlotState) => match x with
       | .empty => 0
       | .active => 1
       | .revoked => 2
     let stat := reg 4
     (s.vault.hallMin ≤ 64 → s.vault.stnMin ≤ 64 → exec .vaultCommandEnd s = .next u →
       rank s.vault.slots[k] ≤ rank u.vault.slots[k] ∧ (s.vault.slots[k] = u.vault.slots[k] ∨ s.vault.cmd = some .auth) ∧
       (s.vault.slots[k] ≠ .empty → u.vault.moduli[k] = s.vault.moduli[k]) ∧
       s.vault.hallMin ≤ u.vault.hallMin ∧ u.vault.hallMin ≤ 64 ∧ s.vault.stnMin ≤ u.vault.stnMin ∧ u.vault.stnMin ≤ 64 ∧
       (s.vault.lock = true → u.vault.lock = true)) ∧
     (s.vault.cmd = some .auth → s.hall.attest = none → Registers.wf s = true →
       (le 0 4 ≠ 0x5541444E ∨ le 8 8 ≠ Config.serial.toNat ∨ 4 < signer ∨
         (1 ≤ signer ∧ signer ≤ 4 ∧ s.vault.slots.toList.getD (signer - 1) .empty ≠ .active)) →
       exec .vaultCommandEnd s = .next { s.setReg stat ((s.reg stat &&& 0x3F00FFFF) ||| 0x40030000) with vault := { s.vault with cmd := none } }) ∧
     (∀ key, s.vault.cmd = some .auth → s.hall.attest = none → Registers.wf s = true → s.keyModulus signer = some key →
       le 0 4 = 0x5541444E → le 8 8 = Config.serial.toNat →
       rsaVerify key (sha512 (s.gvIn 0 0x210)) (s.gvIn 0x210 512) = true → le 4 1 = 3 → (64 < le 5 1 ∨ s.vault.hallMin = 64) →
       exec .vaultCommandEnd s = .next { s.setReg stat ((s.reg stat &&& 0x3F00FFFF) ||| 0x40040000) with vault := { s.vault with cmd := none } }))

/-- 15 R419, R421, R423, R425, R428: notices. Without firmware, or without such a notice, nothing happens. The firmware takes the notice, logs it and acts: a tile
lost or failed restarts in place; the second time within 24 h its position is retired, at once or when the repair under way ends, or, in a column
that has been repaired, the station fails; a failed self-test is logged, and fails the
station where it exhausts the column; after a column repair the column's apertures open, the image CRC is written again and the tile restarts; a line fault with an invalid slot restarts the tile; an
uncorrectable word of station memory is only logged, one of Hall SRAM restarts the Hall; a network fault is logged and its flags cleared, with TUE
an entry is rewritten, and with HOLDOV the station restarts in place, after a job of it that is under way. What the 24 h rule counts, the
failing of the station at an exhausting self-test, the restart for a line fault, and the clearing of the network's flags in one command are the
model's reading (log entry 59). A restart completes
where the control section of the staged image for the tile, if it has one, writes no reserved bit. Here with no command waiting for a station; what the firmware
sees of the effect is `hallReact`. -/
def Obligations.HallNotices : Prop :=
  ∀ (s : State) (st : Stn) (t : TileNo) (m : FaultMem) (a : Addr),
    let waits := fun (n : Notice) => n ∈ s.notices
    let fw := s.hall.run = .firmware
    let after := fun (s : State) (n : Notice) => ({ s with notices := s.notices.erase n } : State)
    let z := s.noted
    let lfix := s.reg (tileReg st t 0x220)
    let line := lfix.toNat / 2 ^ 8 % 2 ^ 8
    let again := ∃ tb, s.hall.stns[st].lastFault[t] = some tb ∧ (s.timeBase - tb).toNat < 24 * 3600 * 1000 * 375000
    let body := s.hall.stns[st].body
    let staged := fun (u : State) => ((((u.haltTile st t).copyOf st t).1.fillTile st t).stagedBody st).2.getD []
    let control := fun (u : State) => ∀ x ∈ sections (staged u), x.ty = 3 → x.tile = t.val → ∀ i < 4,
      (leBv 32 (slice (x.bytes (staged u)) (4 * i) 4)).toNat < (if i = 3 then 0x2000 else 0x10000)
    (s.hall.run ≠ .firmware →
      ∀ c ∈ [Instr.tileLostNotice st t, .tileRestartNotice st t, .lineFaultNotice st t, .memFaultNotice m a, .netFaultNotice st],
        exec c s = .next z) ∧
    (¬waits (.tileLost st t) → ¬waits (.imageFailed st t) → ¬waits (.selfTestFailed st t) → exec (.tileLostNotice st t) s = .next z) ∧
    (¬waits (.tileRestart st t) → exec (.tileRestartNotice st t) s = .next z) ∧
    (¬waits (.memFault m a true) → ¬waits (.memFault m a false) → exec (.memFaultNotice m a) s = .next z) ∧
    ((¬waits (.netFault st) ∨ (s.reg (stnReg st 0x418)).getLsbD 30 = true) → exec (.netFaultNotice st) s = .next z) ∧
    ((¬waits (.lineFault st t) ∨ lfix.getLsbD 30 = true) → exec (.lineFaultNotice st t) s = .next z) ∧
    (fw → (∀ x, (s.hallStn x).waiting = []) →
      (waits (.selfTestFailed st t) → ¬waits (.tileLost st t) → ¬waits (.imageFailed st t) →
        let u := (after z (.selfTestFailed st t)).logStopped st t 1
        (s.exhausting st (t.val / 5) = false → exec (.tileLostNotice st t) s = .next (u.hallReact z)) ∧
        (s.exhausting st (t.val / 5) = true → exec (.tileLostNotice st t) s = .next ((u.stnRunFail st).hallReact z))) ∧
      (waits (.tileLost st t) → ¬waits (.imageFailed st t) → ¬waits (.selfTestFailed st t) →
        let u := (after z (.tileLost st t)).modHallStn st fun H => { H with lastFault := H.lastFault.set t (some s.timeBase) }
        (again → s.colState st (t.val / 5) ≠ 0 →
          exec (.tileLostNotice st t) s = .next (((u.logStopped st t 1).stnRunFail st).hallReact z)) ∧
        (again → s.colState st (t.val / 5) = 0 → (s.stn st).repairBusy = true →
          exec (.tileLostNotice st t) s =
            .next (((u.logStopped st t 1).modHallStn st fun H => { H with retiring := H.retiring ++ [t] }).hallReact z)) ∧
        (again → s.colState st (t.val / 5) = 0 → (s.stn st).repairBusy = false →
          exec (.tileLostNotice st t) s =
            .next (((u.logStopped st t 1).stnRepairGo st (BitVec.ofNat 32 (2 ^ 31 + t.val))).hallReact z)) ∧
        (¬again → control (u.logStopped st t 0) → exec (.tileLostNotice st t) s = .next (((u.logStopped st t 0).restartTile st t 0).hallReact z))) ∧
      (waits (.tileRestart st t) →
        let u := after z (.tileRestart st t)
        let v := u.modStn st fun S => { S with closed := S.closed.filter fun x => x.val ≠ t.val / 5 }
        let w := match tileInsns body t with
          | none => v
          | some insn => v.loadImgCrc st t (crcBytes insn)
        let map := (s.reg (stnReg st (0x100 + 4 * (t.val / 5)))).toNat
        let logged := w.hallLog 3 st.val t.val (leBytes 4 (t.val / 5) ++ leBytes 4 map)
        control logged → exec (.tileRestartNotice st t) s = .next ((logged.restartTile st t 3).hallReact z)) ∧
      (waits (.lineFault st t) → lfix.getLsbD 30 = false →
        let u := (after z (.lineFault st t)).slotCrcs st t
        let r := (u.1.fwEnter (slotAddr st t + 256 * line) 256).memRead mHall (slotAddr st t + 256 * line) 256
        let logged := r.1.hallLog 4 st.val t.val [BitVec.ofNat 8 line, 1]
        u.2.1 = false → control logged → exec (.lineFaultNotice st t) s = .next ((logged.restartTile st t 0).hallReact z)) ∧
      (waits (.memFault (.station st) a true) → ¬waits (.memFault (.station st) a false) →
        exec (.memFaultNotice (.station st) a) s = .next
          (((after z (.memFault (.station st) a true)).hallLog 5 st.val 0xFF (leBytes 8 1 ++ leBytes 8 (a.toNat - stnBase st))).hallReact z)) ∧
      (waits (.memFault .hall a true) → ¬waits (.memFault .hall a false) →
        exec (.memFaultNotice .hall a) s = .next
          (((after z (.memFault .hall a true)).hallLog 5 0xFF 0xFF (leBytes 8 2 ++ leBytes 8 (a.toNat - hallMem 0))).warmRestart.hallReact z)) ∧
      (waits (.netFault st) → (s.reg (stnReg st 0x418)).getLsbD 30 = false →
        let w := s.reg (stnReg st 0x404)
        let u := ((after z (.netFault st)).hallLog 6 st.val 0xFF (leBytes 4 w.toNat)).hallReg (stnReg st 0x404) (w &&& 0x12)
        let x := if w.getLsbD 4 then (u.modHallStn st fun H => { H with fixing := true }).fixEntry st else u
        (w.getLsbD 1 = false → exec (.netFaultNotice st) s = .next (x.hallReact z)) ∧
        (w.getLsbD 1 = true →
          (x.stnBusy st = true →
            exec (.netFaultNotice st) s = .next ((x.modHallStn st fun H => { H with restartDue := true }).hallReact z)) ∧
          (x.stnBusy st = false → (x.stn st).run = .running →
            exec (.netFaultNotice st) s = .next ((((x.modHallStn st fun H => { H with restartDue := false }).stnRunStop st).modHallStn st fun H =>
              { H with inPlace := some true }).hallReact z)))))

/-- 15 R429, R430: warm restarts. The Hall loses what it had accepted and its cache, aborts the vault's command, clears banks 0 to 14 of its SRAM and
reloads its firmware from the source of DEV_BOOTSTAT: from the chain it waits in chain boot, from a partition it checks the image and enters it with WARM
set, or waits in chain boot where the check fails; before the remap bit is set the Cellar begins again: that is the model's choice, and what a warm restart drops its reading (log entry 58). A
divergence sets DIV and counts, up to 0xFFFF, first. While the device is held in reset neither happens (16 R443).

15 R433; 12 R357: peer watches. A mailbox word 0x40 arms or disarms the watch of its station. A poll sends ROLE_GET; a reply sets the tag last read and the
count to zero, a missing one, or one with an older epoch than the newest known of its lane, counts; three missing in a row, or a STATE of 2, fail the lane over: the watched station is told, then the own station takes the
lane with the next epoch, and the watch ends; a newer epoch in the watched station's mismatch ends it without taking the lane. A poll before any tag was
read takes nothing over: that is the model's choice (log entry 60). -/
def Obligations.WarmRestartsAndWatches : Prop :=
  (∀ (s : State),
     let stat := devReg 0 0x110
     let src := (s.reg (devReg 0 0x200)).toNat / 64 % 4
     let n := (s.reg stat).toNat / 2 ^ 16
     let dropped := fun (H : Hall) => { H with
       cache := [], attest := none, boot := none
       stns := H.stns.map fun S => { S with
         starting := none, testing := false, stopping := none, inPlace := none, waiting := [], held := [], out := [], sending := none } }
     let remap := (s.reg (mxReg 0)).getLsbD 0
     let bad := s.flashCtl.bad.getLsbD src
     let V := s.verifyImage 1 (s.candidate src)
     (s.inReset = true → exec .wrst s = .next s ∧ exec .lockstepDivergence s = .next s) ∧
     (s.inReset = false → s.vault.cmd = none →
     (s.hall.run = .off → exec .wrst s = .next { s with hall := dropped s.hall }) ∧
     (s.hall.run ≠ .off → remap = false → exec .wrst s = .next { s with hall := dropped s.hall }.cellarBoot) ∧
     (s.hall.run ≠ .off → remap = true → 2 ≤ src → Memory.wf s = true →
       ∃ u, exec .wrst s = .next u ∧ u = { s with hall := { dropped s.hall with run := .chainBoot }, mem := u.mem, ecc := u.ecc } ∧
         ∀ a, u.byte a = if hallMem 0 ≤ a ∧ a < hallMem 0xF0000 then 0 else s.byte a) ∧
     (s.hall.run ≠ .off → remap = true → src < 2 → Memory.wf s = true → Registers.wf s = true →
       ∃ u, exec .wrst s = .next u ∧ u.vault.slots = s.vault.slots ∧ u.vault.cmd = none ∧ u.stns = s.stns ∧ u.tiles = s.tiles ∧
         u.hall.cache = [] ∧ u.flash = s.flash ∧ u.reg (devReg 0 0x200) = s.reg (devReg 0 0x200) ∧
         (bad = false → V.reason = 1 →
           u.hall.run = .firmware ∧ u.hall.measurement = some V.digest ∧
           u.hall.logNext = (s.hall.logNext + 1) % 2 ^ 32 ∧ (u.reg stat).getLsbD 1 = true) ∧
         ((bad = true ∨ V.reason ≠ 1) → u.hall.run = .chainBoot ∧ u.hall.logNext = s.hall.logNext ∧ u.reg stat = s.reg stat)) ∧
     (Registers.wf s = true →
       exec .lockstepDivergence s = exec .wrst
         (s.setReg stat ((s.reg stat &&& 0xFFFE) ||| 1 ||| BitVec.ofNat 32 (min 0xFFFF (n + 1) * 2 ^ 16)))))) ∧
  (∀ (s : State) (st : Stn) (w : BitVec 48) (r : PollReply) (f : FailoverReply) (dev : BitVec 6) (stn : BitVec 2) (tag x : W32) (state : Byte),
     let H := s.hall.stns[st]
     let set := fun (s : State) (H : HallStn) => ({ s with hall := { s.hall with stns := s.hall.stns.set st H } } : State)
     let asked := s.peerCommand dev stn 0x14 0 []
     let ended := { H with watch := none, missed := 0, tag := none }
     let next := fun (tag : W32) => (tag.toNat % 2 ^ 20 + 1) % 2 ^ 20
     let lane := tag.toNat / 2 ^ 20
     let told := fun (s : State) => s.peerCommand dev stn 0x13 tag (leBytes 4 (0xFFF * 2 ^ 20 + next tag) ++ [0xFF])
     (s.hall.run ≠ .firmware → exec (.peerWatchArm st w) s = .next s ∧ exec (.peerWatchPoll st r f) s = .next s) ∧
     (s.hall.run = .firmware → H.watch = none → exec (.peerWatchPoll st r f) s = .next s) ∧
     ((w.toNat / 2 ^ 40 ≠ 0x40 ∨ s.fitted st = false) → exec (.peerWatchArm st w) s = .next s) ∧
     (s.hall.run = .firmware → s.fitted st = true → w.toNat / 2 ^ 40 = 0x40 →
       exec (.peerWatchArm st w) s = .next (set s { H with
         watch := if w.getLsbD 0 then some (w.extractLsb' 16 6, w.extractLsb' 8 2) else none
         missed := 0
         tag := none })) ∧
     (s.hall.run = .firmware → H.watch = some (dev, stn) → asked.hall = s.hall →
       (state ≠ 2 → s.staleTag x = false →
         exec (.peerWatchPoll st (.state state x) f) s = .next (set (asked.learnTag x) { H with missed := 0, tag := some x })) ∧
       ((H.tag = none ∨ H.missed < 2) → s.staleTag x = true →
         exec (.peerWatchPoll st (.state state x) f) s = .next (set asked { H with missed := H.missed + 1 })) ∧
       ((H.tag = none ∨ H.missed < 2) → exec (.peerWatchPoll st .missing f) s = .next (set asked { H with missed := H.missed + 1 })) ∧
       (2 ≤ H.missed → H.tag = some tag →
         let u := told (set asked { H with missed := H.missed + 1 })
         (lane ≠ 0 → (∀ v, f ≠ .mismatch v) →
           let me := s.chAddr.getD 0
           exec (.peerWatchPoll st .missing f) s = .next
             (((u.setRole st (BitVec.ofNat 32 (lane * 2 ^ 20 + next tag)) me 0).hallLog 10 st.val 0xFF
               [dev.setWidth 8, stn.setWidth 8, 0]).watchEnds st)) ∧
         (∀ v : W32, f = .mismatch v → 1 ≤ (v.toNat + 2 ^ 20 - tag.toNat % 2 ^ 20) % 2 ^ 20 → (v.toNat + 2 ^ 20 - tag.toNat % 2 ^ 20) % 2 ^ 20 ≤ 0x7FFFF →
           u.hall = { s.hall with stns := s.hall.stns.set st { H with missed := H.missed + 1 } } → s.staleTag v = false →
           exec (.peerWatchPoll st .missing f) s = .next (set (u.learnTag v) ended)))))

/-! ### Clocks, power, reset and test (16, 17) -/

/-- 16 R441, R212: a sample of a station. TEMP is shown; samples below TLO and samples at the largest divisor at or above THI are counted; 100 of the latter set HOT and
send the notice, where TLO is not above THI. A step up at or above THI, or down after ten samples below TLO, or up to MIN, is taken at most once in 10 ms: at once in a stopped
station, at the next frame boundary in a running one. The order of the steps of one sample, and what restarts the counts, are the model's
reading (log entry 56). A station that the grade lacks has no sample.

16 R440, R444, R451: voltage and gates. The Hall's write of CPR_AVS is stored, at most 40, and the outputs move by at most 2 toward it; its write of
CPR_GATE takes each bit, but a block that is not idle keeps its clock; no other master changes either. While the device is held in reset nothing
changes (16 R443). -/
def Obligations.ThermalVoltageAndGates : Prop :=
  (∀ (s : State) (st : Stn) (temp iod : Byte),
     let ths := devReg 1 (0x20 + 4 * st.val)
     let net := stnReg st 0x404
     let S := s.stn st
     let T := s.core.therm[st]
     let thi : Int := ((s.reg (devReg 1 0x10)).toNat / 2 ^ 8 % 2 ^ 8 : Nat)
     let tlo : Int := ((s.reg (devReg 1 0x10)).toNat / 2 ^ 16 % 2 ^ 8 : Nat)
     let d := (s.reg net).toNat / 2 ^ 25 % 4
     let min_ := min 2 ((s.reg ths).toNat / 16 % 4)
     let shown := fun (v : W32) => (s.setReg ths ((v &&& 0xFFFF00FF) ||| (temp.setWidth 32 <<< 8))).setReg (devReg 1 0x14)
       ((s.reg (devReg 1 0x14) &&& 0xFFFFFF00) ||| iod.setWidth 32)
     let keeps := fun (s : State) (T : Thermal) => ({ s with core := { s.core with therm := s.core.therm.set st T } } : State)
     let cool := if temp.toInt < tlo then T.cool + 1 else 0
     let hot := if thi ≤ temp.toInt ∧ d = 2 then T.hot + 1 else 0
     let free := S.dueDiv = none ∧ ∀ tb, T.lastStep = some tb → 10 * 375000 ≤ (s.timeBase - tb).toNat
     let steps := fun (e : Nat) =>
       let u := keeps (shown (s.reg ths)) { cool := 0, hot := hot, lastStep := some s.timeBase }
       if S.run = .running then u.setStn st { S with dueDiv := some (BitVec.ofNat 2 e) }
       else u.setReg net ((s.reg net &&& ~~~(0x06000000 : W32)) ||| BitVec.ofNat 32 (e * 2 ^ 25))
     Registers.wf s = true →
     (s.fitted st = false → exec (.thermalSample st temp iod) s = .next s) ∧
     (s.fitted st = true →
       (100 ≤ hot → min_ ≤ d → tlo ≤ thi →
         exec (.thermalSample st temp iod) s =
           .next ((keeps (shown (s.reg ths ||| 0x10000)) { T with cool := cool, hot := 0 }).notify (.thermal st))) ∧
       (hot < 100 → (¬free ∨ (min_ ≤ d ∧ (temp.toInt < thi ∨ d = 2) ∧ (cool < 10 ∨ d ≤ min_))) →
         exec (.thermalSample st temp iod) s = .next (keeps (shown (s.reg ths)) { T with cool := cool, hot := hot })) ∧
       (hot < 100 → free →
         (d < min_ → exec (.thermalSample st temp iod) s = .next (steps min_)) ∧
         (min_ ≤ d → d < 2 → thi ≤ temp.toInt → exec (.thermalSample st temp iod) s = .next (steps (d + 1))) ∧
         (min_ < d → temp.toInt < thi → 10 ≤ cool → exec (.thermalSample st temp iod) s = .next (steps (d - 1)))))) ∧
  (∀ (s : State) (m : Master) (v : W32),
     let avs := devReg 1 0x30
     let gate := devReg 1 0xC
     let want := (s.reg avs).toNat % 64
     let vid := s.core.vid.toNat
     let dmaState := fun (n : Fin 16) => (s.reg (dmaReg n 8)).toNat / 2 ^ 28
     let lp := fun (n : Nat) => (s.reg (devReg (5 + n) 4)).getLsbD 0 = false ∨ (s.reg (devReg (5 + n) 4)).getLsbD 7 = true
     let cam := fun (st : Stn) => (∀ k : Fin 8, (s.reg (cxReg st k 0)).getLsbD 31 = false) ∧ ∀ r : Fin 4, (s.reg (rxReg st r 0)).getLsbD 31 = false
     let idle := fun (i : Nat) => (i < 2 → lp i) ∧ (i = 2 → ∀ n, dmaState n = 0 ∨ dmaState n = 5) ∧
       (i = 3 → (s.reg (devReg 7 0)).getLsbD 2 = false) ∧ (4 ≤ i → i < 8 → cam (Fin.ofNat 4 (i - 4))) ∧ (i = 8 → s.vault.cmd = none)
     (s.inReset = true → exec .vidStep s = .next s ∧ (v.toNat < 64 → exec (.cprAvsWrite m v) s = .next s.noted) ∧
       (v.toNat < 512 → exec (.cprGateWrite m v) s = .next s.noted)) ∧ (s.inReset = false →
     (v.toNat < 64 → exec (.cprAvsWrite 0 v) s = .next (s.noted.setReg avs (BitVec.ofNat 32 (min 40 v.toNat)))) ∧
     exec .vidStep s = .next { s with
       core := { s.core with vid := BitVec.ofNat 6 (if vid < want then min want (vid + 2) else max want (vid - 2)) } } ∧
     (v.toNat < 512 → Registers.wf s = true →
       ∃ u, exec (.cprGateWrite 0 v) s = .next u ∧ u = { s.noted with regs := u.regs } ∧ (∀ a, a ≠ gate → u.reg a = s.reg a) ∧
         ∀ i < 32, (u.reg gate).getLsbD i =
           if i < 9 then v.getLsbD i || ((s.reg gate).getLsbD i && !(open Classical in decide (idle i))) else (s.reg gate).getLsbD i) ∧
     (m ≠ 0 → exec (.cprAvsWrite m v) s = .next s.noted ∧ exec (.cprGateWrite m v) s = .next s.noted)))

/-- 16 R438, R443, R446 to R448; 10 R299; 12 R342: how a device reset comes. Pin, command and Hall requests wait, the first one counting; asserted, once no flash
operation runs. Power-on, a trip and clock loss do not wait. It resets the blocks, stops every tile and clears memory; fuses, flash, failed pipes and
the waiting commands of the block stay, with what a vault command cut short has programmed; the address and the links stay where the chain
ports are not included, and where they are, TX_DISABLE of both is high; a commit cut short before its audit record is torn, one cut short after it leaves an invalid set.

What a reset keeps and clears is the model's reading (log entry 57), memory reading 0 its choice (log entry 1), the torn record log entry 19 and
the fuses of a cut command log entry 54.

16 R446, R449, R450; 14 R403 to R405; 17 R471: release of a reset and the Cellar's boot. Nothing is released in a thermal trip or with TESTEN high. The straps are taken after a power-on or pin
reset; Hall SRAM is cleared; with BOOTSRC 3 the Cellar waits in chain boot; with one partition named, it checks that image, and enters it with REMAP
set, its source and reason in DEV_BOOTSTAT, and its partition locked, or waits in chain boot, as where reads of the partition meet an
uncorrectable error. -/
def Obligations.DeviceResetsAndReleases : Prop :=
  (∀ (s : State),
     let resets := fun (u : State) (cause : Nat) (chain : Bool) =>
       u.core.asserted = true ∧ u.core.withChain = chain ∧ (chain = true → ∀ p, u.txDisable p = true) ∧ u.core.wants = none ∧ u.pending = s.pending ∧ u.tiles = State.reset.tiles ∧ u.mem = [] ∧ u.ecc = [] ∧ u.notices = [] ∧
       u.timeBase = 0 ∧ u.hall.run = .off ∧ (∀ st, u.stn st = { phys := (s.stn st).phys }) ∧ u.tap = s.tap ∧ u.grade = s.grade ∧
       u.vault = { s.vaultCut.vault with hash := none, cmd := none, since := 0 } ∧ (s.vault.cmd ≠ some .auth → s.vaultCut.vault = s.vault) ∧
       (u.reg (devReg 1 4)).toNat = cause ∧
       (∀ st off, off < 0x10000 → u.reg (stnReg st off) = regReset (stnReg st off)) ∧
       (∀ st t off, off < 0x2000 → u.reg (tileReg st t off) = regReset (tileReg st t off)) ∧
       u.links = (if chain then .replicate 2 {} else s.links) ∧ u.reg (devReg 7 8) = (if chain then 0 else s.reg (devReg 7 8)) ∧
       (s.flashCtl.work = .idle → u.flash = s.flash ∧ u.flashCtl = { s.flashCtl with waits := none, owed := [] }) ∧
       (∀ j since, s.flashCtl.work = .commit j since false → u.flash = s.flash ∧ u.flashCtl.torn = true) ∧
       (∀ j since, s.flashCtl.work = .commit j since true → smWf flashReset s.flash = true →
         (∀ i < 4, u.flashByte (0x401000 + i) = 0xFF) ∧ (∀ o, ¬(0x401000 ≤ o ∧ o < 0x402000) → u.flashByte o = s.flashByte o) ∧
         u.flashCtl.torn = s.flashCtl.torn)
     let quiet := s.core.asserted = false ∧ s.core.wants = none
     (∀ c ∈ [(Instr.sysrst, ResetSource.pin), (.rstDev, .hall)],
       (quiet → exec c.1 s = .next { s with core := { s.core with wants := some c.2 } }) ∧ (¬quiet → exec c.1 s = .next s)) ∧
     (s.core.wants = none → exec .deviceResetAssert s = .next s) ∧
     (∀ c ∈ [(ResetSource.pin, 1, true), (.command, 2, false), (.hall, 3, false)], s.core.wants = some c.1 →
       (s.flashCtl.work ≠ .idle → exec .deviceResetAssert s = .next s) ∧
       (s.flashCtl.work = .idle → ∃ u, exec .deviceResetAssert s = .next u ∧ resets u c.2.1 c.2.2 ∧ u.core.tripped = s.core.tripped)) ∧
     (∃ u, exec .powerOnReset s = .next u ∧ resets u 0 true ∧ u.core.tripped = false) ∧
     (∃ u, exec .thermtrip s = .next u ∧ resets u 0 true ∧ u.core.tripped = true) ∧
     (s.core.asserted = false → s.core.wants = none → ∃ u, exec .clockLoss s = .next u ∧ resets u 4 true) ∧
     (s.core.asserted = true → exec .clockLoss s = .next s) ∧
     (s.inReset = true → exec .rstChain s = .next s) ∧
     (s.inReset = false → Registers.wf s = true → ∃ u, exec .rstChain s = .next u ∧ u = { s with regs := u.regs, links := .replicate 2 {} } ∧ u.reg (devReg 7 8) = regReset (devReg 7 8) ∧
       ∀ st off, off < 0x10000 → u.reg (stnReg st off) = s.reg (stnReg st off))) ∧
  (∀ (s : State) (straps : BitVec 3) (bad : BitVec 2) (testen : Bool),
     let taken := (s.reg (devReg 1 4)).toNat % 8 ≤ 1
     let strap := if taken then straps else (s.reg (devReg 1 8)).setWidth 3
     let boot := strap.toNat % 4
     let part := boot - 1
     let V := s.verifyImage 1 (s.candidate part)
     ((s.core.asserted = false ∨ s.core.tripped = true ∨ testen = true) → exec (.resetRelease ⟨straps, bad, testen⟩) s = .next s) ∧
     (s.core.asserted = true → s.core.tripped = false → s.flashCtl.torn = false → Registers.wf s = true → Memory.wf s = true →
       ∃ u, exec (.resetRelease ⟨straps, bad, false⟩) s = .next u ∧ u.core = { s.core with asserted := false, withChain := false } ∧ u.tiles = s.tiles ∧ u.stns = s.stns ∧
         u.vault.slots = s.vault.slots ∧ u.flash = s.flash ∧ u.flashCtl = { s.flashCtl with bad := bad } ∧ (u.reg (devReg 1 8)).setWidth 3 = strap ∧
         (u.reg (devReg 7 0)).getLsbD 2 = strap.getLsbD 2 ∧ (u.reg (devReg 1 0xC)).getLsbD 3 = strap.getLsbD 2 ∧
         (boot = 3 → u.hall.run = .chainBoot ∧ u.reg (mxReg 0) = s.reg (mxReg 0) ∧
           ∀ a, u.byte a = if hallMem 0 ≤ a ∧ a < hallMem 0x100000 then 0 else s.byte a) ∧
         ((boot = 1 ∨ boot = 2) → (s.reg (mxReg 0)).getLsbD 0 = false →
           (bad.getLsbD part = false → V.reason = 1 → u.hall.run = .firmware ∧ u.hall.measurement = some V.digest ∧ (u.reg (mxReg 0)).getLsbD 0 = true ∧
             (u.reg (devReg 0 0x200)).toNat = (if part = 0 then 2 ^ 16 else 2 ^ 20) + part * 2 ^ 6 + boot * 2 ^ 4 ∧
             (u.reg (efReg 4)).toNat % 4 = part) ∧
           ((bad.getLsbD part = true ∨ V.reason ≠ 1) → u.hall.run = .chainBoot ∧ (u.reg (mxReg 0)).getLsbD 0 = false))))

/-- 17 R471: the test access port. BYPASS gives one 0 bit; IDCODE the identity; SAMPLE captures the pins and preloads the cells; EXTEST captures
the pins and drives the cells shifted in, or those preloaded;
TSEL selects a physical tile, TREAD reads a word of its aperture, here START_PC, or the spare's reset value, or 0 of a retired tile (the last two are the
model's choice, log entry 62; here with nothing waiting at the matrix targets), THALT halts the station's tiles at
the next frame; while LOCK is set these three act as BYPASS.
The order of the cells is the model's reading (log entry 62). -/
def Obligations.TestPort : Prop :=
  ∀ (s : State) (pins cells : Boundary) (shifted : Option Boundary) (st : Stn) (phys : Phys) (off : BitVec 18) (halt : Bool),
    let T := s.tap
    let tap := fun (T : Tap) => ({ s with tap := T } : State)
    let bypass := tap { T with insn := .bypass, data := [false], driven := none }
    let bit0 := fun (w : W32) => (List.range 32).map fun i => w.getLsbD i
    let cellsOf := fun (b : Boundary) => (List.range 299).map fun i => b.getLsbD i
    let ctrl := stnReg T.stn 0x400
    exec .bypass s = .next bypass ∧
    exec .idcode s = .next (tap { T with
      insn := .idcode
      data := bit0 (0x14160001 ||| (Config.jedecId.setWidth 32 <<< 1))
      driven := none }) ∧
    exec (.samplePreload pins cells) s = .next (tap { T with insn := .sample, data := cellsOf pins, preload := cells, driven := none }) ∧
    (let driven := match shifted with
       | none => T.preload
       | some b => b
     exec (.extest ⟨pins, shifted⟩) s = .next (tap { T with insn := .extest, data := cellsOf pins, preload := driven, driven := some driven })) ∧
    (s.vault.lock = true → ∀ c ∈ [Instr.tsel st phys, .tread off, .thalt halt], exec c s = .next bypass) ∧
    (s.vault.lock = false →
      exec (.tsel st phys) s = .next (tap { T with insn := .tsel, driven := none, stn := st, phys := phys }) ∧
      (∀ t, s.servedBy T.stn T.phys = some t → T.stn.val < s.grade.stations → (∀ m g, s.mxWaits m g = false) → s.apertureClosed T.stn t = false → off = 0x30008 →
        let w := s.reg (tileReg T.stn t 8)
        exec (.tread off) s = .next { s.mxTake mHall (tileReg T.stn t 8) with
          tap := { T with insn := .tread, driven := none, read := some w, data := bit0 w } }) ∧
      (s.servedBy T.stn T.phys = none → s.colState T.stn (T.phys.val / 6) = 0 →
        let w := regReset (tileBase T.stn 0 + off.toNat / 4 * 4)
        exec (.tread off) s = .next (tap { T with insn := .tread, driven := none, read := some w, data := bit0 w })) ∧
      (s.servedBy T.stn T.phys = none → s.colState T.stn (T.phys.val / 6) ≠ 0 →
        exec (.tread off) s = .next (tap { T with insn := .tread, driven := none, read := some 0, data := bit0 0 })) ∧
      (let halted := tap { T with insn := .thalt, driven := none }
       exec (.thalt halt) s = .next (if s.fitted T.stn then
         halted.setReg ctrl (if halt then s.reg ctrl ||| 0x80000000 else s.reg ctrl &&& 0x7FFFFFFF) else halted)))

/-! ### The block as a whole -/

/-- A step takes the command at the front of the queue and gives its effect on the state with the queue's rest, for every command and
every state. -/
def Obligations.StepTakesFrontCommand : Prop :=
  ∀ (c : Instr) (rest : List Instr) (s : State), s.pending = c :: rest → step s = exec c { s with pending := rest }

/-- 11 R316, R317; 10 R296; 13 R389, R390: with no command, one cycle of CLK_S goes by: the time base counts and each running timer above 0 counts down; a commit
under way appends its record when that is due, a USB frame of 1 ms counts, a drawer pulse ends after its width, and a sense level shows once it has stood for DBN ms. With none of these, and no
firmware that places words that wait, nothing else happens; memory, fuses and stations are changed by nothing but the firmware. Nothing
counts while a reset is asserted. That an empty queue lets the clock run is the model's choice (log entry 4).
What else the time base moves at such a step is its reading (log entries 19, 50 and 53). -/
def Obligations.EmptyQueueIsOneClock : Prop :=
  ∀ (s : State), s.pending = [] →
    (s.core.asserted = true → step s = .next s) ∧
    (s.core.asserted = false →
      s.hall.run ≠ .firmware →
      let now := s.timeBase + 1
      let passed := fun (t : W64) (n : Nat) => n ≤ (now - t).toNat
      let committing := ∃ j since, s.flashCtl.work = .commit j since false
      ((∀ n : Fin 8, s.tmrRun[n] = false ∧ s.tmrArmed[n] = false) → ¬committing → (∀ g : Fin 4, s.usb[g].frameAt = none) →
        (∀ n : Fin 8, (s.reg (drwReg n.val 4)).getLsbD 31 = false ∧ (s.reg (drwReg n.val 4)).getLsbD 30 = s.gio.sense[n]) →
        step s = .next { s with timeBase := now }) ∧
      (Registers.wf s = true → ∃ u, step s = .next u ∧ u.timeBase = now ∧ u.pending = [] ∧ u.mem = s.mem ∧ u.vault = s.vault ∧
        u.stns = s.stns ∧ (¬committing → u.flash = s.flash ∧ u.flashCtl = s.flashCtl) ∧
        (∀ j since, s.flashCtl.work = .commit j since false → passed since 82500 → u.flashCtl.work = .commit j since true) ∧
        (∀ g : Fin 4, ∀ t, s.usb[g].frameAt = some t → u.usb[g].frame = s.usb[g].frame + (if 375000 ≤ (now - t).toNat then 1 else 0)) ∧
        (∀ n : Fin 8, ∀ t, (s.reg (drwReg n.val 4)).getLsbD 31 = true → s.gio.began[n] = some t →
          (u.reg (drwReg n.val 4)).getLsbD 31 = decide ((now - t).toNat < max 1 ((s.reg (drwReg n.val 0)).toNat / 2 ^ 8 % 256) * 375000)) ∧
        (∀ n : Fin 8, (s.reg (drwReg n.val 4)).getLsbD 30 ≠ s.gio.sense[n] → (u.reg (drwReg n.val 4)).getLsbD 30 =
          if passed s.gio.senseAt[n] ((s.reg (drwReg n.val 0)).toNat / 2 ^ 24 % 32 * 375000) then s.gio.sense[n] else !s.gio.sense[n]) ∧
        ∀ n : Fin 8, s.tmrRun[n] = true → s.reg (tmrReg n 8) ≠ 0 → u.reg (tmrReg n 8) = s.reg (tmrReg n 8) - 1))

/-- The state after reset, as far as the spec gives it (00 R2; 01 R13, R16; 08 R221; 11 R313, R316; 14 R407, R411; 16 R444, R449, R451): no command waits, every tile and
station is stopped, columns unrepaired, banks off but for Hall SRAM, nothing remapped, time zero, VID 20, gates open, keys empty, no channel or window
enabled, and no notice waits. That every byte of memory reads 0 is the model's choice (log entry 1), and so are empty key slots, SVN 0 and LOCK
clear (log entry 12). -/
def Obligations.ResetState : Prop :=
  let s := State.reset
  s.pending = [] ∧ s.timeBase = 0 ∧ s.notices = [] ∧ s.core.asserted = false ∧ s.core.vid = 20 ∧
  (∀ st t, (s.tile st t).run = .stopped) ∧ (∀ st, (s.stn st).run = .stopped) ∧
  (∀ st : Stn, ∀ c < 8, s.reg (stnReg st (0x100 + 4 * c)) = 0) ∧
  s.reg (mxReg 0) = 0 ∧ s.reg (devReg 1 0x30) = 0x14 ∧ s.reg (devReg 1 0x10) = 0x005A6400 ∧ s.reg (devReg 1 0xC) = 0x1F7 ∧
  (∀ n : Fin 16, s.reg (dmaReg n 8) = 0) ∧ (∀ n : Fin 8, s.tmrRun[n] = false) ∧
  (∀ n < 8, s.reg (devReg 0x30 (0x40 + 4 * n)) = BitVec.ofNat 32 (n / 2 * 2 ^ 28)) ∧
  (∀ k < 4, s.reg (devReg 0x30 (0x24 + 4 * k)) = 1) ∧ (∀ p < 20, s.reg (devReg 0x31 (0x104 + 0x40 * p)) = 0x04C4002D) ∧
  (∀ n : Fin 8, (s.reg (devReg 0x33 (0x100 + 0x10 * n.val))).toNat % 2 ^ 29 = 0x0AC86400) ∧
  (∀ k, s.vault.slots[(k : Fin 4)] = .empty) ∧ s.vault.lock = false ∧ s.vault.hallMin = 0 ∧ s.vault.stnMin = 0 ∧
  (∀ a, s.byte a = 0)

/-- At reset the sparse parts of the state have their canonical form: memory, registers and flash. -/
def Obligations.CanonicalFormAtReset : Prop :=
  Memory.wf State.reset = true ∧ Registers.wf State.reset = true ∧ smWf flashReset State.reset.flash = true

/-- Every step keeps the canonical form of memory, registers and flash: addresses strictly rising, and no entry equal to what an unlisted
address reads as. So equal memories are equal data, and a read after a write gives the value written, after any run. -/
def Obligations.CanonicalFormKept : Prop :=
  ∀ (s u : State), Memory.wf s = true → Registers.wf s = true → smWf flashReset s.flash = true → step s = .next u →
    Memory.wf u = true ∧ Registers.wf u = true ∧ smWf flashReset u.flash = true

/-- 14 R411, R413: fuses. For every step: the grade stays, an owner key slot goes only from empty to active to revoked and keeps its modulus once it is not
empty, a minimum SVN never falls and never passes 64, and LOCK once set stays set. -/
def Obligations.FusesOneWay : Prop :=
  ∀ (s u : State) (k : Fin 4),
    let rank := fun (x : SlotState) => match x with
      | .empty => 0
      | .active => 1
      | .revoked => 2
    s.vault.hallMin ≤ 64 → s.vault.stnMin ≤ 64 → step s = .next u →
      u.grade = s.grade ∧ rank s.vault.slots[k] ≤ rank u.vault.slots[k] ∧
      (s.vault.slots[k] ≠ .empty → u.vault.moduli[k] = s.vault.moduli[k]) ∧
      s.vault.hallMin ≤ u.vault.hallMin ∧ u.vault.hallMin ≤ 64 ∧ s.vault.stnMin ≤ u.vault.stnMin ∧ u.vault.stnMin ≤ 64 ∧
      (s.vault.lock = true → u.vault.lock = true)
end

