-- ==== Sys2Proof/Laws/Sparse.lean ====
section
/-! SUPPORT. Laws of sparse maps in canonical form: what a read sees after an update, and that every update keeps the form. -/

namespace Sys2Proof.Machine

variable {α : Type}

/-- Every key of a map lies above k. -/
def smAbove (k : Nat) (m : List (Nat × α)) : Prop := ∀ e ∈ m, k < e.1

theorem smWf_cons [DecidableEq α] (d : Nat → α) (j : Nat) (v : α) (m : List (Nat × α)) :
    smWf d ((j, v) :: m) = true ↔ v ≠ d j ∧ smAbove j m ∧ smWf d m = true := by
  simp [smWf, smAbove, and_assoc]

theorem smGet_above (d : Nat → α) {m : List (Nat × α)} {k : Nat} (h : smAbove k m) : smGet d m k = d k := by
  induction m with
  | nil => rfl
  | cons e m ih =>
    have h1 := h e (by simp)
    have h2 := ih fun x hx => h x (by simp [hx])
    obtain ⟨j, v⟩ := e
    simp only [smGet]
    rw [if_neg (by simp at h1; omega), h2]

theorem smAbove_erase {m : List (Nat × α)} {i : Nat} (k : Nat) (h : smAbove i m) : smAbove i (smErase m k) := by
  induction m with
  | nil => exact h
  | cons e m ih =>
    obtain ⟨j, v⟩ := e
    have h2 : smAbove i m := fun x hx => h x (by simp [hx])
    simp only [smErase]
    split
    · exact h2
    · split
      · exact h
      · intro x hx
        rcases List.mem_cons.1 hx with rfl | hx
        · exact h _ (by simp)
        · exact ih h2 x hx

theorem smAbove_insert {m : List (Nat × α)} {i k : Nat} (v : α) (h : smAbove i m) (hk : i < k) :
    smAbove i (smInsert m k v) := by
  induction m with
  | nil => intro x hx; simp [smInsert] at hx; subst hx; exact hk
  | cons e m ih =>
    obtain ⟨j, w⟩ := e
    have h2 : smAbove i m := fun x hx => h x (by simp [hx])
    simp only [smInsert]
    split
    · intro x hx
      rcases List.mem_cons.1 hx with rfl | hx
      · exact hk
      · exact h2 x hx
    · split
      · intro x hx
        rcases List.mem_cons.1 hx with rfl | hx
        · exact hk
        · exact h x hx
      · intro x hx
        rcases List.mem_cons.1 hx with rfl | hx
        · exact h _ (by simp)
        · exact ih h2 x hx

theorem smErase_wf [DecidableEq α] (d : Nat → α) (m : List (Nat × α)) (k : Nat) (h : smWf d m = true) :
    smWf d (smErase m k) = true := by
  induction m with
  | nil => exact h
  | cons e m ih =>
    obtain ⟨j, v⟩ := e
    obtain ⟨h1, h2, h3⟩ := (smWf_cons d j v m).1 h
    simp only [smErase]
    split
    · exact h3
    · split
      · exact h
      · exact (smWf_cons d j v _).2 ⟨h1, smAbove_erase k h2, ih h3⟩

theorem smInsert_wf [DecidableEq α] (d : Nat → α) (m : List (Nat × α)) (k : Nat) (v : α) (hv : v ≠ d k)
    (h : smWf d m = true) : smWf d (smInsert m k v) = true := by
  induction m with
  | nil => simp [smInsert, smWf, hv]
  | cons e m ih =>
    obtain ⟨j, w⟩ := e
    obtain ⟨h1, h2, h3⟩ := (smWf_cons d j w m).1 h
    simp only [smInsert]
    split
    · next e => subst e; exact (smWf_cons d j v m).2 ⟨hv, h2, h3⟩
    · split
      · next hlt =>
        refine (smWf_cons d k v _).2 ⟨hv, ?_, h⟩
        intro x hx
        rcases List.mem_cons.1 hx with rfl | hx
        · exact hlt
        · exact lt_trans hlt (h2 x hx)
      · next hne hnlt =>
        exact (smWf_cons d j w _).2 ⟨h1, smAbove_insert v h2 (by omega), ih h3⟩

/-- Every update keeps the canonical form. -/
theorem smSet_wf [DecidableEq α] (d : Nat → α) (m : List (Nat × α)) (k : Nat) (v : α) (h : smWf d m = true) :
    smWf d (smSet d m k v) = true := by
  unfold smSet
  split
  · exact smErase_wf d m k h
  · next hv => exact smInsert_wf d m k v hv h

theorem smFilter_wf [DecidableEq α] (d : Nat → α) (m : List (Nat × α)) (p : Nat × α → Bool) (h : smWf d m = true) :
    smWf d (m.filter p) = true := by
  induction m with
  | nil => exact h
  | cons e m ih =>
    obtain ⟨j, v⟩ := e
    obtain ⟨h1, h2, h3⟩ := (smWf_cons d j v m).1 h
    simp only [List.filter]
    split
    · exact (smWf_cons d j v _).2 ⟨h1, fun x hx => h2 x (List.mem_of_mem_filter hx), ih h3⟩
    · exact ih h3

theorem smDrop_wf [DecidableEq α] (d : Nat → α) (m : List (Nat × α)) (lo hi : Nat) (h : smWf d m = true) :
    smWf d (smDrop m lo hi) = true := smFilter_wf d m _ h

theorem smGet_erase_of_ne (d : Nat → α) (m : List (Nat × α)) {k i : Nat} (h : i ≠ k) :
    smGet d (smErase m k) i = smGet d m i := by
  induction m with
  | nil => rfl
  | cons e m ih =>
    obtain ⟨j, v⟩ := e
    simp only [smErase]
    split
    · next e => subst e; simp [smGet, Ne.symm h]
    · split
      · rfl
      · simp [smGet, ih]

theorem smGet_erase_same [DecidableEq α] (d : Nat → α) (m : List (Nat × α)) (k : Nat) (h : smWf d m = true) :
    smGet d (smErase m k) k = d k := by
  induction m with
  | nil => rfl
  | cons e m ih =>
    obtain ⟨j, v⟩ := e
    obtain ⟨_, h2, h3⟩ := (smWf_cons d j v m).1 h
    simp only [smErase]
    split
    · next e => subst e; exact smGet_above d h2
    · split
      · next hlt =>
        refine smGet_above d fun x hx => ?_
        rcases List.mem_cons.1 hx with rfl | hx
        · exact hlt
        · exact lt_trans hlt (h2 x hx)
      · next hne _ => simp [smGet, hne, ih h3]

theorem smGet_insert (d : Nat → α) (m : List (Nat × α)) (k i : Nat) (v : α) :
    smGet d (smInsert m k v) i = if i = k then v else smGet d m i := by
  induction m with
  | nil => by_cases h : k = i <;> simp [smInsert, smGet, h, eq_comm]
  | cons e m ih =>
    obtain ⟨j, w⟩ := e
    simp only [smInsert]
    split
    · next e =>
      subst e
      by_cases h : j = i
      · simp [smGet, h]
      · simp [smGet, h, Ne.symm h]
    · split
      · by_cases h : k = i
        · simp [smGet, h]
        · simp [smGet, h, Ne.symm h]
      · next hne _ =>
        by_cases h : j = i
        · subst h; simp [smGet, hne]
        · simp [smGet, h, ih]

/-- What a read sees after an update of another key. -/
theorem smGet_set_of_ne [DecidableEq α] (d : Nat → α) (m : List (Nat × α)) {k i : Nat} (v : α) (h : i ≠ k) :
    smGet d (smSet d m k v) i = smGet d m i := by
  unfold smSet
  split
  · exact smGet_erase_of_ne d m h
  · rw [smGet_insert, if_neg h]

/-- A map in canonical form reads at a key what was written there. -/
theorem smGet_set_same [DecidableEq α] (d : Nat → α) (m : List (Nat × α)) (k : Nat) (v : α) (h : smWf d m = true) :
    smGet d (smSet d m k v) k = v := by
  unfold smSet
  split
  · next e => rw [smGet_erase_same d m k h, e]
  · rw [smGet_insert, if_pos rfl]

/-- Equal contents are equal data. -/
theorem smExt [DecidableEq α] (d : Nat → α) (m n : List (Nat × α)) (hm : smWf d m = true) (hn : smWf d n = true)
    (h : ∀ k, smGet d m k = smGet d n k) : m = n := by
  induction m generalizing n with
  | nil =>
    cases n with
    | nil => rfl
    | cons e n =>
      obtain ⟨j, w⟩ := e
      have := h j
      simp [smGet] at this
      exact absurd this.symm ((smWf_cons d j w n).1 hn).1
  | cons e m ih =>
    obtain ⟨i, v⟩ := e
    obtain ⟨m1, m2, m3⟩ := (smWf_cons d i v m).1 hm
    cases n with
    | nil =>
      have := h i
      simp [smGet] at this
      exact absurd this m1
    | cons e n =>
      obtain ⟨j, w⟩ := e
      obtain ⟨n1, n2, n3⟩ := (smWf_cons d j w n).1 hn
      have hij : i = j := by
        rcases lt_trichotomy i j with hlt | heq | hgt
        · have := h i
          rw [smGet_above d (k := i) (m := (j, w) :: n)] at this
          · simp [smGet] at this; exact absurd this m1
          · intro x hx
            rcases List.mem_cons.1 hx with rfl | hx
            · exact hlt
            · exact lt_trans hlt (n2 x hx)
        · exact heq
        · have := h j
          rw [smGet_above d (k := j) (m := (i, v) :: m)] at this
          · simp [smGet] at this; exact absurd this.symm n1
          · intro x hx
            rcases List.mem_cons.1 hx with rfl | hx
            · exact hgt
            · exact lt_trans hgt (m2 x hx)
      subst hij
      have hvw : v = w := by simpa [smGet] using h i
      subst hvw
      rw [ih n m3 n3 fun k => ?_]
      by_cases hk : i = k
      · subst hk; rw [smGet_above d m2, smGet_above d n2]
      · simpa [smGet, hk] using h k

end Sys2Proof.Machine
end

