-- ==== Sys2Proof/Laws/State.lean ====
section
/-! SUPPORT. What each named update of the state leaves in each field: one lemma a field and update, none of which needs the
record unfolded. -/

namespace Sys2Proof.Machine

variable (s : State)

/-! ### setTile -/

@[simp] theorem State.setTile_pending (st : Stn) (t : TileNo) (T : Tile) : (s.setTile st t T).pending = s.pending := rfl
@[simp] theorem State.setTile_freeCount (st : Stn) (t : TileNo) (T : Tile) : (s.setTile st t T).freeCount = s.freeCount := rfl
@[simp] theorem State.setTile_undef (st : Stn) (t : TileNo) (T : Tile) : (s.setTile st t T).undef = s.undef := rfl
@[simp] theorem State.setTile_grade (st : Stn) (t : TileNo) (T : Tile) : (s.setTile st t T).grade = s.grade := rfl
@[simp] theorem State.setTile_regs (st : Stn) (t : TileNo) (T : Tile) : (s.setTile st t T).regs = s.regs := rfl
@[simp] theorem State.setTile_mem (st : Stn) (t : TileNo) (T : Tile) : (s.setTile st t T).mem = s.mem := rfl
@[simp] theorem State.setTile_ecc (st : Stn) (t : TileNo) (T : Tile) : (s.setTile st t T).ecc = s.ecc := rfl
@[simp] theorem State.setTile_bankChange (st : Stn) (t : TileNo) (T : Tile) : (s.setTile st t T).bankChange = s.bankChange := rfl
@[simp] theorem State.setTile_stns (st : Stn) (t : TileNo) (T : Tile) : (s.setTile st t T).stns = s.stns := rfl
@[simp] theorem State.setTile_scrubAt (st : Stn) (t : TileNo) (T : Tile) : (s.setTile st t T).scrubAt = s.scrubAt := rfl
@[simp] theorem State.setTile_lp5Scrub (st : Stn) (t : TileNo) (T : Tile) : (s.setTile st t T).lp5Scrub = s.lp5Scrub := rfl
@[simp] theorem State.setTile_lp5Train (st : Stn) (t : TileNo) (T : Tile) : (s.setTile st t T).lp5Train = s.lp5Train := rfl
@[simp] theorem State.setTile_mxOpen (st : Stn) (t : TileNo) (T : Tile) : (s.setTile st t T).mxOpen = s.mxOpen := rfl
@[simp] theorem State.setTile_mxDone (st : Stn) (t : TileNo) (T : Tile) : (s.setTile st t T).mxDone = s.mxDone := rfl
@[simp] theorem State.setTile_mxLast (st : Stn) (t : TileNo) (T : Tile) : (s.setTile st t T).mxLast = s.mxLast := rfl
@[simp] theorem State.setTile_tbLatch (st : Stn) (t : TileNo) (T : Tile) : (s.setTile st t T).tbLatch = s.tbLatch := rfl
@[simp] theorem State.setTile_tmrRun (st : Stn) (t : TileNo) (T : Tile) : (s.setTile st t T).tmrRun = s.tmrRun := rfl
@[simp] theorem State.setTile_tmrArmed (st : Stn) (t : TileNo) (T : Tile) : (s.setTile st t T).tmrArmed = s.tmrArmed := rfl
@[simp] theorem State.setTile_dma (st : Stn) (t : TileNo) (T : Tile) : (s.setTile st t T).dma = s.dma := rfl
@[simp] theorem State.setTile_cam (st : Stn) (t : TileNo) (T : Tile) : (s.setTile st t T).cam = s.cam := rfl
@[simp] theorem State.setTile_lc (st : Stn) (t : TileNo) (T : Tile) : (s.setTile st t T).lc = s.lc := rfl
@[simp] theorem State.setTile_flash (st : Stn) (t : TileNo) (T : Tile) : (s.setTile st t T).flash = s.flash := rfl
@[simp] theorem State.setTile_flashCtl (st : Stn) (t : TileNo) (T : Tile) : (s.setTile st t T).flashCtl = s.flashCtl := rfl
@[simp] theorem State.setTile_window (st : Stn) (t : TileNo) (T : Tile) : (s.setTile st t T).window = s.window := rfl
@[simp] theorem State.setTile_serial (st : Stn) (t : TileNo) (T : Tile) : (s.setTile st t T).serial = s.serial := rfl
@[simp] theorem State.setTile_usb (st : Stn) (t : TileNo) (T : Tile) : (s.setTile st t T).usb = s.usb := rfl
@[simp] theorem State.setTile_gio (st : Stn) (t : TileNo) (T : Tile) : (s.setTile st t T).gio = s.gio := rfl
@[simp] theorem State.setTile_links (st : Stn) (t : TileNo) (T : Tile) : (s.setTile st t T).links = s.links := rfl
@[simp] theorem State.setTile_pcie (st : Stn) (t : TileNo) (T : Tile) : (s.setTile st t T).pcie = s.pcie := rfl
@[simp] theorem State.setTile_hall (st : Stn) (t : TileNo) (T : Tile) : (s.setTile st t T).hall = s.hall := rfl
@[simp] theorem State.setTile_vault (st : Stn) (t : TileNo) (T : Tile) : (s.setTile st t T).vault = s.vault := rfl
@[simp] theorem State.setTile_core (st : Stn) (t : TileNo) (T : Tile) : (s.setTile st t T).core = s.core := rfl
@[simp] theorem State.setTile_tap (st : Stn) (t : TileNo) (T : Tile) : (s.setTile st t T).tap = s.tap := rfl
@[simp] theorem State.setTile_notices (st : Stn) (t : TileNo) (T : Tile) : (s.setTile st t T).notices = s.notices := rfl
@[simp] theorem State.setTile_timeBase (st : Stn) (t : TileNo) (T : Tile) : (s.setTile st t T).timeBase = s.timeBase := rfl

/-! ### modTile -/

@[simp] theorem State.modTile_pending (st : Stn) (t : TileNo) (f : Tile → Tile) : (s.modTile st t f).pending = s.pending := rfl
@[simp] theorem State.modTile_freeCount (st : Stn) (t : TileNo) (f : Tile → Tile) : (s.modTile st t f).freeCount = s.freeCount := rfl
@[simp] theorem State.modTile_undef (st : Stn) (t : TileNo) (f : Tile → Tile) : (s.modTile st t f).undef = s.undef := rfl
@[simp] theorem State.modTile_grade (st : Stn) (t : TileNo) (f : Tile → Tile) : (s.modTile st t f).grade = s.grade := rfl
@[simp] theorem State.modTile_regs (st : Stn) (t : TileNo) (f : Tile → Tile) : (s.modTile st t f).regs = s.regs := rfl
@[simp] theorem State.modTile_mem (st : Stn) (t : TileNo) (f : Tile → Tile) : (s.modTile st t f).mem = s.mem := rfl
@[simp] theorem State.modTile_ecc (st : Stn) (t : TileNo) (f : Tile → Tile) : (s.modTile st t f).ecc = s.ecc := rfl
@[simp] theorem State.modTile_bankChange (st : Stn) (t : TileNo) (f : Tile → Tile) : (s.modTile st t f).bankChange = s.bankChange := rfl
@[simp] theorem State.modTile_stns (st : Stn) (t : TileNo) (f : Tile → Tile) : (s.modTile st t f).stns = s.stns := rfl
@[simp] theorem State.modTile_scrubAt (st : Stn) (t : TileNo) (f : Tile → Tile) : (s.modTile st t f).scrubAt = s.scrubAt := rfl
@[simp] theorem State.modTile_lp5Scrub (st : Stn) (t : TileNo) (f : Tile → Tile) : (s.modTile st t f).lp5Scrub = s.lp5Scrub := rfl
@[simp] theorem State.modTile_lp5Train (st : Stn) (t : TileNo) (f : Tile → Tile) : (s.modTile st t f).lp5Train = s.lp5Train := rfl
@[simp] theorem State.modTile_mxOpen (st : Stn) (t : TileNo) (f : Tile → Tile) : (s.modTile st t f).mxOpen = s.mxOpen := rfl
@[simp] theorem State.modTile_mxDone (st : Stn) (t : TileNo) (f : Tile → Tile) : (s.modTile st t f).mxDone = s.mxDone := rfl
@[simp] theorem State.modTile_mxLast (st : Stn) (t : TileNo) (f : Tile → Tile) : (s.modTile st t f).mxLast = s.mxLast := rfl
@[simp] theorem State.modTile_tbLatch (st : Stn) (t : TileNo) (f : Tile → Tile) : (s.modTile st t f).tbLatch = s.tbLatch := rfl
@[simp] theorem State.modTile_tmrRun (st : Stn) (t : TileNo) (f : Tile → Tile) : (s.modTile st t f).tmrRun = s.tmrRun := rfl
@[simp] theorem State.modTile_tmrArmed (st : Stn) (t : TileNo) (f : Tile → Tile) : (s.modTile st t f).tmrArmed = s.tmrArmed := rfl
@[simp] theorem State.modTile_dma (st : Stn) (t : TileNo) (f : Tile → Tile) : (s.modTile st t f).dma = s.dma := rfl
@[simp] theorem State.modTile_cam (st : Stn) (t : TileNo) (f : Tile → Tile) : (s.modTile st t f).cam = s.cam := rfl
@[simp] theorem State.modTile_lc (st : Stn) (t : TileNo) (f : Tile → Tile) : (s.modTile st t f).lc = s.lc := rfl
@[simp] theorem State.modTile_flash (st : Stn) (t : TileNo) (f : Tile → Tile) : (s.modTile st t f).flash = s.flash := rfl
@[simp] theorem State.modTile_flashCtl (st : Stn) (t : TileNo) (f : Tile → Tile) : (s.modTile st t f).flashCtl = s.flashCtl := rfl
@[simp] theorem State.modTile_window (st : Stn) (t : TileNo) (f : Tile → Tile) : (s.modTile st t f).window = s.window := rfl
@[simp] theorem State.modTile_serial (st : Stn) (t : TileNo) (f : Tile → Tile) : (s.modTile st t f).serial = s.serial := rfl
@[simp] theorem State.modTile_usb (st : Stn) (t : TileNo) (f : Tile → Tile) : (s.modTile st t f).usb = s.usb := rfl
@[simp] theorem State.modTile_gio (st : Stn) (t : TileNo) (f : Tile → Tile) : (s.modTile st t f).gio = s.gio := rfl
@[simp] theorem State.modTile_links (st : Stn) (t : TileNo) (f : Tile → Tile) : (s.modTile st t f).links = s.links := rfl
@[simp] theorem State.modTile_pcie (st : Stn) (t : TileNo) (f : Tile → Tile) : (s.modTile st t f).pcie = s.pcie := rfl
@[simp] theorem State.modTile_hall (st : Stn) (t : TileNo) (f : Tile → Tile) : (s.modTile st t f).hall = s.hall := rfl
@[simp] theorem State.modTile_vault (st : Stn) (t : TileNo) (f : Tile → Tile) : (s.modTile st t f).vault = s.vault := rfl
@[simp] theorem State.modTile_core (st : Stn) (t : TileNo) (f : Tile → Tile) : (s.modTile st t f).core = s.core := rfl
@[simp] theorem State.modTile_tap (st : Stn) (t : TileNo) (f : Tile → Tile) : (s.modTile st t f).tap = s.tap := rfl
@[simp] theorem State.modTile_notices (st : Stn) (t : TileNo) (f : Tile → Tile) : (s.modTile st t f).notices = s.notices := rfl
@[simp] theorem State.modTile_timeBase (st : Stn) (t : TileNo) (f : Tile → Tile) : (s.modTile st t f).timeBase = s.timeBase := rfl

/-! ### setStn -/

@[simp] theorem State.setStn_pending (st : Stn) (S : Station) : (s.setStn st S).pending = s.pending := rfl
@[simp] theorem State.setStn_freeCount (st : Stn) (S : Station) : (s.setStn st S).freeCount = s.freeCount := rfl
@[simp] theorem State.setStn_undef (st : Stn) (S : Station) : (s.setStn st S).undef = s.undef := rfl
@[simp] theorem State.setStn_grade (st : Stn) (S : Station) : (s.setStn st S).grade = s.grade := rfl
@[simp] theorem State.setStn_regs (st : Stn) (S : Station) : (s.setStn st S).regs = s.regs := rfl
@[simp] theorem State.setStn_mem (st : Stn) (S : Station) : (s.setStn st S).mem = s.mem := rfl
@[simp] theorem State.setStn_ecc (st : Stn) (S : Station) : (s.setStn st S).ecc = s.ecc := rfl
@[simp] theorem State.setStn_bankChange (st : Stn) (S : Station) : (s.setStn st S).bankChange = s.bankChange := rfl
@[simp] theorem State.setStn_tiles (st : Stn) (S : Station) : (s.setStn st S).tiles = s.tiles := rfl
@[simp] theorem State.setStn_scrubAt (st : Stn) (S : Station) : (s.setStn st S).scrubAt = s.scrubAt := rfl
@[simp] theorem State.setStn_lp5Scrub (st : Stn) (S : Station) : (s.setStn st S).lp5Scrub = s.lp5Scrub := rfl
@[simp] theorem State.setStn_lp5Train (st : Stn) (S : Station) : (s.setStn st S).lp5Train = s.lp5Train := rfl
@[simp] theorem State.setStn_mxOpen (st : Stn) (S : Station) : (s.setStn st S).mxOpen = s.mxOpen := rfl
@[simp] theorem State.setStn_mxDone (st : Stn) (S : Station) : (s.setStn st S).mxDone = s.mxDone := rfl
@[simp] theorem State.setStn_mxLast (st : Stn) (S : Station) : (s.setStn st S).mxLast = s.mxLast := rfl
@[simp] theorem State.setStn_tbLatch (st : Stn) (S : Station) : (s.setStn st S).tbLatch = s.tbLatch := rfl
@[simp] theorem State.setStn_tmrRun (st : Stn) (S : Station) : (s.setStn st S).tmrRun = s.tmrRun := rfl
@[simp] theorem State.setStn_tmrArmed (st : Stn) (S : Station) : (s.setStn st S).tmrArmed = s.tmrArmed := rfl
@[simp] theorem State.setStn_dma (st : Stn) (S : Station) : (s.setStn st S).dma = s.dma := rfl
@[simp] theorem State.setStn_cam (st : Stn) (S : Station) : (s.setStn st S).cam = s.cam := rfl
@[simp] theorem State.setStn_lc (st : Stn) (S : Station) : (s.setStn st S).lc = s.lc := rfl
@[simp] theorem State.setStn_flash (st : Stn) (S : Station) : (s.setStn st S).flash = s.flash := rfl
@[simp] theorem State.setStn_flashCtl (st : Stn) (S : Station) : (s.setStn st S).flashCtl = s.flashCtl := rfl
@[simp] theorem State.setStn_window (st : Stn) (S : Station) : (s.setStn st S).window = s.window := rfl
@[simp] theorem State.setStn_serial (st : Stn) (S : Station) : (s.setStn st S).serial = s.serial := rfl
@[simp] theorem State.setStn_usb (st : Stn) (S : Station) : (s.setStn st S).usb = s.usb := rfl
@[simp] theorem State.setStn_gio (st : Stn) (S : Station) : (s.setStn st S).gio = s.gio := rfl
@[simp] theorem State.setStn_links (st : Stn) (S : Station) : (s.setStn st S).links = s.links := rfl
@[simp] theorem State.setStn_pcie (st : Stn) (S : Station) : (s.setStn st S).pcie = s.pcie := rfl
@[simp] theorem State.setStn_hall (st : Stn) (S : Station) : (s.setStn st S).hall = s.hall := rfl
@[simp] theorem State.setStn_vault (st : Stn) (S : Station) : (s.setStn st S).vault = s.vault := rfl
@[simp] theorem State.setStn_core (st : Stn) (S : Station) : (s.setStn st S).core = s.core := rfl
@[simp] theorem State.setStn_tap (st : Stn) (S : Station) : (s.setStn st S).tap = s.tap := rfl
@[simp] theorem State.setStn_notices (st : Stn) (S : Station) : (s.setStn st S).notices = s.notices := rfl
@[simp] theorem State.setStn_timeBase (st : Stn) (S : Station) : (s.setStn st S).timeBase = s.timeBase := rfl

/-! ### modStn -/

@[simp] theorem State.modStn_pending (st : Stn) (f : Station → Station) : (s.modStn st f).pending = s.pending := rfl
@[simp] theorem State.modStn_freeCount (st : Stn) (f : Station → Station) : (s.modStn st f).freeCount = s.freeCount := rfl
@[simp] theorem State.modStn_undef (st : Stn) (f : Station → Station) : (s.modStn st f).undef = s.undef := rfl
@[simp] theorem State.modStn_grade (st : Stn) (f : Station → Station) : (s.modStn st f).grade = s.grade := rfl
@[simp] theorem State.modStn_regs (st : Stn) (f : Station → Station) : (s.modStn st f).regs = s.regs := rfl
@[simp] theorem State.modStn_mem (st : Stn) (f : Station → Station) : (s.modStn st f).mem = s.mem := rfl
@[simp] theorem State.modStn_ecc (st : Stn) (f : Station → Station) : (s.modStn st f).ecc = s.ecc := rfl
@[simp] theorem State.modStn_bankChange (st : Stn) (f : Station → Station) : (s.modStn st f).bankChange = s.bankChange := rfl
@[simp] theorem State.modStn_tiles (st : Stn) (f : Station → Station) : (s.modStn st f).tiles = s.tiles := rfl
@[simp] theorem State.modStn_scrubAt (st : Stn) (f : Station → Station) : (s.modStn st f).scrubAt = s.scrubAt := rfl
@[simp] theorem State.modStn_lp5Scrub (st : Stn) (f : Station → Station) : (s.modStn st f).lp5Scrub = s.lp5Scrub := rfl
@[simp] theorem State.modStn_lp5Train (st : Stn) (f : Station → Station) : (s.modStn st f).lp5Train = s.lp5Train := rfl
@[simp] theorem State.modStn_mxOpen (st : Stn) (f : Station → Station) : (s.modStn st f).mxOpen = s.mxOpen := rfl
@[simp] theorem State.modStn_mxDone (st : Stn) (f : Station → Station) : (s.modStn st f).mxDone = s.mxDone := rfl
@[simp] theorem State.modStn_mxLast (st : Stn) (f : Station → Station) : (s.modStn st f).mxLast = s.mxLast := rfl
@[simp] theorem State.modStn_tbLatch (st : Stn) (f : Station → Station) : (s.modStn st f).tbLatch = s.tbLatch := rfl
@[simp] theorem State.modStn_tmrRun (st : Stn) (f : Station → Station) : (s.modStn st f).tmrRun = s.tmrRun := rfl
@[simp] theorem State.modStn_tmrArmed (st : Stn) (f : Station → Station) : (s.modStn st f).tmrArmed = s.tmrArmed := rfl
@[simp] theorem State.modStn_dma (st : Stn) (f : Station → Station) : (s.modStn st f).dma = s.dma := rfl
@[simp] theorem State.modStn_cam (st : Stn) (f : Station → Station) : (s.modStn st f).cam = s.cam := rfl
@[simp] theorem State.modStn_lc (st : Stn) (f : Station → Station) : (s.modStn st f).lc = s.lc := rfl
@[simp] theorem State.modStn_flash (st : Stn) (f : Station → Station) : (s.modStn st f).flash = s.flash := rfl
@[simp] theorem State.modStn_flashCtl (st : Stn) (f : Station → Station) : (s.modStn st f).flashCtl = s.flashCtl := rfl
@[simp] theorem State.modStn_window (st : Stn) (f : Station → Station) : (s.modStn st f).window = s.window := rfl
@[simp] theorem State.modStn_serial (st : Stn) (f : Station → Station) : (s.modStn st f).serial = s.serial := rfl
@[simp] theorem State.modStn_usb (st : Stn) (f : Station → Station) : (s.modStn st f).usb = s.usb := rfl
@[simp] theorem State.modStn_gio (st : Stn) (f : Station → Station) : (s.modStn st f).gio = s.gio := rfl
@[simp] theorem State.modStn_links (st : Stn) (f : Station → Station) : (s.modStn st f).links = s.links := rfl
@[simp] theorem State.modStn_pcie (st : Stn) (f : Station → Station) : (s.modStn st f).pcie = s.pcie := rfl
@[simp] theorem State.modStn_hall (st : Stn) (f : Station → Station) : (s.modStn st f).hall = s.hall := rfl
@[simp] theorem State.modStn_vault (st : Stn) (f : Station → Station) : (s.modStn st f).vault = s.vault := rfl
@[simp] theorem State.modStn_core (st : Stn) (f : Station → Station) : (s.modStn st f).core = s.core := rfl
@[simp] theorem State.modStn_tap (st : Stn) (f : Station → Station) : (s.modStn st f).tap = s.tap := rfl
@[simp] theorem State.modStn_notices (st : Stn) (f : Station → Station) : (s.modStn st f).notices = s.notices := rfl
@[simp] theorem State.modStn_timeBase (st : Stn) (f : Station → Station) : (s.modStn st f).timeBase = s.timeBase := rfl

/-! ### setReg -/

@[simp] theorem State.setReg_pending (a : Nat) (v : W32) : (s.setReg a v).pending = s.pending := rfl
@[simp] theorem State.setReg_freeCount (a : Nat) (v : W32) : (s.setReg a v).freeCount = s.freeCount := rfl
@[simp] theorem State.setReg_undef (a : Nat) (v : W32) : (s.setReg a v).undef = s.undef := rfl
@[simp] theorem State.setReg_grade (a : Nat) (v : W32) : (s.setReg a v).grade = s.grade := rfl
@[simp] theorem State.setReg_mem (a : Nat) (v : W32) : (s.setReg a v).mem = s.mem := rfl
@[simp] theorem State.setReg_ecc (a : Nat) (v : W32) : (s.setReg a v).ecc = s.ecc := rfl
@[simp] theorem State.setReg_bankChange (a : Nat) (v : W32) : (s.setReg a v).bankChange = s.bankChange := rfl
@[simp] theorem State.setReg_tiles (a : Nat) (v : W32) : (s.setReg a v).tiles = s.tiles := rfl
@[simp] theorem State.setReg_stns (a : Nat) (v : W32) : (s.setReg a v).stns = s.stns := rfl
@[simp] theorem State.setReg_scrubAt (a : Nat) (v : W32) : (s.setReg a v).scrubAt = s.scrubAt := rfl
@[simp] theorem State.setReg_lp5Scrub (a : Nat) (v : W32) : (s.setReg a v).lp5Scrub = s.lp5Scrub := rfl
@[simp] theorem State.setReg_lp5Train (a : Nat) (v : W32) : (s.setReg a v).lp5Train = s.lp5Train := rfl
@[simp] theorem State.setReg_mxOpen (a : Nat) (v : W32) : (s.setReg a v).mxOpen = s.mxOpen := rfl
@[simp] theorem State.setReg_mxDone (a : Nat) (v : W32) : (s.setReg a v).mxDone = s.mxDone := rfl
@[simp] theorem State.setReg_mxLast (a : Nat) (v : W32) : (s.setReg a v).mxLast = s.mxLast := rfl
@[simp] theorem State.setReg_tbLatch (a : Nat) (v : W32) : (s.setReg a v).tbLatch = s.tbLatch := rfl
@[simp] theorem State.setReg_tmrRun (a : Nat) (v : W32) : (s.setReg a v).tmrRun = s.tmrRun := rfl
@[simp] theorem State.setReg_tmrArmed (a : Nat) (v : W32) : (s.setReg a v).tmrArmed = s.tmrArmed := rfl
@[simp] theorem State.setReg_dma (a : Nat) (v : W32) : (s.setReg a v).dma = s.dma := rfl
@[simp] theorem State.setReg_cam (a : Nat) (v : W32) : (s.setReg a v).cam = s.cam := rfl
@[simp] theorem State.setReg_lc (a : Nat) (v : W32) : (s.setReg a v).lc = s.lc := rfl
@[simp] theorem State.setReg_flash (a : Nat) (v : W32) : (s.setReg a v).flash = s.flash := rfl
@[simp] theorem State.setReg_flashCtl (a : Nat) (v : W32) : (s.setReg a v).flashCtl = s.flashCtl := rfl
@[simp] theorem State.setReg_window (a : Nat) (v : W32) : (s.setReg a v).window = s.window := rfl
@[simp] theorem State.setReg_serial (a : Nat) (v : W32) : (s.setReg a v).serial = s.serial := rfl
@[simp] theorem State.setReg_usb (a : Nat) (v : W32) : (s.setReg a v).usb = s.usb := rfl
@[simp] theorem State.setReg_gio (a : Nat) (v : W32) : (s.setReg a v).gio = s.gio := rfl
@[simp] theorem State.setReg_links (a : Nat) (v : W32) : (s.setReg a v).links = s.links := rfl
@[simp] theorem State.setReg_pcie (a : Nat) (v : W32) : (s.setReg a v).pcie = s.pcie := rfl
@[simp] theorem State.setReg_hall (a : Nat) (v : W32) : (s.setReg a v).hall = s.hall := rfl
@[simp] theorem State.setReg_vault (a : Nat) (v : W32) : (s.setReg a v).vault = s.vault := rfl
@[simp] theorem State.setReg_core (a : Nat) (v : W32) : (s.setReg a v).core = s.core := rfl
@[simp] theorem State.setReg_tap (a : Nat) (v : W32) : (s.setReg a v).tap = s.tap := rfl
@[simp] theorem State.setReg_notices (a : Nat) (v : W32) : (s.setReg a v).notices = s.notices := rfl
@[simp] theorem State.setReg_timeBase (a : Nat) (v : W32) : (s.setReg a v).timeBase = s.timeBase := rfl

/-! ### setFld -/

@[simp] theorem State.setFld_pending (a lo w v : Nat) : (s.setFld a lo w v).pending = s.pending := rfl
@[simp] theorem State.setFld_freeCount (a lo w v : Nat) : (s.setFld a lo w v).freeCount = s.freeCount := rfl
@[simp] theorem State.setFld_undef (a lo w v : Nat) : (s.setFld a lo w v).undef = s.undef := rfl
@[simp] theorem State.setFld_grade (a lo w v : Nat) : (s.setFld a lo w v).grade = s.grade := rfl
@[simp] theorem State.setFld_mem (a lo w v : Nat) : (s.setFld a lo w v).mem = s.mem := rfl
@[simp] theorem State.setFld_ecc (a lo w v : Nat) : (s.setFld a lo w v).ecc = s.ecc := rfl
@[simp] theorem State.setFld_bankChange (a lo w v : Nat) : (s.setFld a lo w v).bankChange = s.bankChange := rfl
@[simp] theorem State.setFld_tiles (a lo w v : Nat) : (s.setFld a lo w v).tiles = s.tiles := rfl
@[simp] theorem State.setFld_stns (a lo w v : Nat) : (s.setFld a lo w v).stns = s.stns := rfl
@[simp] theorem State.setFld_scrubAt (a lo w v : Nat) : (s.setFld a lo w v).scrubAt = s.scrubAt := rfl
@[simp] theorem State.setFld_lp5Scrub (a lo w v : Nat) : (s.setFld a lo w v).lp5Scrub = s.lp5Scrub := rfl
@[simp] theorem State.setFld_lp5Train (a lo w v : Nat) : (s.setFld a lo w v).lp5Train = s.lp5Train := rfl
@[simp] theorem State.setFld_mxOpen (a lo w v : Nat) : (s.setFld a lo w v).mxOpen = s.mxOpen := rfl
@[simp] theorem State.setFld_mxDone (a lo w v : Nat) : (s.setFld a lo w v).mxDone = s.mxDone := rfl
@[simp] theorem State.setFld_mxLast (a lo w v : Nat) : (s.setFld a lo w v).mxLast = s.mxLast := rfl
@[simp] theorem State.setFld_tbLatch (a lo w v : Nat) : (s.setFld a lo w v).tbLatch = s.tbLatch := rfl
@[simp] theorem State.setFld_tmrRun (a lo w v : Nat) : (s.setFld a lo w v).tmrRun = s.tmrRun := rfl
@[simp] theorem State.setFld_tmrArmed (a lo w v : Nat) : (s.setFld a lo w v).tmrArmed = s.tmrArmed := rfl
@[simp] theorem State.setFld_dma (a lo w v : Nat) : (s.setFld a lo w v).dma = s.dma := rfl
@[simp] theorem State.setFld_cam (a lo w v : Nat) : (s.setFld a lo w v).cam = s.cam := rfl
@[simp] theorem State.setFld_lc (a lo w v : Nat) : (s.setFld a lo w v).lc = s.lc := rfl
@[simp] theorem State.setFld_flash (a lo w v : Nat) : (s.setFld a lo w v).flash = s.flash := rfl
@[simp] theorem State.setFld_flashCtl (a lo w v : Nat) : (s.setFld a lo w v).flashCtl = s.flashCtl := rfl
@[simp] theorem State.setFld_window (a lo w v : Nat) : (s.setFld a lo w v).window = s.window := rfl
@[simp] theorem State.setFld_serial (a lo w v : Nat) : (s.setFld a lo w v).serial = s.serial := rfl
@[simp] theorem State.setFld_usb (a lo w v : Nat) : (s.setFld a lo w v).usb = s.usb := rfl
@[simp] theorem State.setFld_gio (a lo w v : Nat) : (s.setFld a lo w v).gio = s.gio := rfl
@[simp] theorem State.setFld_links (a lo w v : Nat) : (s.setFld a lo w v).links = s.links := rfl
@[simp] theorem State.setFld_pcie (a lo w v : Nat) : (s.setFld a lo w v).pcie = s.pcie := rfl
@[simp] theorem State.setFld_hall (a lo w v : Nat) : (s.setFld a lo w v).hall = s.hall := rfl
@[simp] theorem State.setFld_vault (a lo w v : Nat) : (s.setFld a lo w v).vault = s.vault := rfl
@[simp] theorem State.setFld_core (a lo w v : Nat) : (s.setFld a lo w v).core = s.core := rfl
@[simp] theorem State.setFld_tap (a lo w v : Nat) : (s.setFld a lo w v).tap = s.tap := rfl
@[simp] theorem State.setFld_notices (a lo w v : Nat) : (s.setFld a lo w v).notices = s.notices := rfl
@[simp] theorem State.setFld_timeBase (a lo w v : Nat) : (s.setFld a lo w v).timeBase = s.timeBase := rfl

/-! ### setFlag -/

@[simp] theorem State.setFlag_pending (a i : Nat) : (s.setFlag a i).pending = s.pending := rfl
@[simp] theorem State.setFlag_freeCount (a i : Nat) : (s.setFlag a i).freeCount = s.freeCount := rfl
@[simp] theorem State.setFlag_undef (a i : Nat) : (s.setFlag a i).undef = s.undef := rfl
@[simp] theorem State.setFlag_grade (a i : Nat) : (s.setFlag a i).grade = s.grade := rfl
@[simp] theorem State.setFlag_mem (a i : Nat) : (s.setFlag a i).mem = s.mem := rfl
@[simp] theorem State.setFlag_ecc (a i : Nat) : (s.setFlag a i).ecc = s.ecc := rfl
@[simp] theorem State.setFlag_bankChange (a i : Nat) : (s.setFlag a i).bankChange = s.bankChange := rfl
@[simp] theorem State.setFlag_tiles (a i : Nat) : (s.setFlag a i).tiles = s.tiles := rfl
@[simp] theorem State.setFlag_stns (a i : Nat) : (s.setFlag a i).stns = s.stns := rfl
@[simp] theorem State.setFlag_scrubAt (a i : Nat) : (s.setFlag a i).scrubAt = s.scrubAt := rfl
@[simp] theorem State.setFlag_lp5Scrub (a i : Nat) : (s.setFlag a i).lp5Scrub = s.lp5Scrub := rfl
@[simp] theorem State.setFlag_lp5Train (a i : Nat) : (s.setFlag a i).lp5Train = s.lp5Train := rfl
@[simp] theorem State.setFlag_mxOpen (a i : Nat) : (s.setFlag a i).mxOpen = s.mxOpen := rfl
@[simp] theorem State.setFlag_mxDone (a i : Nat) : (s.setFlag a i).mxDone = s.mxDone := rfl
@[simp] theorem State.setFlag_mxLast (a i : Nat) : (s.setFlag a i).mxLast = s.mxLast := rfl
@[simp] theorem State.setFlag_tbLatch (a i : Nat) : (s.setFlag a i).tbLatch = s.tbLatch := rfl
@[simp] theorem State.setFlag_tmrRun (a i : Nat) : (s.setFlag a i).tmrRun = s.tmrRun := rfl
@[simp] theorem State.setFlag_tmrArmed (a i : Nat) : (s.setFlag a i).tmrArmed = s.tmrArmed := rfl
@[simp] theorem State.setFlag_dma (a i : Nat) : (s.setFlag a i).dma = s.dma := rfl
@[simp] theorem State.setFlag_cam (a i : Nat) : (s.setFlag a i).cam = s.cam := rfl
@[simp] theorem State.setFlag_lc (a i : Nat) : (s.setFlag a i).lc = s.lc := rfl
@[simp] theorem State.setFlag_flash (a i : Nat) : (s.setFlag a i).flash = s.flash := rfl
@[simp] theorem State.setFlag_flashCtl (a i : Nat) : (s.setFlag a i).flashCtl = s.flashCtl := rfl
@[simp] theorem State.setFlag_window (a i : Nat) : (s.setFlag a i).window = s.window := rfl
@[simp] theorem State.setFlag_serial (a i : Nat) : (s.setFlag a i).serial = s.serial := rfl
@[simp] theorem State.setFlag_usb (a i : Nat) : (s.setFlag a i).usb = s.usb := rfl
@[simp] theorem State.setFlag_gio (a i : Nat) : (s.setFlag a i).gio = s.gio := rfl
@[simp] theorem State.setFlag_links (a i : Nat) : (s.setFlag a i).links = s.links := rfl
@[simp] theorem State.setFlag_pcie (a i : Nat) : (s.setFlag a i).pcie = s.pcie := rfl
@[simp] theorem State.setFlag_hall (a i : Nat) : (s.setFlag a i).hall = s.hall := rfl
@[simp] theorem State.setFlag_vault (a i : Nat) : (s.setFlag a i).vault = s.vault := rfl
@[simp] theorem State.setFlag_core (a i : Nat) : (s.setFlag a i).core = s.core := rfl
@[simp] theorem State.setFlag_tap (a i : Nat) : (s.setFlag a i).tap = s.tap := rfl
@[simp] theorem State.setFlag_notices (a i : Nat) : (s.setFlag a i).notices = s.notices := rfl
@[simp] theorem State.setFlag_timeBase (a i : Nat) : (s.setFlag a i).timeBase = s.timeBase := rfl

/-! ### bump -/

@[simp] theorem State.bump_pending (a n : Nat) : (s.bump a n).pending = s.pending := rfl
@[simp] theorem State.bump_freeCount (a n : Nat) : (s.bump a n).freeCount = s.freeCount := rfl
@[simp] theorem State.bump_undef (a n : Nat) : (s.bump a n).undef = s.undef := rfl
@[simp] theorem State.bump_grade (a n : Nat) : (s.bump a n).grade = s.grade := rfl
@[simp] theorem State.bump_mem (a n : Nat) : (s.bump a n).mem = s.mem := rfl
@[simp] theorem State.bump_ecc (a n : Nat) : (s.bump a n).ecc = s.ecc := rfl
@[simp] theorem State.bump_bankChange (a n : Nat) : (s.bump a n).bankChange = s.bankChange := rfl
@[simp] theorem State.bump_tiles (a n : Nat) : (s.bump a n).tiles = s.tiles := rfl
@[simp] theorem State.bump_stns (a n : Nat) : (s.bump a n).stns = s.stns := rfl
@[simp] theorem State.bump_scrubAt (a n : Nat) : (s.bump a n).scrubAt = s.scrubAt := rfl
@[simp] theorem State.bump_lp5Scrub (a n : Nat) : (s.bump a n).lp5Scrub = s.lp5Scrub := rfl
@[simp] theorem State.bump_lp5Train (a n : Nat) : (s.bump a n).lp5Train = s.lp5Train := rfl
@[simp] theorem State.bump_mxOpen (a n : Nat) : (s.bump a n).mxOpen = s.mxOpen := rfl
@[simp] theorem State.bump_mxDone (a n : Nat) : (s.bump a n).mxDone = s.mxDone := rfl
@[simp] theorem State.bump_mxLast (a n : Nat) : (s.bump a n).mxLast = s.mxLast := rfl
@[simp] theorem State.bump_tbLatch (a n : Nat) : (s.bump a n).tbLatch = s.tbLatch := rfl
@[simp] theorem State.bump_tmrRun (a n : Nat) : (s.bump a n).tmrRun = s.tmrRun := rfl
@[simp] theorem State.bump_tmrArmed (a n : Nat) : (s.bump a n).tmrArmed = s.tmrArmed := rfl
@[simp] theorem State.bump_dma (a n : Nat) : (s.bump a n).dma = s.dma := rfl
@[simp] theorem State.bump_cam (a n : Nat) : (s.bump a n).cam = s.cam := rfl
@[simp] theorem State.bump_lc (a n : Nat) : (s.bump a n).lc = s.lc := rfl
@[simp] theorem State.bump_flash (a n : Nat) : (s.bump a n).flash = s.flash := rfl
@[simp] theorem State.bump_flashCtl (a n : Nat) : (s.bump a n).flashCtl = s.flashCtl := rfl
@[simp] theorem State.bump_window (a n : Nat) : (s.bump a n).window = s.window := rfl
@[simp] theorem State.bump_serial (a n : Nat) : (s.bump a n).serial = s.serial := rfl
@[simp] theorem State.bump_usb (a n : Nat) : (s.bump a n).usb = s.usb := rfl
@[simp] theorem State.bump_gio (a n : Nat) : (s.bump a n).gio = s.gio := rfl
@[simp] theorem State.bump_links (a n : Nat) : (s.bump a n).links = s.links := rfl
@[simp] theorem State.bump_pcie (a n : Nat) : (s.bump a n).pcie = s.pcie := rfl
@[simp] theorem State.bump_hall (a n : Nat) : (s.bump a n).hall = s.hall := rfl
@[simp] theorem State.bump_vault (a n : Nat) : (s.bump a n).vault = s.vault := rfl
@[simp] theorem State.bump_core (a n : Nat) : (s.bump a n).core = s.core := rfl
@[simp] theorem State.bump_tap (a n : Nat) : (s.bump a n).tap = s.tap := rfl
@[simp] theorem State.bump_notices (a n : Nat) : (s.bump a n).notices = s.notices := rfl
@[simp] theorem State.bump_timeBase (a n : Nat) : (s.bump a n).timeBase = s.timeBase := rfl

/-! ### setByte -/

@[simp] theorem State.setByte_pending (a : Nat) (v : Byte) : (s.setByte a v).pending = s.pending := rfl
@[simp] theorem State.setByte_freeCount (a : Nat) (v : Byte) : (s.setByte a v).freeCount = s.freeCount := rfl
@[simp] theorem State.setByte_undef (a : Nat) (v : Byte) : (s.setByte a v).undef = s.undef := rfl
@[simp] theorem State.setByte_grade (a : Nat) (v : Byte) : (s.setByte a v).grade = s.grade := rfl
@[simp] theorem State.setByte_regs (a : Nat) (v : Byte) : (s.setByte a v).regs = s.regs := rfl
@[simp] theorem State.setByte_ecc (a : Nat) (v : Byte) : (s.setByte a v).ecc = s.ecc := rfl
@[simp] theorem State.setByte_bankChange (a : Nat) (v : Byte) : (s.setByte a v).bankChange = s.bankChange := rfl
@[simp] theorem State.setByte_tiles (a : Nat) (v : Byte) : (s.setByte a v).tiles = s.tiles := rfl
@[simp] theorem State.setByte_stns (a : Nat) (v : Byte) : (s.setByte a v).stns = s.stns := rfl
@[simp] theorem State.setByte_scrubAt (a : Nat) (v : Byte) : (s.setByte a v).scrubAt = s.scrubAt := rfl
@[simp] theorem State.setByte_lp5Scrub (a : Nat) (v : Byte) : (s.setByte a v).lp5Scrub = s.lp5Scrub := rfl
@[simp] theorem State.setByte_lp5Train (a : Nat) (v : Byte) : (s.setByte a v).lp5Train = s.lp5Train := rfl
@[simp] theorem State.setByte_mxOpen (a : Nat) (v : Byte) : (s.setByte a v).mxOpen = s.mxOpen := rfl
@[simp] theorem State.setByte_mxDone (a : Nat) (v : Byte) : (s.setByte a v).mxDone = s.mxDone := rfl
@[simp] theorem State.setByte_mxLast (a : Nat) (v : Byte) : (s.setByte a v).mxLast = s.mxLast := rfl
@[simp] theorem State.setByte_tbLatch (a : Nat) (v : Byte) : (s.setByte a v).tbLatch = s.tbLatch := rfl
@[simp] theorem State.setByte_tmrRun (a : Nat) (v : Byte) : (s.setByte a v).tmrRun = s.tmrRun := rfl
@[simp] theorem State.setByte_tmrArmed (a : Nat) (v : Byte) : (s.setByte a v).tmrArmed = s.tmrArmed := rfl
@[simp] theorem State.setByte_dma (a : Nat) (v : Byte) : (s.setByte a v).dma = s.dma := rfl
@[simp] theorem State.setByte_cam (a : Nat) (v : Byte) : (s.setByte a v).cam = s.cam := rfl
@[simp] theorem State.setByte_lc (a : Nat) (v : Byte) : (s.setByte a v).lc = s.lc := rfl
@[simp] theorem State.setByte_flash (a : Nat) (v : Byte) : (s.setByte a v).flash = s.flash := rfl
@[simp] theorem State.setByte_flashCtl (a : Nat) (v : Byte) : (s.setByte a v).flashCtl = s.flashCtl := rfl
@[simp] theorem State.setByte_window (a : Nat) (v : Byte) : (s.setByte a v).window = s.window := rfl
@[simp] theorem State.setByte_serial (a : Nat) (v : Byte) : (s.setByte a v).serial = s.serial := rfl
@[simp] theorem State.setByte_usb (a : Nat) (v : Byte) : (s.setByte a v).usb = s.usb := rfl
@[simp] theorem State.setByte_gio (a : Nat) (v : Byte) : (s.setByte a v).gio = s.gio := rfl
@[simp] theorem State.setByte_links (a : Nat) (v : Byte) : (s.setByte a v).links = s.links := rfl
@[simp] theorem State.setByte_pcie (a : Nat) (v : Byte) : (s.setByte a v).pcie = s.pcie := rfl
@[simp] theorem State.setByte_hall (a : Nat) (v : Byte) : (s.setByte a v).hall = s.hall := rfl
@[simp] theorem State.setByte_vault (a : Nat) (v : Byte) : (s.setByte a v).vault = s.vault := rfl
@[simp] theorem State.setByte_core (a : Nat) (v : Byte) : (s.setByte a v).core = s.core := rfl
@[simp] theorem State.setByte_tap (a : Nat) (v : Byte) : (s.setByte a v).tap = s.tap := rfl
@[simp] theorem State.setByte_notices (a : Nat) (v : Byte) : (s.setByte a v).notices = s.notices := rfl
@[simp] theorem State.setByte_timeBase (a : Nat) (v : Byte) : (s.setByte a v).timeBase = s.timeBase := rfl

/-! ### clearMem -/

@[simp] theorem State.clearMem_pending (lo hi : Nat) : (s.clearMem lo hi).pending = s.pending := rfl
@[simp] theorem State.clearMem_freeCount (lo hi : Nat) : (s.clearMem lo hi).freeCount = s.freeCount := rfl
@[simp] theorem State.clearMem_undef (lo hi : Nat) : (s.clearMem lo hi).undef = s.undef := rfl
@[simp] theorem State.clearMem_grade (lo hi : Nat) : (s.clearMem lo hi).grade = s.grade := rfl
@[simp] theorem State.clearMem_regs (lo hi : Nat) : (s.clearMem lo hi).regs = s.regs := rfl
@[simp] theorem State.clearMem_bankChange (lo hi : Nat) : (s.clearMem lo hi).bankChange = s.bankChange := rfl
@[simp] theorem State.clearMem_tiles (lo hi : Nat) : (s.clearMem lo hi).tiles = s.tiles := rfl
@[simp] theorem State.clearMem_stns (lo hi : Nat) : (s.clearMem lo hi).stns = s.stns := rfl
@[simp] theorem State.clearMem_scrubAt (lo hi : Nat) : (s.clearMem lo hi).scrubAt = s.scrubAt := rfl
@[simp] theorem State.clearMem_lp5Scrub (lo hi : Nat) : (s.clearMem lo hi).lp5Scrub = s.lp5Scrub := rfl
@[simp] theorem State.clearMem_lp5Train (lo hi : Nat) : (s.clearMem lo hi).lp5Train = s.lp5Train := rfl
@[simp] theorem State.clearMem_mxOpen (lo hi : Nat) : (s.clearMem lo hi).mxOpen = s.mxOpen := rfl
@[simp] theorem State.clearMem_mxDone (lo hi : Nat) : (s.clearMem lo hi).mxDone = s.mxDone := rfl
@[simp] theorem State.clearMem_mxLast (lo hi : Nat) : (s.clearMem lo hi).mxLast = s.mxLast := rfl
@[simp] theorem State.clearMem_tbLatch (lo hi : Nat) : (s.clearMem lo hi).tbLatch = s.tbLatch := rfl
@[simp] theorem State.clearMem_tmrRun (lo hi : Nat) : (s.clearMem lo hi).tmrRun = s.tmrRun := rfl
@[simp] theorem State.clearMem_tmrArmed (lo hi : Nat) : (s.clearMem lo hi).tmrArmed = s.tmrArmed := rfl
@[simp] theorem State.clearMem_dma (lo hi : Nat) : (s.clearMem lo hi).dma = s.dma := rfl
@[simp] theorem State.clearMem_cam (lo hi : Nat) : (s.clearMem lo hi).cam = s.cam := rfl
@[simp] theorem State.clearMem_lc (lo hi : Nat) : (s.clearMem lo hi).lc = s.lc := rfl
@[simp] theorem State.clearMem_flash (lo hi : Nat) : (s.clearMem lo hi).flash = s.flash := rfl
@[simp] theorem State.clearMem_flashCtl (lo hi : Nat) : (s.clearMem lo hi).flashCtl = s.flashCtl := rfl
@[simp] theorem State.clearMem_window (lo hi : Nat) : (s.clearMem lo hi).window = s.window := rfl
@[simp] theorem State.clearMem_serial (lo hi : Nat) : (s.clearMem lo hi).serial = s.serial := rfl
@[simp] theorem State.clearMem_usb (lo hi : Nat) : (s.clearMem lo hi).usb = s.usb := rfl
@[simp] theorem State.clearMem_gio (lo hi : Nat) : (s.clearMem lo hi).gio = s.gio := rfl
@[simp] theorem State.clearMem_links (lo hi : Nat) : (s.clearMem lo hi).links = s.links := rfl
@[simp] theorem State.clearMem_pcie (lo hi : Nat) : (s.clearMem lo hi).pcie = s.pcie := rfl
@[simp] theorem State.clearMem_hall (lo hi : Nat) : (s.clearMem lo hi).hall = s.hall := rfl
@[simp] theorem State.clearMem_vault (lo hi : Nat) : (s.clearMem lo hi).vault = s.vault := rfl
@[simp] theorem State.clearMem_core (lo hi : Nat) : (s.clearMem lo hi).core = s.core := rfl
@[simp] theorem State.clearMem_tap (lo hi : Nat) : (s.clearMem lo hi).tap = s.tap := rfl
@[simp] theorem State.clearMem_notices (lo hi : Nat) : (s.clearMem lo hi).notices = s.notices := rfl
@[simp] theorem State.clearMem_timeBase (lo hi : Nat) : (s.clearMem lo hi).timeBase = s.timeBase := rfl

/-! ### useFree -/

@[simp] theorem State.useFree_pending (n : Nat) : (s.useFree n).pending = s.pending := rfl
@[simp] theorem State.useFree_undef (n : Nat) : (s.useFree n).undef = s.undef := rfl
@[simp] theorem State.useFree_grade (n : Nat) : (s.useFree n).grade = s.grade := rfl
@[simp] theorem State.useFree_regs (n : Nat) : (s.useFree n).regs = s.regs := rfl
@[simp] theorem State.useFree_mem (n : Nat) : (s.useFree n).mem = s.mem := rfl
@[simp] theorem State.useFree_ecc (n : Nat) : (s.useFree n).ecc = s.ecc := rfl
@[simp] theorem State.useFree_bankChange (n : Nat) : (s.useFree n).bankChange = s.bankChange := rfl
@[simp] theorem State.useFree_tiles (n : Nat) : (s.useFree n).tiles = s.tiles := rfl
@[simp] theorem State.useFree_stns (n : Nat) : (s.useFree n).stns = s.stns := rfl
@[simp] theorem State.useFree_scrubAt (n : Nat) : (s.useFree n).scrubAt = s.scrubAt := rfl
@[simp] theorem State.useFree_lp5Scrub (n : Nat) : (s.useFree n).lp5Scrub = s.lp5Scrub := rfl
@[simp] theorem State.useFree_lp5Train (n : Nat) : (s.useFree n).lp5Train = s.lp5Train := rfl
@[simp] theorem State.useFree_mxOpen (n : Nat) : (s.useFree n).mxOpen = s.mxOpen := rfl
@[simp] theorem State.useFree_mxDone (n : Nat) : (s.useFree n).mxDone = s.mxDone := rfl
@[simp] theorem State.useFree_mxLast (n : Nat) : (s.useFree n).mxLast = s.mxLast := rfl
@[simp] theorem State.useFree_tbLatch (n : Nat) : (s.useFree n).tbLatch = s.tbLatch := rfl
@[simp] theorem State.useFree_tmrRun (n : Nat) : (s.useFree n).tmrRun = s.tmrRun := rfl
@[simp] theorem State.useFree_tmrArmed (n : Nat) : (s.useFree n).tmrArmed = s.tmrArmed := rfl
@[simp] theorem State.useFree_dma (n : Nat) : (s.useFree n).dma = s.dma := rfl
@[simp] theorem State.useFree_cam (n : Nat) : (s.useFree n).cam = s.cam := rfl
@[simp] theorem State.useFree_lc (n : Nat) : (s.useFree n).lc = s.lc := rfl
@[simp] theorem State.useFree_flash (n : Nat) : (s.useFree n).flash = s.flash := rfl
@[simp] theorem State.useFree_flashCtl (n : Nat) : (s.useFree n).flashCtl = s.flashCtl := rfl
@[simp] theorem State.useFree_window (n : Nat) : (s.useFree n).window = s.window := rfl
@[simp] theorem State.useFree_serial (n : Nat) : (s.useFree n).serial = s.serial := rfl
@[simp] theorem State.useFree_usb (n : Nat) : (s.useFree n).usb = s.usb := rfl
@[simp] theorem State.useFree_gio (n : Nat) : (s.useFree n).gio = s.gio := rfl
@[simp] theorem State.useFree_links (n : Nat) : (s.useFree n).links = s.links := rfl
@[simp] theorem State.useFree_pcie (n : Nat) : (s.useFree n).pcie = s.pcie := rfl
@[simp] theorem State.useFree_hall (n : Nat) : (s.useFree n).hall = s.hall := rfl
@[simp] theorem State.useFree_vault (n : Nat) : (s.useFree n).vault = s.vault := rfl
@[simp] theorem State.useFree_core (n : Nat) : (s.useFree n).core = s.core := rfl
@[simp] theorem State.useFree_tap (n : Nat) : (s.useFree n).tap = s.tap := rfl
@[simp] theorem State.useFree_notices (n : Nat) : (s.useFree n).notices = s.notices := rfl
@[simp] theorem State.useFree_timeBase (n : Nat) : (s.useFree n).timeBase = s.timeBase := rfl

/-! ### notify -/

@[simp] theorem State.notify_pending (n : Notice) : (s.notify n).pending = s.pending := rfl
@[simp] theorem State.notify_freeCount (n : Notice) : (s.notify n).freeCount = s.freeCount := rfl
@[simp] theorem State.notify_undef (n : Notice) : (s.notify n).undef = s.undef := rfl
@[simp] theorem State.notify_grade (n : Notice) : (s.notify n).grade = s.grade := rfl
@[simp] theorem State.notify_regs (n : Notice) : (s.notify n).regs = s.regs := rfl
@[simp] theorem State.notify_mem (n : Notice) : (s.notify n).mem = s.mem := rfl
@[simp] theorem State.notify_ecc (n : Notice) : (s.notify n).ecc = s.ecc := rfl
@[simp] theorem State.notify_bankChange (n : Notice) : (s.notify n).bankChange = s.bankChange := rfl
@[simp] theorem State.notify_tiles (n : Notice) : (s.notify n).tiles = s.tiles := rfl
@[simp] theorem State.notify_stns (n : Notice) : (s.notify n).stns = s.stns := rfl
@[simp] theorem State.notify_scrubAt (n : Notice) : (s.notify n).scrubAt = s.scrubAt := rfl
@[simp] theorem State.notify_lp5Scrub (n : Notice) : (s.notify n).lp5Scrub = s.lp5Scrub := rfl
@[simp] theorem State.notify_lp5Train (n : Notice) : (s.notify n).lp5Train = s.lp5Train := rfl
@[simp] theorem State.notify_mxOpen (n : Notice) : (s.notify n).mxOpen = s.mxOpen := rfl
@[simp] theorem State.notify_mxDone (n : Notice) : (s.notify n).mxDone = s.mxDone := rfl
@[simp] theorem State.notify_mxLast (n : Notice) : (s.notify n).mxLast = s.mxLast := rfl
@[simp] theorem State.notify_tbLatch (n : Notice) : (s.notify n).tbLatch = s.tbLatch := rfl
@[simp] theorem State.notify_tmrRun (n : Notice) : (s.notify n).tmrRun = s.tmrRun := rfl
@[simp] theorem State.notify_tmrArmed (n : Notice) : (s.notify n).tmrArmed = s.tmrArmed := rfl
@[simp] theorem State.notify_dma (n : Notice) : (s.notify n).dma = s.dma := rfl
@[simp] theorem State.notify_cam (n : Notice) : (s.notify n).cam = s.cam := rfl
@[simp] theorem State.notify_lc (n : Notice) : (s.notify n).lc = s.lc := rfl
@[simp] theorem State.notify_flash (n : Notice) : (s.notify n).flash = s.flash := rfl
@[simp] theorem State.notify_flashCtl (n : Notice) : (s.notify n).flashCtl = s.flashCtl := rfl
@[simp] theorem State.notify_window (n : Notice) : (s.notify n).window = s.window := rfl
@[simp] theorem State.notify_serial (n : Notice) : (s.notify n).serial = s.serial := rfl
@[simp] theorem State.notify_usb (n : Notice) : (s.notify n).usb = s.usb := rfl
@[simp] theorem State.notify_gio (n : Notice) : (s.notify n).gio = s.gio := rfl
@[simp] theorem State.notify_links (n : Notice) : (s.notify n).links = s.links := rfl
@[simp] theorem State.notify_pcie (n : Notice) : (s.notify n).pcie = s.pcie := rfl
@[simp] theorem State.notify_hall (n : Notice) : (s.notify n).hall = s.hall := rfl
@[simp] theorem State.notify_vault (n : Notice) : (s.notify n).vault = s.vault := rfl
@[simp] theorem State.notify_core (n : Notice) : (s.notify n).core = s.core := rfl
@[simp] theorem State.notify_tap (n : Notice) : (s.notify n).tap = s.tap := rfl
@[simp] theorem State.notify_timeBase (n : Notice) : (s.notify n).timeBase = s.timeBase := rfl

/-! ### noted -/

@[simp] theorem State.noted_pending : (s.noted).pending = s.pending := rfl
@[simp] theorem State.noted_freeCount : (s.noted).freeCount = s.freeCount := rfl
@[simp] theorem State.noted_grade : (s.noted).grade = s.grade := rfl
@[simp] theorem State.noted_regs : (s.noted).regs = s.regs := rfl
@[simp] theorem State.noted_mem : (s.noted).mem = s.mem := rfl
@[simp] theorem State.noted_ecc : (s.noted).ecc = s.ecc := rfl
@[simp] theorem State.noted_bankChange : (s.noted).bankChange = s.bankChange := rfl
@[simp] theorem State.noted_tiles : (s.noted).tiles = s.tiles := rfl
@[simp] theorem State.noted_stns : (s.noted).stns = s.stns := rfl
@[simp] theorem State.noted_scrubAt : (s.noted).scrubAt = s.scrubAt := rfl
@[simp] theorem State.noted_lp5Scrub : (s.noted).lp5Scrub = s.lp5Scrub := rfl
@[simp] theorem State.noted_lp5Train : (s.noted).lp5Train = s.lp5Train := rfl
@[simp] theorem State.noted_mxOpen : (s.noted).mxOpen = s.mxOpen := rfl
@[simp] theorem State.noted_mxDone : (s.noted).mxDone = s.mxDone := rfl
@[simp] theorem State.noted_mxLast : (s.noted).mxLast = s.mxLast := rfl
@[simp] theorem State.noted_tbLatch : (s.noted).tbLatch = s.tbLatch := rfl
@[simp] theorem State.noted_tmrRun : (s.noted).tmrRun = s.tmrRun := rfl
@[simp] theorem State.noted_tmrArmed : (s.noted).tmrArmed = s.tmrArmed := rfl
@[simp] theorem State.noted_dma : (s.noted).dma = s.dma := rfl
@[simp] theorem State.noted_cam : (s.noted).cam = s.cam := rfl
@[simp] theorem State.noted_lc : (s.noted).lc = s.lc := rfl
@[simp] theorem State.noted_flash : (s.noted).flash = s.flash := rfl
@[simp] theorem State.noted_flashCtl : (s.noted).flashCtl = s.flashCtl := rfl
@[simp] theorem State.noted_window : (s.noted).window = s.window := rfl
@[simp] theorem State.noted_serial : (s.noted).serial = s.serial := rfl
@[simp] theorem State.noted_usb : (s.noted).usb = s.usb := rfl
@[simp] theorem State.noted_gio : (s.noted).gio = s.gio := rfl
@[simp] theorem State.noted_links : (s.noted).links = s.links := rfl
@[simp] theorem State.noted_pcie : (s.noted).pcie = s.pcie := rfl
@[simp] theorem State.noted_hall : (s.noted).hall = s.hall := rfl
@[simp] theorem State.noted_vault : (s.noted).vault = s.vault := rfl
@[simp] theorem State.noted_core : (s.noted).core = s.core := rfl
@[simp] theorem State.noted_tap : (s.noted).tap = s.tap := rfl
@[simp] theorem State.noted_notices : (s.noted).notices = s.notices := rfl
@[simp] theorem State.noted_timeBase : (s.noted).timeBase = s.timeBase := rfl

/-! ### reserved -/

@[simp] theorem State.reserved_pending (a : Nat) (v : W32) : (s.reserved a v).pending = s.pending := rfl
@[simp] theorem State.reserved_freeCount (a : Nat) (v : W32) : (s.reserved a v).freeCount = s.freeCount := rfl
@[simp] theorem State.reserved_grade (a : Nat) (v : W32) : (s.reserved a v).grade = s.grade := rfl
@[simp] theorem State.reserved_regs (a : Nat) (v : W32) : (s.reserved a v).regs = s.regs := rfl
@[simp] theorem State.reserved_mem (a : Nat) (v : W32) : (s.reserved a v).mem = s.mem := rfl
@[simp] theorem State.reserved_ecc (a : Nat) (v : W32) : (s.reserved a v).ecc = s.ecc := rfl
@[simp] theorem State.reserved_bankChange (a : Nat) (v : W32) : (s.reserved a v).bankChange = s.bankChange := rfl
@[simp] theorem State.reserved_tiles (a : Nat) (v : W32) : (s.reserved a v).tiles = s.tiles := rfl
@[simp] theorem State.reserved_stns (a : Nat) (v : W32) : (s.reserved a v).stns = s.stns := rfl
@[simp] theorem State.reserved_scrubAt (a : Nat) (v : W32) : (s.reserved a v).scrubAt = s.scrubAt := rfl
@[simp] theorem State.reserved_lp5Scrub (a : Nat) (v : W32) : (s.reserved a v).lp5Scrub = s.lp5Scrub := rfl
@[simp] theorem State.reserved_lp5Train (a : Nat) (v : W32) : (s.reserved a v).lp5Train = s.lp5Train := rfl
@[simp] theorem State.reserved_mxOpen (a : Nat) (v : W32) : (s.reserved a v).mxOpen = s.mxOpen := rfl
@[simp] theorem State.reserved_mxDone (a : Nat) (v : W32) : (s.reserved a v).mxDone = s.mxDone := rfl
@[simp] theorem State.reserved_mxLast (a : Nat) (v : W32) : (s.reserved a v).mxLast = s.mxLast := rfl
@[simp] theorem State.reserved_tbLatch (a : Nat) (v : W32) : (s.reserved a v).tbLatch = s.tbLatch := rfl
@[simp] theorem State.reserved_tmrRun (a : Nat) (v : W32) : (s.reserved a v).tmrRun = s.tmrRun := rfl
@[simp] theorem State.reserved_tmrArmed (a : Nat) (v : W32) : (s.reserved a v).tmrArmed = s.tmrArmed := rfl
@[simp] theorem State.reserved_dma (a : Nat) (v : W32) : (s.reserved a v).dma = s.dma := rfl
@[simp] theorem State.reserved_cam (a : Nat) (v : W32) : (s.reserved a v).cam = s.cam := rfl
@[simp] theorem State.reserved_lc (a : Nat) (v : W32) : (s.reserved a v).lc = s.lc := rfl
@[simp] theorem State.reserved_flash (a : Nat) (v : W32) : (s.reserved a v).flash = s.flash := rfl
@[simp] theorem State.reserved_flashCtl (a : Nat) (v : W32) : (s.reserved a v).flashCtl = s.flashCtl := rfl
@[simp] theorem State.reserved_window (a : Nat) (v : W32) : (s.reserved a v).window = s.window := rfl
@[simp] theorem State.reserved_serial (a : Nat) (v : W32) : (s.reserved a v).serial = s.serial := rfl
@[simp] theorem State.reserved_usb (a : Nat) (v : W32) : (s.reserved a v).usb = s.usb := rfl
@[simp] theorem State.reserved_gio (a : Nat) (v : W32) : (s.reserved a v).gio = s.gio := rfl
@[simp] theorem State.reserved_links (a : Nat) (v : W32) : (s.reserved a v).links = s.links := rfl
@[simp] theorem State.reserved_pcie (a : Nat) (v : W32) : (s.reserved a v).pcie = s.pcie := rfl
@[simp] theorem State.reserved_hall (a : Nat) (v : W32) : (s.reserved a v).hall = s.hall := rfl
@[simp] theorem State.reserved_vault (a : Nat) (v : W32) : (s.reserved a v).vault = s.vault := rfl
@[simp] theorem State.reserved_core (a : Nat) (v : W32) : (s.reserved a v).core = s.core := rfl
@[simp] theorem State.reserved_tap (a : Nat) (v : W32) : (s.reserved a v).tap = s.tap := rfl
@[simp] theorem State.reserved_notices (a : Nat) (v : W32) : (s.reserved a v).notices = s.notices := rfl
@[simp] theorem State.reserved_timeBase (a : Nat) (v : W32) : (s.reserved a v).timeBase = s.timeBase := rfl

/-! ### What the update changes -/

@[simp] theorem State.useFree_freeCount (n : Nat) : (s.useFree n).freeCount = s.freeCount + n := rfl
@[simp] theorem State.notify_notices (n : Notice) : (s.notify n).notices = s.notices ++ [n] := rfl
@[simp] theorem State.noted_undef : s.noted.undef = false := rfl
theorem State.setReg_regs (a : Nat) (v : W32) : (s.setReg a v).regs = smSet regReset s.regs a v := rfl
theorem State.setByte_mem (a : Nat) (v : Byte) : (s.setByte a v).mem = smSet memReset s.mem a v := rfl

/-! ### What the accessors read after an update of another part -/

@[simp] theorem State.setTile_stn (st : Stn) (t : TileNo) (T : Tile) (x : Stn) : (s.setTile st t T).stn x = s.stn x := rfl
@[simp] theorem State.setTile_reg (st : Stn) (t : TileNo) (T : Tile) (x : Nat) : (s.setTile st t T).reg x = s.reg x := rfl
@[simp] theorem State.setTile_fld (st : Stn) (t : TileNo) (T : Tile) (x l w : Nat) : (s.setTile st t T).fld x l w = s.fld x l w := rfl
@[simp] theorem State.setTile_rbit (st : Stn) (t : TileNo) (T : Tile) (x i : Nat) : (s.setTile st t T).rbit x i = s.rbit x i := rfl
@[simp] theorem State.setTile_byte (st : Stn) (t : TileNo) (T : Tile) (x : Nat) : (s.setTile st t T).byte x = s.byte x := rfl
@[simp] theorem State.setTile_upset (st : Stn) (t : TileNo) (T : Tile) (x : Nat) : (s.setTile st t T).upset x = s.upset x := rfl
@[simp] theorem State.setTile_bytes (st : Stn) (t : TileNo) (T : Tile) (x n : Nat) : (s.setTile st t T).bytes x n = s.bytes x n := rfl
@[simp] theorem State.modTile_stn (st : Stn) (t : TileNo) (f : Tile → Tile) (x : Stn) : (s.modTile st t f).stn x = s.stn x := rfl
@[simp] theorem State.modTile_reg (st : Stn) (t : TileNo) (f : Tile → Tile) (x : Nat) : (s.modTile st t f).reg x = s.reg x := rfl
@[simp] theorem State.modTile_fld (st : Stn) (t : TileNo) (f : Tile → Tile) (x l w : Nat) : (s.modTile st t f).fld x l w = s.fld x l w := rfl
@[simp] theorem State.modTile_rbit (st : Stn) (t : TileNo) (f : Tile → Tile) (x i : Nat) : (s.modTile st t f).rbit x i = s.rbit x i := rfl
@[simp] theorem State.modTile_byte (st : Stn) (t : TileNo) (f : Tile → Tile) (x : Nat) : (s.modTile st t f).byte x = s.byte x := rfl
@[simp] theorem State.modTile_upset (st : Stn) (t : TileNo) (f : Tile → Tile) (x : Nat) : (s.modTile st t f).upset x = s.upset x := rfl
@[simp] theorem State.modTile_bytes (st : Stn) (t : TileNo) (f : Tile → Tile) (x n : Nat) : (s.modTile st t f).bytes x n = s.bytes x n := rfl
@[simp] theorem State.setStn_tile (st : Stn) (S : Station) (x : Stn) (y : TileNo) : (s.setStn st S).tile x y = s.tile x y := rfl
@[simp] theorem State.setStn_reg (st : Stn) (S : Station) (x : Nat) : (s.setStn st S).reg x = s.reg x := rfl
@[simp] theorem State.setStn_fld (st : Stn) (S : Station) (x l w : Nat) : (s.setStn st S).fld x l w = s.fld x l w := rfl
@[simp] theorem State.setStn_rbit (st : Stn) (S : Station) (x i : Nat) : (s.setStn st S).rbit x i = s.rbit x i := rfl
@[simp] theorem State.setStn_byte (st : Stn) (S : Station) (x : Nat) : (s.setStn st S).byte x = s.byte x := rfl
@[simp] theorem State.setStn_upset (st : Stn) (S : Station) (x : Nat) : (s.setStn st S).upset x = s.upset x := rfl
@[simp] theorem State.setStn_bytes (st : Stn) (S : Station) (x n : Nat) : (s.setStn st S).bytes x n = s.bytes x n := rfl
@[simp] theorem State.modStn_tile (st : Stn) (f : Station → Station) (x : Stn) (y : TileNo) : (s.modStn st f).tile x y = s.tile x y := rfl
@[simp] theorem State.modStn_reg (st : Stn) (f : Station → Station) (x : Nat) : (s.modStn st f).reg x = s.reg x := rfl
@[simp] theorem State.modStn_fld (st : Stn) (f : Station → Station) (x l w : Nat) : (s.modStn st f).fld x l w = s.fld x l w := rfl
@[simp] theorem State.modStn_rbit (st : Stn) (f : Station → Station) (x i : Nat) : (s.modStn st f).rbit x i = s.rbit x i := rfl
@[simp] theorem State.modStn_byte (st : Stn) (f : Station → Station) (x : Nat) : (s.modStn st f).byte x = s.byte x := rfl
@[simp] theorem State.modStn_upset (st : Stn) (f : Station → Station) (x : Nat) : (s.modStn st f).upset x = s.upset x := rfl
@[simp] theorem State.modStn_bytes (st : Stn) (f : Station → Station) (x n : Nat) : (s.modStn st f).bytes x n = s.bytes x n := rfl
@[simp] theorem State.setReg_tile (a : Nat) (v : W32) (x : Stn) (y : TileNo) : (s.setReg a v).tile x y = s.tile x y := rfl
@[simp] theorem State.setReg_stn (a : Nat) (v : W32) (x : Stn) : (s.setReg a v).stn x = s.stn x := rfl
@[simp] theorem State.setReg_byte (a : Nat) (v : W32) (x : Nat) : (s.setReg a v).byte x = s.byte x := rfl
@[simp] theorem State.setReg_upset (a : Nat) (v : W32) (x : Nat) : (s.setReg a v).upset x = s.upset x := rfl
@[simp] theorem State.setReg_bytes (a : Nat) (v : W32) (x n : Nat) : (s.setReg a v).bytes x n = s.bytes x n := rfl
@[simp] theorem State.setFld_tile (a lo w v : Nat) (x : Stn) (y : TileNo) : (s.setFld a lo w v).tile x y = s.tile x y := rfl
@[simp] theorem State.setFld_stn (a lo w v : Nat) (x : Stn) : (s.setFld a lo w v).stn x = s.stn x := rfl
@[simp] theorem State.setFld_byte (a lo w v : Nat) (x : Nat) : (s.setFld a lo w v).byte x = s.byte x := rfl
@[simp] theorem State.setFld_upset (a lo w v : Nat) (x : Nat) : (s.setFld a lo w v).upset x = s.upset x := rfl
@[simp] theorem State.setFld_bytes (a lo w v : Nat) (x n : Nat) : (s.setFld a lo w v).bytes x n = s.bytes x n := rfl
@[simp] theorem State.setFlag_tile (a i : Nat) (x : Stn) (y : TileNo) : (s.setFlag a i).tile x y = s.tile x y := rfl
@[simp] theorem State.setFlag_stn (a i : Nat) (x : Stn) : (s.setFlag a i).stn x = s.stn x := rfl
@[simp] theorem State.setFlag_byte (a i : Nat) (x : Nat) : (s.setFlag a i).byte x = s.byte x := rfl
@[simp] theorem State.setFlag_upset (a i : Nat) (x : Nat) : (s.setFlag a i).upset x = s.upset x := rfl
@[simp] theorem State.setFlag_bytes (a i : Nat) (x n : Nat) : (s.setFlag a i).bytes x n = s.bytes x n := rfl
@[simp] theorem State.bump_tile (a n : Nat) (x : Stn) (y : TileNo) : (s.bump a n).tile x y = s.tile x y := rfl
@[simp] theorem State.bump_stn (a n : Nat) (x : Stn) : (s.bump a n).stn x = s.stn x := rfl
@[simp] theorem State.bump_byte (a n : Nat) (x : Nat) : (s.bump a n).byte x = s.byte x := rfl
@[simp] theorem State.bump_upset (a n : Nat) (x : Nat) : (s.bump a n).upset x = s.upset x := rfl
@[simp] theorem State.bump_bytes (a n : Nat) (x k : Nat) : (s.bump a n).bytes x k = s.bytes x k := rfl
@[simp] theorem State.setByte_tile (a : Nat) (v : Byte) (x : Stn) (y : TileNo) : (s.setByte a v).tile x y = s.tile x y := rfl
@[simp] theorem State.setByte_stn (a : Nat) (v : Byte) (x : Stn) : (s.setByte a v).stn x = s.stn x := rfl
@[simp] theorem State.setByte_reg (a : Nat) (v : Byte) (x : Nat) : (s.setByte a v).reg x = s.reg x := rfl
@[simp] theorem State.setByte_fld (a : Nat) (v : Byte) (x l w : Nat) : (s.setByte a v).fld x l w = s.fld x l w := rfl
@[simp] theorem State.setByte_rbit (a : Nat) (v : Byte) (x i : Nat) : (s.setByte a v).rbit x i = s.rbit x i := rfl
@[simp] theorem State.setByte_upset (a : Nat) (v : Byte) (x : Nat) : (s.setByte a v).upset x = s.upset x := rfl
@[simp] theorem State.clearMem_tile (lo hi : Nat) (x : Stn) (y : TileNo) : (s.clearMem lo hi).tile x y = s.tile x y := rfl
@[simp] theorem State.clearMem_stn (lo hi : Nat) (x : Stn) : (s.clearMem lo hi).stn x = s.stn x := rfl
@[simp] theorem State.clearMem_reg (lo hi : Nat) (x : Nat) : (s.clearMem lo hi).reg x = s.reg x := rfl
@[simp] theorem State.clearMem_fld (lo hi : Nat) (x l w : Nat) : (s.clearMem lo hi).fld x l w = s.fld x l w := rfl
@[simp] theorem State.clearMem_rbit (lo hi : Nat) (x i : Nat) : (s.clearMem lo hi).rbit x i = s.rbit x i := rfl
@[simp] theorem State.useFree_tile (n : Nat) (x : Stn) (y : TileNo) : (s.useFree n).tile x y = s.tile x y := rfl
@[simp] theorem State.useFree_stn (n : Nat) (x : Stn) : (s.useFree n).stn x = s.stn x := rfl
@[simp] theorem State.useFree_reg (n : Nat) (x : Nat) : (s.useFree n).reg x = s.reg x := rfl
@[simp] theorem State.useFree_fld (n : Nat) (x l w : Nat) : (s.useFree n).fld x l w = s.fld x l w := rfl
@[simp] theorem State.useFree_rbit (n : Nat) (x i : Nat) : (s.useFree n).rbit x i = s.rbit x i := rfl
@[simp] theorem State.useFree_byte (n : Nat) (x : Nat) : (s.useFree n).byte x = s.byte x := rfl
@[simp] theorem State.useFree_upset (n : Nat) (x : Nat) : (s.useFree n).upset x = s.upset x := rfl
@[simp] theorem State.useFree_bytes (n : Nat) (x k : Nat) : (s.useFree n).bytes x k = s.bytes x k := rfl
@[simp] theorem State.notify_tile (n : Notice) (x : Stn) (y : TileNo) : (s.notify n).tile x y = s.tile x y := rfl
@[simp] theorem State.notify_stn (n : Notice) (x : Stn) : (s.notify n).stn x = s.stn x := rfl
@[simp] theorem State.notify_reg (n : Notice) (x : Nat) : (s.notify n).reg x = s.reg x := rfl
@[simp] theorem State.notify_fld (n : Notice) (x l w : Nat) : (s.notify n).fld x l w = s.fld x l w := rfl
@[simp] theorem State.notify_rbit (n : Notice) (x i : Nat) : (s.notify n).rbit x i = s.rbit x i := rfl
@[simp] theorem State.notify_byte (n : Notice) (x : Nat) : (s.notify n).byte x = s.byte x := rfl
@[simp] theorem State.notify_upset (n : Notice) (x : Nat) : (s.notify n).upset x = s.upset x := rfl
@[simp] theorem State.notify_bytes (n : Notice) (x k : Nat) : (s.notify n).bytes x k = s.bytes x k := rfl
@[simp] theorem State.noted_tile (x : Stn) (y : TileNo) : (s.noted).tile x y = s.tile x y := rfl
@[simp] theorem State.noted_stn (x : Stn) : (s.noted).stn x = s.stn x := rfl
@[simp] theorem State.noted_reg (x : Nat) : (s.noted).reg x = s.reg x := rfl
@[simp] theorem State.noted_fld (x l w : Nat) : (s.noted).fld x l w = s.fld x l w := rfl
@[simp] theorem State.noted_rbit (x i : Nat) : (s.noted).rbit x i = s.rbit x i := rfl
@[simp] theorem State.noted_byte (x : Nat) : (s.noted).byte x = s.byte x := rfl
@[simp] theorem State.noted_upset (x : Nat) : (s.noted).upset x = s.upset x := rfl
@[simp] theorem State.noted_bytes (x n : Nat) : (s.noted).bytes x n = s.bytes x n := rfl
@[simp] theorem State.reserved_tile (a : Nat) (v : W32) (x : Stn) (y : TileNo) : (s.reserved a v).tile x y = s.tile x y := rfl
@[simp] theorem State.reserved_stn (a : Nat) (v : W32) (x : Stn) : (s.reserved a v).stn x = s.stn x := rfl
@[simp] theorem State.reserved_reg (a : Nat) (v : W32) (x : Nat) : (s.reserved a v).reg x = s.reg x := rfl
@[simp] theorem State.reserved_fld (a : Nat) (v : W32) (x l w : Nat) : (s.reserved a v).fld x l w = s.fld x l w := rfl
@[simp] theorem State.reserved_rbit (a : Nat) (v : W32) (x i : Nat) : (s.reserved a v).rbit x i = s.rbit x i := rfl
@[simp] theorem State.reserved_byte (a : Nat) (v : W32) (x : Nat) : (s.reserved a v).byte x = s.byte x := rfl
@[simp] theorem State.reserved_upset (a : Nat) (v : W32) (x : Nat) : (s.reserved a v).upset x = s.upset x := rfl
@[simp] theorem State.reserved_bytes (a : Nat) (v : W32) (x n : Nat) : (s.reserved a v).bytes x n = s.bytes x n := rfl

end Sys2Proof.Machine
end

