-- ==== Sys2Proof/Laws/Access.lean ====
section
/-! SUPPORT. What the accessors of tiles, stations, registers and memory read after each named update, and that every operation on
memory and registers keeps their canonical form. -/

namespace Sys2Proof.Machine

variable (s : State)

/-! ### Tiles and stations -/

@[simp] theorem State.tile_setTile (st : Stn) (t : TileNo) (T : Tile) : (s.setTile st t T).tile st t = T := by
  simp [State.tile, State.setTile]

theorem State.tile_setTile_of_ne (st x : Stn) (t y : TileNo) (T : Tile) (h : ¬(x = st ∧ y = t)) :
    (s.setTile st t T).tile x y = s.tile x y := by
  by_cases hx : x = st
  · subst hx
    have hy : y ≠ t := fun e => h ⟨rfl, e⟩
    have : (t : Nat) ≠ y := fun e => hy (Fin.ext e.symm)
    simp [State.tile, State.setTile, this]
  · have : (st : Nat) ≠ x := fun e => hx (Fin.ext e.symm)
    simp [State.tile, State.setTile, this]

@[simp] theorem State.tile_modTile (st : Stn) (t : TileNo) (f : Tile → Tile) : (s.modTile st t f).tile st t = f (s.tile st t) := by
  simp [State.modTile]

@[simp] theorem State.setTile_setTile (st : Stn) (t : TileNo) (T U : Tile) : (s.setTile st t T).setTile st t U = s.setTile st t U := by
  simp [State.setTile]

theorem State.modTile_def (st : Stn) (t : TileNo) (f : Tile → Tile) : s.modTile st t f = s.setTile st t (f (s.tile st t)) := rfl

@[simp] theorem State.stn_setStn (st : Stn) (S : Station) : (s.setStn st S).stn st = S := by
  simp [State.stn, State.setStn]

theorem State.stn_setStn_of_ne (st x : Stn) (S : Station) (h : x ≠ st) : (s.setStn st S).stn x = s.stn x := by
  have : (st : Nat) ≠ x := fun e => h (Fin.ext e.symm)
  simp [State.stn, State.setStn, this]

@[simp] theorem State.stn_modStn (st : Stn) (f : Station → Station) : (s.modStn st f).stn st = f (s.stn st) := by
  simp [State.modStn]

/-! ### Registers -/

theorem State.reg_setReg_of_ne (a b : Nat) (v : W32) (h : b ≠ a) : (s.setReg a v).reg b = s.reg b :=
  smGet_set_of_ne regReset s.regs v h

theorem State.reg_setReg_same (a : Nat) (v : W32) (h : Registers.wf s = true) : (s.setReg a v).reg a = v :=
  smGet_set_same regReset s.regs a v h

theorem State.reg_setFld_of_ne (a b lo w v : Nat) (h : b ≠ a) : (s.setFld a lo w v).reg b = s.reg b :=
  s.reg_setReg_of_ne a b _ h

theorem State.reg_bump_of_ne (a b n : Nat) (h : b ≠ a) : (s.bump a n).reg b = s.reg b := s.reg_setReg_of_ne a b _ h

theorem setReg_wf (a : Nat) (v : W32) (h : Registers.wf s = true) : Registers.wf (s.setReg a v) = true :=
  smSet_wf regReset s.regs a v h

theorem setFld_wf (a lo w v : Nat) (h : Registers.wf s = true) : Registers.wf (s.setFld a lo w v) = true :=
  setReg_wf s a _ h

theorem setFlag_wf (a i : Nat) (h : Registers.wf s = true) : Registers.wf (s.setFlag a i) = true := setFld_wf s a i 1 1 h

theorem bump_wf (a n : Nat) (h : Registers.wf s = true) : Registers.wf (s.bump a n) = true := setReg_wf s a _ h

/-! ### Memory -/

theorem State.byte_setByte_of_ne (a b : Nat) (v : Byte) (h : b ≠ a) : (s.setByte a v).byte b = s.byte b :=
  smGet_set_of_ne memReset s.mem v h

theorem State.byte_setByte_same (a : Nat) (v : Byte) (h : Memory.wf s = true) : (s.setByte a v).byte a = v :=
  smGet_set_same memReset s.mem a v h

theorem setByte_wf (a : Nat) (v : Byte) (h : Memory.wf s = true) : Memory.wf (s.setByte a v) = true :=
  smSet_wf memReset s.mem a v h

theorem setBytes_wf (bs : List Byte) (a : Nat) (h : Memory.wf s = true) : Memory.wf (s.setBytes a bs) = true := by
  induction bs generalizing s a with
  | nil => exact h
  | cons b bs ih => exact ih _ _ (setByte_wf s a b h)

theorem setLe_wf (a n v : Nat) (h : Memory.wf s = true) : Memory.wf (s.setLe a n v) = true := setBytes_wf s _ a h

theorem clearMem_wf (lo hi : Nat) (h : Memory.wf s = true) : Memory.wf (s.clearMem lo hi) = true :=
  smDrop_wf memReset s.mem lo hi h

/-- Bytes written leave every byte outside them alone. -/
theorem State.byte_setBytes_outside (bs : List Byte) (a b : Nat) (h : b < a ∨ a + bs.length ≤ b) :
    (s.setBytes a bs).byte b = s.byte b := by
  induction bs generalizing s a with
  | nil => rfl
  | cons x bs ih =>
    simp only [List.length_cons] at h
    rw [State.setBytes, ih _ _ (by omega)]
    exact s.byte_setByte_of_ne a b x (by omega)

/-- A byte written is the byte read. -/
theorem State.byte_setBytes_inside (bs : List Byte) (a i : Nat) (hw : Memory.wf s = true) (h : i < bs.length) :
    (s.setBytes a bs).byte (a + i) = bs[i] := by
  induction bs generalizing s a i with
  | nil => simp at h
  | cons x bs ih =>
    cases i with
    | zero =>
      rw [State.setBytes, State.byte_setBytes_outside _ _ _ _ (by omega)]
      exact s.byte_setByte_same a x hw
    | succ i =>
      have := ih (s.setByte a x) (a + 1) i (setByte_wf s a x hw) (by simpa using h)
      simpa [State.setBytes, Nat.add_assoc, Nat.add_comm 1] using this

@[simp] theorem State.setBytes_tiles (bs : List Byte) (a : Nat) : (s.setBytes a bs).tiles = s.tiles := by
  induction bs generalizing s a with
  | nil => rfl
  | cons b bs ih => rw [State.setBytes, ih]; rfl

@[simp] theorem State.setBytes_regs (bs : List Byte) (a : Nat) : (s.setBytes a bs).regs = s.regs := by
  induction bs generalizing s a with
  | nil => rfl
  | cons b bs ih => rw [State.setBytes, ih]; rfl

theorem foldUpset_mem (f : Nat → Nat) (u : Upset) (ws : List Nat) :
    (ws.foldl (fun s w => s.setUpset (f w) u) s).mem = s.mem := by
  induction ws generalizing s with
  | nil => rfl
  | cons w ws ih => rw [List.foldl_cons, ih]; cases u <;> rfl

/-- A write to tile data memory is a write of its bytes, beside their check bits. -/
theorem State.writeData_mem (st : Stn) (t : TileNo) (off : Nat) (bs : List Byte) :
    (s.writeData st t off bs).mem = (s.setBytes (tileData st t off) bs).mem := foldUpset_mem _ _ _ _

theorem State.byte_writeData (st : Stn) (t : TileNo) (off : Nat) (bs : List Byte) (a : Nat) :
    (s.writeData st t off bs).byte a = (s.setBytes (tileData st t off) bs).byte a :=
  congrArg (smGet memReset · a) (s.writeData_mem st t off bs)

theorem writeData_wf (st : Stn) (t : TileNo) (off : Nat) (bs : List Byte) (h : Memory.wf s = true) :
    Memory.wf (s.writeData st t off bs) = true := by
  have := setBytes_wf s bs (tileData st t off) h
  unfold Memory.wf at *
  rwa [s.writeData_mem]

end Sys2Proof.Machine
end

