-- ==== Sys2Proof/Laws/Registers.lean ====
section
/-! SUPPORT. Bytes held in consecutive registers: what writing them leaves and what reading them gives. -/

namespace Sys2Proof.Machine

/-- A write of bytes to registers leaves every other register. -/
theorem State.reg_setRegBytes_of_ne (s : State) (a b : Nat) (bs : List Byte) (h : ∀ i < bs.length / 4, b ≠ a + 4 * i) :
    (s.setRegBytes a bs).reg b = s.reg b := by
  rw [State.setRegBytes]
  generalize bs.length / 4 = n at h
  induction n with
  | zero => rfl
  | succ n ih =>
    rw [List.range_succ, List.foldl_append, List.foldl_cons, List.foldl_nil, State.reg_setReg_of_ne _ _ _ _ (h n (by omega))]
    exact ih fun i hi => h i (by omega)

/-- Nothing but registers changes. -/
theorem State.setRegBytes_eq (s : State) (a : Nat) (bs : List Byte) : s.setRegBytes a bs = { s with regs := (s.setRegBytes a bs).regs } := by
  rw [State.setRegBytes]
  generalize bs.length / 4 = n
  induction n with
  | zero => rfl
  | succ n ih =>
    rw [List.range_succ, List.foldl_append, List.foldl_cons, List.foldl_nil, ih]
    rfl

theorem setRegBytes_wf (s : State) (a : Nat) (bs : List Byte) (h : Registers.wf s = true) : Registers.wf (s.setRegBytes a bs) = true := by
  rw [State.setRegBytes]
  generalize bs.length / 4 = n
  induction n with
  | zero => exact h
  | succ n ih =>
    rw [List.range_succ, List.foldl_append]
    exact setReg_wf _ _ _ ih

/-- Each register holds its four bytes. -/
theorem State.reg_setRegBytes (s : State) (a i : Nat) (bs : List Byte) (hw : Registers.wf s = true) (h : i < bs.length / 4) :
    (s.setRegBytes a bs).reg (a + 4 * i) = leBv 32 (slice bs (4 * i) 4) := by
  rw [State.setRegBytes]
  revert h
  suffices H : ∀ n, Registers.wf ((List.range n).foldl (fun s i => s.setReg (a + 4 * i) (leBv 32 (slice bs (4 * i) 4))) s) = true ∧
      (i < n → ((List.range n).foldl (fun s i => s.setReg (a + 4 * i) (leBv 32 (slice bs (4 * i) 4))) s).reg (a + 4 * i) =
        leBv 32 (slice bs (4 * i) 4)) from (H _).2
  intro n
  induction n with
  | zero => exact ⟨hw, fun h => absurd h (by omega)⟩
  | succ n ih =>
    rw [List.range_succ, List.foldl_append, List.foldl_cons, List.foldl_nil]
    refine ⟨setReg_wf _ _ _ ih.1, fun h => ?_⟩
    by_cases e : i = n
    · rw [e, State.reg_setReg_same _ _ _ ih.1]
    · rw [State.reg_setReg_of_ne _ _ _ _ (by omega)]
      exact ih.2 (by omega)

theorem leNat_lt : ∀ bs : List Byte, leNat bs < 256 ^ bs.length
  | [] => by simp [leNat]
  | b :: bs => by
    have := leNat_lt bs
    have := b.isLt
    simp only [leNat, List.length_cons, Nat.pow_succ]
    omega

theorem leBytes_leNat : ∀ bs : List Byte, leBytes bs.length (leNat bs) = bs
  | [] => rfl
  | b :: bs => by
    have hb := b.isLt
    have h : (b.toNat + 256 * leNat bs) / 256 = leNat bs := by omega
    rw [leNat, List.length_cons, leBytes, h, leBytes_leNat bs]
    congr 1
    apply BitVec.eq_of_toNat_eq
    simp only [BitVec.toNat_ofNat]
    omega

/-- Bytes that were made of a number give it back. -/
theorem leNat_leBytes : ∀ n v : Nat, v < 256 ^ n → leNat (leBytes n v) = v
  | 0, v, h => by simp only [Nat.pow_zero] at h; rw [leBytes, leNat]; omega
  | n + 1, v, h => by
    rw [leBytes, leNat, leNat_leBytes n (v / 256) (by rw [Nat.pow_succ] at h; omega)]
    simp only [BitVec.toNat_ofNat]
    omega

theorem leBytes_leBv (bs : List Byte) (h : bs.length = 4) : leBytes 4 (leBv 32 bs).toNat = bs := by
  have lt := leNat_lt bs
  rw [h] at lt
  rw [leBv, BitVec.toNat_ofNat, Nat.mod_eq_of_lt (by simpa using lt)]
  conv_rhs => rw [← leBytes_leNat bs, h]

/-- A list cut into fours and joined again. -/
theorem flatMap_slices : ∀ (n : Nat) (bs : List Byte), bs.length = 4 * n → ((List.range n).flatMap fun i => slice bs (4 * i) 4) = bs
  | 0, bs, h => by
    have e : bs = [] := List.length_eq_zero_iff.1 (by omega)
    rw [e]
    rfl
  | n + 1, bs, h => by
    match bs, h with
    | w :: x :: y :: z :: bs, h =>
      have ih := flatMap_slices n bs (by simp only [List.length_cons] at h; omega)
      have e : ∀ i, slice (w :: x :: y :: z :: bs) (4 * (i + 1)) 4 = slice bs (4 * i) 4 := fun i => by
        refine List.map_congr_left fun j _ => ?_
        rw [show 4 * (i + 1) + j = 4 * i + j + 1 + 1 + 1 + 1 by omega]
        rfl
      rw [List.range_succ_eq_map, List.flatMap_cons, List.flatMap_map]
      simp only [Nat.succ_eq_add_one, e, ih]
      rfl

/-- Reading back the bytes that were written. -/
theorem State.regBytes_setRegBytes (s : State) (a : Nat) (bs : List Byte) (hw : Registers.wf s = true) (h : bs.length % 4 = 0) :
    (s.setRegBytes a bs).regBytes a bs.length = bs := by
  conv_rhs => rw [← flatMap_slices (bs.length / 4) bs (by omega)]
  rw [State.regBytes, List.flatMap_def, List.flatMap_def]
  refine congrArg List.flatten (List.map_congr_left fun i hi => ?_)
  rw [s.reg_setRegBytes a i bs hw (List.mem_range.1 hi), leBytes_leBv _ (by simp [slice])]

/-- Reading back a part of the bytes just written. -/
theorem State.regBytes_part (s : State) (a o n : Nat) (bs : List Byte) (hw : Registers.wf s = true) (ho : o % 4 = 0) (hn : n % 4 = 0)
    (h : o + n ≤ bs.length) : (s.setRegBytes a bs).regBytes (a + o) n = slice bs o n := by
  have cut := flatMap_slices (n / 4) (slice bs o n) (by simp [slice]; omega)
  rw [← cut, State.regBytes, List.flatMap_def, List.flatMap_def]
  refine congrArg List.flatten (List.map_congr_left fun i hi => ?_)
  have hi := List.mem_range.1 hi
  rw [show a + o + 4 * i = a + 4 * (o / 4 + i) by omega, s.reg_setRegBytes a _ bs hw (by omega), leBytes_leBv _ (by simp [slice]),
    show 4 * (o / 4 + i) = o + 4 * i by omega]
  refine List.map_congr_left fun j hj => ?_
  have hj := List.mem_range.1 hj
  simp [slice, show 4 * i + j < n by omega, Nat.add_assoc]
/-- One byte of the bytes just written. -/
theorem State.regByte_setRegBytes (s : State) (a i : Nat) (bs : List Byte) (hw : Registers.wf s = true) (h : i / 4 < bs.length / 4) :
    ((s.setRegBytes a bs).reg (a + i / 4 * 4)).extractLsb' (8 * (i % 4)) 8 = bs.getD i 0 := by
  obtain ⟨q, k, rfl, hk⟩ : ∃ q k, i = 4 * q + k ∧ k < 4 := ⟨i / 4, i % 4, by omega, by omega⟩
  have hq : (4 * q + k) / 4 = q := by omega
  rw [hq] at h
  rw [hq, show (4 * q + k) % 4 = k by omega, show a + q * 4 = a + 4 * q by omega, s.reg_setRegBytes a q bs hw h]
  have e : slice bs (4 * q) 4 = [bs.getD (4 * q + 0) 0, bs.getD (4 * q + 1) 0, bs.getD (4 * q + 2) 0, bs.getD (4 * q + 3) 0] := rfl
  rw [e]
  generalize ha : bs.getD (4 * q + 0) 0 = x0
  generalize hb : bs.getD (4 * q + 1) 0 = x1
  generalize hc : bs.getD (4 * q + 2) 0 = x2
  generalize hd : bs.getD (4 * q + 3) 0 = x3
  have := x0.isLt
  have := x1.isLt
  have := x2.isLt
  have := x3.isLt
  obtain rfl | rfl | rfl | rfl : k = 0 ∨ k = 1 ∨ k = 2 ∨ k = 3 := by omega
  all_goals
    apply BitVec.eq_of_toNat_eq
    simp only [BitVec.extractLsb'_toNat, leBv, leNat, BitVec.toNat_ofNat, Nat.shiftRight_eq_div_pow, ha, hb, hc, hd]
    omega

/-- Bytes of registers that a write to others left. -/
theorem State.regBytes_setRegBytes_of_ne (s : State) (a b n : Nat) (bs : List Byte)
    (h : ∀ i < n / 4, ∀ j < bs.length / 4, b + 4 * i ≠ a + 4 * j) : (s.setRegBytes a bs).regBytes b n = s.regBytes b n := by
  rw [State.regBytes, State.regBytes, List.flatMap_def, List.flatMap_def]
  refine congrArg List.flatten (List.map_congr_left fun i hi => ?_)
  rw [s.reg_setRegBytes_of_ne a _ bs fun j hj => h i (List.mem_range.1 hi) j hj]

/-! ### Lengths -/

@[simp] theorem leBytes_length : ∀ n v : Nat, (leBytes n v).length = n
  | 0, _ => rfl
  | n + 1, v => by rw [leBytes, List.length_cons, leBytes_length n]

@[simp] theorem beBytes_length (n v : Nat) : (beBytes n v).length = n := by rw [beBytes, List.length_reverse, leBytes_length]

theorem runRounds_length (ks : List W64) :
    ∀ (a b c d e f g h : W64) (win : List W64), (runRounds a b c d e f g h win ks).length = 8 := by
  induction ks with
  | nil => intros; rfl
  | cons k ks ih => intros; exact ih ..

theorem chainBlock_length (chain : List W64) (block : List Byte) (h : chain.length = 8) : (chainBlock chain block).length = 8 := by
  unfold chainBlock
  split
  · rw [List.length_zipWith, runRounds_length]; rfl
  · exact h

theorem chainBlocks_length (n : Nat) :
    ∀ (chain : List W64) (m : List Byte), chain.length = 8 → (chainBlocks chain m n).length = 8 := by
  induction n with
  | zero => exact fun _ _ h => h
  | succ n ih => exact fun chain m h => ih _ _ (chainBlock_length chain _ h)

/-- A digest is 64 bytes. -/
@[simp] theorem sha512_length (m : List Byte) : (sha512 m).length = 64 := by
  simp [sha512, List.length_flatMap, chainBlocks_length _ firstChain _ rfl]

end Sys2Proof.Machine
end

