-- ==== Sys2Proof/Laws/Image.lean ====
section
/-! SUPPORT. Signatures that verify by construction: for every digest there is an encoded message that encodes it, and the modulus one above
an encoded message, taken as a number, makes that message its own signature. When an image is accepted. -/

namespace Sys2Proof.Machine

/-! ### Numbers of bytes -/

theorem leNat_append : ∀ xs ys : List Byte, leNat (xs ++ ys) = leNat xs + 256 ^ xs.length * leNat ys
  | [], ys => by simp [leNat]
  | x :: xs, ys => by
    rw [List.cons_append, leNat, leNat, leNat_append xs ys, List.length_cons, Nat.pow_succ]
    rw [Nat.mul_add, ← Nat.add_assoc, ← Nat.mul_assoc, Nat.mul_comm 256 (256 ^ xs.length)]

theorem foldl_be : ∀ (bs : List Byte) (a : Nat),
    bs.foldl (fun n b => 256 * n + b.toNat) a = 256 ^ bs.length * a + leNat bs.reverse
  | [], a => by simp [leNat]
  | b :: bs, a => by
    rw [List.foldl_cons, foldl_be bs, List.reverse_cons, leNat_append, List.length_reverse, List.length_cons, Nat.pow_succ]
    simp only [leNat]
    rw [Nat.mul_add, ← Nat.mul_assoc, Nat.mul_zero, Nat.add_zero]
    omega

theorem beNat_eq (bs : List Byte) : beNat bs = leNat bs.reverse := by
  rw [beNat, foldl_be]
  omega

theorem beBytes_beNat (bs : List Byte) : beBytes bs.length (beNat bs) = bs := by
  rw [beBytes, beNat_eq, ← List.length_reverse, leBytes_leNat, List.reverse_reverse]

/-! ### The signature -/

/-- x is its own power under the modulus x + 1. -/
theorem pow65537_self (x : Nat) (h : 0 < x) : pow65537 (x + 1) x = x := by
  have one : ∀ k, sqMod (x + 1) k 1 = 1 := fun k => by
    induction k with
    | zero => exact Nat.mod_eq_of_lt (by omega)
    | succ k ih => rw [sqMod, Nat.mul_one, Nat.mod_eq_of_lt (by omega), ih]
  have sq : x * x % (x + 1) = 1 := by
    obtain ⟨y, rfl⟩ : ∃ y, x = y + 1 := ⟨x - 1, by omega⟩
    rw [show (y + 1) * (y + 1) = 1 + (y + 1 + 1) * y by simp only [Nat.add_mul, Nat.mul_add]; omega, Nat.add_mul_mod_self_left]
    exact Nat.mod_eq_of_lt (by omega)
  rw [pow65537, sqMod, sq, one, Nat.one_mul, Nat.mod_eq_of_lt (by omega)]

/-- The data block with a salt of zeros, past its first byte. -/
def pssTail : List Byte := List.replicate 381 0 ++ [1] ++ List.replicate 64 0
theorem pssTail_length : pssTail.length = 446 := by
  rw [pssTail]
  simp only [List.length_append, List.length_replicate, List.length_cons, List.length_nil]
/-- The first byte, masked twice. -/
theorem maskedBit : ∀ m : Byte, ((m &&& 0x7F) ^^^ m) &&& 0x7F = 0 ∧ (m &&& 0x7F).toNat < 128 := by decide
def pssHash (digest : List Byte) : List Byte := sha512 (List.replicate 8 0 ++ digest ++ List.replicate 64 0)
/-- An encoded message of a digest, with a salt of zeros. -/
def pssEm (digest : List Byte) : List Byte :=
  let mask := mgf1 (pssHash digest) 447
  ((mask.headD 0 &&& 0x7F) :: List.zipWith (· ^^^ ·) pssTail mask.tail) ++ pssHash digest ++ [0xBC]

theorem mgf1_length (seed : List Byte) : (mgf1 seed 447).length = 447 := by
  simp [mgf1, List.length_flatMap]

theorem pssEm_length (digest : List Byte) : (pssEm digest).length = 512 := by
  simp only [pssEm, pssHash, List.length_append, List.length_cons, List.length_nil, List.length_zipWith, pssTail_length,
    List.length_tail, mgf1_length, sha512_length]
  rfl

theorem zipWith_xor_self : ∀ xs ys : List Byte, xs.length = ys.length →
    List.zipWith (· ^^^ ·) (List.zipWith (· ^^^ ·) xs ys) ys = xs
  | [], [], _ => rfl
  | x :: xs, y :: ys, h => by
    simp only [List.zipWith_cons_cons, zipWith_xor_self xs ys (by simpa using h), BitVec.xor_assoc, BitVec.xor_self, BitVec.xor_zero]

theorem pssOk_pssEm (digest : List Byte) : pssOk (pssEm digest) digest = true := by
  have hl := mgf1_length (pssHash digest)
  have hh : (pssHash digest).length = 64 := sha512_length _
  obtain ⟨m, ms, e⟩ : ∃ m ms, mgf1 (pssHash digest) 447 = m :: ms := List.exists_cons_of_length_pos (by omega)
  have hms : ms.length = 446 := by
    rw [e, List.length_cons] at hl
    omega
  let M : List Byte := (m &&& 0x7F) :: List.zipWith (· ^^^ ·) pssTail ms
  have hM : M.length = 447 := by
    simp only [M, List.length_cons, List.length_zipWith, pssTail_length, hms]
    rfl
  have em : pssEm digest = M ++ (pssHash digest ++ [0xBC]) := by
    simp only [pssEm, e, List.headD_cons, List.tail_cons, M, List.append_assoc]
  have masked : (pssEm digest).take 447 = M := by rw [em, List.take_append_of_le_length (by omega), List.take_of_length_le (by omega)]
  have rest : (pssEm digest).drop 447 = pssHash digest ++ [0xBC] := by
    rw [em, List.drop_append_of_le_length (by omega), List.drop_of_length_le (by omega), List.nil_append]
  have hash : ((pssEm digest).drop 447).take 64 = pssHash digest := by
    rw [rest, List.take_append_of_le_length (by omega), List.take_of_length_le (by omega)]
  have last : (pssEm digest).getD 511 0 = 0xBC := by
    rw [em, List.getD_append_right _ _ _ _ (by omega), List.getD_append_right _ _ _ _ (by omega), hM, hh]
    rfl
  have first : (pssEm digest).headD 0 = m &&& 0x7F := by rw [em]; rfl
  have db : List.zipWith (· ^^^ ·) M (m :: ms) = ((m &&& 0x7F) ^^^ m) :: pssTail := by
    simp only [M, List.zipWith_cons_cons]
    rw [zipWith_xor_self _ _ (by rw [hms, pssTail_length])]
  simp only [pssOk, masked, hash, e, db, last, first, (maskedBit m).1]
  simp only [(maskedBit m).2, decide_true, Bool.and_eq_true, beq_iff_eq]
  refine ⟨⟨⟨trivial, trivial⟩, by decide +kernel⟩, ?_⟩
  rw [pssHash, show List.drop 383 ((0 : Byte) :: pssTail) = List.replicate 64 0 by decide +kernel]

theorem beNat_pssEm_pos (digest : List Byte) : 0 < beNat (pssEm digest) := by
  rw [beNat_eq, pssEm, List.reverse_append]
  simp [leNat]

/-- An encoded message is its own signature under the modulus one above it. -/
theorem rsaVerify_self (digest : List Byte) : rsaVerify (beNat (pssEm digest) + 1) digest (pssEm digest) = true := by
  have e : beBytes 512 (beNat (pssEm digest)) = pssEm digest := by
    have := beBytes_beNat (pssEm digest)
    rwa [pssEm_length] at this
  rw [rsaVerify, pow65537_self _ (beNat_pssEm_pos digest), e, pssOk_pssEm]
  simp

/-! ### Images -/

/-- An image that passes each check is accepted. -/
theorem verifyImage_accepts (s : State) (kind key : Nat) (m : List Host.Cell) (img : List Byte) (h1 : headerOk m = true)
    (h2 : hdr m 4 1 = kind) (h3 : kind = 2 → hdr m 5 1 = s.grade.code) (h4 : firstBytes (1024 + hdr m 0x10 4) m = some img)
    (h5 : s.keyModulus (hdr m 0xC 1) = some key)
    (h6 : rsaVerify key (sha512 (img.take 512 ++ img.drop 1024)) (slice img 512 512) = true)
    (h7 : ¬hdr m 8 4 < (if kind = 1 then s.vault.hallMin else s.vault.stnMin))
    (h8 : kind = 2 → directoryOk (img.drop 1024) = true) :
    s.verifyImage kind m = ⟨1, sha512 (img.take 512 ++ img.drop 1024), img⟩ := by
  have h3' : ¬(kind = 2 ∧ hdr m 5 1 ≠ s.grade.code) := fun h => h.2 (h3 h.1)
  have h8' : ¬(kind = 2 ∧ (!directoryOk (img.drop 1024)) = true) := fun h => by simp [h8 h.1] at h
  simp only [State.verifyImage, h1, h2, h3', h4, h5, h6, h7, h8']
  simp

end Sys2Proof.Machine
end

