-- ==== Sys2Proof/Laws/Matrix.lean ====
section
/-! SUPPORT. What an access that a master makes at once does to the matrix (11 R308, R311). -/

namespace Sys2Proof.Machine

/-- A grant goes to one of the masters it may go to. -/
theorem mxPick_mem {s : State} {g : Target} {ms : List Master} {m : Master} {p : Nat} (h : s.mxPick g ms = some (m, p)) : m ∈ ms := by
  simp only [State.mxPick, Option.map_eq_some_iff, Prod.mk.injEq] at h
  obtain ⟨x, hx, rfl, -⟩ := h
  have low : ∀ y ∈ ms.filter fun m => s.mxPri m g == ms.foldl (fun p m => max p (s.mxPri m g)) 0, y ∈ ms :=
    fun y hy => List.mem_of_mem_filter hy
  rcases Option.or_eq_some_iff.1 hx with h | ⟨-, h⟩
  · split at h
    · cases h
    · exact low _ (List.mem_of_find?_eq_some h)
  · exact low _ (List.mem_of_head? h)

/-- Where no master has a piece waiting, nothing is granted first. -/
theorem mxAhead_quiet {s : State} (h : ∀ m g, s.mxWaits m g = false) (g : Target) (m : Master) (first : Bool) :
    ∀ n, s.mxAhead g m first n = s
  | 0 => rfl
  | n + 1 => by
    rw [State.mxAhead]
    split
    · rfl
    · rename_i x p e
      have : x = m := by simpa [h] using mxPick_mem e
      rw [if_pos ⟨this, by simp [h]⟩]

/-- An access of one master, where no other has a piece waiting, takes its grant and changes nothing else. -/
theorem mxEnter_quiet {s : State} (h : ∀ m g, s.mxWaits m g = false) (m : Master) (a : Nat) (first : Bool) :
    s.mxEnter m a first = s.mxTake m a := by
  rw [State.mxEnter]
  split
  · rename_i e
    rw [State.mxTake, e]
  · rw [mxAhead_quiet h]

theorem mxTake_eq (s : State) (m : Master) (a : Nat) : ∃ l, s.mxTake m a = { s with mxLast := l } := by
  rw [State.mxTake]
  split
  · exact ⟨s.mxLast, rfl⟩
  · exact ⟨_, rfl⟩

/-- What was granted last says nothing of where an address leads. -/
theorem mxTarget_last (s : State) (l : List (Nat × Nat)) : ({ s with mxLast := l } : State).mxTarget = s.mxTarget := by
  funext a
  have place : ({ s with mxLast := l } : State).memPlace a = s.memPlace a := by
    unfold State.memPlace
    rfl
  have mapped : ({ s with mxLast := l } : State).mapped a = s.mapped a := by
    simp only [State.mapped, place]
    rfl
  simp only [State.mxTarget, mapped]
  rfl
theorem camTargets_last (s : State) (l : List (Nat × Nat)) (st : Stn) (k : Fin 8) :
    ({ s with mxLast := l } : State).camTargets st k = s.camTargets st k := by
  rw [State.camTargets, mxTarget_last]
  rfl
theorem dmaTargets_last (s : State) (l : List (Nat × Nat)) (n : Fin 16) :
    ({ s with mxLast := l } : State).dmaTargets n = s.dmaTargets n := by
  have req : ({ s with mxLast := l } : State).dmaReqTarget = s.dmaReqTarget := by
    funext d r
    simp only [State.dmaReqTarget, mxTarget_last]
  have ready : ({ s with mxLast := l } : State).dmaReady = s.dmaReady := by
    funext d rs
    unfold State.dmaReady
    rw [req]
  simp only [State.dmaTargets, ready, req, mxTarget_last]
  rfl
/-- What was granted last says nothing of who waits. -/
theorem mxWaits_last (s : State) (l : List (Nat × Nat)) (m : Master) (g : Target) :
    ({ s with mxLast := l } : State).mxWaits m g = s.mxWaits m g := by
  have served : ({ s with mxLast := l } : State).camServed = s.camServed := rfl
  simp only [State.mxWaits, dmaTargets_last, camTargets_last, served]

/-- What the firmware keeps says nothing of who waits. -/
theorem mxWaits_modHall (s : State) (f : Hall → Hall) (m : Master) (g : Target) : (s.modHall f).mxWaits m g = s.mxWaits m g := by
  have target : (s.modHall f).mxTarget = s.mxTarget := by
    funext a
    have place : (s.modHall f).memPlace a = s.memPlace a := by
      unfold State.memPlace
      rfl
    have mapped : (s.modHall f).mapped a = s.mapped a := by
      simp only [State.mapped, place]
      rfl
    simp only [State.mxTarget, mapped]
    rfl
  have req : (s.modHall f).dmaReqTarget = s.dmaReqTarget := by
    funext d r
    simp only [State.dmaReqTarget, target]
  have ready : (s.modHall f).dmaReady = s.dmaReady := by
    funext d rs
    unfold State.dmaReady
    rw [req]
  have dma : ∀ n, (s.modHall f).dmaTargets n = s.dmaTargets n := fun n => by
    simp only [State.dmaTargets, ready, req, target]
    rfl
  have cam : ∀ st k, (s.modHall f).camTargets st k = s.camTargets st k := fun st k => by
    rw [State.camTargets, target]
    rfl
  have served : (s.modHall f).camServed = s.camServed := rfl
  simp only [State.mxWaits, dma, cam, served]
  rfl

/-- An access of the firmware, where no master has a piece waiting, takes its grants and changes nothing else. -/
theorem fwEnter_quiet {s : State} (h : ∀ m g, s.mxWaits m g = false) (a n : Nat) : ∃ l, s.fwEnter a n = { s with mxLast := l } := by
  have go : ∀ (is : List Nat) (f : Nat → Nat) (l : List (Nat × Nat)),
      ∃ k, is.foldl (fun s i => s.mxEnter mHall (f i)) { s with mxLast := l } = { s with mxLast := k } := by
    intro is f
    induction is with
    | nil => exact fun l => ⟨l, rfl⟩
    | cons i is ih =>
      intro l
      rw [List.foldl_cons, mxEnter_quiet (by simpa only [mxWaits_last] using h)]
      obtain ⟨k, e⟩ := mxTake_eq { s with mxLast := l } mHall (f i)
      rw [e]
      exact ih k
  exact go _ _ s.mxLast

end Sys2Proof.Machine
end

