-- ==== Sys2Proof/Laws/Operations.lean ====
section
/-! SUPPORT. What shared operations can do, said once each: what decoding answers, what a held reset stops, repairs and divisors, the
meetings of two ports, a channel's requests, and what waits for the Hall. -/

namespace Sys2Proof.Machine

/-! ### Decoding -/

theorem DRes.bind_ok {α β : Type} {x : DRes α} {f : α → DRes β} {b : β} (h : x.bind f = .ok b) : ∃ a, x = .ok a ∧ f a = .ok b := by
  cases x with
  | ok a => exact ⟨a, rfl, h⟩
  | bad => cases h
  | need => cases h

/-- Every move decoded has the source and the destination that its bytes name, and a guard where the mask gives one. -/
theorem decMoves_ok {fetch : Nat → DRes Byte} {mask : Byte} : ∀ {n k p : Nat} {r : List Move × Nat},
    decMoves fetch mask n k p = .ok r → r.1.length = n ∧ ∀ m ∈ r.1, sourceOf m.srcByte = some m.src ∧ destOf m.dstByte = some m.dst
  | 0, _, _, r, h => by cases h; simp
  | n + 1, k, p, r, h => by
    rw [decMoves] at h
    obtain ⟨sb, -, h⟩ := DRes.bind_ok h
    split at h
    · cases h
    · rename_i src hs
      obtain ⟨db, -, h⟩ := DRes.bind_ok h
      split at h
      · cases h
      · rename_i dst hd
        obtain ⟨g, -, h⟩ := DRes.bind_ok h
        obtain ⟨v, -, h⟩ := DRes.bind_ok h
        obtain ⟨r', hr, h⟩ := DRes.bind_ok h
        cases h
        obtain ⟨len, all⟩ := decMoves_ok hr
        refine ⟨by simp [len], fun m hm => ?_⟩
        rcases List.mem_cons.1 hm with rfl | hm
        · exact ⟨hs, hd⟩
        · exact all m hm

/-- A decoded instruction has at most eight moves, of sockets that exist. -/
theorem decodeInsn_ok {fetch : Nat → DRes Byte} {a : Nat} {i : Insn} (h : decodeInsn fetch a = .ok i) :
    i.moves.length ≤ 8 ∧ ∀ m ∈ i.moves, sourceOf m.srcByte = some m.src ∧ destOf m.dstByte = some m.dst := by
  rw [decodeInsn] at h
  obtain ⟨⟨pre, p, b⟩, -, h⟩ := DRes.bind_ok h
  dsimp only at h
  split at h
  · cases h
  · rename_i c
    split at h
    · obtain ⟨mask, -, h⟩ := DRes.bind_ok h
      split at h
      · cases h
      · obtain ⟨r, hr, h⟩ := DRes.bind_ok h
        cases h
        obtain ⟨len, all⟩ := decMoves_ok hr
        exact ⟨by dsimp only; omega, all⟩
    · obtain ⟨r, hr, h⟩ := DRes.bind_ok h
      cases h
      obtain ⟨len, all⟩ := decMoves_ok hr
      exact ⟨by dsimp only; omega, all⟩

/-! ### A held reset (16 R443, R447; 00 R3) -/

theorem State.clocked_held {s : State} (h : s.inReset = true) (f : State → State) : s.clocked f = s := by simp [State.clocked, h]

theorem State.clocked_runs {s : State} (h : s.inReset = false) (f : State → State) : s.clocked f = f s := by simp [State.clocked, h]

theorem State.fitted_iff (s : State) (st : Stn) : s.fitted st = true ↔ s.inReset = false ∧ st.val < s.grade.stations := by
  simp [State.fitted]

/-! ### Two ports of one bank (08 R229 to R231) -/

@[simp] theorem State.meets_none (s : State) (mem : FaultMem) (p : Nat) (mask : W64) : s.meets mem p mask none = none := by
  simp [State.meets]

/-- With no access of the other port a write is its beat, and no answer is busy. -/
@[simp] theorem State.writeMet_none (s : State) (m : Master) (mem : FaultMem) (p : Nat) (mask : W64) (d : BitVec 512) :
    s.writeMet m mem p mask d none = (s.beatWrite mem p mask d, false) := by simp [State.writeMet]

@[simp] theorem State.atomicMet_none (s : State) (m : Master) (mem : FaultMem) (p : Nat) (mask : W64) (word : Fin 8) (new : W64 → W64) :
    s.atomicMet m mem p mask word new none = (s.atomicBeat mem p word new, false) := by simp [State.atomicMet]

/-- A busy answer changes registers alone. -/
theorem State.busyMark_eq (s : State) (mem : FaultMem) : ∃ r, s.busyMark mem = { s with regs := r } := by
  cases mem <;> exact ⟨_, rfl⟩

theorem State.markBusy_eq (x : State × Option MxCode) (mem : FaultMem) (busy : Bool) :
    ∃ r b, (if x.2.isNone && busy then ((x.1.busyMark mem, none), true) else (x, false)) = (({ x.1 with regs := r }, x.2), b) := by
  split
  · rename_i h
    obtain ⟨r, e⟩ := x.1.busyMark_eq mem
    exact ⟨r, true, by rw [e, show x.2 = none by simpa using (Bool.and_eq_true_iff.1 h).1]⟩
  · exact ⟨_, false, rfl⟩

/-- A write is performed whether or not it is answered busy, which changes registers alone. -/
theorem State.writeMet_eq (s : State) (m : Master) (mem : FaultMem) (p : Nat) (mask : W64) (d : BitVec 512) (meet : Option PortMeet) :
    ∃ r b, s.writeMet m mem p mask d meet =
      (({ (s.beatWrite mem p mask d).1 with regs := r }, (s.beatWrite mem p mask d).2), b) :=
  State.markBusy_eq (s.beatWrite mem p mask d) mem _

/-! ### Repairs and divisors (01 R18; 07 R213; 16 R441) -/

/-- Beginning a repair changes nothing, or takes the first that is due, closes its column and sets WHY. -/
theorem State.beginRepair_cases (s : State) (st : Stn) :
    s.beginRepair st = s ∨
    ∃ r rest, (s.stn st).frozen = true ∧ s.rbit (aNetStat st) 29 = false ∧ (s.stn st).repairs = r :: rest ∧
      s.beginRepair st = (s.setStn st { s.stn st with
        repairNow := some r, repairs := rest, closed := r.1 :: (s.stn st).closed }).setFlag (aNetStat st) 29 := by
  unfold State.beginRepair
  dsimp only
  split
  · exact .inl rfl
  · rename_i h
    simp only [Bool.or_eq_true, Bool.not_eq_true', not_or] at h
    split
    · exact .inl rfl
    · rename_i r rest e
      exact .inr ⟨r, rest, by simpa using h.1, by simpa using h.2, e, rfl⟩

/-- The divisor changes in STN_NET_STAT alone. -/
theorem State.takeDivisor_eq (s : State) (st : Stn) : ∃ r, s.takeDivisor st = { s with regs := r } := by
  unfold State.takeDivisor
  split
  · exact ⟨_, rfl⟩
  · exact ⟨_, rfl⟩

theorem State.reg_takeDivisor_of_ne (s : State) (st : Stn) {b : Nat} (h : b ≠ aNetStat st) : (s.takeDivisor st).reg b = s.reg b := by
  unfold State.takeDivisor
  split
  · rfl
  · exact s.reg_setFld_of_ne _ _ _ _ _ h

/-- A divisor that takes effect is the one due, where MIN lets it. -/
theorem State.takeDivisor_due {s : State} {st : Stn} {d : BitVec 2} (h : (s.stn st).dueDiv = some d) :
    s.takeDivisor st = s.setFld (aNetStat st) 25 2 (max (s.minDiv st) d.toNat) := by simp [State.takeDivisor, h]

/-! ### A tile's operations in flight -/

/-- Only the hold of the operations after the first n changes. -/
theorem Tile.holdFrom_eq (T : Tile) (n : Nat) : ∃ fs, T.holdFrom n = { T with flights := fs } ∧ fs.length = T.flights.length ∧
    fs.take n = T.flights.take n := by
  refine ⟨_, rfl, by simp; omega, ?_⟩
  by_cases h : n ≤ T.flights.length
  · rw [List.take_append_of_le_length (by simp [h]), List.take_take, Nat.min_self]
  · rw [List.drop_of_length_le (by omega), List.map_nil, List.append_nil, List.take_take, Nat.min_self]

/-- Loading the repeat count changes `rc` of that tile alone. -/
theorem State.loadCount_eq (s : State) (st : Stn) (t : TileNo) :
    s.loadCount st t = s ∨ ∃ c, s.loadCount st t = s.setTile st t { s.tile st t with rc := c } := by
  unfold State.loadCount
  dsimp only
  split
  · exact .inr ⟨_, rfl⟩
  · exact .inl rfl

theorem State.loadCount_tile (s : State) (st : Stn) (t : TileNo) : ∃ c, (s.loadCount st t).tile st t = { s.tile st t with rc := c } := by
  rcases s.loadCount_eq st t with e | ⟨c, e⟩
  · exact ⟨(s.tile st t).rc, by rw [e]⟩
  · exact ⟨c, by rw [e, State.tile_setTile]⟩

/-! ### A channel's requests (11 R321, R323) -/

/-- The failure that a channel names is of the lowest beat. -/
theorem lowerFail_le (old : Option (Nat × BitVec 4)) (i : Nat) (code : BitVec 4) :
    ∃ o, lowerFail old i code = some o ∧ o.1 ≤ i ∧ (∀ x, old = some x → o.1 ≤ x.1) ∧ (o = (i, code) ∨ old = some o) := by
  unfold lowerFail
  split
  · exact ⟨_, rfl, le_refl _, by simp, .inl rfl⟩
  · rename_i o
    split
    · rename_i h
      exact ⟨_, rfl, le_refl _, fun x e => by cases e; exact h.le, .inl rfl⟩
    · rename_i h
      exact ⟨o, rfl, by omega, fun x e => by cases e; exact le_refl _, .inr rfl⟩

/-- The requests of n beats from beat i hold those beats, once each and in their order, and are reads. -/
theorem DmaDesc.cut_beats (d : DmaDesc) : ∀ n i,
    (d.cut i n).flatMap DmaReq.beats = (List.range' i n).map (·, 0) ∧ ∀ r ∈ d.cut i n, r.write = false
  | 0, i => by simp [DmaDesc.cut]
  | n + 1, i => by
    obtain ⟨e, w⟩ := d.cut_beats n (i + 1)
    rw [DmaDesc.cut]
    generalize d.cut (i + 1) n = rest at e w
    rw [List.range'_succ, List.map_cons, ← e]
    cases rest with
    | nil => simp
    | cons r rs =>
      by_cases h : (d.oneBurst i r.first && decide (r.beats.length < 16)) = true
      all_goals simp only [h, reduceIte, Bool.false_eq_true]
      · refine ⟨by simp, fun x hx => ?_⟩
        rcases List.mem_cons.1 hx with rfl | hx
        · exact w r (by simp)
        · exact w x (by simp [hx])
      · refine ⟨by simp, fun x hx => ?_⟩
        rcases List.mem_cons.1 hx with rfl | hx
        · rfl
        · exact w x hx

/-! ### Drawers, the Vault and lines -/

/-- A sense pin that settles changes registers and notices alone. -/
theorem State.senseSettle_eq (s : State) (n : Fin 8) : ∃ r q, s.senseSettle n = { s with regs := r, notices := q } := by
  unfold State.senseSettle
  dsimp only
  split
  · exact ⟨_, _, rfl⟩
  · split <;> split <;> exact ⟨_, _, rfl⟩

/-- An enrolment cut short changes the fuses, the slot and its modulus, and no security version, no minimum and no lock. -/
theorem Vault.enrolCut_eq (V : Vault) (arg modulus n : Nat) : ∃ b x m, V.enrolCut arg modulus n = { V with burnt := b, slots := x, moduli := m } :=
  ⟨_, _, _, rfl⟩

/-- A line written by one of its contexts makes the lines held no more. -/
theorem lineWritten_length (k : Fin 8) : ∀ L : List LineHeld, (lineWritten k L).length ≤ L.length
  | [] => by simp [lineWritten]
  | x :: xs => by
    have := lineWritten_length k xs
    rw [lineWritten]
    split
    · split <;> simp
    · simpa using this

/-! ### What waits for the Hall (15 R421, R428) -/

/-- A tile that waits stays while a repair works; else the first is retired. -/
theorem State.retirePump_cases (s : State) (st : Stn) :
    s.retirePump st = s ∨ ∃ t ts, (s.hallStn st).retiring = t :: ts ∧ (s.stn st).repairBusy = false ∧
      s.retirePump st = (s.modHallStn st fun H => { H with retiring := ts }).retireNow st t := by
  unfold State.retirePump
  split
  · exact .inl rfl
  · rename_i t ts e
    split
    · exact .inl rfl
    · rename_i h
      exact .inr ⟨t, ts, e, by simpa using h, rfl⟩

/-- While a rewrite works nothing more is asked; else the next uncorrectable entry is rewritten, or there is none left. -/
theorem State.fixPump_cases (s : State) (st : Stn) :
    s.fixPump st = s ∨
    ((s.hallStn st).fixing = true ∧ s.rbit (stnReg st 0x418) 30 = false ∧
      s.fixPump st = if (s.stn st).badEntry.isNone then s.modHallStn st fun H => { H with fixing := false } else s.fixEntry st) := by
  unfold State.fixPump
  split
  · exact .inl rfl
  · rename_i h
    simp only [Bool.or_eq_true, Bool.not_eq_true', not_or] at h
    exact .inr ⟨by simpa using h.1, by simpa using h.2, rfl⟩

end Sys2Proof.Machine
end

