-- ==== Sys2Proof/Laws/Staged.lean ====
section
/-! SUPPORT. Reads of LP5 memory: a line that both controllers serve reads as its bytes, and what is staged reads as the bytes received. -/

namespace Sys2Proof.Machine

/-! ### Bytes of a beat -/

theorem leNat_byte : ∀ (bs : List Byte) (i : Nat), leNat bs / 256 ^ i % 256 = (bs.getD i 0).toNat
  | [], i => by simp [leNat]
  | b :: bs, 0 => by
    have := b.isLt
    simp only [leNat, Nat.pow_zero, Nat.div_one, List.getD_cons_zero]
    omega
  | b :: bs, i + 1 => by
    have := b.isLt
    rw [leNat, Nat.pow_succ, Nat.mul_comm (256 ^ i), ← Nat.div_div_eq_div_mul,
      show (b.toNat + 256 * leNat bs) / 256 = leNat bs by omega, leNat_byte bs i, List.getD_cons_succ]

theorem bits_bytesBeat (bs : List Byte) (h : bs.length = 64) (i : Nat) : bits (bytesBeat bs) (8 * i) 8 = bs.getD i 0 := by
  apply BitVec.eq_of_toNat_eq
  have lt := leNat_lt bs
  have e : (2 : Nat) ^ 512 = 256 ^ 64 := by
    rw [show 512 = 8 * 64 from rfl, Nat.pow_mul, show (2 : Nat) ^ 8 = 256 from rfl]
  rw [h, ← e] at lt
  rw [bits, BitVec.extractLsb'_toNat, bytesBeat, List.take_of_length_le (by omega), BitVec.toNat_ofNat, Nat.mod_eq_of_lt lt,
    Nat.shiftRight_eq_div_pow, Nat.pow_mul, show (2 : Nat) ^ 8 = 256 by decide, leNat_byte]

/-! ### A line of LP5 memory -/

/-- Both LP5 controllers are ready, their clocks run, their windows are full and inline ECC is off. -/
def State.lpServes (s : State) : Prop :=
  ∀ n : Fin 2, s.lpReady n = true ∧ s.gated n.val = false ∧ s.rbit (lpReg n 0) 8 = false ∧ s.lpFitted n = 0x800000000

theorem memPlace_lp5 (s : State) (h : s.lpServes) {a : Nat} (lo : 0x1000000000 ≤ a) (hi : a < 0x2000000000) :
    ∃ n : Fin 2, s.memPlace a = some (.lp5 n, a) := by
  by_cases c : a < 0x1800000000
  · have t : s.targetOf a = some 1 := by rw [State.targetOf, if_neg (by omega), if_pos (by omega)]
    obtain ⟨r, -, e, f⟩ := h 0
    refine ⟨0, ?_⟩
    simp [State.memPlace, t, r, State.lpPresented, e, f, lpBase]
    omega
  · have t : s.targetOf a = some 2 := by rw [State.targetOf, if_neg (by omega), if_neg (by omega), if_pos (by omega)]
    obtain ⟨r, -, e, f⟩ := h 1
    refine ⟨1, ?_⟩
    simp [State.memPlace, t, r, State.lpPresented, e, f, lpBase]
    omega

theorem beatRead_lp5 (s : State) (h : s.lpServes) (n : Fin 2) (a : Nat) (mask : W64) :
    s.beatRead (.lp5 n) a mask = (s, none, bytesBeat ((List.range 64).map fun i => if bit mask i then s.byte (a + i) else 0)) := by
  obtain ⟨r, g, e, -⟩ := h n
  have c : ∀ w, s.memCode (.lp5 n) w = none := fun w => by simp [State.memCode, r, g]
  have u : ∀ w, s.checked (.lp5 n) w = .none := fun w => by simp [State.checked, e]
  have f : ((maskWords mask).map fun i => a + 8 * i).findSome? (fun w => s.memCode (.lp5 n) w) = none := by simp [c]
  have d : ((maskWords mask).map fun i => a + 8 * i).find? (fun w => s.checked (.lp5 n) w == .double) = none := by simp [u]
  have none' : ((maskWords mask).map fun i => a + 8 * i).countP (fun w => s.checked (.lp5 n) w == .single) = 0 :=
    List.countP_eq_zero.2 fun w _ => by simp [u]
  simp only [State.beatRead, f, d, none', State.memCe]
  rfl

/-- The mask of the first n bytes of a line. -/
theorem bit_low {n i : Nat} (hi : i < 64) : bit (BitVec.ofNat 64 ((2 ^ n - 1) * 2 ^ 0)) i = decide (i < n) := by
  rw [bit, BitVec.getLsbD_ofNat, Nat.pow_zero, Nat.mul_one, Nat.testBit_two_pow_sub_one]
  simp [hi]

theorem memRead_lp5 (s : State) (h : s.lpServes) (m : Master) {a n : Nat} (lo : 0x1000000000 ≤ a) (hi : a < 0x2000000000)
    (al : a % 64 = 0) (hn : n ≤ 64) (pos : 0 < n) : s.memRead m a n = (s, true, s.bytes a n) := by
  obtain ⟨p, hp⟩ := memPlace_lp5 s h lo hi
  obtain ⟨k, rfl⟩ : ∃ k, n = k + 1 := ⟨n - 1, by omega⟩
  have one : cutBeats (k + 1) a (List.replicate (k + 1) 0) =
      [(a, BitVec.ofNat 64 ((2 ^ (k + 1) - 1) * 2 ^ 0), BitVec.ofNat 512 (leNat (List.replicate (k + 1) 0)))] := by
    have len : min (64 - 0) ((0 : Byte) :: List.replicate k 0).length = k + 1 := by simp; omega
    rw [List.replicate_succ, cutBeats]
    simp only [al, len, Nat.sub_zero]
    have e : ((0 : Byte) :: List.replicate k 0).drop (k + 1) = [] := by simp
    rw [e, List.take_of_length_le (by simp), Nat.mul_zero, Nat.pow_zero]
    cases k <;> simp [cutBeats]
  have f : ((List.range 64).filter fun i => bit (BitVec.ofNat 64 ((2 ^ (k + 1) - 1) * 2 ^ 0)) i) = List.range (k + 1) := by
    rw [List.filter_congr fun i hi => bit_low (List.mem_range.1 hi)]
    have : ∀ n ≤ 64, ((List.range 64).filter fun i => decide (i < n)) = List.range n := by decide
    exact this _ hn
  rw [State.memRead, one, List.foldl_cons, List.foldl_nil]
  simp only [hp, beatRead_lp5 s h, f, List.nil_append, Option.isNone_none, Bool.and_self]
  refine congrArg (fun l => (s, true, l)) (List.map_congr_left fun i hi => ?_)
  have hi : i < k + 1 := List.mem_range.1 hi
  rw [bits_bytesBeat _ (by simp), List.getD_eq_getElem _ _ (by simp; omega), List.getElem_map, List.getElem_range,
    bit_low (by omega), if_pos (by simpa using hi)]

/-! ### What is staged (14 R404, R409) -/

/-- A staged image whose bytes have all been received, read from LP5 memory. -/
theorem readStaged_lp5 (s : State) (h : s.lpServes) {a : Nat} (x : Staged) (al : a % 64 = 0) (lo : 0x1000000000 ≤ a)
    (hi : a + x.total ≤ 0x2000000000) (has : ∀ i, x.has i = decide (i < x.total)) :
    s.readStaged a (some x) = (s, (List.range x.total).map fun i => (i, s.byte (a + i))) := by
  have step : ∀ k, 64 * (k - 1) < x.total → (List.range k).foldl (init := (s, ([] : List Host.Cell))) (fun y i =>
      let r := y.1.memRead mHall (a + 64 * i) (min 64 (x.total - 64 * i))
      (r.1, if r.2.1 then y.2 ++ ((List.range 64).filter fun j => x.has (64 * i + j)).map fun j => (64 * i + j, r.2.2.getD j 0) else y.2)) =
      (s, (List.range (min (64 * k) x.total)).map fun i => (i, s.byte (a + i))) := by
    intro k
    induction k with
    | zero => intro _; simp
    | succ k ih =>
      intro hk
      have hk : 64 * k < x.total := by omega
      have full : min (64 * k) x.total = 64 * k := by omega
      have f : ((List.range 64).filter fun j => x.has (64 * k + j)) = List.range (min 64 (x.total - 64 * k)) := by
        rw [List.filter_congr fun j hj => (has (64 * k + j)).trans (by
          rw [show decide (64 * k + j < x.total) = decide (j < min 64 (x.total - 64 * k)) from
            decide_eq_decide.2 (by have := List.mem_range.1 hj; omega)])]
        have : ∀ n ≤ 64, ((List.range 64).filter fun i => decide (i < n)) = List.range n := by decide
        exact this _ (by omega)
      rw [List.range_succ (n := k), List.foldl_append, ih (by omega), List.foldl_cons, List.foldl_nil]
      simp only [full]
      rw [memRead_lp5 s h mHall (a := a + 64 * k) (by omega) (by omega) (by omega) (by omega) (by omega), f]
      simp only [if_true]
      rw [show min (64 * (k + 1)) x.total = 64 * k + min 64 (x.total - 64 * k) by omega, List.range_add, List.map_append, List.map_map]
      refine congrArg (fun l => (s, _ ++ l)) (List.map_congr_left fun j hj => ?_)
      have hj : j < min 64 (x.total - 64 * k) := List.mem_range.1 hj
      have e : (s.bytes (a + 64 * k) (min 64 (x.total - 64 * k))).getD j 0 = s.byte (a + 64 * k + j) := by
        rw [State.bytes, List.getD_eq_getElem _ _ (by simpa using hj), List.getElem_map, List.getElem_range]
      simp only [Function.comp_apply, e, Nat.add_assoc]
  rw [State.readStaged]
  by_cases z : x.total = 0
  · simp [z]
  · rw [step _ (by omega), show min (64 * ((x.total + 63) / 64)) x.total = x.total by omega]

end Sys2Proof.Machine
end

