-- ==== Sys2Proof/Laws/Updates.lean ====
section
/-! SUPPORT. What the updates of one unit leave in each field of the state and in what its accessors read: one lemma a field and update. -/

namespace Sys2Proof.Machine

variable (s : State)

/-! ### modHall -/

@[simp] theorem State.modHall_pending (f : Hall → Hall) : (s.modHall f).pending = s.pending := rfl
@[simp] theorem State.modHall_freeCount (f : Hall → Hall) : (s.modHall f).freeCount = s.freeCount := rfl
@[simp] theorem State.modHall_undef (f : Hall → Hall) : (s.modHall f).undef = s.undef := rfl
@[simp] theorem State.modHall_grade (f : Hall → Hall) : (s.modHall f).grade = s.grade := rfl
@[simp] theorem State.modHall_regs (f : Hall → Hall) : (s.modHall f).regs = s.regs := rfl
@[simp] theorem State.modHall_mem (f : Hall → Hall) : (s.modHall f).mem = s.mem := rfl
@[simp] theorem State.modHall_ecc (f : Hall → Hall) : (s.modHall f).ecc = s.ecc := rfl
@[simp] theorem State.modHall_bankChange (f : Hall → Hall) : (s.modHall f).bankChange = s.bankChange := rfl
@[simp] theorem State.modHall_tiles (f : Hall → Hall) : (s.modHall f).tiles = s.tiles := rfl
@[simp] theorem State.modHall_stns (f : Hall → Hall) : (s.modHall f).stns = s.stns := rfl
@[simp] theorem State.modHall_scrubAt (f : Hall → Hall) : (s.modHall f).scrubAt = s.scrubAt := rfl
@[simp] theorem State.modHall_lp5Scrub (f : Hall → Hall) : (s.modHall f).lp5Scrub = s.lp5Scrub := rfl
@[simp] theorem State.modHall_lp5Train (f : Hall → Hall) : (s.modHall f).lp5Train = s.lp5Train := rfl
@[simp] theorem State.modHall_mxOpen (f : Hall → Hall) : (s.modHall f).mxOpen = s.mxOpen := rfl
@[simp] theorem State.modHall_mxDone (f : Hall → Hall) : (s.modHall f).mxDone = s.mxDone := rfl
@[simp] theorem State.modHall_mxLast (f : Hall → Hall) : (s.modHall f).mxLast = s.mxLast := rfl
@[simp] theorem State.modHall_tbLatch (f : Hall → Hall) : (s.modHall f).tbLatch = s.tbLatch := rfl
@[simp] theorem State.modHall_tmrRun (f : Hall → Hall) : (s.modHall f).tmrRun = s.tmrRun := rfl
@[simp] theorem State.modHall_tmrArmed (f : Hall → Hall) : (s.modHall f).tmrArmed = s.tmrArmed := rfl
@[simp] theorem State.modHall_dma (f : Hall → Hall) : (s.modHall f).dma = s.dma := rfl
@[simp] theorem State.modHall_cam (f : Hall → Hall) : (s.modHall f).cam = s.cam := rfl
@[simp] theorem State.modHall_lc (f : Hall → Hall) : (s.modHall f).lc = s.lc := rfl
@[simp] theorem State.modHall_flash (f : Hall → Hall) : (s.modHall f).flash = s.flash := rfl
@[simp] theorem State.modHall_flashCtl (f : Hall → Hall) : (s.modHall f).flashCtl = s.flashCtl := rfl
@[simp] theorem State.modHall_window (f : Hall → Hall) : (s.modHall f).window = s.window := rfl
@[simp] theorem State.modHall_serial (f : Hall → Hall) : (s.modHall f).serial = s.serial := rfl
@[simp] theorem State.modHall_usb (f : Hall → Hall) : (s.modHall f).usb = s.usb := rfl
@[simp] theorem State.modHall_gio (f : Hall → Hall) : (s.modHall f).gio = s.gio := rfl
@[simp] theorem State.modHall_links (f : Hall → Hall) : (s.modHall f).links = s.links := rfl
@[simp] theorem State.modHall_pcie (f : Hall → Hall) : (s.modHall f).pcie = s.pcie := rfl
@[simp] theorem State.modHall_hall (f : Hall → Hall) : (s.modHall f).hall = f s.hall := rfl
@[simp] theorem State.modHall_vault (f : Hall → Hall) : (s.modHall f).vault = s.vault := rfl
@[simp] theorem State.modHall_core (f : Hall → Hall) : (s.modHall f).core = s.core := rfl
@[simp] theorem State.modHall_tap (f : Hall → Hall) : (s.modHall f).tap = s.tap := rfl
@[simp] theorem State.modHall_notices (f : Hall → Hall) : (s.modHall f).notices = s.notices := rfl
@[simp] theorem State.modHall_timeBase (f : Hall → Hall) : (s.modHall f).timeBase = s.timeBase := rfl
@[simp] theorem State.modHall_tile (f : Hall → Hall) (x : Stn) (y : TileNo) : (s.modHall f).tile x y = s.tile x y := rfl
@[simp] theorem State.modHall_stn (f : Hall → Hall) (x : Stn) : (s.modHall f).stn x = s.stn x := rfl
@[simp] theorem State.modHall_reg (f : Hall → Hall) (x : Nat) : (s.modHall f).reg x = s.reg x := rfl
@[simp] theorem State.modHall_fld (f : Hall → Hall) (x l w : Nat) : (s.modHall f).fld x l w = s.fld x l w := rfl
@[simp] theorem State.modHall_rbit (f : Hall → Hall) (x i : Nat) : (s.modHall f).rbit x i = s.rbit x i := rfl
@[simp] theorem State.modHall_byte (f : Hall → Hall) (x : Nat) : (s.modHall f).byte x = s.byte x := rfl
@[simp] theorem State.modHall_upset (f : Hall → Hall) (x : Nat) : (s.modHall f).upset x = s.upset x := rfl

/-! ### modHallStn -/

@[simp] theorem State.modHallStn_pending (st : Stn) (f : HallStn → HallStn) : (s.modHallStn st f).pending = s.pending := rfl
@[simp] theorem State.modHallStn_freeCount (st : Stn) (f : HallStn → HallStn) : (s.modHallStn st f).freeCount = s.freeCount := rfl
@[simp] theorem State.modHallStn_undef (st : Stn) (f : HallStn → HallStn) : (s.modHallStn st f).undef = s.undef := rfl
@[simp] theorem State.modHallStn_grade (st : Stn) (f : HallStn → HallStn) : (s.modHallStn st f).grade = s.grade := rfl
@[simp] theorem State.modHallStn_regs (st : Stn) (f : HallStn → HallStn) : (s.modHallStn st f).regs = s.regs := rfl
@[simp] theorem State.modHallStn_mem (st : Stn) (f : HallStn → HallStn) : (s.modHallStn st f).mem = s.mem := rfl
@[simp] theorem State.modHallStn_ecc (st : Stn) (f : HallStn → HallStn) : (s.modHallStn st f).ecc = s.ecc := rfl
@[simp] theorem State.modHallStn_bankChange (st : Stn) (f : HallStn → HallStn) : (s.modHallStn st f).bankChange = s.bankChange := rfl
@[simp] theorem State.modHallStn_tiles (st : Stn) (f : HallStn → HallStn) : (s.modHallStn st f).tiles = s.tiles := rfl
@[simp] theorem State.modHallStn_stns (st : Stn) (f : HallStn → HallStn) : (s.modHallStn st f).stns = s.stns := rfl
@[simp] theorem State.modHallStn_scrubAt (st : Stn) (f : HallStn → HallStn) : (s.modHallStn st f).scrubAt = s.scrubAt := rfl
@[simp] theorem State.modHallStn_lp5Scrub (st : Stn) (f : HallStn → HallStn) : (s.modHallStn st f).lp5Scrub = s.lp5Scrub := rfl
@[simp] theorem State.modHallStn_lp5Train (st : Stn) (f : HallStn → HallStn) : (s.modHallStn st f).lp5Train = s.lp5Train := rfl
@[simp] theorem State.modHallStn_mxOpen (st : Stn) (f : HallStn → HallStn) : (s.modHallStn st f).mxOpen = s.mxOpen := rfl
@[simp] theorem State.modHallStn_mxDone (st : Stn) (f : HallStn → HallStn) : (s.modHallStn st f).mxDone = s.mxDone := rfl
@[simp] theorem State.modHallStn_mxLast (st : Stn) (f : HallStn → HallStn) : (s.modHallStn st f).mxLast = s.mxLast := rfl
@[simp] theorem State.modHallStn_tbLatch (st : Stn) (f : HallStn → HallStn) : (s.modHallStn st f).tbLatch = s.tbLatch := rfl
@[simp] theorem State.modHallStn_tmrRun (st : Stn) (f : HallStn → HallStn) : (s.modHallStn st f).tmrRun = s.tmrRun := rfl
@[simp] theorem State.modHallStn_tmrArmed (st : Stn) (f : HallStn → HallStn) : (s.modHallStn st f).tmrArmed = s.tmrArmed := rfl
@[simp] theorem State.modHallStn_dma (st : Stn) (f : HallStn → HallStn) : (s.modHallStn st f).dma = s.dma := rfl
@[simp] theorem State.modHallStn_cam (st : Stn) (f : HallStn → HallStn) : (s.modHallStn st f).cam = s.cam := rfl
@[simp] theorem State.modHallStn_lc (st : Stn) (f : HallStn → HallStn) : (s.modHallStn st f).lc = s.lc := rfl
@[simp] theorem State.modHallStn_flash (st : Stn) (f : HallStn → HallStn) : (s.modHallStn st f).flash = s.flash := rfl
@[simp] theorem State.modHallStn_flashCtl (st : Stn) (f : HallStn → HallStn) : (s.modHallStn st f).flashCtl = s.flashCtl := rfl
@[simp] theorem State.modHallStn_window (st : Stn) (f : HallStn → HallStn) : (s.modHallStn st f).window = s.window := rfl
@[simp] theorem State.modHallStn_serial (st : Stn) (f : HallStn → HallStn) : (s.modHallStn st f).serial = s.serial := rfl
@[simp] theorem State.modHallStn_usb (st : Stn) (f : HallStn → HallStn) : (s.modHallStn st f).usb = s.usb := rfl
@[simp] theorem State.modHallStn_gio (st : Stn) (f : HallStn → HallStn) : (s.modHallStn st f).gio = s.gio := rfl
@[simp] theorem State.modHallStn_links (st : Stn) (f : HallStn → HallStn) : (s.modHallStn st f).links = s.links := rfl
@[simp] theorem State.modHallStn_pcie (st : Stn) (f : HallStn → HallStn) : (s.modHallStn st f).pcie = s.pcie := rfl
@[simp] theorem State.modHallStn_vault (st : Stn) (f : HallStn → HallStn) : (s.modHallStn st f).vault = s.vault := rfl
@[simp] theorem State.modHallStn_core (st : Stn) (f : HallStn → HallStn) : (s.modHallStn st f).core = s.core := rfl
@[simp] theorem State.modHallStn_tap (st : Stn) (f : HallStn → HallStn) : (s.modHallStn st f).tap = s.tap := rfl
@[simp] theorem State.modHallStn_notices (st : Stn) (f : HallStn → HallStn) : (s.modHallStn st f).notices = s.notices := rfl
@[simp] theorem State.modHallStn_timeBase (st : Stn) (f : HallStn → HallStn) : (s.modHallStn st f).timeBase = s.timeBase := rfl
@[simp] theorem State.modHallStn_tile (st : Stn) (f : HallStn → HallStn) (x : Stn) (y : TileNo) : (s.modHallStn st f).tile x y = s.tile x y := rfl
@[simp] theorem State.modHallStn_stn (st : Stn) (f : HallStn → HallStn) (x : Stn) : (s.modHallStn st f).stn x = s.stn x := rfl
@[simp] theorem State.modHallStn_reg (st : Stn) (f : HallStn → HallStn) (x : Nat) : (s.modHallStn st f).reg x = s.reg x := rfl
@[simp] theorem State.modHallStn_fld (st : Stn) (f : HallStn → HallStn) (x l w : Nat) : (s.modHallStn st f).fld x l w = s.fld x l w := rfl
@[simp] theorem State.modHallStn_rbit (st : Stn) (f : HallStn → HallStn) (x i : Nat) : (s.modHallStn st f).rbit x i = s.rbit x i := rfl
@[simp] theorem State.modHallStn_byte (st : Stn) (f : HallStn → HallStn) (x : Nat) : (s.modHallStn st f).byte x = s.byte x := rfl
@[simp] theorem State.modHallStn_upset (st : Stn) (f : HallStn → HallStn) (x : Nat) : (s.modHallStn st f).upset x = s.upset x := rfl

/-! ### modCtx -/

@[simp] theorem State.modCtx_pending (st : Stn) (k : Fin 8) (f : CamCtx → CamCtx) : (s.modCtx st k f).pending = s.pending := rfl
@[simp] theorem State.modCtx_freeCount (st : Stn) (k : Fin 8) (f : CamCtx → CamCtx) : (s.modCtx st k f).freeCount = s.freeCount := rfl
@[simp] theorem State.modCtx_undef (st : Stn) (k : Fin 8) (f : CamCtx → CamCtx) : (s.modCtx st k f).undef = s.undef := rfl
@[simp] theorem State.modCtx_grade (st : Stn) (k : Fin 8) (f : CamCtx → CamCtx) : (s.modCtx st k f).grade = s.grade := rfl
@[simp] theorem State.modCtx_regs (st : Stn) (k : Fin 8) (f : CamCtx → CamCtx) : (s.modCtx st k f).regs = s.regs := rfl
@[simp] theorem State.modCtx_mem (st : Stn) (k : Fin 8) (f : CamCtx → CamCtx) : (s.modCtx st k f).mem = s.mem := rfl
@[simp] theorem State.modCtx_ecc (st : Stn) (k : Fin 8) (f : CamCtx → CamCtx) : (s.modCtx st k f).ecc = s.ecc := rfl
@[simp] theorem State.modCtx_bankChange (st : Stn) (k : Fin 8) (f : CamCtx → CamCtx) : (s.modCtx st k f).bankChange = s.bankChange := rfl
@[simp] theorem State.modCtx_tiles (st : Stn) (k : Fin 8) (f : CamCtx → CamCtx) : (s.modCtx st k f).tiles = s.tiles := rfl
@[simp] theorem State.modCtx_stns (st : Stn) (k : Fin 8) (f : CamCtx → CamCtx) : (s.modCtx st k f).stns = s.stns := rfl
@[simp] theorem State.modCtx_scrubAt (st : Stn) (k : Fin 8) (f : CamCtx → CamCtx) : (s.modCtx st k f).scrubAt = s.scrubAt := rfl
@[simp] theorem State.modCtx_lp5Scrub (st : Stn) (k : Fin 8) (f : CamCtx → CamCtx) : (s.modCtx st k f).lp5Scrub = s.lp5Scrub := rfl
@[simp] theorem State.modCtx_lp5Train (st : Stn) (k : Fin 8) (f : CamCtx → CamCtx) : (s.modCtx st k f).lp5Train = s.lp5Train := rfl
@[simp] theorem State.modCtx_mxOpen (st : Stn) (k : Fin 8) (f : CamCtx → CamCtx) : (s.modCtx st k f).mxOpen = s.mxOpen := rfl
@[simp] theorem State.modCtx_mxDone (st : Stn) (k : Fin 8) (f : CamCtx → CamCtx) : (s.modCtx st k f).mxDone = s.mxDone := rfl
@[simp] theorem State.modCtx_mxLast (st : Stn) (k : Fin 8) (f : CamCtx → CamCtx) : (s.modCtx st k f).mxLast = s.mxLast := rfl
@[simp] theorem State.modCtx_tbLatch (st : Stn) (k : Fin 8) (f : CamCtx → CamCtx) : (s.modCtx st k f).tbLatch = s.tbLatch := rfl
@[simp] theorem State.modCtx_tmrRun (st : Stn) (k : Fin 8) (f : CamCtx → CamCtx) : (s.modCtx st k f).tmrRun = s.tmrRun := rfl
@[simp] theorem State.modCtx_tmrArmed (st : Stn) (k : Fin 8) (f : CamCtx → CamCtx) : (s.modCtx st k f).tmrArmed = s.tmrArmed := rfl
@[simp] theorem State.modCtx_dma (st : Stn) (k : Fin 8) (f : CamCtx → CamCtx) : (s.modCtx st k f).dma = s.dma := rfl
@[simp] theorem State.modCtx_lc (st : Stn) (k : Fin 8) (f : CamCtx → CamCtx) : (s.modCtx st k f).lc = s.lc := rfl
@[simp] theorem State.modCtx_flash (st : Stn) (k : Fin 8) (f : CamCtx → CamCtx) : (s.modCtx st k f).flash = s.flash := rfl
@[simp] theorem State.modCtx_flashCtl (st : Stn) (k : Fin 8) (f : CamCtx → CamCtx) : (s.modCtx st k f).flashCtl = s.flashCtl := rfl
@[simp] theorem State.modCtx_window (st : Stn) (k : Fin 8) (f : CamCtx → CamCtx) : (s.modCtx st k f).window = s.window := rfl
@[simp] theorem State.modCtx_serial (st : Stn) (k : Fin 8) (f : CamCtx → CamCtx) : (s.modCtx st k f).serial = s.serial := rfl
@[simp] theorem State.modCtx_usb (st : Stn) (k : Fin 8) (f : CamCtx → CamCtx) : (s.modCtx st k f).usb = s.usb := rfl
@[simp] theorem State.modCtx_gio (st : Stn) (k : Fin 8) (f : CamCtx → CamCtx) : (s.modCtx st k f).gio = s.gio := rfl
@[simp] theorem State.modCtx_links (st : Stn) (k : Fin 8) (f : CamCtx → CamCtx) : (s.modCtx st k f).links = s.links := rfl
@[simp] theorem State.modCtx_pcie (st : Stn) (k : Fin 8) (f : CamCtx → CamCtx) : (s.modCtx st k f).pcie = s.pcie := rfl
@[simp] theorem State.modCtx_hall (st : Stn) (k : Fin 8) (f : CamCtx → CamCtx) : (s.modCtx st k f).hall = s.hall := rfl
@[simp] theorem State.modCtx_vault (st : Stn) (k : Fin 8) (f : CamCtx → CamCtx) : (s.modCtx st k f).vault = s.vault := rfl
@[simp] theorem State.modCtx_core (st : Stn) (k : Fin 8) (f : CamCtx → CamCtx) : (s.modCtx st k f).core = s.core := rfl
@[simp] theorem State.modCtx_tap (st : Stn) (k : Fin 8) (f : CamCtx → CamCtx) : (s.modCtx st k f).tap = s.tap := rfl
@[simp] theorem State.modCtx_notices (st : Stn) (k : Fin 8) (f : CamCtx → CamCtx) : (s.modCtx st k f).notices = s.notices := rfl
@[simp] theorem State.modCtx_timeBase (st : Stn) (k : Fin 8) (f : CamCtx → CamCtx) : (s.modCtx st k f).timeBase = s.timeBase := rfl
@[simp] theorem State.modCtx_tile (st : Stn) (k : Fin 8) (f : CamCtx → CamCtx) (x : Stn) (y : TileNo) : (s.modCtx st k f).tile x y = s.tile x y := rfl
@[simp] theorem State.modCtx_stn (st : Stn) (k : Fin 8) (f : CamCtx → CamCtx) (x : Stn) : (s.modCtx st k f).stn x = s.stn x := rfl
@[simp] theorem State.modCtx_reg (st : Stn) (k : Fin 8) (f : CamCtx → CamCtx) (x : Nat) : (s.modCtx st k f).reg x = s.reg x := rfl
@[simp] theorem State.modCtx_fld (st : Stn) (k : Fin 8) (f : CamCtx → CamCtx) (x l w : Nat) : (s.modCtx st k f).fld x l w = s.fld x l w := rfl
@[simp] theorem State.modCtx_rbit (st : Stn) (k : Fin 8) (f : CamCtx → CamCtx) (x i : Nat) : (s.modCtx st k f).rbit x i = s.rbit x i := rfl
@[simp] theorem State.modCtx_byte (st : Stn) (k : Fin 8) (f : CamCtx → CamCtx) (x : Nat) : (s.modCtx st k f).byte x = s.byte x := rfl
@[simp] theorem State.modCtx_upset (st : Stn) (k : Fin 8) (f : CamCtx → CamCtx) (x : Nat) : (s.modCtx st k f).upset x = s.upset x := rfl

/-! ### modDma -/

@[simp] theorem State.modDma_pending (n : Fin 16) (f : DmaChan → DmaChan) : (s.modDma n f).pending = s.pending := rfl
@[simp] theorem State.modDma_freeCount (n : Fin 16) (f : DmaChan → DmaChan) : (s.modDma n f).freeCount = s.freeCount := rfl
@[simp] theorem State.modDma_undef (n : Fin 16) (f : DmaChan → DmaChan) : (s.modDma n f).undef = s.undef := rfl
@[simp] theorem State.modDma_grade (n : Fin 16) (f : DmaChan → DmaChan) : (s.modDma n f).grade = s.grade := rfl
@[simp] theorem State.modDma_regs (n : Fin 16) (f : DmaChan → DmaChan) : (s.modDma n f).regs = s.regs := rfl
@[simp] theorem State.modDma_mem (n : Fin 16) (f : DmaChan → DmaChan) : (s.modDma n f).mem = s.mem := rfl
@[simp] theorem State.modDma_ecc (n : Fin 16) (f : DmaChan → DmaChan) : (s.modDma n f).ecc = s.ecc := rfl
@[simp] theorem State.modDma_bankChange (n : Fin 16) (f : DmaChan → DmaChan) : (s.modDma n f).bankChange = s.bankChange := rfl
@[simp] theorem State.modDma_tiles (n : Fin 16) (f : DmaChan → DmaChan) : (s.modDma n f).tiles = s.tiles := rfl
@[simp] theorem State.modDma_stns (n : Fin 16) (f : DmaChan → DmaChan) : (s.modDma n f).stns = s.stns := rfl
@[simp] theorem State.modDma_scrubAt (n : Fin 16) (f : DmaChan → DmaChan) : (s.modDma n f).scrubAt = s.scrubAt := rfl
@[simp] theorem State.modDma_lp5Scrub (n : Fin 16) (f : DmaChan → DmaChan) : (s.modDma n f).lp5Scrub = s.lp5Scrub := rfl
@[simp] theorem State.modDma_lp5Train (n : Fin 16) (f : DmaChan → DmaChan) : (s.modDma n f).lp5Train = s.lp5Train := rfl
@[simp] theorem State.modDma_mxOpen (n : Fin 16) (f : DmaChan → DmaChan) : (s.modDma n f).mxOpen = s.mxOpen := rfl
@[simp] theorem State.modDma_mxDone (n : Fin 16) (f : DmaChan → DmaChan) : (s.modDma n f).mxDone = s.mxDone := rfl
@[simp] theorem State.modDma_mxLast (n : Fin 16) (f : DmaChan → DmaChan) : (s.modDma n f).mxLast = s.mxLast := rfl
@[simp] theorem State.modDma_tbLatch (n : Fin 16) (f : DmaChan → DmaChan) : (s.modDma n f).tbLatch = s.tbLatch := rfl
@[simp] theorem State.modDma_tmrRun (n : Fin 16) (f : DmaChan → DmaChan) : (s.modDma n f).tmrRun = s.tmrRun := rfl
@[simp] theorem State.modDma_tmrArmed (n : Fin 16) (f : DmaChan → DmaChan) : (s.modDma n f).tmrArmed = s.tmrArmed := rfl
@[simp] theorem State.modDma_cam (n : Fin 16) (f : DmaChan → DmaChan) : (s.modDma n f).cam = s.cam := rfl
@[simp] theorem State.modDma_lc (n : Fin 16) (f : DmaChan → DmaChan) : (s.modDma n f).lc = s.lc := rfl
@[simp] theorem State.modDma_flash (n : Fin 16) (f : DmaChan → DmaChan) : (s.modDma n f).flash = s.flash := rfl
@[simp] theorem State.modDma_flashCtl (n : Fin 16) (f : DmaChan → DmaChan) : (s.modDma n f).flashCtl = s.flashCtl := rfl
@[simp] theorem State.modDma_window (n : Fin 16) (f : DmaChan → DmaChan) : (s.modDma n f).window = s.window := rfl
@[simp] theorem State.modDma_serial (n : Fin 16) (f : DmaChan → DmaChan) : (s.modDma n f).serial = s.serial := rfl
@[simp] theorem State.modDma_usb (n : Fin 16) (f : DmaChan → DmaChan) : (s.modDma n f).usb = s.usb := rfl
@[simp] theorem State.modDma_gio (n : Fin 16) (f : DmaChan → DmaChan) : (s.modDma n f).gio = s.gio := rfl
@[simp] theorem State.modDma_links (n : Fin 16) (f : DmaChan → DmaChan) : (s.modDma n f).links = s.links := rfl
@[simp] theorem State.modDma_pcie (n : Fin 16) (f : DmaChan → DmaChan) : (s.modDma n f).pcie = s.pcie := rfl
@[simp] theorem State.modDma_hall (n : Fin 16) (f : DmaChan → DmaChan) : (s.modDma n f).hall = s.hall := rfl
@[simp] theorem State.modDma_vault (n : Fin 16) (f : DmaChan → DmaChan) : (s.modDma n f).vault = s.vault := rfl
@[simp] theorem State.modDma_core (n : Fin 16) (f : DmaChan → DmaChan) : (s.modDma n f).core = s.core := rfl
@[simp] theorem State.modDma_tap (n : Fin 16) (f : DmaChan → DmaChan) : (s.modDma n f).tap = s.tap := rfl
@[simp] theorem State.modDma_notices (n : Fin 16) (f : DmaChan → DmaChan) : (s.modDma n f).notices = s.notices := rfl
@[simp] theorem State.modDma_timeBase (n : Fin 16) (f : DmaChan → DmaChan) : (s.modDma n f).timeBase = s.timeBase := rfl
@[simp] theorem State.modDma_tile (n : Fin 16) (f : DmaChan → DmaChan) (x : Stn) (y : TileNo) : (s.modDma n f).tile x y = s.tile x y := rfl
@[simp] theorem State.modDma_stn (n : Fin 16) (f : DmaChan → DmaChan) (x : Stn) : (s.modDma n f).stn x = s.stn x := rfl
@[simp] theorem State.modDma_reg (n : Fin 16) (f : DmaChan → DmaChan) (x : Nat) : (s.modDma n f).reg x = s.reg x := rfl
@[simp] theorem State.modDma_fld (n : Fin 16) (f : DmaChan → DmaChan) (x l w : Nat) : (s.modDma n f).fld x l w = s.fld x l w := rfl
@[simp] theorem State.modDma_rbit (n : Fin 16) (f : DmaChan → DmaChan) (x i : Nat) : (s.modDma n f).rbit x i = s.rbit x i := rfl
@[simp] theorem State.modDma_byte (n : Fin 16) (f : DmaChan → DmaChan) (x : Nat) : (s.modDma n f).byte x = s.byte x := rfl
@[simp] theorem State.modDma_upset (n : Fin 16) (f : DmaChan → DmaChan) (x : Nat) : (s.modDma n f).upset x = s.upset x := rfl

/-! ### modWin -/

@[simp] theorem State.modWin_pending (f : WinState → WinState) : (s.modWin f).pending = s.pending := rfl
@[simp] theorem State.modWin_freeCount (f : WinState → WinState) : (s.modWin f).freeCount = s.freeCount := rfl
@[simp] theorem State.modWin_undef (f : WinState → WinState) : (s.modWin f).undef = s.undef := rfl
@[simp] theorem State.modWin_grade (f : WinState → WinState) : (s.modWin f).grade = s.grade := rfl
@[simp] theorem State.modWin_regs (f : WinState → WinState) : (s.modWin f).regs = s.regs := rfl
@[simp] theorem State.modWin_mem (f : WinState → WinState) : (s.modWin f).mem = s.mem := rfl
@[simp] theorem State.modWin_ecc (f : WinState → WinState) : (s.modWin f).ecc = s.ecc := rfl
@[simp] theorem State.modWin_bankChange (f : WinState → WinState) : (s.modWin f).bankChange = s.bankChange := rfl
@[simp] theorem State.modWin_tiles (f : WinState → WinState) : (s.modWin f).tiles = s.tiles := rfl
@[simp] theorem State.modWin_stns (f : WinState → WinState) : (s.modWin f).stns = s.stns := rfl
@[simp] theorem State.modWin_scrubAt (f : WinState → WinState) : (s.modWin f).scrubAt = s.scrubAt := rfl
@[simp] theorem State.modWin_lp5Scrub (f : WinState → WinState) : (s.modWin f).lp5Scrub = s.lp5Scrub := rfl
@[simp] theorem State.modWin_lp5Train (f : WinState → WinState) : (s.modWin f).lp5Train = s.lp5Train := rfl
@[simp] theorem State.modWin_mxOpen (f : WinState → WinState) : (s.modWin f).mxOpen = s.mxOpen := rfl
@[simp] theorem State.modWin_mxDone (f : WinState → WinState) : (s.modWin f).mxDone = s.mxDone := rfl
@[simp] theorem State.modWin_mxLast (f : WinState → WinState) : (s.modWin f).mxLast = s.mxLast := rfl
@[simp] theorem State.modWin_tbLatch (f : WinState → WinState) : (s.modWin f).tbLatch = s.tbLatch := rfl
@[simp] theorem State.modWin_tmrRun (f : WinState → WinState) : (s.modWin f).tmrRun = s.tmrRun := rfl
@[simp] theorem State.modWin_tmrArmed (f : WinState → WinState) : (s.modWin f).tmrArmed = s.tmrArmed := rfl
@[simp] theorem State.modWin_dma (f : WinState → WinState) : (s.modWin f).dma = s.dma := rfl
@[simp] theorem State.modWin_cam (f : WinState → WinState) : (s.modWin f).cam = s.cam := rfl
@[simp] theorem State.modWin_lc (f : WinState → WinState) : (s.modWin f).lc = s.lc := rfl
@[simp] theorem State.modWin_flash (f : WinState → WinState) : (s.modWin f).flash = s.flash := rfl
@[simp] theorem State.modWin_flashCtl (f : WinState → WinState) : (s.modWin f).flashCtl = s.flashCtl := rfl
@[simp] theorem State.modWin_window (f : WinState → WinState) : (s.modWin f).window = f s.window := rfl
@[simp] theorem State.modWin_serial (f : WinState → WinState) : (s.modWin f).serial = s.serial := rfl
@[simp] theorem State.modWin_usb (f : WinState → WinState) : (s.modWin f).usb = s.usb := rfl
@[simp] theorem State.modWin_gio (f : WinState → WinState) : (s.modWin f).gio = s.gio := rfl
@[simp] theorem State.modWin_links (f : WinState → WinState) : (s.modWin f).links = s.links := rfl
@[simp] theorem State.modWin_pcie (f : WinState → WinState) : (s.modWin f).pcie = s.pcie := rfl
@[simp] theorem State.modWin_hall (f : WinState → WinState) : (s.modWin f).hall = s.hall := rfl
@[simp] theorem State.modWin_vault (f : WinState → WinState) : (s.modWin f).vault = s.vault := rfl
@[simp] theorem State.modWin_core (f : WinState → WinState) : (s.modWin f).core = s.core := rfl
@[simp] theorem State.modWin_tap (f : WinState → WinState) : (s.modWin f).tap = s.tap := rfl
@[simp] theorem State.modWin_notices (f : WinState → WinState) : (s.modWin f).notices = s.notices := rfl
@[simp] theorem State.modWin_timeBase (f : WinState → WinState) : (s.modWin f).timeBase = s.timeBase := rfl
@[simp] theorem State.modWin_tile (f : WinState → WinState) (x : Stn) (y : TileNo) : (s.modWin f).tile x y = s.tile x y := rfl
@[simp] theorem State.modWin_stn (f : WinState → WinState) (x : Stn) : (s.modWin f).stn x = s.stn x := rfl
@[simp] theorem State.modWin_reg (f : WinState → WinState) (x : Nat) : (s.modWin f).reg x = s.reg x := rfl
@[simp] theorem State.modWin_fld (f : WinState → WinState) (x l w : Nat) : (s.modWin f).fld x l w = s.fld x l w := rfl
@[simp] theorem State.modWin_rbit (f : WinState → WinState) (x i : Nat) : (s.modWin f).rbit x i = s.rbit x i := rfl
@[simp] theorem State.modWin_byte (f : WinState → WinState) (x : Nat) : (s.modWin f).byte x = s.byte x := rfl
@[simp] theorem State.modWin_upset (f : WinState → WinState) (x : Nat) : (s.modWin f).upset x = s.upset x := rfl

/-! ### modLink -/

@[simp] theorem State.modLink_pending (p : Fin 2) (f : ChainLink → ChainLink) : (s.modLink p f).pending = s.pending := rfl
@[simp] theorem State.modLink_freeCount (p : Fin 2) (f : ChainLink → ChainLink) : (s.modLink p f).freeCount = s.freeCount := rfl
@[simp] theorem State.modLink_undef (p : Fin 2) (f : ChainLink → ChainLink) : (s.modLink p f).undef = s.undef := rfl
@[simp] theorem State.modLink_grade (p : Fin 2) (f : ChainLink → ChainLink) : (s.modLink p f).grade = s.grade := rfl
@[simp] theorem State.modLink_regs (p : Fin 2) (f : ChainLink → ChainLink) : (s.modLink p f).regs = s.regs := rfl
@[simp] theorem State.modLink_mem (p : Fin 2) (f : ChainLink → ChainLink) : (s.modLink p f).mem = s.mem := rfl
@[simp] theorem State.modLink_ecc (p : Fin 2) (f : ChainLink → ChainLink) : (s.modLink p f).ecc = s.ecc := rfl
@[simp] theorem State.modLink_bankChange (p : Fin 2) (f : ChainLink → ChainLink) : (s.modLink p f).bankChange = s.bankChange := rfl
@[simp] theorem State.modLink_tiles (p : Fin 2) (f : ChainLink → ChainLink) : (s.modLink p f).tiles = s.tiles := rfl
@[simp] theorem State.modLink_stns (p : Fin 2) (f : ChainLink → ChainLink) : (s.modLink p f).stns = s.stns := rfl
@[simp] theorem State.modLink_scrubAt (p : Fin 2) (f : ChainLink → ChainLink) : (s.modLink p f).scrubAt = s.scrubAt := rfl
@[simp] theorem State.modLink_lp5Scrub (p : Fin 2) (f : ChainLink → ChainLink) : (s.modLink p f).lp5Scrub = s.lp5Scrub := rfl
@[simp] theorem State.modLink_lp5Train (p : Fin 2) (f : ChainLink → ChainLink) : (s.modLink p f).lp5Train = s.lp5Train := rfl
@[simp] theorem State.modLink_mxOpen (p : Fin 2) (f : ChainLink → ChainLink) : (s.modLink p f).mxOpen = s.mxOpen := rfl
@[simp] theorem State.modLink_mxDone (p : Fin 2) (f : ChainLink → ChainLink) : (s.modLink p f).mxDone = s.mxDone := rfl
@[simp] theorem State.modLink_mxLast (p : Fin 2) (f : ChainLink → ChainLink) : (s.modLink p f).mxLast = s.mxLast := rfl
@[simp] theorem State.modLink_tbLatch (p : Fin 2) (f : ChainLink → ChainLink) : (s.modLink p f).tbLatch = s.tbLatch := rfl
@[simp] theorem State.modLink_tmrRun (p : Fin 2) (f : ChainLink → ChainLink) : (s.modLink p f).tmrRun = s.tmrRun := rfl
@[simp] theorem State.modLink_tmrArmed (p : Fin 2) (f : ChainLink → ChainLink) : (s.modLink p f).tmrArmed = s.tmrArmed := rfl
@[simp] theorem State.modLink_dma (p : Fin 2) (f : ChainLink → ChainLink) : (s.modLink p f).dma = s.dma := rfl
@[simp] theorem State.modLink_cam (p : Fin 2) (f : ChainLink → ChainLink) : (s.modLink p f).cam = s.cam := rfl
@[simp] theorem State.modLink_lc (p : Fin 2) (f : ChainLink → ChainLink) : (s.modLink p f).lc = s.lc := rfl
@[simp] theorem State.modLink_flash (p : Fin 2) (f : ChainLink → ChainLink) : (s.modLink p f).flash = s.flash := rfl
@[simp] theorem State.modLink_flashCtl (p : Fin 2) (f : ChainLink → ChainLink) : (s.modLink p f).flashCtl = s.flashCtl := rfl
@[simp] theorem State.modLink_window (p : Fin 2) (f : ChainLink → ChainLink) : (s.modLink p f).window = s.window := rfl
@[simp] theorem State.modLink_serial (p : Fin 2) (f : ChainLink → ChainLink) : (s.modLink p f).serial = s.serial := rfl
@[simp] theorem State.modLink_usb (p : Fin 2) (f : ChainLink → ChainLink) : (s.modLink p f).usb = s.usb := rfl
@[simp] theorem State.modLink_gio (p : Fin 2) (f : ChainLink → ChainLink) : (s.modLink p f).gio = s.gio := rfl
@[simp] theorem State.modLink_pcie (p : Fin 2) (f : ChainLink → ChainLink) : (s.modLink p f).pcie = s.pcie := rfl
@[simp] theorem State.modLink_hall (p : Fin 2) (f : ChainLink → ChainLink) : (s.modLink p f).hall = s.hall := rfl
@[simp] theorem State.modLink_vault (p : Fin 2) (f : ChainLink → ChainLink) : (s.modLink p f).vault = s.vault := rfl
@[simp] theorem State.modLink_core (p : Fin 2) (f : ChainLink → ChainLink) : (s.modLink p f).core = s.core := rfl
@[simp] theorem State.modLink_tap (p : Fin 2) (f : ChainLink → ChainLink) : (s.modLink p f).tap = s.tap := rfl
@[simp] theorem State.modLink_notices (p : Fin 2) (f : ChainLink → ChainLink) : (s.modLink p f).notices = s.notices := rfl
@[simp] theorem State.modLink_timeBase (p : Fin 2) (f : ChainLink → ChainLink) : (s.modLink p f).timeBase = s.timeBase := rfl
@[simp] theorem State.modLink_tile (p : Fin 2) (f : ChainLink → ChainLink) (x : Stn) (y : TileNo) : (s.modLink p f).tile x y = s.tile x y := rfl
@[simp] theorem State.modLink_stn (p : Fin 2) (f : ChainLink → ChainLink) (x : Stn) : (s.modLink p f).stn x = s.stn x := rfl
@[simp] theorem State.modLink_reg (p : Fin 2) (f : ChainLink → ChainLink) (x : Nat) : (s.modLink p f).reg x = s.reg x := rfl
@[simp] theorem State.modLink_fld (p : Fin 2) (f : ChainLink → ChainLink) (x l w : Nat) : (s.modLink p f).fld x l w = s.fld x l w := rfl
@[simp] theorem State.modLink_rbit (p : Fin 2) (f : ChainLink → ChainLink) (x i : Nat) : (s.modLink p f).rbit x i = s.rbit x i := rfl
@[simp] theorem State.modLink_byte (p : Fin 2) (f : ChainLink → ChainLink) (x : Nat) : (s.modLink p f).byte x = s.byte x := rfl
@[simp] theorem State.modLink_upset (p : Fin 2) (f : ChainLink → ChainLink) (x : Nat) : (s.modLink p f).upset x = s.upset x := rfl

/-! ### modPcie -/

@[simp] theorem State.modPcie_pending (f : Pcie → Pcie) : (s.modPcie f).pending = s.pending := rfl
@[simp] theorem State.modPcie_freeCount (f : Pcie → Pcie) : (s.modPcie f).freeCount = s.freeCount := rfl
@[simp] theorem State.modPcie_undef (f : Pcie → Pcie) : (s.modPcie f).undef = s.undef := rfl
@[simp] theorem State.modPcie_grade (f : Pcie → Pcie) : (s.modPcie f).grade = s.grade := rfl
@[simp] theorem State.modPcie_regs (f : Pcie → Pcie) : (s.modPcie f).regs = s.regs := rfl
@[simp] theorem State.modPcie_mem (f : Pcie → Pcie) : (s.modPcie f).mem = s.mem := rfl
@[simp] theorem State.modPcie_ecc (f : Pcie → Pcie) : (s.modPcie f).ecc = s.ecc := rfl
@[simp] theorem State.modPcie_bankChange (f : Pcie → Pcie) : (s.modPcie f).bankChange = s.bankChange := rfl
@[simp] theorem State.modPcie_tiles (f : Pcie → Pcie) : (s.modPcie f).tiles = s.tiles := rfl
@[simp] theorem State.modPcie_stns (f : Pcie → Pcie) : (s.modPcie f).stns = s.stns := rfl
@[simp] theorem State.modPcie_scrubAt (f : Pcie → Pcie) : (s.modPcie f).scrubAt = s.scrubAt := rfl
@[simp] theorem State.modPcie_lp5Scrub (f : Pcie → Pcie) : (s.modPcie f).lp5Scrub = s.lp5Scrub := rfl
@[simp] theorem State.modPcie_lp5Train (f : Pcie → Pcie) : (s.modPcie f).lp5Train = s.lp5Train := rfl
@[simp] theorem State.modPcie_mxOpen (f : Pcie → Pcie) : (s.modPcie f).mxOpen = s.mxOpen := rfl
@[simp] theorem State.modPcie_mxDone (f : Pcie → Pcie) : (s.modPcie f).mxDone = s.mxDone := rfl
@[simp] theorem State.modPcie_mxLast (f : Pcie → Pcie) : (s.modPcie f).mxLast = s.mxLast := rfl
@[simp] theorem State.modPcie_tbLatch (f : Pcie → Pcie) : (s.modPcie f).tbLatch = s.tbLatch := rfl
@[simp] theorem State.modPcie_tmrRun (f : Pcie → Pcie) : (s.modPcie f).tmrRun = s.tmrRun := rfl
@[simp] theorem State.modPcie_tmrArmed (f : Pcie → Pcie) : (s.modPcie f).tmrArmed = s.tmrArmed := rfl
@[simp] theorem State.modPcie_dma (f : Pcie → Pcie) : (s.modPcie f).dma = s.dma := rfl
@[simp] theorem State.modPcie_cam (f : Pcie → Pcie) : (s.modPcie f).cam = s.cam := rfl
@[simp] theorem State.modPcie_lc (f : Pcie → Pcie) : (s.modPcie f).lc = s.lc := rfl
@[simp] theorem State.modPcie_flash (f : Pcie → Pcie) : (s.modPcie f).flash = s.flash := rfl
@[simp] theorem State.modPcie_flashCtl (f : Pcie → Pcie) : (s.modPcie f).flashCtl = s.flashCtl := rfl
@[simp] theorem State.modPcie_window (f : Pcie → Pcie) : (s.modPcie f).window = s.window := rfl
@[simp] theorem State.modPcie_serial (f : Pcie → Pcie) : (s.modPcie f).serial = s.serial := rfl
@[simp] theorem State.modPcie_usb (f : Pcie → Pcie) : (s.modPcie f).usb = s.usb := rfl
@[simp] theorem State.modPcie_gio (f : Pcie → Pcie) : (s.modPcie f).gio = s.gio := rfl
@[simp] theorem State.modPcie_links (f : Pcie → Pcie) : (s.modPcie f).links = s.links := rfl
@[simp] theorem State.modPcie_pcie (f : Pcie → Pcie) : (s.modPcie f).pcie = f s.pcie := rfl
@[simp] theorem State.modPcie_hall (f : Pcie → Pcie) : (s.modPcie f).hall = s.hall := rfl
@[simp] theorem State.modPcie_vault (f : Pcie → Pcie) : (s.modPcie f).vault = s.vault := rfl
@[simp] theorem State.modPcie_core (f : Pcie → Pcie) : (s.modPcie f).core = s.core := rfl
@[simp] theorem State.modPcie_tap (f : Pcie → Pcie) : (s.modPcie f).tap = s.tap := rfl
@[simp] theorem State.modPcie_notices (f : Pcie → Pcie) : (s.modPcie f).notices = s.notices := rfl
@[simp] theorem State.modPcie_timeBase (f : Pcie → Pcie) : (s.modPcie f).timeBase = s.timeBase := rfl
@[simp] theorem State.modPcie_tile (f : Pcie → Pcie) (x : Stn) (y : TileNo) : (s.modPcie f).tile x y = s.tile x y := rfl
@[simp] theorem State.modPcie_stn (f : Pcie → Pcie) (x : Stn) : (s.modPcie f).stn x = s.stn x := rfl
@[simp] theorem State.modPcie_reg (f : Pcie → Pcie) (x : Nat) : (s.modPcie f).reg x = s.reg x := rfl
@[simp] theorem State.modPcie_fld (f : Pcie → Pcie) (x l w : Nat) : (s.modPcie f).fld x l w = s.fld x l w := rfl
@[simp] theorem State.modPcie_rbit (f : Pcie → Pcie) (x i : Nat) : (s.modPcie f).rbit x i = s.rbit x i := rfl
@[simp] theorem State.modPcie_byte (f : Pcie → Pcie) (x : Nat) : (s.modPcie f).byte x = s.byte x := rfl
@[simp] theorem State.modPcie_upset (f : Pcie → Pcie) (x : Nat) : (s.modPcie f).upset x = s.upset x := rfl

/-! ### modLc -/

@[simp] theorem State.modLc_pending (c : Fin 8) (f : LcChan → LcChan) : (s.modLc c f).pending = s.pending := rfl
@[simp] theorem State.modLc_freeCount (c : Fin 8) (f : LcChan → LcChan) : (s.modLc c f).freeCount = s.freeCount := rfl
@[simp] theorem State.modLc_undef (c : Fin 8) (f : LcChan → LcChan) : (s.modLc c f).undef = s.undef := rfl
@[simp] theorem State.modLc_grade (c : Fin 8) (f : LcChan → LcChan) : (s.modLc c f).grade = s.grade := rfl
@[simp] theorem State.modLc_regs (c : Fin 8) (f : LcChan → LcChan) : (s.modLc c f).regs = s.regs := rfl
@[simp] theorem State.modLc_mem (c : Fin 8) (f : LcChan → LcChan) : (s.modLc c f).mem = s.mem := rfl
@[simp] theorem State.modLc_ecc (c : Fin 8) (f : LcChan → LcChan) : (s.modLc c f).ecc = s.ecc := rfl
@[simp] theorem State.modLc_bankChange (c : Fin 8) (f : LcChan → LcChan) : (s.modLc c f).bankChange = s.bankChange := rfl
@[simp] theorem State.modLc_tiles (c : Fin 8) (f : LcChan → LcChan) : (s.modLc c f).tiles = s.tiles := rfl
@[simp] theorem State.modLc_stns (c : Fin 8) (f : LcChan → LcChan) : (s.modLc c f).stns = s.stns := rfl
@[simp] theorem State.modLc_scrubAt (c : Fin 8) (f : LcChan → LcChan) : (s.modLc c f).scrubAt = s.scrubAt := rfl
@[simp] theorem State.modLc_lp5Scrub (c : Fin 8) (f : LcChan → LcChan) : (s.modLc c f).lp5Scrub = s.lp5Scrub := rfl
@[simp] theorem State.modLc_lp5Train (c : Fin 8) (f : LcChan → LcChan) : (s.modLc c f).lp5Train = s.lp5Train := rfl
@[simp] theorem State.modLc_mxOpen (c : Fin 8) (f : LcChan → LcChan) : (s.modLc c f).mxOpen = s.mxOpen := rfl
@[simp] theorem State.modLc_mxDone (c : Fin 8) (f : LcChan → LcChan) : (s.modLc c f).mxDone = s.mxDone := rfl
@[simp] theorem State.modLc_mxLast (c : Fin 8) (f : LcChan → LcChan) : (s.modLc c f).mxLast = s.mxLast := rfl
@[simp] theorem State.modLc_tbLatch (c : Fin 8) (f : LcChan → LcChan) : (s.modLc c f).tbLatch = s.tbLatch := rfl
@[simp] theorem State.modLc_tmrRun (c : Fin 8) (f : LcChan → LcChan) : (s.modLc c f).tmrRun = s.tmrRun := rfl
@[simp] theorem State.modLc_tmrArmed (c : Fin 8) (f : LcChan → LcChan) : (s.modLc c f).tmrArmed = s.tmrArmed := rfl
@[simp] theorem State.modLc_dma (c : Fin 8) (f : LcChan → LcChan) : (s.modLc c f).dma = s.dma := rfl
@[simp] theorem State.modLc_cam (c : Fin 8) (f : LcChan → LcChan) : (s.modLc c f).cam = s.cam := rfl
@[simp] theorem State.modLc_flash (c : Fin 8) (f : LcChan → LcChan) : (s.modLc c f).flash = s.flash := rfl
@[simp] theorem State.modLc_flashCtl (c : Fin 8) (f : LcChan → LcChan) : (s.modLc c f).flashCtl = s.flashCtl := rfl
@[simp] theorem State.modLc_window (c : Fin 8) (f : LcChan → LcChan) : (s.modLc c f).window = s.window := rfl
@[simp] theorem State.modLc_serial (c : Fin 8) (f : LcChan → LcChan) : (s.modLc c f).serial = s.serial := rfl
@[simp] theorem State.modLc_usb (c : Fin 8) (f : LcChan → LcChan) : (s.modLc c f).usb = s.usb := rfl
@[simp] theorem State.modLc_gio (c : Fin 8) (f : LcChan → LcChan) : (s.modLc c f).gio = s.gio := rfl
@[simp] theorem State.modLc_links (c : Fin 8) (f : LcChan → LcChan) : (s.modLc c f).links = s.links := rfl
@[simp] theorem State.modLc_pcie (c : Fin 8) (f : LcChan → LcChan) : (s.modLc c f).pcie = s.pcie := rfl
@[simp] theorem State.modLc_hall (c : Fin 8) (f : LcChan → LcChan) : (s.modLc c f).hall = s.hall := rfl
@[simp] theorem State.modLc_vault (c : Fin 8) (f : LcChan → LcChan) : (s.modLc c f).vault = s.vault := rfl
@[simp] theorem State.modLc_core (c : Fin 8) (f : LcChan → LcChan) : (s.modLc c f).core = s.core := rfl
@[simp] theorem State.modLc_tap (c : Fin 8) (f : LcChan → LcChan) : (s.modLc c f).tap = s.tap := rfl
@[simp] theorem State.modLc_notices (c : Fin 8) (f : LcChan → LcChan) : (s.modLc c f).notices = s.notices := rfl
@[simp] theorem State.modLc_timeBase (c : Fin 8) (f : LcChan → LcChan) : (s.modLc c f).timeBase = s.timeBase := rfl
@[simp] theorem State.modLc_tile (c : Fin 8) (f : LcChan → LcChan) (x : Stn) (y : TileNo) : (s.modLc c f).tile x y = s.tile x y := rfl
@[simp] theorem State.modLc_stn (c : Fin 8) (f : LcChan → LcChan) (x : Stn) : (s.modLc c f).stn x = s.stn x := rfl
@[simp] theorem State.modLc_reg (c : Fin 8) (f : LcChan → LcChan) (x : Nat) : (s.modLc c f).reg x = s.reg x := rfl
@[simp] theorem State.modLc_fld (c : Fin 8) (f : LcChan → LcChan) (x l w : Nat) : (s.modLc c f).fld x l w = s.fld x l w := rfl
@[simp] theorem State.modLc_rbit (c : Fin 8) (f : LcChan → LcChan) (x i : Nat) : (s.modLc c f).rbit x i = s.rbit x i := rfl
@[simp] theorem State.modLc_byte (c : Fin 8) (f : LcChan → LcChan) (x : Nat) : (s.modLc c f).byte x = s.byte x := rfl
@[simp] theorem State.modLc_upset (c : Fin 8) (f : LcChan → LcChan) (x : Nat) : (s.modLc c f).upset x = s.upset x := rfl

/-! ### modFlash -/

@[simp] theorem State.modFlash_pending (f : FlashCtl → FlashCtl) : (s.modFlash f).pending = s.pending := rfl
@[simp] theorem State.modFlash_freeCount (f : FlashCtl → FlashCtl) : (s.modFlash f).freeCount = s.freeCount := rfl
@[simp] theorem State.modFlash_undef (f : FlashCtl → FlashCtl) : (s.modFlash f).undef = s.undef := rfl
@[simp] theorem State.modFlash_grade (f : FlashCtl → FlashCtl) : (s.modFlash f).grade = s.grade := rfl
@[simp] theorem State.modFlash_regs (f : FlashCtl → FlashCtl) : (s.modFlash f).regs = s.regs := rfl
@[simp] theorem State.modFlash_mem (f : FlashCtl → FlashCtl) : (s.modFlash f).mem = s.mem := rfl
@[simp] theorem State.modFlash_ecc (f : FlashCtl → FlashCtl) : (s.modFlash f).ecc = s.ecc := rfl
@[simp] theorem State.modFlash_bankChange (f : FlashCtl → FlashCtl) : (s.modFlash f).bankChange = s.bankChange := rfl
@[simp] theorem State.modFlash_tiles (f : FlashCtl → FlashCtl) : (s.modFlash f).tiles = s.tiles := rfl
@[simp] theorem State.modFlash_stns (f : FlashCtl → FlashCtl) : (s.modFlash f).stns = s.stns := rfl
@[simp] theorem State.modFlash_scrubAt (f : FlashCtl → FlashCtl) : (s.modFlash f).scrubAt = s.scrubAt := rfl
@[simp] theorem State.modFlash_lp5Scrub (f : FlashCtl → FlashCtl) : (s.modFlash f).lp5Scrub = s.lp5Scrub := rfl
@[simp] theorem State.modFlash_lp5Train (f : FlashCtl → FlashCtl) : (s.modFlash f).lp5Train = s.lp5Train := rfl
@[simp] theorem State.modFlash_mxOpen (f : FlashCtl → FlashCtl) : (s.modFlash f).mxOpen = s.mxOpen := rfl
@[simp] theorem State.modFlash_mxDone (f : FlashCtl → FlashCtl) : (s.modFlash f).mxDone = s.mxDone := rfl
@[simp] theorem State.modFlash_mxLast (f : FlashCtl → FlashCtl) : (s.modFlash f).mxLast = s.mxLast := rfl
@[simp] theorem State.modFlash_tbLatch (f : FlashCtl → FlashCtl) : (s.modFlash f).tbLatch = s.tbLatch := rfl
@[simp] theorem State.modFlash_tmrRun (f : FlashCtl → FlashCtl) : (s.modFlash f).tmrRun = s.tmrRun := rfl
@[simp] theorem State.modFlash_tmrArmed (f : FlashCtl → FlashCtl) : (s.modFlash f).tmrArmed = s.tmrArmed := rfl
@[simp] theorem State.modFlash_dma (f : FlashCtl → FlashCtl) : (s.modFlash f).dma = s.dma := rfl
@[simp] theorem State.modFlash_cam (f : FlashCtl → FlashCtl) : (s.modFlash f).cam = s.cam := rfl
@[simp] theorem State.modFlash_lc (f : FlashCtl → FlashCtl) : (s.modFlash f).lc = s.lc := rfl
@[simp] theorem State.modFlash_flash (f : FlashCtl → FlashCtl) : (s.modFlash f).flash = s.flash := rfl
@[simp] theorem State.modFlash_flashCtl (f : FlashCtl → FlashCtl) : (s.modFlash f).flashCtl = f s.flashCtl := rfl
@[simp] theorem State.modFlash_window (f : FlashCtl → FlashCtl) : (s.modFlash f).window = s.window := rfl
@[simp] theorem State.modFlash_serial (f : FlashCtl → FlashCtl) : (s.modFlash f).serial = s.serial := rfl
@[simp] theorem State.modFlash_usb (f : FlashCtl → FlashCtl) : (s.modFlash f).usb = s.usb := rfl
@[simp] theorem State.modFlash_gio (f : FlashCtl → FlashCtl) : (s.modFlash f).gio = s.gio := rfl
@[simp] theorem State.modFlash_links (f : FlashCtl → FlashCtl) : (s.modFlash f).links = s.links := rfl
@[simp] theorem State.modFlash_pcie (f : FlashCtl → FlashCtl) : (s.modFlash f).pcie = s.pcie := rfl
@[simp] theorem State.modFlash_hall (f : FlashCtl → FlashCtl) : (s.modFlash f).hall = s.hall := rfl
@[simp] theorem State.modFlash_vault (f : FlashCtl → FlashCtl) : (s.modFlash f).vault = s.vault := rfl
@[simp] theorem State.modFlash_core (f : FlashCtl → FlashCtl) : (s.modFlash f).core = s.core := rfl
@[simp] theorem State.modFlash_tap (f : FlashCtl → FlashCtl) : (s.modFlash f).tap = s.tap := rfl
@[simp] theorem State.modFlash_notices (f : FlashCtl → FlashCtl) : (s.modFlash f).notices = s.notices := rfl
@[simp] theorem State.modFlash_timeBase (f : FlashCtl → FlashCtl) : (s.modFlash f).timeBase = s.timeBase := rfl
@[simp] theorem State.modFlash_tile (f : FlashCtl → FlashCtl) (x : Stn) (y : TileNo) : (s.modFlash f).tile x y = s.tile x y := rfl
@[simp] theorem State.modFlash_stn (f : FlashCtl → FlashCtl) (x : Stn) : (s.modFlash f).stn x = s.stn x := rfl
@[simp] theorem State.modFlash_reg (f : FlashCtl → FlashCtl) (x : Nat) : (s.modFlash f).reg x = s.reg x := rfl
@[simp] theorem State.modFlash_fld (f : FlashCtl → FlashCtl) (x l w : Nat) : (s.modFlash f).fld x l w = s.fld x l w := rfl
@[simp] theorem State.modFlash_rbit (f : FlashCtl → FlashCtl) (x i : Nat) : (s.modFlash f).rbit x i = s.rbit x i := rfl
@[simp] theorem State.modFlash_byte (f : FlashCtl → FlashCtl) (x : Nat) : (s.modFlash f).byte x = s.byte x := rfl
@[simp] theorem State.modFlash_upset (f : FlashCtl → FlashCtl) (x : Nat) : (s.modFlash f).upset x = s.upset x := rfl

/-! ### modTap -/

@[simp] theorem State.modTap_pending (f : Tap → Tap) : (s.modTap f).pending = s.pending := rfl
@[simp] theorem State.modTap_freeCount (f : Tap → Tap) : (s.modTap f).freeCount = s.freeCount := rfl
@[simp] theorem State.modTap_undef (f : Tap → Tap) : (s.modTap f).undef = s.undef := rfl
@[simp] theorem State.modTap_grade (f : Tap → Tap) : (s.modTap f).grade = s.grade := rfl
@[simp] theorem State.modTap_regs (f : Tap → Tap) : (s.modTap f).regs = s.regs := rfl
@[simp] theorem State.modTap_mem (f : Tap → Tap) : (s.modTap f).mem = s.mem := rfl
@[simp] theorem State.modTap_ecc (f : Tap → Tap) : (s.modTap f).ecc = s.ecc := rfl
@[simp] theorem State.modTap_bankChange (f : Tap → Tap) : (s.modTap f).bankChange = s.bankChange := rfl
@[simp] theorem State.modTap_tiles (f : Tap → Tap) : (s.modTap f).tiles = s.tiles := rfl
@[simp] theorem State.modTap_stns (f : Tap → Tap) : (s.modTap f).stns = s.stns := rfl
@[simp] theorem State.modTap_scrubAt (f : Tap → Tap) : (s.modTap f).scrubAt = s.scrubAt := rfl
@[simp] theorem State.modTap_lp5Scrub (f : Tap → Tap) : (s.modTap f).lp5Scrub = s.lp5Scrub := rfl
@[simp] theorem State.modTap_lp5Train (f : Tap → Tap) : (s.modTap f).lp5Train = s.lp5Train := rfl
@[simp] theorem State.modTap_mxOpen (f : Tap → Tap) : (s.modTap f).mxOpen = s.mxOpen := rfl
@[simp] theorem State.modTap_mxDone (f : Tap → Tap) : (s.modTap f).mxDone = s.mxDone := rfl
@[simp] theorem State.modTap_mxLast (f : Tap → Tap) : (s.modTap f).mxLast = s.mxLast := rfl
@[simp] theorem State.modTap_tbLatch (f : Tap → Tap) : (s.modTap f).tbLatch = s.tbLatch := rfl
@[simp] theorem State.modTap_tmrRun (f : Tap → Tap) : (s.modTap f).tmrRun = s.tmrRun := rfl
@[simp] theorem State.modTap_tmrArmed (f : Tap → Tap) : (s.modTap f).tmrArmed = s.tmrArmed := rfl
@[simp] theorem State.modTap_dma (f : Tap → Tap) : (s.modTap f).dma = s.dma := rfl
@[simp] theorem State.modTap_cam (f : Tap → Tap) : (s.modTap f).cam = s.cam := rfl
@[simp] theorem State.modTap_lc (f : Tap → Tap) : (s.modTap f).lc = s.lc := rfl
@[simp] theorem State.modTap_flash (f : Tap → Tap) : (s.modTap f).flash = s.flash := rfl
@[simp] theorem State.modTap_flashCtl (f : Tap → Tap) : (s.modTap f).flashCtl = s.flashCtl := rfl
@[simp] theorem State.modTap_window (f : Tap → Tap) : (s.modTap f).window = s.window := rfl
@[simp] theorem State.modTap_serial (f : Tap → Tap) : (s.modTap f).serial = s.serial := rfl
@[simp] theorem State.modTap_usb (f : Tap → Tap) : (s.modTap f).usb = s.usb := rfl
@[simp] theorem State.modTap_gio (f : Tap → Tap) : (s.modTap f).gio = s.gio := rfl
@[simp] theorem State.modTap_links (f : Tap → Tap) : (s.modTap f).links = s.links := rfl
@[simp] theorem State.modTap_pcie (f : Tap → Tap) : (s.modTap f).pcie = s.pcie := rfl
@[simp] theorem State.modTap_hall (f : Tap → Tap) : (s.modTap f).hall = s.hall := rfl
@[simp] theorem State.modTap_vault (f : Tap → Tap) : (s.modTap f).vault = s.vault := rfl
@[simp] theorem State.modTap_core (f : Tap → Tap) : (s.modTap f).core = s.core := rfl
@[simp] theorem State.modTap_tap (f : Tap → Tap) : (s.modTap f).tap = f s.tap := rfl
@[simp] theorem State.modTap_notices (f : Tap → Tap) : (s.modTap f).notices = s.notices := rfl
@[simp] theorem State.modTap_timeBase (f : Tap → Tap) : (s.modTap f).timeBase = s.timeBase := rfl
@[simp] theorem State.modTap_tile (f : Tap → Tap) (x : Stn) (y : TileNo) : (s.modTap f).tile x y = s.tile x y := rfl
@[simp] theorem State.modTap_stn (f : Tap → Tap) (x : Stn) : (s.modTap f).stn x = s.stn x := rfl
@[simp] theorem State.modTap_reg (f : Tap → Tap) (x : Nat) : (s.modTap f).reg x = s.reg x := rfl
@[simp] theorem State.modTap_fld (f : Tap → Tap) (x l w : Nat) : (s.modTap f).fld x l w = s.fld x l w := rfl
@[simp] theorem State.modTap_rbit (f : Tap → Tap) (x i : Nat) : (s.modTap f).rbit x i = s.rbit x i := rfl
@[simp] theorem State.modTap_byte (f : Tap → Tap) (x : Nat) : (s.modTap f).byte x = s.byte x := rfl
@[simp] theorem State.modTap_upset (f : Tap → Tap) (x : Nat) : (s.modTap f).upset x = s.upset x := rfl

/-! ### modUsb -/

@[simp] theorem State.modUsb_pending (g : Fin 4) (f : UsbGroup → UsbGroup) : (s.modUsb g f).pending = s.pending := rfl
@[simp] theorem State.modUsb_freeCount (g : Fin 4) (f : UsbGroup → UsbGroup) : (s.modUsb g f).freeCount = s.freeCount := rfl
@[simp] theorem State.modUsb_undef (g : Fin 4) (f : UsbGroup → UsbGroup) : (s.modUsb g f).undef = s.undef := rfl
@[simp] theorem State.modUsb_grade (g : Fin 4) (f : UsbGroup → UsbGroup) : (s.modUsb g f).grade = s.grade := rfl
@[simp] theorem State.modUsb_regs (g : Fin 4) (f : UsbGroup → UsbGroup) : (s.modUsb g f).regs = s.regs := rfl
@[simp] theorem State.modUsb_mem (g : Fin 4) (f : UsbGroup → UsbGroup) : (s.modUsb g f).mem = s.mem := rfl
@[simp] theorem State.modUsb_ecc (g : Fin 4) (f : UsbGroup → UsbGroup) : (s.modUsb g f).ecc = s.ecc := rfl
@[simp] theorem State.modUsb_bankChange (g : Fin 4) (f : UsbGroup → UsbGroup) : (s.modUsb g f).bankChange = s.bankChange := rfl
@[simp] theorem State.modUsb_tiles (g : Fin 4) (f : UsbGroup → UsbGroup) : (s.modUsb g f).tiles = s.tiles := rfl
@[simp] theorem State.modUsb_stns (g : Fin 4) (f : UsbGroup → UsbGroup) : (s.modUsb g f).stns = s.stns := rfl
@[simp] theorem State.modUsb_scrubAt (g : Fin 4) (f : UsbGroup → UsbGroup) : (s.modUsb g f).scrubAt = s.scrubAt := rfl
@[simp] theorem State.modUsb_lp5Scrub (g : Fin 4) (f : UsbGroup → UsbGroup) : (s.modUsb g f).lp5Scrub = s.lp5Scrub := rfl
@[simp] theorem State.modUsb_lp5Train (g : Fin 4) (f : UsbGroup → UsbGroup) : (s.modUsb g f).lp5Train = s.lp5Train := rfl
@[simp] theorem State.modUsb_mxOpen (g : Fin 4) (f : UsbGroup → UsbGroup) : (s.modUsb g f).mxOpen = s.mxOpen := rfl
@[simp] theorem State.modUsb_mxDone (g : Fin 4) (f : UsbGroup → UsbGroup) : (s.modUsb g f).mxDone = s.mxDone := rfl
@[simp] theorem State.modUsb_mxLast (g : Fin 4) (f : UsbGroup → UsbGroup) : (s.modUsb g f).mxLast = s.mxLast := rfl
@[simp] theorem State.modUsb_tbLatch (g : Fin 4) (f : UsbGroup → UsbGroup) : (s.modUsb g f).tbLatch = s.tbLatch := rfl
@[simp] theorem State.modUsb_tmrRun (g : Fin 4) (f : UsbGroup → UsbGroup) : (s.modUsb g f).tmrRun = s.tmrRun := rfl
@[simp] theorem State.modUsb_tmrArmed (g : Fin 4) (f : UsbGroup → UsbGroup) : (s.modUsb g f).tmrArmed = s.tmrArmed := rfl
@[simp] theorem State.modUsb_dma (g : Fin 4) (f : UsbGroup → UsbGroup) : (s.modUsb g f).dma = s.dma := rfl
@[simp] theorem State.modUsb_cam (g : Fin 4) (f : UsbGroup → UsbGroup) : (s.modUsb g f).cam = s.cam := rfl
@[simp] theorem State.modUsb_lc (g : Fin 4) (f : UsbGroup → UsbGroup) : (s.modUsb g f).lc = s.lc := rfl
@[simp] theorem State.modUsb_flash (g : Fin 4) (f : UsbGroup → UsbGroup) : (s.modUsb g f).flash = s.flash := rfl
@[simp] theorem State.modUsb_flashCtl (g : Fin 4) (f : UsbGroup → UsbGroup) : (s.modUsb g f).flashCtl = s.flashCtl := rfl
@[simp] theorem State.modUsb_window (g : Fin 4) (f : UsbGroup → UsbGroup) : (s.modUsb g f).window = s.window := rfl
@[simp] theorem State.modUsb_serial (g : Fin 4) (f : UsbGroup → UsbGroup) : (s.modUsb g f).serial = s.serial := rfl
@[simp] theorem State.modUsb_gio (g : Fin 4) (f : UsbGroup → UsbGroup) : (s.modUsb g f).gio = s.gio := rfl
@[simp] theorem State.modUsb_links (g : Fin 4) (f : UsbGroup → UsbGroup) : (s.modUsb g f).links = s.links := rfl
@[simp] theorem State.modUsb_pcie (g : Fin 4) (f : UsbGroup → UsbGroup) : (s.modUsb g f).pcie = s.pcie := rfl
@[simp] theorem State.modUsb_hall (g : Fin 4) (f : UsbGroup → UsbGroup) : (s.modUsb g f).hall = s.hall := rfl
@[simp] theorem State.modUsb_vault (g : Fin 4) (f : UsbGroup → UsbGroup) : (s.modUsb g f).vault = s.vault := rfl
@[simp] theorem State.modUsb_core (g : Fin 4) (f : UsbGroup → UsbGroup) : (s.modUsb g f).core = s.core := rfl
@[simp] theorem State.modUsb_tap (g : Fin 4) (f : UsbGroup → UsbGroup) : (s.modUsb g f).tap = s.tap := rfl
@[simp] theorem State.modUsb_notices (g : Fin 4) (f : UsbGroup → UsbGroup) : (s.modUsb g f).notices = s.notices := rfl
@[simp] theorem State.modUsb_timeBase (g : Fin 4) (f : UsbGroup → UsbGroup) : (s.modUsb g f).timeBase = s.timeBase := rfl
@[simp] theorem State.modUsb_tile (g : Fin 4) (f : UsbGroup → UsbGroup) (x : Stn) (y : TileNo) : (s.modUsb g f).tile x y = s.tile x y := rfl
@[simp] theorem State.modUsb_stn (g : Fin 4) (f : UsbGroup → UsbGroup) (x : Stn) : (s.modUsb g f).stn x = s.stn x := rfl
@[simp] theorem State.modUsb_reg (g : Fin 4) (f : UsbGroup → UsbGroup) (x : Nat) : (s.modUsb g f).reg x = s.reg x := rfl
@[simp] theorem State.modUsb_fld (g : Fin 4) (f : UsbGroup → UsbGroup) (x l w : Nat) : (s.modUsb g f).fld x l w = s.fld x l w := rfl
@[simp] theorem State.modUsb_rbit (g : Fin 4) (f : UsbGroup → UsbGroup) (x i : Nat) : (s.modUsb g f).rbit x i = s.rbit x i := rfl
@[simp] theorem State.modUsb_byte (g : Fin 4) (f : UsbGroup → UsbGroup) (x : Nat) : (s.modUsb g f).byte x = s.byte x := rfl
@[simp] theorem State.modUsb_upset (g : Fin 4) (f : UsbGroup → UsbGroup) (x : Nat) : (s.modUsb g f).upset x = s.upset x := rfl

/-! ### modVault -/

@[simp] theorem State.modVault_pending (f : Vault → Vault) : (s.modVault f).pending = s.pending := rfl
@[simp] theorem State.modVault_freeCount (f : Vault → Vault) : (s.modVault f).freeCount = s.freeCount := rfl
@[simp] theorem State.modVault_undef (f : Vault → Vault) : (s.modVault f).undef = s.undef := rfl
@[simp] theorem State.modVault_grade (f : Vault → Vault) : (s.modVault f).grade = s.grade := rfl
@[simp] theorem State.modVault_regs (f : Vault → Vault) : (s.modVault f).regs = s.regs := rfl
@[simp] theorem State.modVault_mem (f : Vault → Vault) : (s.modVault f).mem = s.mem := rfl
@[simp] theorem State.modVault_ecc (f : Vault → Vault) : (s.modVault f).ecc = s.ecc := rfl
@[simp] theorem State.modVault_bankChange (f : Vault → Vault) : (s.modVault f).bankChange = s.bankChange := rfl
@[simp] theorem State.modVault_tiles (f : Vault → Vault) : (s.modVault f).tiles = s.tiles := rfl
@[simp] theorem State.modVault_stns (f : Vault → Vault) : (s.modVault f).stns = s.stns := rfl
@[simp] theorem State.modVault_scrubAt (f : Vault → Vault) : (s.modVault f).scrubAt = s.scrubAt := rfl
@[simp] theorem State.modVault_lp5Scrub (f : Vault → Vault) : (s.modVault f).lp5Scrub = s.lp5Scrub := rfl
@[simp] theorem State.modVault_lp5Train (f : Vault → Vault) : (s.modVault f).lp5Train = s.lp5Train := rfl
@[simp] theorem State.modVault_mxOpen (f : Vault → Vault) : (s.modVault f).mxOpen = s.mxOpen := rfl
@[simp] theorem State.modVault_mxDone (f : Vault → Vault) : (s.modVault f).mxDone = s.mxDone := rfl
@[simp] theorem State.modVault_mxLast (f : Vault → Vault) : (s.modVault f).mxLast = s.mxLast := rfl
@[simp] theorem State.modVault_tbLatch (f : Vault → Vault) : (s.modVault f).tbLatch = s.tbLatch := rfl
@[simp] theorem State.modVault_tmrRun (f : Vault → Vault) : (s.modVault f).tmrRun = s.tmrRun := rfl
@[simp] theorem State.modVault_tmrArmed (f : Vault → Vault) : (s.modVault f).tmrArmed = s.tmrArmed := rfl
@[simp] theorem State.modVault_dma (f : Vault → Vault) : (s.modVault f).dma = s.dma := rfl
@[simp] theorem State.modVault_cam (f : Vault → Vault) : (s.modVault f).cam = s.cam := rfl
@[simp] theorem State.modVault_lc (f : Vault → Vault) : (s.modVault f).lc = s.lc := rfl
@[simp] theorem State.modVault_flash (f : Vault → Vault) : (s.modVault f).flash = s.flash := rfl
@[simp] theorem State.modVault_flashCtl (f : Vault → Vault) : (s.modVault f).flashCtl = s.flashCtl := rfl
@[simp] theorem State.modVault_window (f : Vault → Vault) : (s.modVault f).window = s.window := rfl
@[simp] theorem State.modVault_serial (f : Vault → Vault) : (s.modVault f).serial = s.serial := rfl
@[simp] theorem State.modVault_usb (f : Vault → Vault) : (s.modVault f).usb = s.usb := rfl
@[simp] theorem State.modVault_gio (f : Vault → Vault) : (s.modVault f).gio = s.gio := rfl
@[simp] theorem State.modVault_links (f : Vault → Vault) : (s.modVault f).links = s.links := rfl
@[simp] theorem State.modVault_pcie (f : Vault → Vault) : (s.modVault f).pcie = s.pcie := rfl
@[simp] theorem State.modVault_hall (f : Vault → Vault) : (s.modVault f).hall = s.hall := rfl
@[simp] theorem State.modVault_vault (f : Vault → Vault) : (s.modVault f).vault = f s.vault := rfl
@[simp] theorem State.modVault_core (f : Vault → Vault) : (s.modVault f).core = s.core := rfl
@[simp] theorem State.modVault_tap (f : Vault → Vault) : (s.modVault f).tap = s.tap := rfl
@[simp] theorem State.modVault_notices (f : Vault → Vault) : (s.modVault f).notices = s.notices := rfl
@[simp] theorem State.modVault_timeBase (f : Vault → Vault) : (s.modVault f).timeBase = s.timeBase := rfl
@[simp] theorem State.modVault_tile (f : Vault → Vault) (x : Stn) (y : TileNo) : (s.modVault f).tile x y = s.tile x y := rfl
@[simp] theorem State.modVault_stn (f : Vault → Vault) (x : Stn) : (s.modVault f).stn x = s.stn x := rfl
@[simp] theorem State.modVault_reg (f : Vault → Vault) (x : Nat) : (s.modVault f).reg x = s.reg x := rfl
@[simp] theorem State.modVault_fld (f : Vault → Vault) (x l w : Nat) : (s.modVault f).fld x l w = s.fld x l w := rfl
@[simp] theorem State.modVault_rbit (f : Vault → Vault) (x i : Nat) : (s.modVault f).rbit x i = s.rbit x i := rfl
@[simp] theorem State.modVault_byte (f : Vault → Vault) (x : Nat) : (s.modVault f).byte x = s.byte x := rfl
@[simp] theorem State.modVault_upset (f : Vault → Vault) (x : Nat) : (s.modVault f).upset x = s.upset x := rfl

end Sys2Proof.Machine
end

