-- ==== Sys2Proof/Tests/Slice0.lean ====
section
/-! SUPPORT. Tests: commands that cannot be sent are refused, single steps against the manual's own numbers, and for each statement
with hypotheses a state and operands that meet them. -/

namespace Sys2Proof.Tests
open Sys2Proof Sys2Proof.Machine

set_option Elab.async false

/-- Tile 7 of station 1 runs with its banks on; its segment 1 spans its data memory. -/
def busyTile : State :=
  let s := State.reset.setReg (tileReg 1 7 0x21C) 0xAA
  let s := (s.setReg (stnReg 1 0x200) 0xAAAAAAAA).setReg (stnReg 1 0x204) 0xAAAAAAAA
  let s := s.modStn 1 fun S => { S with run := .running }
  s.modTile 1 7 fun T => { T with
    run := .running, pc := 0x123
    sgA := T.sgA.set 1 0x8580000000000000
    sgB := T.sgB.set 1 0x1FFFF }
def busy (f : Tile → Tile) : State := busyTile.modTile 1 7 f
abbrev T0 : Tile := busyTile.tile 1 7

/-! ### Commands that cannot be sent are refused by the well-formedness check -/

theorem test_wf_sel : Instr.wellFormed (.linkWordHop 0 396 0 .none) = true ∧ Instr.wellFormed (.linkWordHop 0 400 0 .none) = false ∧
    Instr.wellFormed (.slotTableScrub 0 397 0 .none) = false := by decide
theorem test_wf_node : Instr.wellFormed (.mailboxDeliver 0 49 0) = true ∧ Instr.wellFormed (.mailboxDeliver 0 50 0) = false := by decide
theorem test_wf_bank : Instr.wellFormed (.bankPowerChangeEnd (.tile 0 0) 4) = false ∧ Instr.wellFormed (.zeroFillEnd .hall 16) = false ∧
    Instr.wellFormed (.memScrub (.tile 0 0) 5 .none) = false ∧ Instr.wellFormed (.zeroFillEnd (.station 3) 31) = true := by decide
theorem test_wf_matrix :
    Instr.wellFormed (.matrixRequest 0 ⟨0x40, .read, List.replicate 64 ⟨0, 0⟩⟩) = true ∧
    Instr.wellFormed (.matrixRequest 0 ⟨0x41, .read, [⟨0, 0⟩]⟩) = false ∧ Instr.wellFormed (.matrixRequest 0 ⟨0, .read, []⟩) = false ∧
    Instr.wellFormed (.matrixRequest 0 ⟨0, .write, List.replicate 65 ⟨0, 0⟩⟩) = false ∧
    Instr.wellFormed (.matrixRequest 0 ⟨0, .add 7 1, [⟨0, 0⟩, ⟨0, 0⟩]⟩) = false := by decide
/-- A packet with n parameter bytes. -/
def sized (n : Nat) : Packet := ⟨0, 0, 0, 1, 0, 0, 0, 0, List.replicate n 0⟩
theorem sized_ok (n : Nat) : (sized n).ok = decide (n ≤ 4096) := by simp [Packet.ok, sized]
theorem test_wf_packet :
    Instr.wellFormed (.ping 0 (sized 4096)) = true ∧ Instr.wellFormed (.ping 0 (sized 4097)) = false ∧
    Instr.wellFormed (.linkDataFrame 0 { frame := ⟨4, 0, 0, 0, 0, [], 0⟩ }) = false ∧ Instr.wellFormed (.linkAck 0 ⟨2, 0, 0, 0, 0, [], 0⟩) = true ∧
    Instr.wellFormed (.cmdTailWrite 0 [⟨true, true, 0, 0, sized 4097, {}⟩]) = false := by
  simp only [Instr.wellFormed, List.all_cons, List.all_nil, sized_ok]
  decide
def payload (n : Nat) : LongPkt := ⟨0, 0, List.replicate n 0, true, false, none⟩
theorem payload_ok (n : Nat) : (payload n).ok = decide (n < 65536) := by simp [LongPkt.ok, payload]
theorem test_wf_long_packet :
    Instr.wellFormed (.longPacket 0 0 (payload 65535)) = true ∧ Instr.wellFormed (.longPacket 0 0 (payload 65536)) = false := by
  simp only [Instr.wellFormed, payload_ok]
  decide

/-! ### Worked examples of the manual, one step or one function each -/

/-- 04 R109, R110, the example of an 8-bit layer: the read of mac1.a3 and of mac1.r, with OVS. -/
theorem test_mul8_example :
    let x := (macRun .m8 false 3 0x7F02018000FF2010 0x02000180807FFF02 0x716 {}).acc
    accRead 0x716 x = (0x02000080007F0000, true) ∧ (macRRead 0x716 x).1 = 0x7F := by decide +kernel
/-- 04 R109, the coupon-image example: two Q15 products in a0, read with SAT 1 and with SAT 0, and their lane sum. -/
theorem test_mla15_example :
    let x := (macRun .q15 false 0 0x7FFFC00020004000 0x8000400060004000 5 {}).acc
    let y := (macRun .q15 true 0 0x7FFFC00020004000 0x8000400060004000 5 x).acc
    accRead 5 y = (0x8000C00030004000, true) ∧ accRead 1 y = (0x0002C00030004000, true) ∧ (macRRead 5 y).1 = 0xFFFFFFFFFFFF3002 := by
  decide +kernel
/-- 04 R112, the divide example: 0x2000 over 0x6000 is 0x2AAA. -/
theorem test_divide_example :
    let start := (macRun .q15 false 1 0x2000 0 0x40 {}).acc
    let done := (List.range 15).foldl (fun x _ => (macRun .q15 true 1 0 0x0001000100016000 0x40 x).acc) start
    (accRead 0x40 done).1.toNat % 65536 = 0x2AAA := by decide +kernel
/-- 04 R123, R124, the scanner-window example. -/
theorem test_edges_example :
    edgeAt 32 (some (-20)) (-80) (some (-60)) = some (20, 80, 60) ∧ edgePos 3 20 80 60 = 0x0002C000 ∧ edgePos 7 20 90 60 = 0x0006B333 ∧
    edgeEntry 3 (-80) 80 0x0002C000 = 0x000301500002C000 ∧ edgeEntry 7 90 90 0x0003F333 = 0x0007005A0003F333 ∧
    edgeAt 32 (some (-80)) (-60) (some 0) = none ∧ edgeAt 32 (some 0) (-20) (some (-80)) = none := by decide +kernel
/-- 04 R103, the label-printer example: bits 23:16 are extracted, then the low byte goes to bits 31:24. -/
theorem test_extract_insert_example :
    shfResult .extu 0 0x123456789ABCDEF0 0x0710 = 0xBC ∧ shfResult .ins 0xBC 0x55 0x0718 = 0x550000BC := by decide +kernel
/-- The check value of the CRC-32 of IEEE 802.3 (12 R331): of the digits 1 to 9. -/
theorem test_crc32_check : crc32 ((List.range 9).map fun i => BitVec.ofNat 8 (0x31 + i)) = 0xCBF43926 := by decide +kernel
/-- Three ones, convolved with themselves twice (10 R278). -/
theorem test_sinc3_taps : (List.range 8).map (sincTap 3) = [1, 3, 6, 7, 6, 3, 1, 0] := by decide
/-- FIPS 180-4 (log entry 14): the first bytes of the digest of "abc". -/
theorem test_sha512_abc : (sha512 [0x61, 0x62, 0x63]).take 8 = [0xDD, 0xAF, 0x35, 0xA1, 0x93, 0x61, 0x7A, 0xBA] := by decide +kernel

/-- The window of the example of 13 R374: the lane terminal of 1996, window 2 at I/O address 0x00200. -/
def terminal : State :=
  let s := (busyTile.setReg (devReg 0x30 0) 1).setReg (devReg 0x30 0x48) 0x90000001
  let s := (s.setReg (devReg 0x30 0x4200) 0x0040C082).setReg (devReg 0x30 0x200) 0x0000A012
  let s := s.setReg (devReg 0x30 0x1400) 0x4C000000
  { s with window := { s.window with lreset := false, fifos := s.window.fifos.set 2 ⟨[0x0141, 0x0D0A], 0⟩ } }
theorem test_terminal_reads_status :
    ∃ u, execLegacyRead 0x00202 false .none terminal = .next u ∧ u.window.out.low = some 0x03 ∧ u.window.out.high = some 0x4C :=
  ⟨terminal.legacyRead 0x00202 false .none, rfl, by decide +kernel⟩
theorem test_terminal_pops_fifo :
    ∃ u, execLegacyRead 0x00200 false .none terminal = .next u ∧ u.window.out.low = some 0x41 ∧ u.window.out.high = some 0x01 ∧
      u.window.fifos[(2 : Fin 16)].entries = [0x0D0A] :=
  ⟨terminal.legacyRead 0x00200 false .none, rfl, by decide +kernel⟩

/-! ### Witnesses: arithmetic, loads and stores -/

theorem witness_AluOperations : busyTile.haltFrozen 1 = false ∧ T0.run = .running ∧ T0.busy (.alu 0) = false ∧ T0.report = none := by decide +kernel
theorem witness_ShiftResults : busyTile.haltFrozen 1 = false ∧ T0.run = .running ∧ T0.busy .shf = false := by decide +kernel
theorem witness_MacResults :
    busyTile.haltFrozen 1 = false ∧ T0.run = .running ∧ T0.busy (.mac 1) = false ∧ T0.report = none ∧ T0.fxm.getLsbD 6 = false := by decide +kernel
theorem witness_MacDivideSteps :
    let s := busy fun T => { T with fxm := 0x40 }
    let T := s.tile 1 7
    s.haltFrozen 1 = false ∧ T.run = .running ∧ T.busy (.mac 1) = false ∧ T.report = none ∧ T.fxm.getLsbD 6 = true := by decide +kernel
theorem witness_VectorOperations :
    let s := busyTile
    (s.haltFrozen 1 = false ∧ T0.busy .scu = false ∧ T0.scu.walk = none ∧ Registers.wf s = true ∧ Memory.wf s = true) ∧
    (∀ w : Bool, s.segCheck 1 T0 1 .data (!w) w false (multOf 32) [(0x1FFE0, 32)] = none ∧ s.dataState 1 7 0x1FFE0 32 = .ok ∧
      T0.xferHolds 0x1FFE0 32 w = false ∧ ∀ j < 4, s.upset (tileData 1 7 (0x1FFE0 + 8 * j)) = .none) := by decide +kernel
theorem witness_ScanWalks_setup :
    let s := busyTile
    -- an image of 4 by 2 with pitch 16 at 0, a list of one entry at 8, and a walk of one sample
    (s.segCheck 1 T0 1 .data true false false anyAlign [(0, 20)] = none ∧ ∀ w ∈ wordsOf 0 20, s.tileBankOn 1 7 (bankOf w) = true) ∧
    (s.segCheck 1 T0 1 .data false true false (multOf 8) [(8, 8)] = none ∧ ∀ w ∈ wordsOf 8 8, s.tileBankOn 1 7 (bankOf w) = true) := by
  decide +kernel
def walking (x : W32) : State := busy fun T => { T with
  scu := { T.scu with wimg := 0x0010000200400000, walk := some ⟨x, 0, 0x300000000, [], 0, 0, 0, []⟩ } }
theorem witness_ScanWalks_samples :
    (let T := (walking 0).tile 1 7
     let w : Walk := ⟨0, 0, 0x300000000, [], 0, 0, 0, []⟩
     (walking 0).haltFrozen 1 = false ∧ T.walkWaits w (walkPixel w 0) = false ∧ (walkPixel w 0).1 = 0 ∧ (walkPixel w 0).2 = 0 ∧
      T.scu.wimg.toNat / 2 ^ 20 % 2 ^ 12 = 4 ∧ T.scu.wimg.toNat / 2 ^ 32 % 2 ^ 12 = 2 ∧ (walking 0).dataState 1 7 0 1 = .ok) ∧
    (let T := (walking 0x40000).tile 1 7
     let w : Walk := ⟨0x40000, 0, 0x300000000, [], 0, 0, 0, []⟩
     (walking 0x40000).haltFrozen 1 = false ∧ T.walkWaits w (walkPixel w 0) = false ∧ 4 ≤ (walkPixel w 0).1 ∧ T.busy .scu = false) := by
  decide +kernel
theorem witness_LoadsAndStores : ∀ n ∈ ([1, 2, 4, 8] : List Nat),
    let b : Nat := 0x20000 - n
    busyTile.segCheck 1 T0 1 .data true false false alignOk [((b : Int), n)] = none ∧
    busyTile.segCheck 1 T0 1 .data false true false alignOk [((b : Int), n)] = none ∧
    busyTile.haltFrozen 1 = false ∧ T0.scu.walkHolds b n = false ∧ T0.xferHolds b n false = false ∧
    T0.xferHolds b n true = false ∧ busyTile.dataState 1 7 b n = .ok ∧ Memory.wf busyTile = true := by decide +kernel
theorem witness_DataAccessChecks :
    busyTile.segCheck 1 T0 1 .data true false false alignOk [(1, 8)] = some (0x04, 1) ∧
    busyTile.segCheck 1 T0 1 .data false true false alignOk [(1, 8)] = some (0x04, 1) ∧
    (let A := T0.sgA[(1 : Fin 8)]
     A.getLsbD 63 = true ∧ A.getLsbD 60 = pswSealed T0.psw ∧ A.extractLsb' 61 2 = 0 ∧ A.getLsbD 59 = false ∧ A.getLsbD 55 = true ∧
      (pswLvl T0.psw = 0 → A.getLsbD 58 = true)) := by decide +kernel

/-- A lane of mac1.a2 stands at the top of its range and TRAP is set; an `addt` overflows while a report is pending. -/
theorem witness_MacResults_overflow :
    (let s := busy fun T => { T with
       fxm := 8, opnd := (T.opnd.set 3 1).set 1 0x7FFFFFFFFFFFFFFF
       acc := T.acc.set 1 (T.acc[1].set 2 ⟨0x7FFFFF, .m8⟩) }
     let T := s.tile 1 7
     s.haltFrozen 1 = false ∧ T.run = .running ∧ T.busy (.mac 1) = false ∧ T.busy (.alu 1) = false ∧ T.report = none ∧
      T.fxm.getLsbD 6 = false ∧ T.fxm.getLsbD 3 = true ∧ T.acc[(1 : Fin 2)][(2 : Fin 4)].tag = .m8 ∧
      ¬accLane T.acc[(1 : Fin 2)][(2 : Fin 4)].lanes 24 0 + 1 < 2 ^ 23 ∧ ¬T.opnd[(1 : Fin 8)].toInt + 1 ≤ 2 ^ 63 - 1) ∧
    (let T := (busy fun T => { T with report := some ⟨2, 0x111, 0, 0, false, true⟩ }).tile 1 7
     T.run = .running ∧ T.report ≠ none) := by decide +kernel
/-- The walk of three or four samples at one pixel has read 0 and then v; its list is that of wout. -/
def edging (wout path : W64) (v : Byte) : State := busy fun T => { T with
  scu := { T.scu with wimg := 0x0010000200400000, wout := wout, walk := some ⟨0, 0, path, [v, 0], 0, 0, 0, []⟩ } }
theorem witness_ScanWalks_edges :
    ∀ row ∈ ([(3, 0, 0), (4, 0, 0), (3, 10, 0), (3, 10, 0x00100008), (4, 10, 0x00100008)] : List (Nat × Byte × W64)),
      let p : W64 := BitVec.ofNat 64 (row.1 * 2 ^ 32)
      let v := row.2.1
      let o := row.2.2
      let s := edging o p v
      let T := s.tile 1 7
      let w : Walk := ⟨0, 0, p, [v, 0], 0, 0, 0, []⟩
      T.scu.walk = some w ∧ s.haltFrozen 1 = false ∧ T.walkWaits w (walkPixel w 2) = false ∧ T.busy .scu = false ∧ Memory.wf s = true ∧
        s.dataState 1 7 2 1 = .ok ∧ s.tileBankOn 1 7 (bankOf (o.toNat % 2 ^ 17)) = true := by decide +kernel
/-- The differences about position 1 are v and -v: an edge where v is 10, none where it is 0. A bank of the list, and one of the image, is
off; a walk has left its image. -/
theorem witness_ScanWalks_stops :
    let s := (edging 0x00100008 0x300000000 10).setReg (tileReg 1 7 0x21C) 0xA2
    let u := (edging 0 0x300000000 0).setReg (tileReg 1 7 0x21C) 0xA8
    let w : Walk := ⟨0x40000, 0, 0x300000000, [5, 5], 0, 0, 0, []⟩
    walkPixel ⟨0, 0, 0x300000000, [10, 0], 0, 0, 0, []⟩ 2 = (2, 0) ∧ (0 : Int) ≤ 0 * -0 ∧ ¬(0 : Int) ≤ 10 * -10 ∧ s.tileBankOn 1 7 (bankOf 8) = false ∧ s.dataState 1 7 2 1 = .ok ∧
      u.dataState 1 7 2 1 = .off ∧ 4 ≤ (walkPixel w 2).1 ∧ (u.tile 1 7).walkWaits w (walkPixel w 2) = false := by decide +kernel
/-- Where the clauses of a data access meet: segment 1 spans data memory, with ROT in the second, and ends at 0xFF in the third. -/
theorem witness_DataAccessChecks_edges :
    let rot := (busy fun T => { T with sgA := T.sgA.set 1 0x8D80000000000000 })
    let short := (busy fun T => { T with sgB := T.sgB.set 1 0xFF })
    (∀ w : Bool, let check := fun (s : State) (k : Fin 8) (a n : Nat) => s.segCheck 1 (s.tile 1 7) k .data (!w) w false alignOk [((a : Int), n)]
      check busyTile 2 0 8 = some (0x06, 0) ∧ check busyTile 1 0x20000 1 = some (0x06, 0x20000) ∧ check busyTile 1 0x1FFF8 8 = none ∧
      check busyTile 1 4 8 = some (0x04, 4) ∧ check rot 1 4 4 = none ∧ check rot 1 3 4 = none ∧ check rot 1 5 4 = some (0x04, 5) ∧
      check short 1 0xF8 8 = none ∧ check short 1 0x100 8 = some (0x05, 0x100) ∧ check busyTile 1 0x30000 8 = some (0x05, 0x30000)) ∧
    (let s := busy fun T => { T with report := some ⟨2, 0x111, 0, 0, false, true⟩ }
     (s.tile 1 7).drain.report ≠ none ∧ s.haltFrozen 1 = false ∧
      s.segCheck 1 (s.tile 1 7) 1 .data true false false alignOk [(1, 8)] = some (0x04, 1)) := by decide +kernel

/-! ### Witnesses: the queue unit and the nodes -/

/-- Segments 0 and 2 over data memory and station memory; in the Sealed world, segment 3 over station memory. -/
def queueTile (psw : W64) (f : Qu → Qu) : State := busy fun T => { T with
  psw := psw, qu := f T.qu
  sgA := ((T.sgA.set 0 0x8580000000000000).set 2 0xA580000000000000).set 3 0xB580000000000000
  sgB := ((T.sgB.set 0 0x1FFFF).set 2 0xFFFFFF).set 3 0xFFFFFF }
def oneElement : Machine.Stream := { addr := 0x1000, stride := 8, left := 1, size := 3, sx := false, space := 1, ord := 0 }
def oneTransfer : BlockXfer :=
  { taddr := 0, oaddr := 0x1000, nblk := 2, space := 1, ord := 0, issued := 0, inFlight := 0, dones := [], bad := none, back := [] }
theorem witness_QueueTriggers :
    let s := queueTile 0x1C01 id
    let T := s.tile 1 7
    let u := T.qu
    T.run = .running ∧ s.haltFrozen 1 = false ∧ u.atomicFail = none ∧
    s.segCheck 1 T 2 .qu true false false alignOk [(0x1000, 8)] = none ∧ s.segCheck 1 T 2 .qu false true false alignOk [(0x1000, 8)] = none ∧ u.lq[(0 : Fin 4)].streams.length < 4 ∧ u.lq[(0 : Fin 4)].block = none ∧
    u.sq[(0 : Fin 4)].streams = [] ∧ u.sq[(0 : Fin 4)].block = none ∧ u.sq[(0 : Fin 4)].count = 0 ∧ u.lq[(0 : Fin 4)].out = 0 ∧ waitOver u u.lq[(0 : Fin 4)] 0 3 = true ∧
    (∀ i < 4, s.tileBankOn 1 7 i = true) ∧ s.segCheck 1 T 2 .qu true false false anyAlign [(0x1000, 64)] = none ∧
    s.segCheck 1 T 2 .qu false true false anyAlign [(0x1000, 64)] = none ∧ s.segCheck 1 T 0 .data false true false anyAlign [(0, 64)] = none ∧
    s.segCheck 1 T 0 .data true false false anyAlign [(0, 64)] = none := by decide +kernel
theorem witness_QueueTriggers_atomic :
    let s := (queueTile 0x1C15 id).setReg (stnReg 1 0x150) 1
    let T := s.tile 1 7
    s.segCheck 1 T 3 .qu true true false alignOk [(0x1000, 8)] = none ∧ T.sgA[(3 : Fin 8)].extractLsb' 61 2 = 1 ∧ pswSealed T.psw = true ∧
      pswLvl T.psw ≠ 0 ∧ s.stnBankOn 1 (0x1000 / 0x80000) = true := by decide +kernel
theorem witness_QueueTransfers :
    (let s := queueTile 0x1C01 fun u => { u with lq := u.lq.set 0 { u.lq[0] with streams := [oneElement] } }
     let u := (s.tile 1 7).qu
     s.haltFrozen 1 = false ∧ u.lq[(0 : Fin 4)].entries.length < 16 ∧ u.holds 1 (0x1000 / 64) 0 = false ∧ 1 ≤ u.credits[nodeOf 1 0x1000]) ∧
    (let s := queueTile 0x1C01 fun u =>
       { u with lq := u.lq.set 0 { u.lq[0] with block := some oneTransfer }, sq := u.sq.set 0 { u.sq[0] with block := some oneTransfer } }
     let u := (s.tile 1 7).qu
     (u.lq[(0 : Fin 4)].entries = [] ∧ u.sq[(0 : Fin 4)].count = 0 ∧ (s.tile 1 7).scu.walkHoldsBlock 0 0 true = false ∧
      (s.tile 1 7).scu.walkHoldsBlock 0 64 false = false ∧ ∀ j < 4, s.tileBankOn 1 7 j = true) ∧
     u.holds 1 (0x1000 / 64) 0 = false ∧ 9 ≤ u.credits[nodeOf 1 0x1000] ∧ s.dataState 1 7 0 64 = .ok ∧ u.atomics = []) ∧
    ({ oneTransfer with issued := 2, inFlight := 2, back := [(1, .ok, [])] }.dones.length + 1 < oneTransfer.nblk ∧
      { oneTransfer with dones := [1] }.dones.length + 1 = oneTransfer.nblk) := by decide +kernel
def nodeHolds (op : QOp) (again : Bool) : State := busyTile.modStn 1 fun S =>
  { S with nodeQ := S.nodeQ.set 0 [⟨7, 0, op, 0x1000⟩], reissue := S.reissue.set 0 again }
theorem witness_NodeRequestsAndResponses :
    busyTile.stnMemState 1 0x1000 8 = .ok ∧ ((nodeHolds (.load 0 0 3 true) true).stn 1).reissue[(0 : Fin 8)] = true ∧
    (nodeHolds (.load 0 0 3 true) false).stnMemState 1 0x1000 8 = .ok ∧ ((nodeHolds (.store 0 3 5) false).stn 1).reissue[(0 : Fin 8)] = false ∧
    (busyTile.stnMemState 1 0x1000 64 = .ok ∧ busyTile.stnMemState 1 0xFFFFC0 64 = .ok) ∧
    (∀ i ∈ ([0, 1] : List Nat), ∀ n ∈ ([1, 2] : List Nat), i < n →
      let w : LinkWord := { kind := .request, be := false, dst := 40, src := 39, queue := some ⟨i, n, .req ⟨39, 0, .load 0 0 3 true, 0x1000⟩⟩ }
      let s := busyTile.modStn 1 fun S => { S with outs := [(nodeSel 40, (0, w))], parts := [(64 * 40 + 39, 1)] }
      s.netLive 1 = true ∧ (s.stn 1).outWord (nodeSel (40 + (0 : Fin 8).val)) = some (0, w) ∧ 0 ≤ (s.stn 1).frameBase + (0 : BitVec 10).toNat ∧
        w.src.toNat = (39 : TileNo).val ∧ (i = 0 ∨ smGet (fun _ => 0) (s.stn 1).parts (64 * 40 + 39) = i)) ∧
    (let s := busyTile.modStn 1 fun S => { S with outs := [(nodeSel 40, (0, { kind := .request, be := false, dst := 40, src := 39 }))] }
     ¬((1 : Nat) = 0 ∨ smGet (fun _ => 0) (s.stn 1).parts (64 * 40 + 39) = 1)) ∧
    (∀ q ∈ ([⟨7, 0, .load 0 0 3 true, 0x1000⟩, ⟨7, 0, .atomic 4 false 1, 0x1000⟩, ⟨7, 9, .load 0 0 3 true, 0x1000⟩] : List QReq),
      let w : LinkWord := { kind := .response, be := false, dst := 7, src := 40, queue := some ⟨0, 1, .resp ⟨0, q, .ok, []⟩⟩ }
      let s := busyTile.modStn 1 fun S => { S with outs := [(nodeSel 7, (0, w))] }
      s.netLive 1 = true ∧ (s.stn 1).outWord (nodeSel 7) = some (0, w) ∧ w.src.toNat = 40 + (0 : Fin 9).val ∧ (s.tile 1 7).runs = 0) ∧
    ((busy fun T => { T with qu := { T.qu with shown := .atomicPending 4 } }).tile 1 7).qu.shown = .atomicPending 4 := by decide +kernel

theorem witness_QueueTransfers_stores :
    let s := queueTile 0x1C01 fun u => { u with sq := u.sq.set 0 { u.sq[0] with ready := [⟨0, 1, 0x1000, 3, 5⟩] } }
    let u := (s.tile 1 7).qu
    s.haltFrozen 1 = false ∧ u.sq[(0 : Fin 4)].ready = ⟨0, 1, 0x1000, 3, 5⟩ :: [] ∧ 2 ≤ u.credits[nodeOf 1 0x1000] ∧ u.atomics = [] := by
  decide +kernel
/-- A transfer whose block 1 is answered, on load queue 0 and on store queue 0. -/
def ending (r : RespStat) (n : Nat) (dones : List Nat) (bad : Option (Nat × RespStat)) : BlockXfer :=
  { oneTransfer with issued := 2, inFlight := n, dones := dones, bad := bad, back := [(1, r, [])] }
def moving (x : BlockXfer) : State := queueTile 0x1C01 fun u =>
  { u with lq := u.lq.set 0 { u.lq[0] with block := some x }, sq := u.sq.set 0 { u.sq[0] with block := some x } }
theorem witness_QueueTransfers_ends :
    (∀ x ∈ [ending .ok 1 [0] none, ending .busError 1 [0] none, ending .notOn 2 [] none, ending .uncorrectable 2 [] (some (0, .notOn)),
        ending .uncorrectable 1 [] (some (2, .notOn))],
      let s := moving x
      let T := s.tile 1 7
      T.run = .running ∧ s.haltFrozen 1 = false ∧ T.qu.atomics = [] ∧ T.qu.lq[(0 : Fin 4)].block = some x ∧ T.qu.sq[(0 : Fin 4)].block = some x ∧
        T.scu.walkHoldsBlock x.ord 64 false = false ∧ ∀ j < 4, s.tileBankOn 1 7 j = true) ∧
    (let x := ending .ok 1 [0] none
     x.bad = none ∧ x.dones.length + 1 = x.nblk) ∧
    (let x := { oneTransfer with issued := 1, dones := [0] }
     let s := queueTile 0x1C01 fun u => { u with sq := u.sq.set 0 { u.sq[0] with block := some x } }
     let T := s.tile 1 7
     x.issued < x.nblk ∧ x.inFlight = 0 ∧ x.bad = none ∧ T.qu.sq[(0 : Fin 4)].count < 16 ∧ T.scu.walkHoldsBlock x.ord 64 true = false ∧
      9 ≤ T.qu.credits[nodeOf x.space (x.oaddr + 64)] ∧ (s.setReg (tileReg 1 7 0x21C) 0xA8).dataState 1 7 64 64 = .off ∧
      (s.setUpset (tileData 1 7 64) .double).dataState 1 7 64 64 = .bad) := by decide +kernel
/-- A request for the bytes at 0x1000 stands at node 0. -/
def asks (op : QOp) (addr : Addr) (again : Bool) : State := busyTile.modStn 1 fun S =>
  { S with nodeQ := S.nodeQ.set 0 [⟨7, 0, op, addr⟩], reissue := S.reissue.set 0 again }
theorem witness_NodeRequests_kinds :
    (∀ op ∈ ([.load 0 0 3 true, .blockRead 0 1, .store 0 3 5, .blockWrite 0 1 (.replicate 64 0), .atomic 4 true 1, .atomic 4 false 1] : List QOp),
      ∀ again : Bool, let s := asks op 0x1000 again
      let S := s.stn 1
      S.nodeQ[(0 : Fin 8)] = ⟨7, 0, op, 0x1000⟩ :: [] ∧ S.reissue[(0 : Fin 8)] = again ∧ s.stnMemState 1 0x1000 8 = .ok ∧ s.stnMemState 1 0x1000 64 = .ok ∧
        (s.reg (stnReg 1 0x160)).getLsbD 31 = false) ∧
    ((asks (.atomic 4 true 1) 0x1000 false).setReg (stnReg 1 0x160) 0x80001008).reg (stnReg 1 0x160) = 0x80001008 ∧
    (0x80001008 : W32).toNat / 8 % 2 ^ 21 ≠ 0x1000 / 8 ∧
    (((asks (.load 0 0 3 true) 0x1000 false).setReg (stnReg 1 0x200) 0).stnMemState 1 0x1000 8 ≠ .ok ∧
     ((asks (.load 0 0 3 true) 0x1000 false).setUpset (stnBase 1 + 0x1000) .double).stnMemState 1 0x1000 8 = .uncorrectable ∧
     ((asks (.store 0 0 5) 0x1000 false).setUpset (stnBase 1 + 0x1000) .double).stnMemState 1 0x1000 1 = .uncorrectable) ∧
    (0x1000 % 8 = 0 ∧ ¬1 % 8 = 0) := by decide +kernel
theorem witness_NodeResponses_kinds :
    ∀ op ∈ ([.load 0 0 3 true, .blockRead 0 1, .store 0 3 5, .blockWrite 0 1 [], .atomic 4 true 1] : List QOp),
      ∀ r ∈ [RespStat.ok, .busError, .notOn, .uncorrectable],
      let q : QReq := ⟨7, 0, op, 0x1000⟩
      let x := { oneTransfer with issued := 2, inFlight := 2 }
      let w : LinkWord := { kind := .response, be := false, dst := 7, src := 40, queue := some ⟨0, 1, .resp ⟨0, q, r, []⟩⟩ }
      let s := (queueTile 0x1C01 fun u => { u with
        shown := .atomicPending 4
        lq := u.lq.set 0 { u.lq[0] with entries := [.reserved 0 0x1000], block := some x }
        sq := u.sq.set 0 { u.sq[0] with sent := 1, block := some x } }).modStn 1 fun S => { S with outs := [(nodeSel 7, (0, w))] }
      let T := s.tile 1 7
      s.netLive 1 = true ∧ (s.stn 1).outWord (nodeSel 7) = some (0, w) ∧ w.src.toNat = 40 + (0 : Fin 9).val ∧ q.run = T.runs ∧
        T.qu.shown = .atomicPending 4 ∧ T.qu.lq[(0 : Fin 4)].block = some x ∧ T.qu.sq[(0 : Fin 4)].block = some x ∧ T.run = .running := by
  decide +kernel

/-! ### Decoding of tile instructions: the bytes of the manual's own examples (03, worked encodings) -/

def asm (bs : List Byte) : DRes Insn := decodeInsn (fun p => .ok (bs.getD p 0)) 0
/-- The one move that bytes spell, as source byte, destination byte, immediate and length. -/
def oneMove (bs : List Byte) : Option (Byte × Byte × W64 × Nat) :=
  match asm bs with
  | .ok i => if i.moves.length = 1 then (i.moves.head?).map fun m => (m.srcByte, m.dstByte, m.imm, i.len) else none
  | _ => none

/-- `#-1 -> q5`: 01 80 05 FF. -/
theorem test_decode_negative_immediate : oneMove [0x01, 0x80, 0x05, 0xFF] = some (0x80, 0x05, 0xFFFFFFFFFFFFFFFF, 4) := by decide +kernel
/-- `#0x0000_0400 -> lsu.t.ld64`: 01 82 E6 00 04. -/
theorem test_decode_load_immediate : oneMove [0x01, 0x82, 0xE6, 0x00, 0x04] = some (0x82, 0xE6, 0x400, 5) := by decide +kernel
/-- `#1 -> qu.t.wait2`: 01 91 5E. -/
theorem test_decode_wait : oneMove [0x01, 0x91, 0x5E] = some (0x91, 0x5E, 1, 3) := by decide +kernel
/-- `nop`: 00. -/
theorem test_decode_nop : (match asm [0x00] with | .ok i => decide (i.moves = [] ∧ i.len = 1) | _ => false) = true := by decide +kernel
/-- `?!p5 alu0.r -> q9`: 11 01 50 09 15. -/
theorem test_decode_guarded :
    (match asm [0x11, 0x01, 0x50, 0x09, 0x15] with
      | .ok i => decide (i.moves.map (fun m => m.guard) = [some (5, true)] ∧ i.len = 5)
      | _ => false) = true := by decide +kernel
/-- A corrupted head byte 34 is a reserved encoding: cause 0x02 with the offset of the byte (03 R88, R89). -/
theorem test_decode_reserved_head : asm [0x34] = .bad 0x02 0 := by decide +kernel

/-! ### Witnesses: control unit, instructions and boundaries -/

theorem witness_ControlTransfers :
    (busyTile.haltFrozen 1 = false ∧ T0.run = .running ∧ T0.slot = 0 ∧ T0.pkind = .none ∧ ¬(T0.rspCnt = 16 ∧ pswRsov T0.psw = true) ∧ pswLvl T0.psw = 1) ∧
    (let s := busy fun T => { T with psw := 0x121, tsbp := 0x1FF80 }
     pswTv (s.tile 1 7).psw = true ∧ s.frameFails 1 7 (s.tile 1 7) 0x1FF80 false = false) ∧
    (let T := (busy fun T => { T with slot := 2, psw := 0x81, rspCnt := 16 }).tile 1 7
     T.slot ≠ 0 ∧ pswRsov T.psw = true ∧ T.rspCnt = 16) := by decide +kernel
theorem witness_ControlRegisters :
    (busyTile.haltFrozen 1 = false ∧ T0.run = .running ∧ pswLvl T0.psw = 1) ∧ ((0x1DE1 : W64) &&& 0xFFFFFFFF0000E20E = 0) ∧
    (let T := (busy fun T => { T with psw := 0, opnd := T.opnd.set 7 2 }).tile 1 7
     pswLvl T.psw = 0 ∧ 2 ≤ pswLvl T.opnd[(7 : Fin 8)]) := by decide +kernel
theorem witness_ShieldAndIdle :
    (let s := busyTile.setReg (tileReg 1 7 0x14) 0x1FFF
     s.haltFrozen 1 = false ∧ (s.tile 1 7).window = none ∧ 0 < (s.reg (tileReg 1 7 0x14)).toNat % 2 ^ 13) ∧
    (let T := (busy fun T => { T with ipend := 0x8000, psw := 0x80000001, window := some ⟨5, 3, false⟩ }).tile 1 7
     T.ipend &&& T.psw.extractLsb' 16 16 ≠ 0 ∧ 0 < (T.window.getD ⟨0, 0, false⟩).capLeft) := by decide +kernel
/-- An instruction of one byte string at offset 0x123, its line in the buffer, segment 6 over instruction memory. -/
def atCode (bs : List Byte) (f : Tile → Tile) : State :=
  (busy fun T => f { T with
    buf := [⟨1, false⟩], sgA := T.sgA.set 6 0x8600000000020000, sgB := T.sgB.set 6 0x2FFFF }).setBytes (tileInsn 1 7 0x123) bs
def quiet (T : Tile) : Bool :=
  decide (T.run = .running ∧ T.flights = [] ∧ T.stopReq = false ∧ T.testReq = false ∧ T.slot = 0 ∧ T.pkind = .none ∧
    T.rip = false ∧ T.conflict = none ∧ T.qu.atomicFail = none)
def decodes (s : State) (d : Dest) (n : Nat) : Bool :=
  match decodeInsn (s.fetchByte 1 7) 0x123 with
  | .ok i => decide (i.moves.map (fun m => (m.src, m.dst, m.guard)) = [(.imm, d, none)] ∧ i.pre.rep = none ∧ i.pre.cond = none ∧ i.len = n)
  | _ => false
theorem witness_ImmediateMove :
    let s := atCode [0x01, 0x80, 0x05, 0xFF] id
    let T := s.tile 1 7
    quiet T = true ∧ s.haltFrozen 1 = false ∧ T.report = none ∧ T.irq = none ∧ T.qu.atomicFail = none ∧ decodes s (.reg 5) 4 = true ∧
      s.segCheck 1 T 6 .fetch false false true anyAlign [(0x20123, 4)] = none ∧ Registers.wf s = true := by decide +kernel
theorem test_immediate_move :
    (match exec (.instruction 1 7 .none) (atCode [0x01, 0x80, 0x05, 0xFF] id) with
      | .next u => decide ((u.tile 1 7).q[(5 : Fin 64)] = 0xFFFFFFFFFFFFFFFF ∧ (u.tile 1 7).pc = 0x127)
      | _ => false) = true := by decide +kernel
theorem witness_BoundaryEntries_interrupt :
    let s := busy fun T => { T with ipend := 0x20, psw := 0x00200121, tsbp := 0x20000 }
    let T := s.tile 1 7
    quiet T = true ∧ s.haltFrozen 1 = false ∧ T.report = none ∧ T.waiting = false ∧ T.irq = some 5 ∧
      decodeInsn (s.fetchByte 1 7) T.pc.toNat = .need 1 ∧ 128 ≤ T.tsbp.toNat ∧ s.frameFails 1 7 T (T.tsbp - 128) true = false ∧
      Memory.wf s = true := by decide +kernel
theorem witness_BoundaryEntries_report :
    let s := busy fun T => { T with report := some ⟨2, 0x111, 0, 31, true, true⟩, psw := 1 }
    let T := s.tile 1 7
    quiet T = true ∧ T.report ≠ none ∧ pswLvl T.psw < 2 ∧ pswTv T.psw = false ∧ T.attic[(0 : Fin 3)].inUse = false := by decide +kernel
theorem witness_ShieldAndIdle_wakes :
    let s := atCode [0x01, 0x90, 0xFE] fun T => { T with ipend := 1, psw := 0x00010001, waiting := true }
    let T := s.tile 1 7
    quiet T = true ∧ s.haltFrozen 1 = false ∧ T.waiting = true ∧ T.ipend &&& T.psw.extractLsb' 16 16 ≠ 0 ∧ decodes s (.trig .idle) 3 = true ∧
      s.segCheck 1 T 6 .fetch false false true anyAlign [(0x20123, 3)] = none := by decide +kernel

/-- A `nop` in delay slot 2, where an `eret` takes effect. -/
def returning (f : Tile → Tile) : State := atCode [0x00] fun T => f { T with slot := 2, pkind := .eret, pendVal := 0x1FF80 }
def attics : Vector AtticSet 3 := .replicate 3 { inUse := true, words := .replicate 16 0x1C5 }
theorem witness_ControlTransfers_returns :
    (∀ b : Bool, let s := returning fun T => { T with eretAttic := b, psw := if b then 2 else 1, attic := attics, atticCur := 1 }
     let T := s.tile 1 7
     T.run = .running ∧ s.haltFrozen 1 = false ∧ T.flights = [] ∧ T.stopReq = false ∧ T.testReq = false ∧ T.report = none ∧ T.slot = 2 ∧
      T.pkind = .eret ∧ T.rip = false ∧ T.conflict = none ∧ T.irq = none ∧
      decodeInsn (s.fetchByte 1 7) T.pc.toNat = .ok ⟨{}, [], 1⟩ ∧
      s.segCheck 1 T 6 .fetch false false true anyAlign [(0x20123, 1)] = none ∧ Registers.wf s = true ∧ s.dataState 1 7 0x1FF80 128 = .ok ∧
      T.eretAttic = b) ∧
    (let T := (busy fun T => { T with psw := 0x82, rspCnt := 0 }).tile 1 7
     T.slot = 0 ∧ T.pkind = .none ∧ pswRsov T.psw = true ∧ T.rspCnt = 0 ∧ pswLvl T.psw ≠ 0 ∧ pswLvl T.psw ≠ 1) ∧
    (let T := (busy fun T => { T with psw := 0, slot := 1 }).tile 1 7
     T.slot ≠ 0 ∧ pswLvl T.psw = 0) := by decide +kernel
theorem witness_ControlRegisters_levels :
    (∀ l ∈ ([0, 1, 2, 3] : List Nat), let s := busy fun T => { T with psw := BitVec.ofNat 64 l, attic := attics, opnd := T.opnd.set 7 0xFFFFFFFFFFFFFFFF }
     let T := s.tile 1 7
     s.haltFrozen 1 = false ∧ T.run = .running ∧ pswLvl T.psw = l) ∧
    ((0xFFFF : W64).toNat < 65536 ∧ (0x11F7F : W64) &&& 0xFFFFFFFFFFFEE080 = 0 ∧ (0x7FFFFFF : W64).toNat < 2 ^ 27 ∧ (0x1FF : W64).toNat < 512) := by
  decide +kernel
/-- A repeat, a condition and a guard over a move from `lsu.r` to an operand port, in delay slot 2 of a `call`. -/
def wide (bs : List Byte) (f : Tile → Tile) : State :=
  (atCode bs fun T => f { T with preds := 0x21, q := (T.q.set 5 3).set 6 0 }).setReg (tileReg 1 7 0x14) 0x10
/-- What the statement asks of the moves of the instruction that stands next. -/
def plainMoves (s : State) : Bool :=
  let T := s.tile 1 7
  match decodeInsn (s.fetchByte 1 7) 0x123 with
  | .ok i =>
    (i.moves.all fun m =>
      (match m.src with
       | .imm | .reg _ | .pred _ | .aluR _ | .shfR | .lsuR | .cuR => true
       | _ => false) &&
      (match m.dst with
       | .reg _ | .pred _ | .opnd _ => true
       | _ => false)) &&
    decide ((i.moves.map fun m => m.dst).Nodup) &&
    s.segCheck 1 T 6 .fetch false false true anyAlign [(0x20123, i.len)] == none
  | _ => false
theorem witness_ImmediateMove_forms :
    ∀ bs ∈ ([[0x00], [0x02, 0x05, 0x06, 0x06, 0x05], [0x11, 0x01, 0x56, 0x50, 0x15], [0xF0, 3, 0x01, 0x56, 0x50], [0xE5, 0xF1, 2, 0x01, 0x54, 0x42],
        [0xF2, 5, 0x01, 0x57, 0x42], [0xF3, 6, 0x01, 0x45, 0x57], [0x08, 1, 2, 2, 1, 3, 4, 4, 5, 5, 6, 6, 7, 7, 8, 8, 9]] : List (List Byte)),
      ∀ x ∈ ([(0, .none, false), (1, .jmp, false), (2, .call, false), (2, .sys, true), (2, .ret, false), (0, .none, true)] : List (Fin 3 × PKind × Bool)),
      let s := wide bs fun T => { T with slot := x.1, pkind := x.2.1, rip := x.2.2, rc := 1, pendVal := 0x700, ld3 := some 9, pswNext := some 0x81 }
      let T := s.tile 1 7
      T.run = .running ∧ s.haltFrozen 1 = false ∧ T.flights = [] ∧ T.stopReq = false ∧ T.testReq = false ∧ T.report = none ∧ T.conflict = none ∧
        T.irq = none ∧ s.strict 1 7 = false ∧ plainMoves s = true := by decide +kernel
/-- `q5 -> alu0.a | q6 -> alu0.t.addt`, with `prec :` in front or not; the sum is at or past the end of the range. -/
theorem witness_ImmediateMove_precise :
    ∀ bs ∈ ([[0xF4, 0x02, 5, 0x50, 6, 0x71], [0x02, 5, 0x50, 6, 0x71]] : List (List Byte)), ∀ y ∈ ([0, 1] : List Nat), ∀ p ∈ ([1, 0x41] : List Nat),
      let s := atCode bs fun T => { T with q := (T.q.set 5 0x7FFFFFFFFFFFFFFF).set 6 (BitVec.ofNat 64 y), psw := BitVec.ofNat 64 p }
      let T := s.tile 1 7
      quiet T = true ∧ s.haltFrozen 1 = false ∧ T.report = none ∧ T.irq = none ∧ Registers.wf s = true ∧
        s.segCheck 1 T 6 .fetch false false true anyAlign [(0x20123, bs.length)] = none ∧
        (match decodeInsn (s.fetchByte 1 7) 0x123 with
          | .ok i => decide (i.moves.map (fun m => (m.src, m.dst, m.guard)) = [(.reg 5, .opnd 0, none), (.reg 6, .trig (.alu 0 .addt), none)] ∧
              i.pre.prec = decide (bs.length = 6) ∧ i.pre.rep = none ∧ i.pre.cond = none ∧ i.len = bs.length)
          | _ => false) = true ∧
        (T.q[(5 : Fin 64)].toInt + T.q[(6 : Fin 64)].toInt < 2 ^ 63 ↔ y = 0) ∧ (T.psw.getLsbD 6 = true ↔ p = 0x41) := by decide +kernel
theorem witness_BoundaryEntries_forms :
    (let s := atCode [0x01, 0x80, 0x05, 0xFF] fun T => { T with ipend := 0x20, psw := 0x00200121, tsbp := 0x20000 }
     let T := s.tile 1 7
     quiet T = true ∧ s.haltFrozen 1 = false ∧ T.report = none ∧ T.waiting = false ∧ T.irq = some 5 ∧ pswTv T.psw = true ∧ pswLvl T.psw = 1 ∧
      decodes s (.reg 5) 4 = true ∧ s.segCheck 1 T 6 .fetch false false true anyAlign [(0x20123, 4)] = none ∧
      s.frameFails 1 7 T (T.tsbp - 128) true = false ∧ Memory.wf s = true ∧ Registers.wf s = true) ∧
    (∀ bs ∈ ([[0xF6], [0x34], [0x09], [0x20], [0xDF], [0xE0, 0xE0], [0xEF, 0xEF]] : List (List Byte)),
      let s := atCode bs fun T => { T with psw := 0x121, tsbp := 0x20000 }
      let T := s.tile 1 7
      quiet T = true ∧ s.fetchByte 1 7 0x123 = .ok (bs.getD 0 0) ∧ s.fetchByte 1 7 0x124 = .ok (bs.getD 1 0) ∧ s.frameFails 1 7 T (T.tsbp - 128) true = false) ∧
    (let s := busy fun T => { T with report := some ⟨2, 0x111, 0x10005, 31, true, true⟩, psw := 0x121, tsbp := 0x20000, slot := 1, pkind := .jmp }
     let T := s.tile 1 7
     T.flights = [] ∧ T.report ≠ none ∧ pswLvl T.psw < 2 ∧ pswTv T.psw = true ∧ s.frameFails 1 7 T (T.tsbp - 128) true = false) := by decide +kernel

/-! ### Witnesses: network unit and station network -/

/-- The bindings of channels 0 (to and from tile 3) and 7 (to and from tile 39) are on, and the unit holds what f gives it. -/
def netTile (f : Nu → Nu) : State :=
  let s := (busyTile.setReg (aTX 1 7 0) 0x80000300).setReg (aTX 1 7 7) 0x80002700
  let s := (s.setReg (aRX 1 7 0) 0x80000300).setReg (aRX 1 7 7) 0x80002700
  s.modTile 1 7 fun T => { T with nu := f T.nu }
def netUnit (f : Nu → Nu) : Nu := ((netTile f).tile 1 7).nu
theorem witness_NetworkUnitTriggers :
    busyTile.haltFrozen 1 = false ∧ T0.run = .running ∧ T0.nu.taking = false ∧ (netUnit id).taking = false ∧
    ((netTile id).reg (aTX 1 7 7)).getLsbD 31 = true ∧ ((netTile id).reg (aTX 1 7 7)).toNat / 256 % 64 < 40 ∧
    (netUnit fun u => { u with send := u.send.set 7 [(0, 1), (0, 2), (0, 3)] }).send[(7 : Fin 8)].length < 4 ∧
    ((39 : W64).getLsbD 63 = false ∧ (39 : W64).toNat % 64 < 40) ∧ ((48 : W64).getLsbD 63 = false ∧ (48 : W64).toNat % 64 = 48) ∧
    (netUnit fun u => { u with mboxSend := [(1, 1), (2, 2), (3, 3)] }).mboxSend.length < 4 ∧
    (netUnit fun u => { u with mbox := [5, 6] }).mbox = 5 :: [6] ∧ T0.nu.mbox = [] ∧
    (let u := netUnit fun u => { u with shown := .takePending, mbox := [5] }
     u.taking = true ∧ u.mbox = 5 :: []) := by decide +kernel
theorem witness_NetworkUnitTraps :
    busyTile.haltFrozen 1 = false ∧ T0.run = .running ∧ (busyTile.reg (aTX 1 7 0)).getLsbD 31 = false ∧
    40 ≤ ((busyTile.setReg (aTX 1 7 0) 0x80002800).reg (aTX 1 7 0)).toNat / 256 % 64 ∧
    ((40 : W64).getLsbD 63 = false ∧ 40 ≤ (40 : W64).toNat % 64 ∧ (40 : W64).toNat % 64 ≠ 48) := by decide +kernel
/-- In slot 1 of table SEL the entry is e. -/
def slotOf (s : State) (sel : Nat) (e : BitVec 11) : State := s.modStn 1 fun S => S.setEntry (1024 * sel + 1) e
theorem witness_InjectionInASlot :
    (let s := slotOf (netTile fun u => { u with send := u.send.set 7 [(0, 9)], credits := u.credits.set 7 [0] }) (firstSel 7 39) 0x138
     let S := s.stn 1
     S.run = .running ∧ S.frozen = false ∧ (1 : BitVec 10).toNat < s.netLen 1 ∧ S.cycle ≤ S.frameBase + 1 ∧ S.settled 1 = true ∧
      (s.reg (aTX 1 7 7)).getLsbD 31 = true ∧ ((s.reg (aTX 1 7 7)).extractLsb' 8 6).toNat = 39 ∧ (s.tile 1 7).nu.send[(7 : Fin 8)] = [(0, 9)] ∧
      (s.tile 1 7).nu.credits[(7 : Fin 8)] = [0] ∧ S.outFree (firstSel 7 39) 1 = true ∧
      entryLocal (S.entry (firstSel 7 39) 1) 0 7 = true) ∧
    (let s := slotOf ((netTile fun u => { u with freed := u.freed.set 0 [0, 0, 0, 0] }).modStn 1 fun S => { S with frameBase := 4, cycle := 5 })
       (firstSel 7 3) 0x140
     let S := s.stn 1
     (s.reg (aRX 1 7 0)).getLsbD 31 = true ∧ ((s.reg (aRX 1 7 0)).extractLsb' 8 6).toNat = 3 ∧
      min 4 ((s.tile 1 7).nu.freed[(0 : Fin 8)].countP fun f => decide (f + 2 ≤ 5)) = 4 ∧ S.settled 5 = true ∧ S.outFree (firstSel 7 3) 5 = true ∧
      entryLocal (S.entry (firstSel 7 3) 1) 1 0 = true) ∧
    (let w : LinkWord := { kind := .response, be := false, dst := 39, src := 47, queue := some ⟨0, 1, .resp ⟨7, ⟨39, 0, .load 0 0 3 true, 0x1000⟩, .ok, []⟩⟩ }
     let s := slotOf (busyTile.modStn 1 fun S => { S with resps := [w] }) 377 0x1A7
     let S := s.stn 1
     let e := S.entry 377 1
     8 * (40 + (7 : Fin 8).val) + 1 = 377 ∧ S.run = .running ∧ S.frozen = false ∧ S.cycle ≤ S.frameBase + 1 ∧ S.settled 1 = true ∧
      S.outFree 377 1 = true ∧ e.extractLsb' 8 3 = 1 ∧ e.extractLsb' 6 2 = 2 ∧
      (S.resps.find? fun w => w.src.toNat == 47 && w.dst.toNat == (e.extractLsb' 0 6).toNat) = some w) := by decide +kernel
/-- A data word from tile 3 to channel 7 of tile 39 stands at the east output of router (0, 3). -/
def hopState (e : BitVec 11) (k : LinkKind) : State :=
  slotOf (busyTile.modStn 1 fun S => { S with outs := [(26, (0, ⟨k, false, 39, 3, 7, 0, 9, none⟩))] }) (routeSel 1 3 39) e
theorem witness_LinkHops :
    (let s := hopState 0x500 .data
     let S := s.stn 1
     S.run = .running ∧ S.frozen = false ∧ 0 + 1 < S.frameBase + s.netLen 1 ∧ S.settled 1 = true ∧
      S.outs.lookup (26 : BitVec 9).toNat = some (0, ⟨.data, false, 39, 3, 7, 0, 9, none⟩) ∧ linkEnd (26 : BitVec 9).toNat = some ((1, 3), 4) ∧
      entryOwner (S.entry (routeSel 1 3 39) (1 % s.netLen 1)) = some 4 ∧
      (S.held (routeSel 1 3 39)).any (sameFlow ⟨.data, false, 39, 3, 7, 0, 9, none⟩) = false ∧ S.outFree (routeSel 1 3 39) 1 = true) ∧
    (let s := hopState 0 .data
     entryOwner ((s.stn 1).entry (routeSel 1 3 39) (1 % s.netLen 1)) ≠ some 4) := by decide +kernel
def arriving (w : LinkWord) (f : Nu → Nu) : State := (netTile f).modStn 1 fun S => { S with outs := [(nodeSel 7, (0, w))] }
theorem witness_WordsArrive :
    (let w : LinkWord := ⟨.data, false, 7, 39, 7, 0, 5, none⟩
     let s := arriving w fun u => { u with recv := u.recv.set 7 [(0, 1), (0, 2), (0, 3)] }
     let S := s.stn 1
     let rx := s.reg (aRX 1 7 7)
     S.run = .running ∧ S.frozen = false ∧ S.outs.lookup (nodeSel 7) = some (0, w) ∧ 0 ≤ S.frameBase ∧ w.kind = .data ∧ rx.getLsbD 31 = true ∧
      rx.extractLsb' 8 6 = w.src ∧ w.src.toNat < 40 ∧ rx.extractLsb' 0 3 = w.sch ∧ (s.tile 1 7).nu.recv[(7 : Fin 8)].length < 4) ∧
    (let w : LinkWord := ⟨.credit, false, 7, 3, 0, 4, 0, none⟩
     w.kind = .credit ∧ w.sch.toNat + ((arriving w id).tile 1 7).nu.credits[(0 : Fin 8)].length ≤ 4) ∧
    (let w : LinkWord := ⟨.mailbox, false, 7, 48, 0, 0, 5, none⟩
     w.kind = .mailbox ∧ ((arriving w fun u => { u with mbox := .replicate 15 0 }).tile 1 7).nu.mbox.length < 16) := by decide +kernel
theorem witness_FramesAndFreezes :
    (let S := busyTile.stn 1
     S.run = .running ∧ S.frozen = false ∧ S.dueDiv = none ∧ S.repairs = [] ∧ S.repairNow = none ∧
      S.settled (S.frameBase + busyTile.netLen 1) = true ∧ (busyTile.reg (stnReg 1 0x400)).getLsbD 31 = false ∧
      S.fixes = [] ∧ S.fix = none) ∧
    (let S := (busyTile.modStn 1 fun S => { S with fixes := [(26 * 1024, 0)] }).stn 1
     S.dueDiv = none ∧ S.fixes = [(26 * 1024, 0)] ∧ S.fix = none) ∧
    (∀ d ∈ ([none, some 3] : List (Option (BitVec 2))), let S := (busyTile.modStn 1 fun S => { S with frozen := true, dueDiv := d }).stn 1
     S.run = .running ∧ S.frozen = true ∧ S.dueDiv = d ∧ S.fixes = [] ∧ S.fix = none ∧ S.repairs = [] ∧ S.repairNow = none) ∧
    (let S := (busyTile.modStn 1 fun S => { S with frozen := true, halted := true }).stn 1
     S.frozen = true ∧ S.halted = true) ∧ (State.reset.stn 1).run ≠ .running ∧ Registers.wf busyTile = true ∧ (1 : Stn).val < busyTile.grade.stations ∧
    hasTable (26 : BitVec 9).toNat = true ∧
    ((0x800003FF : W32) &&& 0x3800FC00 = 0 ∧ (0x800003FF : W32).getLsbD 31 = true ∧ (busyTile.reg (stnReg 1 0x418)).getLsbD 30 = false) := by
  decide +kernel
/-- The Hall's firmware runs. -/
def hallUp : State := { busyTile with hall := { busyTile.hall with run := .firmware } }
theorem witness_HallMailbox :
    ((0xA700FFFF : W32) &&& 0x40FF0000 = 0 ∧ (0xA700FFFF : W32).getLsbD 31 = true ∧ (0xA700FFFF : W32).toNat / 2 ^ 24 % 64 < 40 ∧
      (busyTile.stn 1).run = .running ∧ ((busyTile.modStn 1 fun S => { S with hallSend := [(1, 1), (2, 2), (3, 3)] }).stn 1).hallSend.length < 4) ∧
    (let s := hallUp.modStn 1 fun S => { S with hallFifo := [0x0C007F0000000000, 2] }
     (s.stn 1).hallFifo = 0x0C007F0000000000 :: [2] ∧ (s.stn 1).run = .running ∧ s.hall.run = .firmware ∧
      (0x0C007F0000000000 : W64).toNat / 2 ^ 58 ≠ 0 ∧ (0x0C007F0000000000 : W64).toNat / 2 ^ 40 % 256 < 0x80) := by decide +kernel

/-! ### Witnesses: the life of a tile -/

def inTest (p : PhysTile) : State := (busy fun T => { T with run := .selfTest }).modStn 1 fun S => { S with phys := S.phys.set 8 p }
/-- Tile 7 in self-test, its instruction memory all zero bytes with the CRCs that 02 R59 gives them. -/
def blank : State :=
  let s := inTest {}
  { s with mem := [], regs :=
      [(tileReg 1 7 0x300, 0x2004F987)] ++ (List.range 256).map fun i => (tileReg 1 7 (0x1000 + 4 * i), (0xB872B190 : W32)) }
/-- The CRC with its running value forced at each byte, for the kernel. -/
def crcForced : List Byte → Nat → Nat
  | [], a => a
  | b :: bs, a => match (crcByte 0x82F63B78 (BitVec.ofNat 32 a) b).toNat with
    | 0 => crcForced bs 0
    | k + 1 => crcForced bs (k + 1)
theorem crcForced_eq : ∀ (bs : List Byte) (a : Nat), a < 2 ^ 32 → crcForced bs a = (bs.foldl (crcByte 0x82F63B78) (BitVec.ofNat 32 a)).toNat
  | [], a, h => by rw [crcForced, List.foldl_nil, BitVec.toNat_ofNat, Nat.mod_eq_of_lt h]
  | b :: bs, a, h => by
    have e : crcForced (b :: bs) a = crcForced bs (crcByte 0x82F63B78 (BitVec.ofNat 32 a) b).toNat := by
      rw [crcForced]
      split <;> simp_all
    rw [e, crcForced_eq bs _ (crcByte _ _ b).isLt, List.foldl_cons, BitVec.ofNat_toNat, BitVec.setWidth_eq]
theorem crc_of_forced {bs : List Byte} {n : Nat} (h : crcForced bs 0xFFFFFFFF = n) : crc32c bs = ~~~BitVec.ofNat 32 n := by
  rw [← h, crcForced_eq _ _ (by decide), BitVec.ofNat_toNat, BitVec.setWidth_eq]
  rfl
theorem blank_line (s : State) (h : s.mem = []) (l : Byte) : s.lineCrc 1 7 l = 0xB872B190 := by
  have e : s.bytes (tileInsn 1 7 (256 * l.toNat)) 256 = List.replicate 256 0 := by
    simp only [State.bytes, State.byte, h, smGet, memReset, List.map_const', List.length_range]
  rw [State.lineCrc, e]
  exact crc_of_forced (n := 0x478D4E6F) (by decide +kernel)
theorem blank_stored : ∀ j < 16, ∀ i < 16, (blank.recordTest 1 1 2 true).storedCrc 1 7 (BitVec.ofNat 8 (16 * j + i)) = 0xB872B190 := by
  decide +kernel
theorem blank_image : (blank.recordTest 1 1 2 true).imageOk 1 7 = true := by
  have m : (blank.recordTest 1 1 2 true).mem = [] := by decide +kernel
  have r : (blank.recordTest 1 1 2 true).reg (tileReg 1 7 0x300) = 0x2004F987 := by decide +kernel
  have b : ∀ i ∈ List.range 256, (blank.recordTest 1 1 2 true).storedCrc 1 7 (BitVec.ofNat 8 i) = 0xB872B190 := fun i hi => by
    have := blank_stored (i / 16) (by have := List.mem_range.1 hi; omega) (i % 16) (by omega)
    rwa [show 16 * (i / 16) + i % 16 = i by omega] at this
  have c : (List.range 256).flatMap (fun i => leBytes 4 ((blank.recordTest 1 1 2 true).storedCrc 1 7 (BitVec.ofNat 8 i)).toNat) =
      (List.range 256).flatMap fun _ => leBytes 4 0xB872B190 := by
    rw [List.flatMap_def, List.flatMap_def]
    exact congrArg List.flatten (List.map_congr_left fun i hi => by rw [b i hi]; rfl)
  rw [State.imageOk, c, r, Bool.and_eq_true, List.all_eq_true]
  refine ⟨fun i hi => ?_, ?_⟩
  · rw [b i hi, blank_line _ m]
    rfl
  · rw [crc_of_forced (n := 0xDFFB0678) (by decide +kernel)]
    rfl
/-- The column map after a self-test of tile 7 with one ALU and one MAC pipe failed. -/
def spared (s : State) : State :=
  ((s.setFld (stnReg 1 0x104) 2 1 1).setFld (stnReg 1 0x104) 14 1 1).setFld (stnReg 1 0x104) 8 1 1
theorem witness_TileStartAndChecks :
    ((State.reset.tile 1 7).run ≠ .running ∧ (State.reset.tile 1 7).run ≠ .selfTest ∧ State.reset.fitted 1 = true) ∧ T0.run = .running ∧
    ({ State.reset with grade := .dq2080 } : State).fitted 3 = false ∧
    (∀ run ∈ [StnRun.running, .stopped], ∀ frozen : Bool,
     let s := (inTest { alu := 2 }).modStn 1 fun S => { S with run := run, frozen := frozen }
     (s.tile 1 7).run = .selfTest ∧ 6 * (7 / 5) + s.position 1 7 = 8 ∧ (s.stn 1).run = run ∧ (s.stn 1).repairNow = none ∧
      (s.stn 1).repairs = [] ∧ (s.stn 1).frozen = frozen ∧
      let p := s.physAt 1 1 (s.position 1 7)
      ¬(p.alu < 2 ∧ p.mac < 2 ∧ p.unspared = false)) ∧
    (let s := inTest { alu := 1, mac := 1 }
     let p := s.physAt 1 1 (s.position 1 7)
     (p.alu < 2 ∧ p.mac < 2 ∧ p.unspared = false) ∧ (spared s).imageOk 1 7 = false) := by
  refine ⟨by decide +kernel, by decide +kernel, by decide +kernel, by decide +kernel, by decide +kernel, Bool.eq_false_iff.2 fun h => ?_⟩
  rw [State.imageOk, Bool.and_eq_true, List.all_eq_true] at h
  have := h.1 0 (by simp)
  rw [blank_line _ (by decide +kernel)] at this
  exact absurd this (by decide +kernel)
theorem witness_TileStartState :
    (blank.tile 1 7).run = .selfTest ∧ blank.position 1 7 = 2 ∧ (blank.physAt 1 1 2).passes = true ∧
    (blank.recordTest 1 1 2 true).imageOk 1 7 = true ∧ Registers.wf blank = true :=
  ⟨by decide +kernel, by decide +kernel, by decide +kernel, blank_image, by decide +kernel⟩
theorem witness_StopTestAndSwi :
    (let T := (busy fun T => { T with stopReq := true }).tile 1 7
     T.run = .running ∧ busyTile.haltFrozen 1 = false ∧ T.stopReq = true ∧ T.flights = []) ∧
    ((inTest {}).tile 1 7).run = .selfTest ∧ pswLvl T0.psw ≠ 3 ∧
    pswLvl ((busy fun T => { T with psw := T.psw ||| 3 }).tile 1 7).psw = 3 ∧
    (let s := busy fun T => { T with testReq := true, report := some ⟨2, 0x111, 0, 31, true, true⟩ }
     let T := s.tile 1 7
     T.run = .running ∧ s.haltFrozen 1 = false ∧ T.stopReq = false ∧ T.testReq = true ∧ T.flights = [] ∧ T.attic[(1 : Fin 3)].inUse = false) ∧
    ((0xFF80 : W32) &&& 0xFFFF007F = 0 ∧ (0xFF80 : W32).getLsbD 7 = true ∧ (0xFF00 : W32) &&& 0xFFFF007F = 0 ∧
      (0xFF00 : W32).getLsbD 7 = false) := by decide +kernel
theorem witness_PipeFailureStops :
    busyTile.servedBy 1 8 = some 7 ∧ T0.run = .running ∧ State.reset.servedBy 1 8 = some 7 ∧ (State.reset.tile 1 7).run ≠ .running ∧
    busyTile.servedBy 1 11 = none := by decide +kernel
def filling (c : W32) : State := (busy fun T => { T with fills := [0xFF] }).setReg (tileReg 1 7 0x13FC) c
theorem witness_LineFillsAndReloads :
    (((filling 1).tile 1 7).run = .running ∧ (filling 1).haltFrozen 1 = false ∧ ((filling 1).tile 1 7).fills = 0xFF :: [] ∧
      ((filling 1).reg (tileReg 1 7 0x220)).getLsbD 30 = false ∧ ((filling 1).reg (tileReg 1 7 0x220)).getLsbD 16 = false) ∧
    (filling 0xB872B190).lineCrc 1 7 0xFF = (filling 0xB872B190).storedCrc 1 7 0xFF ∧
    (filling 1).lineCrc 1 7 0xFF ≠ (filling 1).storedCrc 1 7 0xFF ∧
    ((0xB00100FF : W32) &&& 0x0FFE0000 = 0 ∧ (0xB00100FF : W32).getLsbD 31 = true ∧ Registers.wf busyTile = true) ∧
    (let s := (filling 1).setReg (tileReg 1 7 0x220) 0x400000FF
     let T := s.tile 1 7
     T.run = .running ∧ s.haltFrozen 1 = false ∧ T.fills = 0xFF :: [] ∧ (s.reg (tileReg 1 7 0x220)).getLsbD 30 = true ∧
      (s.reg (tileReg 1 7 0x220)).toNat % 256 = (0xFF : Byte).toNat ∧ T.fillFirst = false) ∧
    (let s := busyTile.setReg (tileReg 1 7 0x220) 0x700000FF
     (s.reg (tileReg 1 7 0x220)).getLsbD 30 = true ∧ (s.reg (tileReg 1 7 0x220)).toNat % 256 = (0xFF : Byte).toNat ∧ (s.tile 1 7).fillFirst = false ∧
      Memory.wf s = true ∧ Registers.wf s = true) := by
  refine ⟨by decide +kernel, ?_, ?_, by decide +kernel, by decide +kernel, by decide +kernel⟩
  · rw [blank_line _ (by decide +kernel)]
    decide +kernel
  · rw [blank_line _ (by decide +kernel)]
    decide +kernel

/-! ### Witnesses: stations -/

theorem witness_StationStarts :
    (let s := State.reset
     (s.stn 1).run ≠ .running ∧ (s.stn 1).phase = .none ∧ s.fitted 1 = true ∧ s.headMode = false ∧ (∀ c < 8, (s.reg (stnReg 1 (0x100 + 4 * c))).getLsbD 31 = false) ∧
      s.hall.run ≠ .firmware ∧ Registers.wf s = true) ∧
    (let s := (State.reset.setReg (stnReg 1 0x104) 0xD000001F).setReg (stnReg 1 0x108) 0xC580001F
     (s.reg (stnReg 1 0x104)).getLsbD 31 = true ∧ (s.reg (stnReg 1 0x104)).toNat / 2 ^ 26 % 4 = 0 ∧
      (s.reg (stnReg 1 0x104)).toNat / 2 ^ 28 % 8 = 5 ∧ (s.reg (stnReg 1 0x108)).getLsbD 31 = true ∧
      (s.reg (stnReg 1 0x108)).toNat / 2 ^ 26 % 4 ≠ 0 ∧ Registers.wf s = true ∧ s.hall.run ≠ .firmware ∧ s.headMode = false) ∧
    (busyTile.stn 1).run = .running := by decide +kernel
theorem witness_StationStartEnds :
    (let s := State.reset.modStn 1 fun S => { S with phase := .starting }
     (s.stn 1).phase = .starting ∧ s.hall.run ≠ .firmware ∧ (∀ k : Fin 48, (s.stn 1).phys[k] = {}) ∧ (∀ c < 8, s.colState 1 c = 0) ∧
      Registers.wf s = true) ∧
    (let s := (State.reset.modStn 1 fun S => { S with phase := .starting }).setReg (stnReg 1 0x11C) 0x08000000
     (s.stn 1).phase = .starting ∧ s.colState 1 7 = 2) := by decide +kernel
theorem witness_StationStops :
    ((busyTile.stn 1).phase = .none ∧ (busyTile.stn 1).run = .running) ∧
    (let s := State.reset.modStn 1 fun S => { S with run := .failed }
     (s.stn 1).phase = .none ∧ (s.stn 1).run = .failed) ∧
    ((State.reset.stn 1).phase = .none ∧ (State.reset.stn 1).run = .stopped) ∧
    (∀ d ∈ ([none, some 3] : List (Option (BitVec 2))), let s := busyTile.modStn 1 fun S => { S with phase := .stopping false, dueDiv := d }
     let S := s.stn 1
     S.phase = .stopping false ∧ S.dueDiv = d ∧ S.run ≠ .failed ∧ S.repairs = [] ∧ S.repairNow = none ∧ S.fixes = [] ∧ S.fix = none ∧ s.answered 1 = true ∧
      s.hall.run ≠ .firmware ∧ (∀ t, (s.tile 1 t).stopReq = false) ∧ Registers.wf s = true) ∧
    (let s := busyTile.modStn 1 fun S => { S with phase := .stopping true, nodeQ := S.nodeQ.set 0 [⟨7, 1, .load 0 0 0 false, 0⟩] }
     (s.stn 1).phase = .stopping true ∧ s.answered 1 = false) := by decide +kernel
theorem witness_ColumnRepairs :
    (let v : W32 := 0x80000027
     v &&& 0x3FFFFFC0 = 0 ∧ v.getLsbD 31 = true ∧ v.toNat % 64 = (39 : TileNo).val ∧ (busyTile.stn 1).repairs = [] ∧
      (busyTile.stn 1).repairNow = none ∧ (busyTile.stn 1).run = .running ∧ busyTile.colState 1 7 = 0) ∧
    ((0x27 : W32) &&& 0x3FFFFFC0 = 0 ∧ (0x27 : W32).getLsbD 31 = false ∧
      ((busyTile.modStn 1 fun S => { S with repairs := [(0, 0)] }).stn 1).repairs ≠ []) ∧
    (∀ x ∈ ([0, 4, 5] : List (Fin 6)), ∀ n ∈ ([0, 1] : List Nat),
      let s := (busyTile.modStn 1 fun S => { S with frozen := true, repairNow := some (7, x) }).setFld (stnReg 1 0x11C) 26 2 n
      (s.stn 1).repairNow = some (7, x) ∧ (s.stn 1).repairs = [] ∧ (s.stn 1).frozen = true ∧ s.colState 1 7 = n ∧ s.hall.run ≠ .firmware ∧
        s.headMode = false ∧ Registers.wf s = true ∧ Memory.wf s = true) := by decide +kernel
theorem witness_WorldsOfStoppedTiles : busyTile.fitted 1 = true ∧ Registers.wf busyTile = true ∧ (0xFF : W32).toNat < 256 := by decide +kernel

/-! ### Witnesses: banks, scrubbers and LP5 controllers -/

theorem witness_BankPowerStates :
    ∀ m ∈ [BankMem.tile 1 7, .station 1, .hall], ∀ b : Fin 32, (b.val = 0 ∨ b.val = 3) →
      m.hasBank b = true ∧ (0 : BitVec 2) ≠ 3 ∧
      (∀ p < 3, let s := (busyTile.setBankPower m b.val p).setFld (bankFillBit m b.val).1 (bankFillBit m b.val).2 1 0
        s.change m b.val = none ∧ s.filling m b.val = false ∧ s.bankPower m b.val = p) ∧
      (let s := busyTile.setFld (bankFillBit m b.val).1 (bankFillBit m b.val).2 1 1
       s.change m b.val = none ∧ s.filling m b.val = true) ∧
      (busyTile.setChange m b.val (some 0, none)).change m b.val = some (some 0, none) := by decide +kernel
theorem witness_ZeroFills :
    ∀ m ∈ [BankMem.tile 1 7, .station 1], ∀ b : Fin 32, (b.val = 0 ∨ b.val = 3) →
      m.hasBank b = true ∧ busyTile.bankOn m b.val = true ∧ Registers.wf busyTile = true ∧ (busyTile.setBankPower m b.val 1).bankOn m b.val = false ∧
      (let s := busyTile.setFld (bankFillBit m b.val).1 (bankFillBit m b.val).2 1 1
       s.filling m b.val = true ∧ s.change m b.val = none ∧ Memory.wf s = true) ∧ busyTile.filling m b.val = false := by decide +kernel
theorem witness_Scrubbing :
    (let s := { busyTile with scrubAt := [(bankNo (.tile 1 7) 3, 4095)] }
     (BankMem.tile 1 7).hasBank 3 = true ∧ s.bankOn (.tile 1 7) 3 = true ∧ ∀ a ∈ bankScrubRow (.tile 1 7) 3 4095, s.upset a = .none) ∧
    (let s := (busyTile.setReg (stnReg 1 0x21C) 0x80000000)
     (BankMem.station 1).hasBank 31 = true ∧ s.bankOn (.station 1) 31 = true ∧ (∀ a ∈ bankScrubRow (.station 1) 31 0, s.upset a = .none) ∧
      (s.reg (stnReg 1 0x21C)).getLsbD 31 = true ∧ Registers.wf s = true ∧ (s.reg (stnReg 1 0x210)).getLsbD 0 = false) ∧
    ((State.reset.setReg (stnReg 1 0x21C) 0).reg (stnReg 1 0x21C)).getLsbD 31 = false := by decide +kernel
theorem witness_Lp5Controllers :
    busyTile.gated 1 = false ∧ (busyTile.setFld (cpr 0xC) 1 1 0).gated 1 = true ∧
    (∀ d ∈ ([1, 5] : List Nat), let s := busyTile.setReg (lpReg 1 0) (BitVec.ofNat 32 (16 * d))
      1 ≤ (s.reg (lpReg 1 0)).toNat / 16 % 8 ∧ (s.reg (lpReg 1 0)).toNat / 16 % 8 ≤ 5) ∧
    (∀ d ∈ ([0, 6] : List Nat), let s := busyTile.setReg (lpReg 1 0) (BitVec.ofNat 32 (16 * d))
      (s.reg (lpReg 1 0)).toNat / 16 % 8 = 0 ∨ 6 ≤ (s.reg (lpReg 1 0)).toNat / 16 % 8) ∧
    ({ busyTile with lp5Train := busyTile.lp5Train.set 1 true }).lp5Train[(1 : Fin 2)] = true ∧ busyTile.lp5Train[(1 : Fin 2)] = false ∧
    (let s := (busyTile.setReg (lpReg 1 0) 0x310).setReg (lpReg 1 4) 1
     (s.reg (lpReg 1 4)).getLsbD 0 = true ∧ (s.reg (lpReg 1 0)).getLsbD 10 = false ∧ (s.reg (lpReg 1 0)).getLsbD 9 = true ∧
      (s.reg (lpReg 1 0)).getLsbD 8 = true ∧ ∀ i < 8, s.upset (lpBase 1 + 64 * s.lp5Scrub[(1 : Fin 2)] + 8 * i) = .none) ∧
    (busyTile.reg (lpReg 1 4)).getLsbD 0 = false := by decide +kernel

theorem witness_WordsArrive_mailboxes :
    (∀ k ∈ [LinkKind.mailbox, .band], ∀ n ∈ ([15, 16] : List Nat),
      let w : LinkWord := ⟨k, false, 7, 48, 0, 0, 5, none⟩
      let s := arriving w fun u => { u with mbox := .replicate n 0 }
      let S := s.stn 1
      S.run = .running ∧ S.frozen = false ∧ S.outs.lookup (nodeSel 7) = some (0, w) ∧ 0 ≤ S.frameBase ∧ (w.kind = .mailbox ∨ w.kind = .band) ∧
        (s.tile 1 7).nu.mbox.length = n) ∧
    (∀ n ∈ ([15, 16] : List Nat),
      let w : LinkWord := ⟨.mailbox, false, 48, 7, 0, 0, 5, none⟩
      let s := busyTile.modStn 1 fun S => { S with outs := [(nodeSel 48, (0, w))], hallFifo := .replicate n 0 }
      let S := s.stn 1
      S.run = .running ∧ S.frozen = false ∧ S.outs.lookup (nodeSel 48) = some (0, w) ∧ 0 ≤ S.frameBase ∧ S.hallFifo.length = n) := by decide +kernel
theorem witness_FramesAndFreezes_repairs :
    (let s := busyTile.modStn 1 fun S => { S with repairs := [(7, 4), (7, 5)] }
     let S := s.stn 1
     S.frozen = false ∧ S.dueDiv = none ∧ S.fixes = [] ∧ S.fix = none ∧ S.repairs = (7, 4) :: [(7, 5)] ∧ S.repairNow = none ∧
      S.settled (S.frameBase + s.netLen 1) = true ∧ (s.reg (stnReg 1 0x400)).getLsbD 31 = false ∧
      (s.reg (stnReg 1 0x404)).getLsbD 29 = false ∧ Registers.wf s = true) ∧
    (let s := (busyTile.modStn 1 fun S => { S with frozen := true, repairs := [(7, 5)], dueDiv := some 0 }).setReg (stnReg 1 0x404) 0xA0000000
     let s := s.setReg (devReg 1 0x24) 0x30
     let S := s.stn 1
     S.frozen = true ∧ S.fixes = [] ∧ S.fix = none ∧ (s.reg (stnReg 1 0x404)).getLsbD 29 = true ∧ S.repairNow = none ∧
      min 2 ((s.reg (devReg 1 0x24)).toNat / 16 % 4) = 2 ∧ Registers.wf s = true) ∧
    ({ busyTile with grade := .dq2080 } : State).fitted 3 = false := by decide +kernel
theorem witness_TileStarts_repairs :
    let s := ((inTest { alu := 2 }).modStn 1 fun S => { S with frozen := true }).setReg (stnReg 1 0x404) 0xA0000000
    (s.tile 1 7).run = .selfTest ∧ (s.stn 1).run = .running ∧ (s.stn 1).repairNow = none ∧ (s.reg (stnReg 1 0x404)).getLsbD 29 = true ∧
      (s.reg (stnReg 1 0x404) &&& 0x20000000 ≠ 0) := by decide +kernel
/-- An instruction at 0x123 that needs line 1 and one at 0x780, in line 7, wait; line 0xFF, which no one needs, is being filled. -/
theorem witness_LineFills_needed :
    let s := busy fun T => { T with fills := [0xFF, 2], slot := 1, pkind := .jmp, pendVal := 0x780 }
    let T := s.tile 1 7
    (let held := { T with fills := [2], fillFirst := false, buf := (⟨0xFF, true⟩ :: T.buf.filter fun e => e.line != 0xFF).take 4 }
     (s.setTile 1 7 held).neededLines 1 7 = [1, 7]) ∧ T.fills = 0xFF :: [2] ∧ ({ s with grade := .dq2080 } : State).fitted 3 = false := by
  decide +kernel
theorem witness_StationStops_least :
    let s := (busyTile.modStn 1 fun S => { S with phase := .stopping false, dueDiv := some 0 }).setReg (devReg 1 0x24) 0x20
    (s.stn 1).dueDiv = some 0 ∧ min 2 ((s.reg (devReg 1 0x24)).toNat / 16 % 4) = 2 ∧ Registers.wf s = true := by decide +kernel
theorem witness_ColumnRepairs_waiting :
    (∀ b : Bool, let s := (busyTile.modStn 1 fun S => { S with frozen := true }).setReg (stnReg 1 0x404) (if b then 0xA0000000 else 0x80000000)
     (s.stn 1).frozen = true ∧ (s.stn 1).repairs = [] ∧ (s.stn 1).repairNow = none ∧ (s.reg (stnReg 1 0x404)).getLsbD 29 = b ∧ s.fitted 1 = true) ∧
    (let s := busyTile.modStn 1 fun S => { S with frozen := true, repairNow := some (7, 4), repairs := [(2, 0)] }
     (s.stn 1).repairNow = some (7, 4) ∧ (s.stn 1).repairs ≠ [] ∧ s.colState 1 7 = 0) ∧
    ({ busyTile with grade := .dq2080 } : State).fitted 3 = false := by decide +kernel
theorem witness_Banks_absent :
    (∀ m ∈ [BankMem.tile 3 7, .station 3], ({ busyTile with grade := .dq2080 } : State).bankFitted m = false ∧ m.hasBank 3 = true) ∧
    (∀ m ∈ [BankMem.tile 1 7, .station 1, .hall], busyTile.bankFitted m = true) := by decide +kernel

/-! ### Witnesses: camera ingest -/

/-- Receiver 3 of station 1 is on; context 7 takes its virtual channel 2 into a ring of two slots of 2 lines of 64 RAW8 pixels in LP5 memory 0. -/
def camera (f : CamCtx → CamCtx) : State :=
  let s := (busyTile.setReg (rxReg 1 3 0) 0x80000000).setReg (lpReg 0 4) 1
  let s := (s.setReg (cxReg 1 7 0) 0xCEA80000).setReg (cxReg 1 7 4) 0x00200040
  let s := ((s.setReg (cxReg 1 7 8) 0x04000001).setReg (cxReg 1 7 0xC) 0).setReg (cxReg 1 7 0x10) 0x10
  s.modCtx 1 7 f
def openSlot : CamSlot := ⟨1, 0x1000000000, 0, [], 0, 0, false, true, false, false, false, false, 9, 5, 0, none, 0, 0x1000, 0x2A, 64, 64⟩
theorem witness_CameraReceivers :
    busyTile.rxOn 1 3 = false ∧ (camera id).rxOn 1 3 = true ∧ (∀ k, ((camera id).ctx 1 k).active = false) ∧
    (camera id).ctxsOf 1 3 1 = [] ∧ (camera id).ctxsOf 1 3 2 = [7] ∧ ((camera id).ctx 1 7).active = false ∧
    ((camera id).geom 1 7).ring = true ∧ 0 < ((camera id).geom 1 7).nslot ∧
    ((camera fun C => { C with seq := 0xFFFFFFFE }).ctx 1 7).seq.toNat < 2 ^ 32 - 1 ∧ Registers.wf (camera id) = true ∧
    (((camera id).setReg (cxReg 1 7 0) 0x8EA80000).geom 1 7).ring = false ∧
    ((camera id).setReg (cxReg 1 7 0) 0x8EA80000).ctxsOf 1 3 2 = [7] := by decide +kernel
theorem witness_CameraRows :
    let s := camera fun C => { C with active := true, seq := 1, count := 1, slots := [{ openSlot with rows := [0] }] }
    let p : LongPkt := ⟨2, 0x2A, .replicate 64 7, true, false, none⟩
    let C := s.ctx 1 7
    let g := s.geom 1 7
    let c0 := s.reg (cxReg 1 7 0)
    s.rxOn 1 3 = true ∧ p.crcOk = true ∧ p.fifoCut = none ∧ p.hdrCorrected = false ∧ s.ctxsOf 1 3 p.vc = [7] ∧
    c0.toNat / 2 ^ 18 % 64 = 0x2A ∧ c0.toNat / 2 ^ 16 % 4 = 0 ∧ p.dt.toNat = 0x2A ∧ g.ring = true ∧ g.lsnum = false ∧ C.active = true ∧
    C.slots = [{ openSlot with rows := [0] }] ∧ openSlot.closed = none ∧ openSlot.row0 = 0 ∧ C.count < g.height ∧
    ([0] : List Nat).contains C.count = false ∧ p.payload.length = g.width ∧ c0.getLsbD 13 = false ∧ c0.getLsbD 14 = false ∧
    c0.getLsbD 15 = false ∧ Registers.wf s = true ∧ s.ctxsOf 1 3 1 = [] := by decide +kernel
theorem witness_CameraContexts :
    (let s := { busyTile with grade := .dq2080 }
     ¬((3 : Stn).val < s.grade.stations ∧ s.gated (4 + (3 : Stn).val) = false)) ∧
    ((1 : Stn).val < busyTile.grade.stations ∧ busyTile.gated (4 + (1 : Stn).val) = false) ∧
    ((0xFFFFE000 : W32) &&& ((regInfo (cxReg 1 7 0)).map RegInfo.rsv).getD 0 = 0 ∧
      (0x6FFFE000 : W32) &&& ((regInfo (cxReg 1 7 0)).map RegInfo.rsv).getD 0 = 0) ∧
    (let s := ((camera id).setReg (cxReg 1 7 0) 0x4EA80000).setReg (lpReg 0 0) 0x310
     let fields := s.noted.setReg (cxReg 1 7 0) ((0xCEA80000 &&& 0x6FFFE000) ||| (s.reg (cxReg 1 7 0) &&& 0x80000000))
     let wide := s.noted.setReg (cxReg 1 7 0) ((0x8EA80000 &&& 0x6FFFE000) ||| (s.reg (cxReg 1 7 0) &&& 0x80000000))
     (s.reg (cxReg 1 7 0)).getLsbD 31 = false ∧ (s.ctx 1 7).writes = [] ∧ (s.ctx 1 7).slots = [] ∧ fields.ctxOk 1 7 = true ∧
      wide.ctxOk 1 7 = false) ∧
    (((camera id).reg (cxReg 1 7 0)).getLsbD 31 = true ∧ ((camera id).ctx 1 7).active = false) ∧
    (let s := camera fun C => { C with active := true }
     (s.ctx 1 7).active = true ∧ (s.ctx 1 7).slots = [] ∧ Registers.wf s = true) :=
  ⟨by decide +kernel, by decide +kernel, by decide +kernel, by decide +kernel, by decide +kernel, by decide +kernel⟩

/-- The context stores data type dt in the form f, in a ring of slots or in bands of 2 rows of a frame of 6, its row by count or by LS. -/
def storing (dt f : Nat) (ring ls : Bool) (C : CamCtx → CamCtx) : State :=
  let s := camera fun D => C { D with active := true, seq := 1, count := 1 }
  let s := ((s.setFld (cxReg 1 7 0) 18 6 dt).setFld (cxReg 1 7 0) 16 2 f).setFld (cxReg 1 7 0) 29 1 ls.toNat
  ((s.setFld (cxReg 1 7 0) 30 1 ring.toNat).setFld (cxReg 1 7 4) 20 12 6).setFld (cxReg 1 7 8) 16 9 2
theorem witness_CameraInput_forms :
    (∀ f ∈ ([(0x2A, 0), (0x2A, 1), (0x2A, 2), (0x2B, 0), (0x2B, 1), (0x2C, 0), (0x2C, 1), (0x1E, 2), (0x1E, 3)] : List (Nat × Nat)),
      ∀ b ∈ ([(true, false), (false, false), (true, true)] : List (Bool × Bool)),
      let s := storing f.1 f.2 b.1 b.2 fun C => { C with ls := some 2, slots := [openSlot] }
      s.rxOn 1 3 = true ∧ Registers.wf s = true ∧ s.ctxsOf 1 3 2 = [7] ∧ (s.reg (cxReg 1 7 0)).toNat / 2 ^ 18 % 64 = f.1 ∧
        (s.reg (cxReg 1 7 0)).toNat / 2 ^ 16 % 4 = f.2 ∧ (BitVec.ofNat 6 f.1).toNat = f.1 ∧ (s.ctx 1 7).active = true ∧
        (s.geom 1 7).lsnum = b.2 ∧ (s.geom 1 7).ring = b.1 ∧ (s.ctx 1 7).count = 1 ∧ (s.ctx 1 7).ls = some 2 ∧ 1 < (s.geom 1 7).height ∧
        0 < (s.geom 1 7).nslot) ∧
    (let s := storing 0x2B 0 false false fun C => { C with count := 2, slots := [{ openSlot with rows := [0, 1] }] }
     let u := storing 0x2B 0 false false fun C => { C with count := 5 }
     (s.ctx 1 7).count / (s.geom 1 7).rows * (s.geom 1 7).rows = 2 ∧ openSlot.row0 < 2 ∧ (s.ctx 1 7).seq = openSlot.seq ∧
      openSlot.closed = none ∧ (u.ctx 1 7).slots = [] ∧ 5 < (u.geom 1 7).height) := by decide +kernel
theorem witness_CameraSlots_ends :
    (∀ b ∈ ([(true, false), (false, true), (false, false)] : List (Bool × Bool)),
      let s := storing 0x2A 0 b.1 b.2 fun C => { C with disabling := !b.1 && !b.2, had := [0, 1], slots := [{ openSlot with rows := [0, 1] }] }
      let C := s.ctx 1 7
      s.rxOn 1 3 = true ∧ s.ctxsOf 1 3 2 = [7] ∧ C.active = true ∧ C.slots = [{ openSlot with rows := [0, 1] }] ∧ openSlot.closed = none ∧
        Registers.wf s = true ∧ (s.geom 1 7).ring = b.1 ∧ (s.geom 1 7).lsnum = b.2 ∧ C.had.length < (s.geom 1 7).height) ∧
    (let s := camera fun C => { C with active := true, had := [0, 1], slots := [openSlot] }
     ¬(s.ctx 1 7).had.length < (s.geom 1 7).height) := by decide +kernel
/-- The context's oldest write is w, and its slots are those. -/
def writing (w : List CamWrite) (slots : List CamSlot) : State :=
  (camera fun C => { C with seq := 1, writes := w, slots := slots }).setReg (lpReg 0 0) 0x310
theorem witness_CameraSlots_writes :
    (∀ p ∈ ([(0x1000000000, true), (0x1800000000, false), (0x1000000FFC, true)] : List (Nat × Bool)), ∀ row : Bool,
      let w := if row then CamWrite.row 3 p.1 [1, 2, 3, 4] else .bytes p.1 [1, 2, 3, 4]
      let s := writing [w] []
      (s.ctx 1 7).writes = w :: [] ∧ s.camServed = some 1 ∧ s.mxTurn mCamera p.1 = true ∧
        (((s.mxTake mCamera p.1).modCtx 1 7 fun C => { C with writes := [] }).memWrite mCamera p.1 [1, 2, 3, 4]).2 = p.2 ∧ (s.ctx 1 7).slots = []) ∧
    (let far := { openSlot with addr := 0x1800000000 }
     let s := writing [.bytes 0x1800000040 [1]] [far]
     s.camServed = some 1 ∧ s.mxTurn mCamera 0x1800000040 = true ∧
      (s.ctx 1 7).slots.find? (fun S => decide (S.addr ≤ 0x1800000040) && decide (0x1800000040 < S.addr + S.size)) = some far ∧
      (((s.mxTake mCamera 0x1800000040).modCtx 1 7 fun C => { C with writes := [] }).memWrite mCamera 0x1800000040 [1]).2 = false) ∧
    (let s := (writing [.bytes 0x1000000000 [1]] []).modStn 2 fun S => { S with lines := S.lines.set 0 [⟨5, [0]⟩] }
     let s := s.modCtx 2 0 fun C => { C with writes := [.bytes 0 [1]] }
     (s.ctx 1 7).writes ≠ [] ∧ s.camServed ≠ some 1) := by decide +kernel
theorem witness_CameraSlots_headers :
    (∀ p ∈ ([(0x1000000000, true), (0x1800000000, false)] : List (Nat × Bool)),
      let S := { openSlot with addr := p.1, closed := some 2 }
      let s := writing [.header S.seq] [S]
      (s.ctx 1 7).writes = .header S.seq :: [] ∧ (s.ctx 1 7).slots.find? (fun y => y.seq == S.seq) = some S ∧ s.camServed = some 1 ∧
        s.mxTurn mCamera (S.addr + 4) = true ∧
        (((s.mxTake mCamera (S.addr + 4)).modCtx 1 7 fun C => { C with writes := [] }).memWrite mCamera (S.addr + 4) [0]).2 = p.2) ∧
    (∀ x ∈ ([(true, false), (false, true), (false, false)] : List (Bool × Bool)),
      let S := { openSlot with closed := some 2, fe := x.1, inc := x.2 }
      let s := (writing [] [S]).setReg (cxReg 1 7 0x18) 0x180
      (s.ctx 1 7).slots = S :: [] ∧ S.closed = some 2 ∧ .header S.seq ∉ (s.ctx 1 7).writes ∧ s.camServed = some 1 ∧
        s.mxTurn mCamera (S.addr + 0x38) = true ∧ (s.stn 1).bandQueue = []) ∧
    (∀ x ∈ ((writing [] [openSlot]).ctx 1 7).slots.head?, x.closed = none) ∧ (writing [] []).camServed ≠ some 1 := by decide +kernel

/-! ### Witnesses: load cells and the Pantry -/

/-- Channel 7, of station 3, with CTRL c and ring register r; the memory banks of station 3 are on, and of the Sealed world where p is 0x55555555. -/
def cell (c r p : W32) : State :=
  let s := ((busyTile.setReg (stnReg 3 0x150) p).setReg (stnReg 3 0x154) p).setReg (stnReg 3 0x200) 0xAAAAAAAA
  ((s.setReg (stnReg 3 0x204) 0xAAAAAAAA).setReg (lcReg 7 0) c).setReg (lcReg 7 0x10) r
theorem witness_LoadCellFaults :
    (busyTile.fitted (lcStn 7) = true ∧ ((cell 0x08000000 0 0).reg (lcReg 7 0)).getLsbD 27 = true ∧
      ((cell 0 0 0).reg (lcReg 7 0)).getLsbD 27 = false ∧ ((cell 0x10000000 0 0).reg (lcReg 7 0)).getLsbD 28 = true ∧
      (cell 0 0 0).lc[(7 : Fin 8)].excf = .none ∧ ((cell 0 0 0).reg (lcReg 7 0)).getLsbD 28 = false ∧ (cell 0 0 0).lc[(7 : Fin 8)].excf ≠ .faulted) ∧
    (let s := { busyTile with lc := busyTile.lc.set 7 { busyTile.lc[(7 : Fin 8)] with excf := .faulted } }
     s.lc[(7 : Fin 8)].excf = .faulted) ∧
    ({ busyTile with grade := .dq2080 } : State).fitted (lcStn 7) ≠ true ∧
    (busyTile.setReg aGSTAT 2).reg aGSTAT = 2 ∧ (busyTile.setReg aGSTAT 0).reg aGSTAT = 0 := by decide +kernel
theorem witness_LoadCellSamples :
    ((List.replicate 250 (0x7FFFFF : BitVec 24)).length = [10000, 5000, 2500, 2000, 1250, 1000, 500, 250].getD
      (((cell 0x80000070 0x00FFFFC0 0).reg (lcReg 7 0)).toNat / 16 % 8) 0 ∧
      ([] : List (BitVec 24)).length ≠ [10000, 5000, 2500, 2000, 1250, 1000, 500, 250].getD
      (((cell 0x80000070 0x00FFFFC0 0).reg (lcReg 7 0)).toNat / 16 % 8) 0) ∧
    ∀ p ∈ ([0x55555555, 0] : List Nat), ∀ b ∈ ([0xAAAAAAAA, 0] : List Nat),
      let s0 := (cell 0x80000070 0x00FFFFC0 (BitVec.ofNat 32 p)).setReg (stnReg 3 0x204) (BitVec.ofNat 32 b)
      let s := { s0 with lc := s0.lc.set 7 { s0.lc[(7 : Fin 8)] with seq := 3 } }
      let off := (s.reg (lcReg 7 0x10)).toNat / 64 % 2 ^ 18 * 64 + 16 * (s.lc[(7 : Fin 8)].seq.toNat % 64)
      s.fitted (lcStn 7) = true ∧ (∀ m g, s.mxWaits m g = false) ∧ (s.reg (lcReg 7 0)).getLsbD 31 = true ∧ s.lc[(7 : Fin 8)].seq.toNat < 2 ^ 24 - 1 ∧
      s.reg (lcReg 7 0x14) = 0 ∧ (s.reg (lcReg 7 0x18)).toNat % 256 = 0 ∧ Memory.wf s = true ∧ Registers.wf s = true ∧
      off + 16 = 0x1000000 ∧ off / 0x80000 = 31 ∧ (off + 15) / 0x80000 = 31 ∧
      s.bankSealed 3 31 = decide (p ≠ 0) ∧ (p ≠ 0 → ∀ j < 32, s.bankSealed 3 j = true) ∧ s.stnBankOn 3 31 = decide (b ≠ 0) := by decide +kernel
theorem witness_LoadCellNotices :
    let s := (cell 0x80000070 0 0x55555555).setReg (lcReg 7 0x18) 0x180
    (List.replicate 250 (5 : BitVec 24)).length = decimation ((s.reg (lcReg 7 0)).toNat / 16 % 8) ∧ s.fitted (lcStn 7) = true ∧
    (∀ m g, s.mxWaits m g = false) ∧ (s.reg (lcReg 7 0)).getLsbD 31 = true ∧ (s.reg (lcReg 7 0x18)).toNat / 256 % 256 = 1 := by
  decide +kernel
/-- The calibration partition holds a valid set whose record 7 has GAIN 7 and RATE 7. -/
def calibrated : State :=
  let s := (cell 0 0 0x55555555).setReg aGSTAT 1
  { s with
    lc := s.lc.set 7 { s.lc[(7 : Fin 8)] with loading := true }
    flash := [(0x0, 0x1), (0x1, 0x0), (0x2, 0x43), (0x3, 0x4C), (0x744, 0x7), (0x745, 0x7), (0xFFC, 0x8D), (0xFFD, 0x52), (0xFFE, 0xB9), (0xFFF, 0x54)].map fun e => (0x401000 + e.1, BitVec.ofNat 8 e.2) }
theorem calValid_of_forced {bs : List Byte} {n : Nat} (h : leNat (slice bs 0 4) = 0x4C430001) (f : crcForced (bs.take 0xFFC) 0xFFFFFFFF = n)
    (e : ~~~BitVec.ofNat 32 n = leBv 32 (slice bs 0xFFC 4)) : calValid bs = true := by
  rw [calValid, crc_of_forced f, e, h]
  simp
theorem calibrated_valid : calValid (calibrated.flashBytes 0x401000 0x1000) = true :=
  calValid_of_forced (n := 0xAB46AD72) (by decide +kernel) (by decide +kernel) (by decide +kernel)
theorem witness_LoadCellSettings :
    (calibrated.calen = true ∧ calibrated.fitted (lcStn 7) = true ∧ calibrated.reg (lcReg 7 8) ≠ 0xFFFFFFFF ∧
      Registers.wf calibrated = true ∧ (calibrated.reg (lcReg 7 0)).getLsbD 29 = false ∧
      ({ calibrated with grade := .dq2080 } : State).fitted (lcStn 7) ≠ true) ∧
    (∀ off ∈ ([0, 8, 0xC, 0x80, 0xFC] : List Byte), ((regInfo (lcReg 7 off.toNat)).map RegInfo.rsv).getD 0 &&& 0x770 = 0 ∧
      (off = 0 ∨ off = 8 ∨ off = 0xC ∨ (0x80 ≤ off.toNat ∧ off.toNat % 4 = 0 ∧ off.toNat < 0x100))) ∧
    ¬((4 : Byte) = 0 ∨ (4 : Byte) = 8 ∨ (4 : Byte) = 0xC ∨ (0x80 ≤ (4 : Byte).toNat ∧ (4 : Byte).toNat % 4 = 0 ∧ (4 : Byte).toNat < 0x100)) ∧
    busyTile.calen = false ∧
    calibrated.lc[(0 : Fin 8)].loading = false ∧
    (calibrated.lc[(7 : Fin 8)].loading = true ∧ calibrated.flashCtl.work = .idle ∧
      (({ calibrated with flash := [] }).flashBytes 0x401000 4).getD 0 0 ≠ 1 ∧
      calValid (({ calibrated with flash := [] }).flashBytes 0x401000 0x1000) = false) ∧
    (let r := ((calibrated.flashBytes 0x401000 0x1000).drop 0x740).take 256
     (r.getD 0 0).getLsbD 0 = true ∧ (r.getD 4 0).toNat < 8 ∧ (r.getD 5 0).toNat < 8) ∧
    banksAll (calibrated.ringOff 7) (16 * calibrated.ringLen 7) (fun j => calibrated.bankSealed 3 j && calibrated.bankPower (.station 3) j == 2) = true ∧
    banksAll (busyTile.ringOff 7) (16 * busyTile.ringLen 7) (fun j => busyTile.bankSealed 3 j && busyTile.bankPower (.station 3) j == 2) = false := by
  decide +kernel
/-- The Pantry is armed, the seal is open, the counter stands at 9,999 and the buffer holds a valid set with counter 10,000. -/
def armedState (f : FlashCtl → FlashCtl) : State :=
  let s := (busyTile.setReg aGSTAT 1).setReg aPSTAT 0x91C0
  let s := ((s.setReg (efReg 0x1000) 0x4C430001).setReg (efReg 0x1004) 10000).setReg (efReg 0x1FFC) 0xF39F2B74
  { s with flashCtl := f { s.flashCtl with counter := 9999 } }
theorem armed_valid : calValid ((armedState id).regBytes (efReg 0x1000) 0x1000) = true :=
  calValid_of_forced (n := 0xC60D48B) (by decide +kernel) (by decide +kernel) (by decide +kernel)
/-- A commit of tile 7 of station 1. -/
def commitJob : CommitJob := ⟨(1, 7), (1, 7), .replicate 0x1000 1, .replicate 64 0⟩
theorem witness_CommitChecks :
    ((let s := armedState id
      s.core.wants = none ∧ s.flashCtl.waits = none ∧ s.flashCtl.work = .idle ∧ (s.reg aPSTAT).getLsbD 15 = true ∧ s.calen = true ∧ s.flashCtl.counter < 10000 ∧
       s.flashCtl.audNext < 16384 ∧ leNat (((s.regBytes (efReg 0x1000) 0x1000).drop 4).take 2) = s.flashCtl.counter + 1) ∧
     (busyTile.reg aPSTAT).getLsbD 15 = false ∧ ((armedState id).setReg aGSTAT 0).calen = false ∧
     10000 ≤ (armedState fun F => { F with counter := 10000 }).flashCtl.counter ∧
     16384 ≤ (armedState fun F => { F with audNext := 16384 }).flashCtl.audNext ∧
     leNat ((((armedState fun F => { F with counter := 0 }).regBytes (efReg 0x1000) 0x1000).drop 4).take 2) ≠ 0 + 1 ∧
     (let s := armedState fun F => { F with work := .erase 0 }
      s.core.wants = none ∧ s.flashCtl.work = .erase 0 ∧ s.flashCtl.waits = none) ∧
     (let s := armedState id
      { s with core := { s.core with wants := some .command } }.core.wants ≠ none)) ∧
    (let s := armedState fun F => { F with work := .commit commitJob 5 false }
     s.core.wants = none ∧ s.flashCtl.work = .commit commitJob 5 false) := ⟨by decide +kernel, rfl, rfl⟩
theorem witness_CommitEnds (recorded : Bool) :
    let s := armedState fun F => { F with work := .commit commitJob 5 recorded, audNext := 16383 }
    s.flashCtl.work = .commit commitJob 5 recorded ∧ commitJob.set.length = 0x1000 ∧ commitJob.aud.length = 64 ∧
    (s.flashCtl.audNext < 16384 ∧ smWf flashReset s.flash = true ∧ Registers.wf s = true ∧
      ∀ i < 64, s.flashByte (0x410000 + 64 * s.flashCtl.audNext + i) = 0xFF) :=
  ⟨rfl, List.length_replicate, List.length_replicate, by decide +kernel +revert⟩
theorem witness_AuditAppends :
    busyTile.core.wants = none ∧ (armedState fun F => { F with work := .erase 0 }).flashCtl.work ≠ .idle ∧ busyTile.flashCtl.work = .idle ∧
    leNat ((busyTile.regBytes (efReg 0x200) 64).take 2) < 0x8000 ∧
    0x8000 ≤ leNat (((busyTile.setReg (efReg 0x200) 0x8000).regBytes (efReg 0x200) 64).take 2) ∧ busyTile.flashCtl.audNext < 16384 ∧
    16384 ≤ (armedState fun F => { F with audNext := 16384 }).flashCtl.audNext ∧
    (let s := armedState fun F => { F with work := .append (.replicate 64 7), audNext := 16383 }
     s.flashCtl.work = .append (.replicate 64 7) ∧ (List.replicate 64 (7 : Byte)).length = 64 ∧ smWf flashReset s.flash = true ∧
      Registers.wf s = true ∧ ∀ i < 64, s.flashByte (0x410000 + 64 * s.flashCtl.audNext + i) = 0xFF) := by decide +kernel
/-- A request of tile 7 of station 1 for a commit waits, while the vault runs a command; a valid set with counter 1 stands at the start
of the station's memory. -/
def doorbell (code : W32) : State :=
  let s := ((busyTile.setReg aGSTAT 1).setReg aPSTAT 0x91C0).setReg (stnReg 1 0x164) (0x87000000 + code)
  let s := (s.setBytes (stnBase 1) [1, 0, 0x43, 0x4C, 1]).setLe (stnBase 1 + 0xFFC) 4 0x89F56F8A
  { s with notices := [.pantry 1], hall := { s.hall with run := .firmware }, vault := { s.vault with cmd := some .random } }
theorem vaultDigest_busy (s : State) (m : List Byte) (h : s.vaultIdle = false) : s.vaultDigest m = s := by simp [State.vaultDigest, h]
theorem unarmed_check (s : State) (l : List (Nat × Nat)) (set d : List Byte) (hd : d.length = 32) (hl : set.length = 0x1000) (a : s.rbit aPSTAT 15 = false)
    (j : CommitJob) : (({ s with mxLast := l }.setRegBytes (efReg 0x1000) set).setRegBytes (efReg 0x220) d).commitCheck j ≠ 0 := by
  change ({ s with mxLast := l } : State).rbit aPSTAT 15 = false at a
  generalize ({ s with mxLast := l } : State) = s at a ⊢
  rw [State.commitCheck, State.rbit, State.reg_setRegBytes_of_ne _ _ _ d fun i hi => by simp only [aPSTAT, efReg, devReg]; omega,
    State.reg_setRegBytes_of_ne _ _ _ set fun i hi => by simp only [aPSTAT, efReg, devReg]; omega]
  rw [State.rbit] at a
  rw [a]
  simp
theorem staged_check (s : State) (l : List (Nat × Nat)) (set d : List Byte) (hd : d.length = 32) (hl : set.length = 0x1000) (wf : Registers.wf s = true)
    (v : calValid set = true) (c : leNat (slice set 4 2) = s.flashCtl.counter + 1) (a : s.rbit aPSTAT 15 = true) (e : s.calen = true)
    (lt : s.flashCtl.counter < 10000) (ln : s.flashCtl.audNext < 16384) (x y : Stn × BitVec 6) (aud : List Byte) :
    let u := ({ s with mxLast := l }.setRegBytes (efReg 0x1000) set).setRegBytes (efReg 0x220) d
    u.commitCheck ⟨x, y, u.pbuf, aud⟩ = 0 := by
  change Registers.wf { s with mxLast := l } = true at wf
  change leNat (slice set 4 2) = ({ s with mxLast := l } : State).flashCtl.counter + 1 at c
  change ({ s with mxLast := l } : State).rbit aPSTAT 15 = true at a
  change ({ s with mxLast := l } : State).calen = true at e
  change ({ s with mxLast := l } : State).flashCtl.counter < 10000 at lt
  change ({ s with mxLast := l } : State).flashCtl.audNext < 16384 at ln
  generalize ({ s with mxLast := l } : State) = s at wf c a e lt ln ⊢
  intro u
  have one : ∀ b, (∀ i < 1024, b ≠ efReg 0x1000 + 4 * i) → (∀ i < 8, b ≠ efReg 0x220 + 4 * i) →
      ((s.setRegBytes (efReg 0x1000) set).setRegBytes (efReg 0x220) d).reg b = s.reg b := fun b h1 h2 => by
    rw [State.reg_setRegBytes_of_ne _ _ _ d fun i hi => h2 i (by omega), State.reg_setRegBytes_of_ne _ _ _ set fun i hi => h1 i (by omega)]
  have buf : ((s.setRegBytes (efReg 0x1000) set).setRegBytes (efReg 0x220) d).pbuf = set := by
    rw [State.pbuf, State.regBytes_setRegBytes_of_ne _ _ _ _ d fun i hi j hj => by simp only [efReg, devReg]; omega]
    have q := State.regBytes_setRegBytes s (efReg 0x1000) set wf (by rw [hl])
    rwa [hl] at q
  have ctl : ((s.setRegBytes (efReg 0x1000) set).setRegBytes (efReg 0x220) d).flashCtl = s.flashCtl := by
    rw [State.setRegBytes_eq, State.setRegBytes_eq]
  have far : ∀ b, b < efReg 0x220 → ((s.setRegBytes (efReg 0x1000) set).setRegBytes (efReg 0x220) d).reg b = s.reg b := fun b hb =>
    one b (fun i _ => by simp only [efReg, devReg] at hb ⊢; omega) fun i _ => by omega
  rw [State.calen, State.rbit] at e
  rw [State.rbit] at a
  rw [State.commitCheck, ctl]
  dsimp only
  rw [buf, v, c, State.calen, State.rbit, State.rbit, far aPSTAT (by decide), far aGSTAT (by decide), a, e]
  simp [Nat.not_le.2 lt, Nat.not_le.2 ln]
/-- The registers and buffers as the Hall has staged the request's set, after the notice is taken. -/
theorem vaultDigest_last (s : State) (l : List (Nat × Nat)) (m : List Byte) (h : s.vaultIdle = false) :
    ({ s with mxLast := l } : State).vaultDigest m = { s with mxLast := l } := vaultDigest_busy { s with mxLast := l } m h
def tookNotice (s : State) : State := { s.noted with notices := s.notices.erase (.pantry 1) }.setFld (stnReg 1 0x164) 31 1 0
def stagedBy (s : State) : State :=
  let set := s.bytes (stnBase 1) 0x1000
  ((((tookNotice s).fwEnter (stnBase 1) 0x1000).vaultDigest set).setRegBytes (efReg 0x1000) set).setRegBytes (efReg 0x220) ((sha512 set).take 32)
theorem stagedBy_eq (s : State) (l : List (Nat × Nat)) (e : (tookNotice s).fwEnter (stnBase 1) 0x1000 = { tookNotice s with mxLast := l })
    (busy : (tookNotice s).vaultIdle = false) : stagedBy s =
      ({ tookNotice s with mxLast := l }.setRegBytes (efReg 0x1000) (s.bytes (stnBase 1) 0x1000)).setRegBytes (efReg 0x220)
        ((sha512 (s.bytes (stnBase 1) 0x1000)).take 32) := by
  rw [stagedBy, e, vaultDigest_last _ l _ busy]
theorem witness_PantryDoorbell :
    ((Notice.pantry 1 ∉ busyTile.notices ∧ ∀ x, (busyTile.hallStn x).waiting = []) ∧
     (let s := (doorbell 1).setReg (stnReg 1 0x164) 0
      (∀ x, (s.hallStn x).waiting = []) ∧ Notice.pantry 1 ∈ s.notices ∧ s.hall.run = .firmware ∧ s.flashCtl.owed = [] ∧
       (s.reg (stnReg 1 0x164)).getLsbD 31 = false) ∧
     (∀ armed : Bool, let s := if armed then doorbell 1 else (doorbell 1).setReg aPSTAT 0
      (∀ x, (s.hallStn x).waiting = []) ∧ s.hall.run = .firmware ∧ s.flashCtl.owed = [] ∧ s.flashCtl.waits = none ∧
       Notice.pantry 1 ∈ s.notices ∧ (s.reg (stnReg 1 0x164)).getLsbD 31 = true ∧ (s.reg (stnReg 1 0x164)).toNat % 256 = 1 ∧
       (s.reg (stnReg 1 0x164)).toNat / 2 ^ 12 % 4096 = 0 ∧ s.stnBankOn 1 0 = true ∧ s.core.wants = none ∧ s.inReset = false ∧ s.flashCtl.work = .idle) ∧
     (let s := doorbell 2
      (∀ x, (s.hallStn x).waiting = []) ∧ Notice.pantry 1 ∈ s.notices ∧ (s.reg (stnReg 1 0x164)).getLsbD 31 = true ∧
       (s.reg (stnReg 1 0x164)).toNat % 256 = 2 ∧ s.hall.run = .firmware ∧ s.flashCtl.owed = [] ∧ s.fitted 1 = true)) ∧
    (∀ m g, (doorbell 1).mxWaits m g = false) ∧
    (let u := stagedBy (doorbell 1)
     u.commitCheck ⟨u.arming, (1, 7), u.pbuf, u.paud⟩ = 0) ∧
    (let u := stagedBy ((doorbell 1).setReg aPSTAT 0)
     u.commitCheck ⟨u.arming, (1, 7), u.pbuf, u.paud⟩ ≠ 0) := by
  refine ⟨by decide +kernel, by decide +kernel, ?_, ?_⟩
  · intro u
    obtain ⟨l, e⟩ := fwEnter_quiet (s := tookNotice (doorbell 1)) (by decide +kernel) (stnBase 1) 0x1000
    have hu : u = _ := stagedBy_eq _ l e (by decide +kernel)
    rw [hu]
    exact staged_check _ l _ _ (by simp) (by simp only [State.bytes, List.length_map, List.length_range]) (by decide +kernel)
      (calValid_of_forced (n := 0x760A9075) (by decide +kernel) (by decide +kernel) (by decide +kernel)) (by decide +kernel)
      (by decide +kernel) (by decide +kernel) (by decide +kernel) (by decide +kernel) _ _ _
  · intro u
    obtain ⟨l, e⟩ := fwEnter_quiet (s := tookNotice ((doorbell 1).setReg aPSTAT 0)) (by decide +kernel) (stnBase 1) 0x1000
    have hu : u = _ := stagedBy_eq _ l e (by decide +kernel)
    rw [hu]
    exact unarmed_check _ l _ _ (by simp) (by simp only [State.bytes, List.length_map, List.length_range]) (by decide +kernel) _

/-- A tile's atomic on the sample's first doubleword, in the same bank cycle. -/
def meetingSample : LcTake := { ovr := true, around := { meet := some { act := .atomic, start := BitVec.ofNat 40 (stnBase 3 + 0xFFFFF0), n := 1 } } }
theorem witness_LoadCellSamples_busy :
    let s := cell 0x80000070 0x00FFFFC0 0x55555555
    let off := (s.reg (lcReg 7 0x10)).toNat / 64 % 2 ^ 18 * 64 + 0x30
    let place := stnBase 3 + off
    off + 16 ≤ 0x1000000 ∧
      s.meets (.station 3) (place / 64 * 64) (BitVec.ofNat 64 (65535 * 2 ^ (place % 64))) meetingSample.around.meet = some .atomic := by
  decide +kernel
theorem witness_Commit_heldInReset :
    let s := { armedState id with core := { (armedState id).core with asserted := true } }
    s.inReset = true := by decide +kernel

/-! ### Witnesses: matrix, timers, registers and DMA -/

theorem witness_MatrixAccesses :
    (∀ a ∈ ([0x110000000, 0x110FFFFC0] : List Nat), a % 64 = 0 ∧ stnBase 1 ≤ a ∧ a < stnBase 1 + 0x1000000 ∧ (1 : Stn).val < busyTile.grade.stations) ∧
    (∀ a ∈ ([0x100000, 0x111000000] : List Nat), busyTile.targetOf a = none) ∧
    (∀ on ∈ [true, false], ∀ write ∈ [true, false],
      let b : Beat := ⟨0xF, 5⟩
      let req : MxReq := ⟨0x110FFFFC0, if write then .write else .read, [b]⟩
      let s0 := if on then busyTile else busyTile.setReg (stnReg 1 0x204) 0
      let o : MxOpen := ⟨req, none, [⟨0, Fin.ofNat 9 4, 0, 1⟩], none, false, false, [0]⟩
      let s := { s0 with mxOpen := s0.mxOpen.set 0 [o] }
      s.mxOpen[(0 : Master)] = [o] ∧ (∀ m : Master, m ≠ 0 → s.mxWaits m (Fin.ofNat 9 4) = false) ∧ s.hall.run ≠ .firmware ∧ s.headMode = false ∧
        b.mask ≠ 0 ∧ Memory.wf s = true ∧ s.stnBankOn 1 ((0x110FFFFC0 - stnBase 1) / 0x80000) = on ∧
        ∀ i < 8, s.upset (0x110FFFFC0 + 8 * i) = .none) := by decide +kernel
theorem witness_RegisterWrites :
    Registers.wf busyTile = true ∧ (3 : W32) &&& 0xFFFFFFFC = 0 ∧ busyTile.hall.run ≠ .firmware ∧ busyTile.headMode = false ∧ (255 : W32).toNat < 256 ∧
    busyTile.targetOf (0x140000000 : Addr).toNat = none := by decide +kernel
theorem witness_TimeBaseAndTimers :
    Registers.wf busyTile = true ∧ ((0x7000000F : W32) &&& 0x0FFFFFF0 = 0 ∧ (0x7000000F : W32).getLsbD 31 = false) ∧
    ((0xF000000F : W32) &&& 0x0FFFFFF0 = 0 ∧ (0xF000000F : W32).getLsbD 31 = true ∧ (0xF000000F : W32).getLsbD 29 = true) ∧
    ((0xD000000F : W32) &&& 0x0FFFFFF0 = 0 ∧ (0xD000000F : W32).getLsbD 31 = true ∧ (0xD000000F : W32).getLsbD 29 = false) ∧
    ((busyTile.setReg (tmrReg 7 0) 0x80000000).reg (tmrReg 7 0)).getLsbD 31 = true ∧ (busyTile.reg (tmrReg 7 0)).getLsbD 31 = false ∧
    (let s := { busyTile.setReg (tmrReg 7 0xC) 5 with tmrArmed := busyTile.tmrArmed.set 7 true, timeBase := 5 }
     s.tmrArmed[(7 : Fin 8)] = true ∧ (s.reg (tmrReg 7 0x10)).toNat * 2 ^ 32 + (s.reg (tmrReg 7 0xC)).toNat ≤ s.timeBase.toNat) ∧
    busyTile.tmrArmed[(7 : Fin 8)] = false ∧ busyTile.tmrRun[(7 : Fin 8)] = false ∧
    (∀ c ∈ ([0xC000000F, 0x9000000F] : List Nat),
      let s := { busyTile.setReg (tmrReg 7 0) (BitVec.ofNat 32 c) with tmrRun := busyTile.tmrRun.set 7 true }
      s.tmrRun[(7 : Fin 8)] = true ∧ s.reg (tmrReg 7 8) = 0 ∧ Registers.wf s = true ∧
        (s.reg (tmrReg 7 0)).getLsbD 30 = decide (c = 0xC000000F)) := by decide +kernel
/-- Channel 15 in state v with STAT's other bits x, enabled, at the last descriptor place of station 1's memory; its work is D. -/
def channel (v : Nat) (x : W32) (D : DmaChan) : State :=
  let s := ((busyTile.setReg (dmaReg 15 0) 0x80000000).setReg (dmaReg 15 8) (BitVec.ofNat 32 (v * 2 ^ 28) ||| x)).setReg (dmaReg 15 0xC) 0x10FFFFE0
  { s.setReg (dmaReg 15 0x10) 1 with dma := s.dma.set 15 D }
def copyOne : DmaDesc := ⟨0x110000040, 0x110FFFFD8, 1⟩
theorem witness_DmaControl :
    let state := fun (s : State) => (s.reg (dmaReg 15 8)).toNat / 2 ^ 28
    (∀ v ∈ ([0, 5] : List Nat), let s := channel v 0 {}
      (s.reg (cpr 0xC)).getLsbD 2 = true ∧ (s.reg (dmaReg 15 0)).getLsbD 31 = true ∧ state s = v) ∧
    (busyTile.reg (dmaReg 15 0)).getLsbD 31 = false ∧ state (channel 4 0 {}) = 4 ∧ state (channel 2 0 {}) = 2 ∧
    (let s := channel 3 0 { issued := 1, done := 1 }
     state s = 3 ∧ s.dma[(15 : Fin 16)].issued ≤ s.dma[(15 : Fin 16)].done) ∧
    (let s := channel 3 0 { issued := 2, done := 1 }
     state s = 3 ∧ s.dma[(15 : Fin 16)].done < s.dma[(15 : Fin 16)].issued) ∧
    ((busyTile.setReg (cpr 0xC) 0x1F3).reg (cpr 0xC)).getLsbD 2 = false := by decide +kernel
def fetching (d : DmaDesc) (w3 : Nat) : State :=
  ((((channel 1 0 {}).setLe 0x110FFFFE0 8 d.src.toNat).setLe 0x110FFFFE8 8 d.dst.toNat).setLe 0x110FFFFF0 8 d.ctrl.toNat).setLe 0x110FFFFF8 8 w3
theorem witness_DmaRuns_fetch :
    ∀ w3 ∈ ([2 ^ 63, 2 ^ 63 - 1] : List Nat), ∀ c ∈ ([0, 1] : List Nat),
      let d : DmaDesc := { copyOne with ctrl := BitVec.ofNat 64 c }
      let s := fetching d w3
      let cur := (s.reg (dmaReg 15 0x10)).toNat % 256 * 2 ^ 32 + (s.reg (dmaReg 15 0xC)).toNat
      let word := fun (i : Nat) => s.le (cur + 8 * i) 8
      s.mxTurn mDma (cur / 64 * 64) = true ∧ busyTile.mxTurn mDma (cur / 64 * 64) = false ∧
      (1 : Stn).val < s.grade.stations ∧ (s.reg (cpr 0xC)).getLsbD 2 = true ∧ Registers.wf s = true ∧
      (s.reg (dmaReg 15 8)).toNat / 2 ^ 28 = 1 ∧ cur % 32 = 0 ∧ stnBase 1 ≤ cur ∧ cur + 32 ≤ stnBase 1 + 0x1000000 ∧
      s.stnBankOn 1 ((cur - stnBase 1) / 0x80000) = true ∧ (∀ i < 32, s.upset (cur + i) = .none) ∧
      word 0 = d.src.toNat ∧ word 1 = d.dst.toNat ∧ word 2 = d.ctrl.toNat ∧ word 3 = w3 ∧ (d.ctrl.toNat % 2 ^ 24 ≠ 0 ↔ c = 1) ∧
      d.src.toNat % 4 = 0 ∧ d.dst.toNat % 4 = 0 ∧ d.ctrl.getLsbD 24 = false ∧ d.src.toNat < 2 ^ 40 ∧ d.dst.toNat < 2 ^ 40 := by decide +kernel
theorem witness_DmaWriteBacks :
    (∀ e ∈ [none, some (0, 15)], ∀ sh ∈ [true, false], ∀ c ∈ ([1, 0x10000001] : List Nat),
      let d : DmaDesc := { copyOne with ctrl := BitVec.ofNat 64 c }
      let s := (channel 4 0 { desc := some d, fail := e }).setReg (dmaReg 15 0x1C) (if sh then 0x80000000 else 0)
      let cur := (s.reg (dmaReg 15 0x10)).toNat % 256 * 2 ^ 32 + (s.reg (dmaReg 15 0xC)).toNat
      s.dma[(15 : Fin 16)].desc = some d ∧ s.dma[(15 : Fin 16)].halted = false ∧ (s.reg (dmaReg 15 8)).toNat / 2 ^ 28 = 4 ∧ cur % 32 = 0 ∧
      (s.reg (cpr 0xC)).getLsbD 2 = true ∧ Registers.wf s = true ∧ stnBase 1 ≤ cur ∧ cur + 32 ≤ stnBase 1 + 0x1000000 ∧
      s.stnBankOn 1 ((cur - stnBase 1) / 0x80000) = true ∧ s.upset (cur + 0x18) = .none ∧ s.mxTurn mDma cur = true ∧
      (∀ k : Fin 16, (s.reg (dmaReg k 4)).toNat / 64 % 4 ≠ 2) ∧ Memory.wf s = true ∧ (s.reg (dmaReg 15 0x1C)).getLsbD 31 = sh ∧
      d.ctrl.getLsbD 28 = decide (c ≠ 1)) ∧
    (let s := (channel 0 0 {}).setReg (dmaReg 15 0x1C) 0x80000000
     s.mxTurn mDma 0x110FFFFE0 = false ∧ (s.reg (dmaReg 15 0)).getLsbD 31 = true ∧ (s.reg (dmaReg 15 8)).toNat / 2 ^ 28 = 0 ∧ (s.reg (dmaReg 15 0x1C)).getLsbD 31 = true) ∧
    ((0x800000FF : W32) &&& 0x7FFFFF00 = 0 ∧ (0xFFFFFFE0 : W32) &&& 0x1F = 0 ∧ (255 : W32).toNat < 256) := by decide +kernel

theorem witness_RegisterWrites_flags :
    busyTile.inReset = false ∧ busyTile.fitted 1 = true ∧ (0xFF : W32) &&& 0x01FFFF00 = 0 := by decide +kernel
/-- Channel 15 moves two words; it has `done` beats behind it and the requests `reqs` in flight. -/
def carrying (ctrl : W64) (done : Nat) (reqs : List DmaReq) : State :=
  channel 3 0 { desc := some { copyOne with ctrl := ctrl }, issued := ctrl.toNat % 2 ^ 24, done := done, reqs := reqs }
/-- Whether an address of station 1 can be read or written for k bytes. -/
abbrev readyAt (s : State) (a k : Nat) : Prop :=
  stnBase 1 ≤ a ∧ a + k ≤ stnBase 1 + 0x1000000 ∧ s.stnBankOn 1 ((a - stnBase 1) / 0x80000) = true ∧ (∀ i < k, s.upset (a + i) = .none) ∧
    ∀ j < 8, s.upset (a / 8 * 8 + j) = .none
theorem witness_DmaRuns_transfer :
    (∀ c ∈ ([2, 0x6000002] : List Nat), ∀ done ∈ ([0, 1] : List Nat),
      let ctrl := BitVec.ofNat 64 c
      let d : DmaDesc := { copyOne with ctrl := ctrl }
      let i := 1
      let src := d.src.toNat + (if d.ctrl.getLsbD 25 then 0 else 4 * i)
      let dst := d.dst.toNat + (if d.ctrl.getLsbD 26 then 0 else 4 * i)
      let reads := carrying ctrl done [⟨false, [(i, 0)]⟩]
      let writes := carrying ctrl done [⟨true, [(i, 0xA5B6C7D8)]⟩]
      let off := reads.setReg (stnReg 1 0x200) 0
      d.src.toNat < 2 ^ 40 ∧ d.dst.toNat < 2 ^ 40 ∧ d.src.toNat % 4 = 0 ∧ d.dst.toNat % 4 = 0 ∧ c % 2 ^ 24 = 2 ∧ d.ctrl.getLsbD 24 = false ∧
      ((reads.reg (dmaReg 15 0x14)).toNat % 2 ^ 24 = 0 ∧ (reads.reg (dmaReg 15 8)).toNat / 2 ^ 28 = 3 ∧ Memory.wf reads = true ∧
        Registers.wf reads = true ∧ reads.gated 2 = false ∧ reads.mxTurn mDma src = true ∧ readyAt reads src 4) ∧
      ((writes.reg (dmaReg 15 0x14)).toNat % 2 ^ 24 = 0 ∧ (writes.reg (dmaReg 15 8)).toNat / 2 ^ 28 = 3 ∧ Memory.wf writes = true ∧
        Registers.wf writes = true ∧ writes.gated 2 = false ∧ writes.mxTurn mDma dst = true ∧ readyAt writes dst 4) ∧
      (Registers.wf off = true ∧ off.mxTurn mDma src = true ∧ off.stnBankOn 1 ((src - stnBase 1) / 0x80000) = false)) ∧
    (let b : Beat := ⟨0xF, 5⟩
     let o : MxOpen := ⟨⟨0x110000040, .write, [b]⟩, none, [⟨0, Fin.ofNat 9 4, 0, 1⟩], none, false, false, [0]⟩
     let s := carrying 2 0 [⟨false, [(1, 0)]⟩]
     let s := { s with mxOpen := s.mxOpen.set 0 [o] }
     s.mxTurn mDma 0x110000044 = false ∧ s.gated 2 = false ∧ Registers.wf s = true) := by decide +kernel
theorem witness_DmaRuns_starts :
    (∀ c ∈ ([1, 16, 0x1000010, 0x3000001] : List Nat), ∀ x ∈ ([(3, 0), (2, 0), (2, 15 * 2 ^ 24)] : List (Nat × Nat)),
      let d : DmaDesc := { copyOne with src := 0x110000000, dst := 0x110FFFC00, ctrl := BitVec.ofNat 64 c }
      let s := channel x.1 (BitVec.ofNat 32 x.2) { desc := some d }
      let count := d.ctrl.toNat % 2 ^ 24
      s.dma[(15 : Fin 16)] = { desc := some d } ∧ s.gated 2 = false ∧ Registers.wf s = true ∧ count ≠ 0 ∧ count ≤ 16 ∧
        d.src.toNat < 2 ^ 40 ∧ d.dst.toNat < 2 ^ 40 ∧
        d.src.toNat % (if d.ctrl.getLsbD 24 then 64 else 4) = 0 ∧ d.dst.toNat % (if d.ctrl.getLsbD 24 then 64 else 4) = 0 ∧
        (c / 2 ^ 24 = 1 → d.src.toNat % 1024 + 64 * count ≤ 1024 ∧ d.dst.toNat % 1024 + 64 * count ≤ 1024) ∧
        (s.reg (dmaReg 15 8)).toNat / 2 ^ 28 = x.1 ∧ (s.reg (dmaReg 15 8)).toNat / 2 ^ 24 % 16 = x.2 / 2 ^ 24) := by decide +kernel

/-! ### An image whose owner key makes its encoded message its own signature -/

/-- The first 512 bytes of a header: KIND, GRADE, KEY 1, a body of 8 bytes, SVN 0. -/
def imgHead (kind grade : Nat) : List Byte :=
  leBytes 4 0x4951444E ++ [BitVec.ofNat 8 kind, BitVec.ofNat 8 grade, 1, 0, 0, 0, 0, 0, 1, 0, 0, 0, 8, 0, 0, 0] ++ List.replicate 492 0
/-- A body whose section directory is empty. -/
def imgBody : List Byte := List.replicate 8 0
def imgDigest (kind grade : Nat) : List Byte := sha512 (imgHead kind grade ++ imgBody)
def signedImage (kind grade : Nat) : List Byte := imgHead kind grade ++ pssEm (imgDigest kind grade) ++ imgBody
def imgCells (kind grade : Nat) : List Host.Cell := (List.range 1032).zip (signedImage kind grade)
/-- Owner key 1 is the one that verifies it. -/
def withKey (kind grade : Nat) (s : State) : State := { s with vault := { s.vault with
  slots := s.vault.slots.set 0 .active
  moduli := s.vault.moduli.set 0 (beNat (pssEm (imgDigest kind grade)) + 1) } }

theorem imgHead_length (kind grade : Nat) : (imgHead kind grade).length = 512 := by
  simp only [imgHead, List.length_append, leBytes_length, List.length_cons, List.length_nil, List.length_replicate]
theorem signedImage_length (kind grade : Nat) : (signedImage kind grade).length = 1032 := by
  simp only [signedImage, List.length_append, imgHead_length, pssEm_length, imgBody, List.length_replicate]
theorem img_take (kind grade : Nat) : (signedImage kind grade).take 512 = imgHead kind grade := by
  rw [signedImage, List.append_assoc, List.take_append_of_le_length (by rw [imgHead_length]),
    List.take_of_length_le (by rw [imgHead_length])]
theorem img_sig_len (kind grade : Nat) : (imgHead kind grade ++ pssEm (imgDigest kind grade)).length = 1024 := by
  rw [List.length_append, imgHead_length, pssEm_length]
theorem img_drop (kind grade : Nat) : (signedImage kind grade).drop 1024 = imgBody := by
  rw [signedImage, List.drop_append_of_le_length (by rw [img_sig_len]), List.drop_of_length_le (by rw [img_sig_len]), List.nil_append]
theorem slice_eq (bs : List Byte) (i n : Nat) (h : i + n ≤ bs.length) : slice bs i n = (bs.drop i).take n := by
  refine List.ext_getElem (by simp [slice]; omega) fun k h1 h2 => ?_
  have hk : i + k < bs.length := by simp [slice] at h1; omega
  simp [slice, hk]
theorem img_sig (kind grade : Nat) : slice (signedImage kind grade) 512 512 = pssEm (imgDigest kind grade) := by
  rw [slice_eq _ _ _ (by rw [signedImage_length]; omega), signedImage, List.append_assoc,
    List.drop_append_of_le_length (by rw [imgHead_length]), List.drop_of_length_le (by rw [imgHead_length]), List.nil_append,
    List.take_append_of_le_length (by rw [pssEm_length]), List.take_of_length_le (by rw [pssEm_length])]
theorem img_first (kind grade : Nat) : firstBytes 1032 (imgCells kind grade) = some (signedImage kind grade) := by
  have e : (imgCells kind grade).take 1032 = imgCells kind grade :=
    List.take_of_length_le (by simp [imgCells, signedImage_length])
  rw [firstBytes, e, imgCells, List.map_fst_zip (by simp [signedImage_length]), if_pos rfl, List.map_snd_zip (by simp [signedImage_length])]
theorem smGet_zip {α : Type} (d : Nat → α) (b : Nat) : ∀ (xs : List α) (k i : Nat) (h : i < xs.length),
    smGet d (((List.range' k xs.length).zip xs).map fun e => (b + e.1, e.2)) (b + (k + i)) = xs[i]
  | x :: xs, k, 0, _ => by simp [List.range'_succ, smGet]
  | x :: xs, k, i + 1, h => by
    have := smGet_zip d b xs (k + 1) i (by simpa using h)
    rw [List.length_cons, List.range'_succ, List.zip_cons_cons, List.map_cons, smGet, if_neg (by omega),
      show k + (i + 1) = k + 1 + i by omega, this]
    rfl
theorem img_byte (d : Nat → Byte) (kind grade i : Nat) (h : i < 1032) :
    smGet d (imgCells kind grade) i = (signedImage kind grade)[i]'(by rw [signedImage_length]; exact h) := by
  have := smGet_zip d 0 (signedImage kind grade) 0 i (by rw [signedImage_length]; exact h)
  simp only [Nat.zero_add, List.map_id', Prod.mk.eta] at this
  have e : List.range' 0 1032 = List.range' 0 (signedImage kind grade).length := by rw [signedImage_length]
  rw [imgCells, List.range_eq_range', e]
  exact this
theorem hdr_cells (kind grade o n : Nat) (h : o + n ≤ 512) :
    hdr (imgCells kind grade) o n = leNat (((imgHead kind grade).drop o).take n) := by
  rw [hdr]
  congr 1
  refine List.ext_getElem (by simp [imgHead_length]; omega) fun k h1 h2 => ?_
  have hk : o + k < 512 := by simp at h1; omega
  rw [List.getElem_map, List.getElem_range, img_byte _ _ _ _ (by omega)]
  simp [signedImage, imgHead_length, hk]
theorem image_accepted (kind : Nat) (s : State) (hk : kind = 1 ∨ kind = 2) (hs : s.grade = .dq4160)
    (svn : s.vault.hallMin = 0 ∧ s.vault.stnMin = 0) (key : s.keyModulus 1 = some (beNat (pssEm (imgDigest kind 3)) + 1)) :
    s.verifyImage kind (imgCells kind 3) = ⟨1, imgDigest kind 3, signedImage kind 3⟩ := by
  have z : hdr (imgCells kind 3) 0x1C 484 = 0 := by
    rw [hdr_cells _ _ _ _ (by omega)]
    have : ((imgHead kind 3).drop 0x1C).take 484 = List.replicate 484 0 := by rcases hk with rfl | rfl <;> decide +kernel
    rw [this]
    decide +kernel
  have fields : hdr (imgCells kind 3) 0 4 = 0x4951444E ∧ hdr (imgCells kind 3) 6 2 = 1 ∧ hdr (imgCells kind 3) 0xD 3 = 0 ∧
      hdr (imgCells kind 3) 4 1 = kind ∧ hdr (imgCells kind 3) 5 1 = 3 ∧
      hdr (imgCells kind 3) 0x10 4 = 8 ∧ hdr (imgCells kind 3) 0xC 1 = 1 ∧ hdr (imgCells kind 3) 8 4 = 0 := by
    rcases hk with rfl | rfl <;> decide +kernel
  obtain ⟨a1, a2, a3, f2, f3, f4, f5, f6⟩ := fields
  have f1 : headerOk (imgCells kind 3) = true := by
    rw [headerOk, a1, a2, a3, z, f2, f4]
    rcases hk with rfl | rfl <;> decide
  have d : sha512 ((signedImage kind 3).take 512 ++ (signedImage kind 3).drop 1024) = imgDigest kind 3 := by
    rw [img_take, img_drop, imgDigest]
  have := verifyImage_accepts s kind _ (imgCells kind 3) (signedImage kind 3) f1 f2 (fun _ => by rw [f3, hs]; rfl)
    (by rw [f4]; exact img_first kind 3) (by rw [f5]; exact key) (by rw [d, img_sig]; exact rsaVerify_self _)
    (by rw [f6, svn.1, svn.2]; split <;> omega) (fun _ => by rw [img_drop]; decide +kernel)
  rw [this, d]
theorem withKey_key (kind grade : Nat) (s : State) :
    (withKey kind grade s).keyModulus 1 = some (beNat (pssEm (imgDigest kind grade)) + 1) := by
  simp [State.keyModulus, withKey]

/-! ### Witnesses: the chain -/

/-- The device has address 5, its ports are up; L is port 1. -/
def chained (L : ChainLink) : State :=
  let s := ((busyTile.setReg (chReg 8) 0x80000005).setReg (linkReg 0 0) 0x80000000).setReg (linkReg 1 0) 0x80000000
  { s with links := s.links.set 1 L }
/-- A command from 7 to the device. -/
def toMe (op : Byte) (stn : Byte) (ps : List Byte) : Packet := ⟨5, 7, 0, op, 1, 0, stn, 0, ps⟩
theorem sealFrame_ok (f : LinkFrame) : frameFcsOk (sealFrame f) = true := by simp [frameFcsOk, sealFrame, frameCovered]
/-- The packet that the device forwards unexamined, a DATA frame that holds it, and a frame whose FCS fails. -/
def passing : Packet := { toMe 0x20 0xFF [] with flags := 4 }
def passingFrame : LinkFrame := dataFrame 1 4095 passing
def badFrame (type : Byte) : LinkFrame := ⟨type, 0, 0, 0, 0, [], 0⟩
theorem witness_LinkFrames :
    frameFcsOk passingFrame = true ∧ frameFcsOk (ctlFrame 2 0 []) = true ∧ (ctlFrame 2 0 []).type ≠ 1 ∧
    (frameFcsOk (badFrame 1) = false ∧ frameFcsOk (badFrame 2) = false) ∧
    (let L : ChainLink := { rxSeq := 4095 }
     let s := chained L
     let f := passingFrame
     s.links[(1 : Fin 2)] = L ∧ (busyTile.reg (linkReg 1 0)).getLsbD 31 = false ∧ (s.reg (linkReg 1 0)).getLsbD 31 = true ∧ s.headMode = false ∧
     (f.type = 1 ∧ frameLenOk f = true ∧ f.lseq.extractLsb' 0 12 = L.rxSeq ∧ (packetOf f.body).opcode ≠ 6 ∧
      (packetOf f.body).flags.getLsbD 2 = true) ∧ f.lseq.extractLsb' 0 12 ≠ (0 : BitVec 12) ∧
     (badFrame 1).type = 1 ∧ (badFrame 2).type ≠ 1 ∧ L.unacked = []) ∧
    (let L : ChainLink := { unacked := [passingFrame, dataFrame 1 0 passing] }
     L.unacked.findIdx? (fun x => x.lseq == (ctlFrame 2 0 []).aseq) = some 1 ∧ L.waiting = [] ∧
      (∀ x ∈ L.unacked, x.lseq ≠ (ctlFrame 2 1 []).aseq) ∧ passingFrame ∈ L.unacked ∧ passingFrame.lseq = (ctlFrame 3 4095 []).aseq ∧
      L.unacked ≠ []) :=
  ⟨sealFrame_ok _, sealFrame_ok _, by decide, by decide +kernel, by decide +kernel, by decide +kernel⟩
theorem witness_LinkStates :
    let s := chained { retries := 7 }
    s.links[(1 : Fin 2)].retries < 8 ∧ 8 ≤ (chained { retries := 8 }).links[(1 : Fin 2)].retries ∧
    (busyTile.reg (linkReg 1 0)).getLsbD 31 = false ∧ (s.reg (linkReg 1 0)).getLsbD 31 = true ∧ s.headMode = false ∧
    s.links[(1 : Fin 2)].waiting = [] ∧ s.hall.run ≠ .firmware ∧ ((s.setReg (chReg 4) 0x200).reg (chReg 4)).getLsbD (8 + 1) = true ∧
    (s.reg (chReg 4)).getLsbD (8 + 1) = false ∧ s.links[(1 : Fin 2)].probeT1 = none ∧
    (let u := (chained { probed := true }).setReg (linkReg 1 0) 0x40000000
     (u.reg (linkReg 1 0)).getLsbD 31 = false ∧ (u.reg (linkReg 1 0)).getLsbD 30 = true ∧ (u.reg (linkReg 1 0)).getLsbD 28 = false ∧
      u.links[(1 : Fin 2)].probed = true ∧ u.headMode = false ∧ u.links[(1 : Fin 2)].waiting = []) ∧
    s.links[(1 : Fin 2)].probed = false ∧
    (chained { probeT1 := some 9 }).links[(1 : Fin 2)].probeT1 = some 9 ∧ (busyTile.setReg (chReg 0) 4).headMode = true := by decide +kernel
theorem witness_PorchCommands :
    let s := chained {}
    (∀ x, (s.hallStn x).waiting = []) ∧ s.headMode = false ∧ s.chAddr = some 5 ∧ (toMe 1 0xFF []).flags = 0 ∧ (toMe 1 0xFF []).dst = 5 ∧ (toMe 1 0xFF []).stn = 0xFF ∧
    (toMe 3 0xFF (leBytes 8 (tmrReg 7 0x14) ++ leBytes 4 1)).params = leBytes 8 (tmrReg 7 0x14) ++ leBytes 4 1 ∧
    ((s.setReg (chReg 0) 8).reg (chReg 0)).getLsbD 3 = true ∧ (s.reg (chReg 0)).getLsbD 3 = false ∧
    (toMe 5 0xFF [0]).params.head? = some 0 ∧ ({ s with core := { s.core with asserted := false } }).core.asserted = false ∧ s.core.wants = none ∧
    (toMe 1 0 []).stn ≠ 0xFF ∧
    (let k := { toMe 1 0xFF [] with dst := 6 }
     k.dst ≠ 5 ∧ k.dst ≠ 0xFF ∧ k.src ≠ 5) := by decide +kernel
theorem witness_Broadcasts :
    (let s := busyTile
     let k := { toMe 2 0xFF ([0x3F, 0, 0, 63, 0, 0, 0, 0] ++ List.replicate 1008 0) with dst := 0xFF }
     s.headMode = false ∧ k.dst = 0xFF ∧ k.flags = 0 ∧ Registers.wf s = true ∧ (s.reg (chReg 8)).getLsbD 31 = false ∧
      k.params = [0x3F, 0, 0, 63, 0, 0, 0, 0] ++ List.replicate 1008 0 ∧ (List.replicate 1008 (0 : Byte)).length = 16 * (63 : Byte).toNat ∧
      (63 : Byte).toNat < 64 ∧ (0x3F : Byte).toNat ≤ 0x3F ∧ s.hall.run ≠ .firmware) ∧
    (let s := chained {}
     let k := { toMe 6 0xFF (List.replicate 24 0) with dst := 0xFF }
     s.headMode = false ∧ k.dst = 0xFF ∧ k.flags = 0 ∧ Registers.wf s = true ∧ (s.reg (chReg 8)).getLsbD 31 = true ∧
      (s.reg (chReg 8)).toNat % 2 ^ 31 < 64 ∧ s.hall.run ≠ .firmware ∧ k.params.length = 24) := by decide +kernel
/-- The firmware runs on an addressed device; station 3 is in state r; what f makes of the Hall. -/
def served (r : StnRun) (f : Hall → Hall) : State :=
  let s := (chained {}).modStn 3 fun S => { S with run := r }
  { s with hall := f { s.hall with run := .firmware } }
theorem witness_StationCommands :
    (∀ r ∈ [StnRun.running, .stopped, .failed],
      let s := served r id
      let k := toMe 0x14 3 []
      s.headMode = false ∧ s.chAddr = some 5 ∧ k.dst = 5 ∧ k.flags = 0 ∧ s.hall.run = .firmware ∧ k.stn.toNat = (3 : Stn).val ∧
      (3 : Stn).val < s.grade.stations ∧ (s.hallStn 3).starting = none ∧ (s.hallStn 3).stopping = none ∧ (s.hallStn 3).inPlace = none ∧ (s.hallStn 3).sending = none ∧ (s.hallStn 3).out = [] ∧ (s.stn 3).hallSend.length < 4 ∧
      (∀ x, (s.hallStn x).waiting = []) ∧
      k.role = 0 ∧ s.hall.cache = [] ∧ (s.stn 3).run = r ∧ (s.stn 3).phase = .none ∧ s.hall.attest = none ∧
      (s.stn 3).inRepair ((39 : TileNo).val / 5) = false ∧
      ((s.setReg (stnReg 3 0x190) 0x100001).reg (stnReg 3 0x190) = { toMe 0x17 3 [] with role := 0x100001 }.role)) ∧
    ((0xFFFFF : W32).toNat / 2 ^ 20 = 0 ∧ (0x100000 : W32).toNat / 2 ^ 20 ≠ 0) ∧ 9 ≤ (List.replicate 9 (0 : Byte)).length ∧
    0x80 ≤ (0x800000000000 : BitVec 48).toNat / 2 ^ 40 ∧
    4 ≤ (((served .running id).modStn 3 fun S => { S with hallSend := .replicate 4 (0, 0) }).stn 3).hallSend.length ∧
    ((served .stopped id).noted.verifyStaged 3).2.reason ≠ 1 := by decide +kernel
/-- An image that verifies is staged for station 3, which is stopped, in LP5 memory of full density. -/
def staged3 : State :=
  let s := served .stopped fun H => { H with stns := H.stns.set 3 { H.stns[(3 : Fin 4)] with staged := some ⟨1032, [(0, 1032)]⟩ } }
  let s := (((s.setReg (lpReg 0 0) 0x50).setReg (lpReg 0 4) 1).setReg (lpReg 1 0) 0x50).setReg (lpReg 1 4) 1
  withKey 2 3 { s with mem := ((List.range' 0 (signedImage 2 3).length).zip (signedImage 2 3)).map fun e => (stageAddr 3 + e.1, e.2) }
theorem stageAddr_bound (st : Stn) : stageAddr st % 64 = 0 ∧ 0x1000000000 ≤ stageAddr st ∧ stageAddr st + 1032 ≤ 0x2000000000 := by
  have : Config.copySlot st.val % (2 ^ 19 - 168) < 2 ^ 19 - 168 := Nat.mod_lt _ (by decide)
  unfold stageAddr
  omega
/-- A state that holds the image's bytes in the staging area reads them back. -/
theorem image_reads (s : State) (st : Stn) (kind : Nat) (serves : s.lpServes)
    (mem : s.mem = ((List.range' 0 (signedImage kind 3).length).zip (signedImage kind 3)).map fun e => (stageAddr st + e.1, e.2)) :
    s.readStaged (stageAddr st) (some ⟨1032, [(0, 1032)]⟩) = (s, imgCells kind 3) := by
  have b := stageAddr_bound st
  have byte : ∀ i (h : i < 1032), s.byte (stageAddr st + i) = (signedImage kind 3)[i]'(by rw [signedImage_length]; exact h) := fun i h => by
    have := smGet_zip memReset (stageAddr st) (signedImage kind 3) 0 i (by rw [signedImage_length]; exact h)
    rwa [Nat.zero_add, ← mem] at this
  rw [readStaged_lp5 s serves _ b.1 b.2.1 b.2.2 fun i => by simp [Staged.has]]
  refine congrArg (fun l => (s, l)) (List.ext_getElem (by simp [imgCells, signedImage_length]) fun i h1 h2 => ?_)
  have hi : i < 1032 := by simpa using h1
  simp [imgCells, byte i hi]
theorem staged3_serves : staged3.noted.lpServes := by
  unfold State.lpServes
  decide +kernel
theorem lpServes_last {s : State} (h : s.lpServes) (l : List (Nat × Nat)) : ({ s with mxLast := l } : State).lpServes := h
theorem staged3_quiet : ∀ m g, staged3.noted.mxWaits m g = false := by decide +kernel
theorem staged3_held : (staged3.noted.hallStn 3).staged = some ⟨1032, [(0, 1032)]⟩ := by decide +kernel
theorem staged3_key : staged3.noted.keyModulus 1 = some (beNat (pssEm (imgDigest 2 3)) + 1) := by
  simp [State.keyModulus, staged3, withKey, State.noted]
theorem verifyIn_verdict (s : State) (kind : Nat) (m : List Host.Cell) : (s.verifyIn kind m).2 = s.verifyImage kind m := by
  rw [State.verifyIn]
  dsimp only
  repeat' split
  all_goals rfl
theorem staged_verifies {s : State} (serves : s.lpServes) (l : List (Nat × Nat))
    (mem : s.mem = ((List.range' 0 (signedImage 2 3).length).zip (signedImage 2 3)).map fun e => (stageAddr 3 + e.1, e.2))
    (grade : s.grade = .dq4160) (svn : s.vault.hallMin = 0 ∧ s.vault.stnMin = 0)
    (key : s.keyModulus 1 = some (beNat (pssEm (imgDigest 2 3)) + 1)) :
    let r := ({ s with mxLast := l } : State).readStaged (stageAddr 3) (some ⟨1032, [(0, 1032)]⟩)
    (r.1.verifyIn 2 r.2).2 = ⟨1, imgDigest 2 3, signedImage 2 3⟩ := by
  rw [image_reads _ 3 2 (lpServes_last serves l) mem]
  dsimp only
  rw [verifyIn_verdict, image_accepted 2 { s with mxLast := l } (.inr rfl) grade svn key]
theorem staged3_verifies : (staged3.noted.verifyStaged 3).2 = ⟨1, imgDigest 2 3, signedImage 2 3⟩ := by
  obtain ⟨l, e⟩ := fwEnter_quiet staged3_quiet (stageAddr 3) 1032
  rw [State.verifyStaged, State.stagedCells, staged3_held, Option.elim_some, e]
  exact staged_verifies staged3_serves l (by simp [staged3, withKey, State.noted]) (by decide +kernel) (by decide +kernel) staged3_key
theorem witness_StationCommands_start :
    (let v := (staged3.noted.verifyStaged 3).2
     v.reason = 1 ∧ ∀ x ∈ sections (v.image.drop 1024), x.ty ≠ 5) ∧
    (staged3.stn 3).run ≠ .running ∧ (staged3.stn 3).phase = .none ∧ staged3.hall.attest = none ∧ (∀ x, (staged3.hallStn x).waiting = []) := by
  rw [staged3_verifies]
  dsimp only
  rw [img_drop]
  refine ⟨⟨rfl, ?_⟩, ?_⟩ <;> decide +kernel
theorem witness_DeviceCommands :
    (let s := served .stopped id
     let k := toMe 0x16 0xFF [3, 0, 0, 0, 0]
     s.headMode = false ∧ s.chAddr = some 5 ∧ k.dst = 5 ∧ k.flags = 0 ∧ k.stn = 0xFF ∧ s.hall.run = .firmware ∧ s.hall.cache = [] ∧
      s.anyStarting = false ∧ s.hall.attest = none ∧ s.vault.cmd = none ∧ (s.reg (cpr 0xC)).getLsbD 8 = true ∧
      (List.replicate 64 (0 : Byte)).length = 64 ∧ 16383 + 1 ≤ 16384 ∧ 16321 + 63 ≤ 16384) ∧
    (let s := (served .stopped fun H => { H with logNext := 0xFFFFFFFF }).setBankPower .hall 15 2
     0 < s.hall.logNext ∧ s.hall.logNext < 2 ^ 32 ∧ s.hallBankOn 15 = true ∧
      ∀ j < 4, s.upset (hallMem (0xF0000 + 32 * ((s.hall.logNext - 1) % 2048)) + 8 * j) = .none) ∧
    (busyTile.hall.run ≠ .firmware ∧ busyTile.hall.run ≠ .chainBoot) ∧
    (let s := served .stopped fun H => { H with run := .chainBoot }
     let k := toMe 0x10 0xFF ([0xF8, 0xFF, 0x0E, 0, 0, 0, 0x0F, 0] ++ List.replicate 8 1)
     s.hall.run = .chainBoot ∧ k.opcode = 0x10 ∧ 9 ≤ k.params.length ∧ (stageChunk s.hall.boot 983040 none k.params).status = 0) := by
  decide +kernel
/-- The device is a head; P is its endpoint. -/
def headed (ctrl : W32) (f : Pcie → Pcie) : State :=
  let s := (((chained {}).setReg (chReg 0) 4).setReg (cpr 0xC) 0x1FF).setReg (pciReg 0) ctrl
  let s := (s.setReg (pciReg 0x18) 12).setReg (pciReg 0x38) 12
  { s with pcie := f s.pcie }
theorem witness_PcieHead :
    (∀ b : Bool, let s := (headed 1 fun P => { P with cfg := { P.cfg with busMaster := b, d3hot := false } }).setReg (pciReg 0x20) 4095
     let head := (s.reg (pciReg 0x20)).toNat % 4096
     let size := 2 ^ ((s.reg (pciReg 0x18)).toNat % 16)
     s.headMode = true ∧ (s.reg (cpr 0xC)).getLsbD 3 = true ∧ (s.reg (pciReg 0)).getLsbD 0 = true ∧ s.pcie.cmdStopped = false ∧ s.pcie.posted = [] ∧
      size ≤ 4096 ∧ s.pcie.cfg.busMaster = b ∧ s.pcie.cfg.d3hot = false ∧
      head < size ∧ (0 : BitVec 12).toNat = (head + 1) % size ∧ 1 < size ∧ Registers.wf s = true ∧ s.pcie.rxQueue = []) ∧
    (∀ b : Bool, let s := headed 1 fun P => { P with cfg := { P.cfg with memSpace := b, d3hot := false } }
     s.pcie.cfg.memSpace = b ∧ s.pcie.cfg.d3hot = false ∧ (s.reg (pciReg 0)).getLsbD 2 = false ∧ s.hall.run ≠ .firmware ∧ s.pcie.posted = []) ∧
    (let c : HostCmd := ⟨true, true, 16, 0, { toMe 1 0xFF [] with flags := 4 }, {}⟩
     c.accessOk = true ∧ c.readOk = true ∧ c.len.toNat = 16 + c.plen.toNat ∧ c.pkt.flags.getLsbD 2 = true ∧
      ({ c with len := 17 } : HostCmd).len.toNat ≠ 16 + c.plen.toNat) ∧
    (let k := toMe 1 0xFF []
     let s := headed 2 fun P => { P with rxQueue := [k], cfg := { P.cfg with busMaster := true, d3hot := false } }
     let rhead := (s.reg (pciReg 0x40)).toNat % 4096
     let rsize := 2 ^ ((s.reg (pciReg 0x38)).toNat % 16)
     s.pcie.cfg.busMaster = true ∧ s.pcie.cfg.d3hot = false ∧ s.pcie.rxQueue = [k] ∧ (s.reg (pciReg 0)).getLsbD 1 = true ∧ s.pcie.rxStopped = false ∧ rhead % rsize ≠ (4095 : BitVec 12).toNat % rsize ∧
      Registers.wf s = true ∧ rhead % rsize = (s.reg (pciReg 0x3C)).toNat % 4096 % rsize) ∧
    (let s := (headed 4 fun P => { P with cfg := { P.cfg with memSpace := true, d3hot := false } }).setReg (pciReg 8) (BitVec.ofNat 32 (tmrReg 7 0x14 / 2 ^ 22))
     (s.reg (pciReg 0)).getLsbD 2 = true ∧
      s.pcie.cfg.memSpace = true ∧ s.pcie.cfg.d3hot = false ∧ s.hall.run ≠ .firmware ∧ s.pcie.posted = [] ∧
      (s.reg (pciReg 8)).toNat % 2 ^ 18 * 2 ^ 22 + (BitVec.ofNat 22 (tmrReg 7 0x14)).toNat = tmrReg 7 0x14) ∧
    busyTile.headMode = false := by decide +kernel

theorem witness_LinkFrames_retries :
    let L : ChainLink := { unacked := [passingFrame, dataFrame 1 0 passing] }
    let s := chained L
    s.portsHeld = false ∧ s.links[(1 : Fin 2)].unacked.findIdx? (fun x => x.lseq == (ctlFrame 3 0 []).aseq) = some 1 ∧
      s.links[(1 : Fin 2)].waiting = [] := by decide +kernel
theorem witness_PorchCommands_regs :
    let s := chained {}
    (∀ m g, s.mxWaits m g = false) ∧ s.inReset = false ∧
    (toMe 3 0xFF (leBytes 8 (tmrReg 7 0x14) ++ leBytes 4 1)).params = leBytes 8 (tmrReg 7 0x14) ++ leBytes 4 1 ∧
    ({ silent := true } : Around).silent = true := by decide +kernel
theorem witness_PcieHead_arrivals :
    (∀ b : Bool, let s := headed 2 fun P => { P with cfg := { P.cfg with busMaster := true, d3hot := false, memFails := b } }
     let s := s.setReg (pciReg 0x3C) 4095
     s.headMode = true ∧ s.gated 3 = false ∧ (toMe 1 0xFF []).dst ≠ 0xFE ∧ ({ toMe 1 0xFF [] with dst := 0xFE } : Packet).dst = 0xFE ∧
      s.pcie.rxQueue = [] ∧ (s.reg (pciReg 0)).getLsbD 1 = true ∧ s.pcie.rxStopped = false ∧
      (s.reg (pciReg 0x40)).toNat % 4096 % 2 ^ ((s.reg (pciReg 0x38)).toNat % 16) ≠
        (s.reg (pciReg 0x3C)).toNat % 4096 % 2 ^ ((s.reg (pciReg 0x38)).toNat % 16) ∧ Registers.wf s = true ∧ s.pcie.cfg.memFails = b) ∧
    (∀ m g, (headed 4 id).mxWaits m g = false) := by decide +kernel

/-! ### Witnesses: the legacy bus and the Window -/

/-- The Window is on; window 7 answers at the top of the address space, its last word has type t, and W is its state. -/
def windowed (t : Byte) (f : WinState → WinState) : State :=
  let s := (busyTile.setReg (devReg 0x30 0) 7).setReg (devReg 0x30 (0x40 + 4 * 7)) 0x980007FF
  let s := s.setReg (devReg 0x30 (0x4000 + 0x100 * 7 + 4 * 63)) (t.setWidth 32 <<< 24)
  { s with window := f s.window }
theorem witness_LegacyReads :
    (∀ t ∈ ([0x00, 0x40, 0x8F, 0xC7] : List Nat), ∀ la ∈ ([0xFFFFE, 0xFFFFF] : List Nat), ∀ es ∈ ([[0x1234], []] : List (List W16)),
      let s := windowed (BitVec.ofNat 8 t) fun W => { W with lreset := false, fifos := W.fifos.set 15 ⟨es, 0x55⟩ }
      let cfg := fun (x : Fin 8) => s.reg (devReg 0x30 (0x40 + 4 * x.val))
      let hits := fun (x : Fin 8) => (cfg x).getLsbD 31 = true ∧ (cfg x).toNat % 2 ^ 11 = la / 512
      let i := la % 512 / 2
      let type : Byte := (s.reg (devReg 0x30 (0x4000 + 0x100 * 7 + 4 * (i / 4)))).extractLsb' (8 * (i % 4)) 8
      (s.reg (devReg 0x30 0)).getLsbD 0 = true ∧ s.window.lreset = false ∧ hits 7 ∧ (∀ x : Fin 8, x < 7 → ¬hits x) ∧ type.toNat = t ∧
        type.toNat % 16 = (if t = 0x8F then 15 else type.toNat % 16) ∧ s.window.fifos[(15 : Fin 16)].entries = es ∧ Registers.wf s = true) ∧
    (busyTile.reg (devReg 0x30 0)).getLsbD 0 = false ∧ (windowed 0 fun W => { W with lreset := true }).window.lreset = true := by decide +kernel
theorem witness_LegacyWrites :
    (∀ t ∈ ([0x00, 0x40] : List Nat), ∀ n ∈ ([0, 255, 256] : List Nat),
      let s := windowed (BitVec.ofNat 8 t) fun W => { W with lreset := false, log := .replicate n (1, 2) }
      let cfg := fun (x : Fin 8) => s.reg (devReg 0x30 (0x40 + 4 * x.val))
      let hits := fun (x : Fin 8) => (cfg x).getLsbD 31 = true ∧ (cfg x).toNat % 2 ^ 11 = 0xFFFFE / 512
      let type : Byte := (s.reg (devReg 0x30 (0x4000 + 0x100 * 7 + 4 * 63))).extractLsb' 24 8
      (s.reg (devReg 0x30 0)).getLsbD 0 = true ∧ s.window.lreset = false ∧ hits 7 ∧ (∀ x : Fin 8, x < 7 → ¬hits x) ∧
        (type.toNat / 64 = 0 ↔ t = 0) ∧ (cfg 7).getLsbD 27 = true ∧ s.window.log.length = n ∧ Registers.wf s = true) ∧
    (busyTile.reg (devReg 0x30 0)).getLsbD 0 = false := by decide +kernel
theorem witness_WindowFirmware :
    (let s := (windowed 0 id).setReg (mxReg (0x200 + 4 * 1)) 0x10
     let mine := s.setReg (devReg 0x30 (0x40 + 4 * 7)) 0x980007FF
     let cfg := (mine.reg (devReg 0x30 (0x40 + 4 * 7)))
     (2 : Master).val = 1 + (1 : Stn).val ∧ (s.reg (mxReg (0x200 + 4 * (1 : Stn).val))).getLsbD 4 = true ∧ cfg.toNat / 2 ^ 28 % 8 = (1 : Stn).val ∧
      (busyTile.reg (mxReg (0x200 + 4 * (1 : Stn).val))).getLsbD 4 = false ∧
      (let s := s.setReg (devReg 0x30 (0x100 + 4 * 15)) 0x70000
       (s.reg (devReg 0x30 (0x40 + 4 * ((s.reg (devReg 0x30 (0x100 + 4 * 15))).toNat / 2 ^ 16 % 8)))).toNat / 2 ^ 28 % 8 = (1 : Stn).val)) ∧
    (0xCFCFCFCF : W32) &&& 0x30303030 = 0 ∧ (0xFFFF : W32).toNat < 2 ^ 16 ∧
    (∀ n ∈ ([63, 64] : List Nat), (windowed 0 fun W => { W with fifos := W.fifos.set 15 ⟨.replicate n 0, 0⟩ }).window.fifos[(15 : Fin 16)].entries.length = n) ∧
    busyTile.window.log = [] ∧
    (let s := windowed 0 fun W => { W with log := .replicate 256 (1, 2) }
     s.window.log = (1, 2) :: List.replicate 255 (1, 2) ∧ s.window.lost = 0) ∧
    (let s := windowed 0 fun W => { W with log := .replicate 256 (1, 2), lost := 0xFFFF }
     s.window.log = (1, 2) :: List.replicate 255 (1, 2) ∧ s.window.lost ≠ 0 ∧ (List.replicate 255 ((1 : W32), (2 : W32))).length < 256) := by
  decide +kernel
theorem witness_LegacyReset :
    (windowed 0 fun W => { W with lreset := false }).window.lreset = false ∧ busyTile.window.rise = none ∧
    (∀ n ∈ ([255, 256] : List Nat), let s := windowed 0 fun W => { W with rise := some 7, log := .replicate n (1, 2), lost := 0xFFFE }
      s.window.rise = some 7 ∧ s.window.log.length = n ∧ s.window.lost ≠ 0xFFFF) ∧
    (busyTile.reg (devReg 0x30 0)).getLsbD 1 = false ∧ ((windowed 0 id).reg (devReg 0x30 0)).getLsbD 1 = true := by decide +kernel

/-! ### Witnesses: serial ports -/

/-- Port p has CTRL c and is in state f of its own. -/
def port (p : Fin 20) (c : W32) (f : SerPort → SerPort) : State :=
  let s := busyTile.setReg (devReg 0x31 (0x100 + 0x40 * p.val)) c
  { s with serial := s.serial.set p (f s.serial[p]) }
theorem witness_SerialLines :
    Registers.wf (port 19 0x12000000 id) = true ∧
    (∀ p ∈ ([3, 19] : List (Fin 20)),
      let ctrl := fun (s : State) => s.reg (devReg 0x31 (0x100 + 0x40 * p.val))
      (ctrl (port p 0 id)).getLsbD 28 = false ∧
      (let s := port p 0x10000000 fun P => { P with de := true }
       s.serial[p].de = true ∧ (ctrl s).getLsbD 25 = false) ∧
      (∀ n ∈ ([0, 63, 64] : List Nat), let s := port p 0x12000000 fun P => { P with rx := .replicate n ⟨7, false, false, false⟩ }
        (ctrl s).getLsbD 28 = true ∧ (ctrl s).getLsbD 25 = true ∧ s.serial[p].rx.length = n) ∧
      (port p 0 id).serial[p].tx = [] ∧ (port p 0 id).serial[p].rx = [] ∧
      (let s := port p 0x18000000 fun P => { P with tx := [1, 2], lines := 1, sending := none }
       s.serial[p].tx = 1 :: [2] ∧ (ctrl s).getLsbD 28 = true ∧ (ctrl s).getLsbD 27 = true ∧ (ctrl s).getLsbD 23 = false ∧
        s.serial[p].lines.getLsbD 0 = true ∧
        s.serial[p].lines ≠ 3 ∧ s.serial[p].sending = none ∧ (3 : BitVec 4).getLsbD 0 = true)) ∧
    (let s := port 3 0x18000000 fun P => { P with tx := [1], lines := 0 }
     s.serial[(3 : Fin 20)].tx = 1 :: [] ∧ (s.reg (devReg 0x31 (0x100 + 0x40 * 3))).getLsbD 27 = true ∧ ¬16 ≤ (3 : Fin 20).val ∧
      s.serial[(3 : Fin 20)].lines.getLsbD 0 = false) ∧
    (let s := port 19 0x10800000 fun P => { P with tx := [1] }
     s.serial[(19 : Fin 20)].tx = 1 :: [] ∧ (s.reg (devReg 0x31 (0x100 + 0x40 * 19))).getLsbD 23 = true) := by decide +kernel
theorem witness_SerialData :
    (let s := (port 3 0x30000000 fun P => { P with rtsHigh := false, sending := some 4 }).setReg (mxReg (0x200 + 4 * 1)) 2
     let ctrl := s.reg (devReg 0x31 (0x100 + 0x40 * 3))
     s.reg (devReg 0x31 (0x100 + 0x40 * 3 + 0x10)) &&& 0x3FE = 0 ∧ (2 : Master).val = 1 + (1 : Stn).val ∧
      (s.reg (mxReg (0x200 + 4 * (1 : Stn).val))).getLsbD 1 = true ∧ ctrl.toNat / 2 ^ 29 = (1 : Stn).val ∧ s.serial[(3 : Fin 20)].rx = [] ∧
      s.serial[(3 : Fin 20)].rtsHigh = false ∧ ctrl.getLsbD 28 = true ∧ s.serial[(3 : Fin 20)].sending ≠ none ∧
      s.serial[(3 : Fin 20)].tx.length < 64 ∧ (255 : W32).toNat < 256) ∧
    (busyTile.reg (devReg 0x31 (0x100 + 0x40 * 3))).getLsbD 28 = false ∧ (busyTile.reg (mxReg (0x200 + 4 * (1 : Stn).val))).getLsbD 1 = false ∧
    (let s := port 3 0x30000000 fun P => { P with rx := [⟨7, true, false, true⟩], sending := none }
     s.serial[(3 : Fin 20)].rx = ⟨7, true, false, true⟩ :: [] ∧ s.serial[(3 : Fin 20)].tx = [] ∧ s.serial[(3 : Fin 20)].sending = none ∧
      (s.reg (devReg 0x31 (0x100 + 0x40 * 3))).getLsbD 27 = false ∧ (s.reg (devReg 0x31 (0x100 + 0x40 * 3))).getLsbD 23 = false) ∧
    (let s := port 3 0x10800000 id
     (s.reg (devReg 0x31 (0x100 + 0x40 * 3))).getLsbD 28 = true ∧ (s.reg (devReg 0x31 (0x100 + 0x40 * 3))).getLsbD 23 = true ∧
      s.serial[(3 : Fin 20)].tx.length < 64) ∧
    64 ≤ (port 3 0x30000000 fun P => { P with tx := .replicate 64 0 }).serial[(3 : Fin 20)].tx.length := by decide +kernel

/-! ### Witnesses: USB, drawers and GPIO -/

/-- Pipe 15 of group 3: its configuration, buffer, control and status; port 3 is connected and enabled; m bytes have moved. -/
def piped (cfg buf ctrl stat : W32) (m : Nat) : State :=
  let b := 0x4000 * 3
  let pipe := fun (off : Nat) => devReg 0x32 (b + 0x100 + 0x20 * 15 + off)
  let s := ((busyTile.setReg (devReg 0x32 b) 0x10000000).setReg (devReg 0x32 (b + 0x10 + 0x10 * 3)) 0xD0000000).setReg (pipe 0) cfg
  let s := ((s.setReg (pipe 8) buf).setReg (pipe 0xC) ctrl).setReg (pipe 0x10) stat
  { s with usb := s.usb.set 3 { s.usb[(3 : Fin 4)] with moved := s.usb[(3 : Fin 4)].moved.set 15 m } }
def pipeGood (s : State) : Bool :=
  let b := 0x4000 * 3
  let pipe := fun (off : Nat) => s.reg (devReg 0x32 (b + 0x100 + 0x20 * 15 + off))
  let cfg := pipe 0
  let len := (pipe 8).toNat / 2 ^ 16
  let off := (pipe 8).toNat / 8 % 2 ^ 10 * 8
  let mps := cfg.toNat % 2 ^ 11
  decide ((s.reg (devReg 0x32 b)).getLsbD 28 = true ∧ cfg.toNat / 2 ^ 30 < 3 ∧ cfg.toNat / 2 ^ 27 % 4 ≠ 0 ∧ off + len ≤ 8192 ∧
    (cfg.toNat / 2 ^ 30 = 0 → (pipe 0xC).getLsbD 28 = true ∧ 8 ≤ len) ∧ 1 ≤ mps ∧ mps ≤ 1024 ∧
    (s.reg (devReg 0x32 (b + 0x10 + 0x10 * (cfg.toNat / 2 ^ 25 % 4)))).getLsbD 28 = true)
theorem witness_UsbTransfers :
    let stat := fun (s : State) => (s.reg (devReg 0x32 (0x4000 * 3 + 0x100 + 0x20 * 15 + 0x10))).toNat / 2 ^ 28
    let cfg := fun (s : State) => s.reg (devReg 0x32 (0x4000 * 3 + 0x100 + 0x20 * 15))
    -- bulk, interrupt and control pipes that may go; a buffer that ends at 8192
    (pipeGood (piped 0x4E000400 0x10001000 0 0 0) = true ∧ pipeGood (piped 0x8E000400 0x10001000 0 0 0) = true ∧
      pipeGood (piped 0x0E000040 0x00080000 0x10000000 0 0) = true ∧ stat (piped 0x4E000400 0x10001000 0 0 0) ≠ 1 ∧
      Registers.wf (piped 0x4E000400 0x10001000 0 0x10000000 0xFFFF) = true) ∧
    -- refusals: no EN, an interrupt pipe, a buffer beyond 8192, a control pipe without SETUP
    ((busyTile.reg (devReg 0x32 (0x4000 * 3))).getLsbD 28 = false ∧ 8192 < (0x10011000 : W32).toNat / 8 % 2 ^ 10 * 8 + (0x10011000 : W32).toNat / 2 ^ 16) ∧
    (stat (piped 0x4E000400 0x10001000 0 0x10000000 0xFFFF) = 1 ∧
      (piped 0x4E000400 0x10001000 0 0x10000000 0xFFFF).usb[(3 : Fin 4)].moved[(15 : Fin 16)] < 2 ^ 16) ∧
    ((piped 0x6E000400 0x10001000 0 0x10000000 0).usb[(3 : Fin 4)].moved[(15 : Fin 16)] = 0 ∧ 0x1000 + 0x1000 ≤ 8192 ∧
      (cfg (piped 0x6E000400 0x10001000 0 0x10000000 0)).getLsbD 29 = true ∧ (cfg (piped 0x4E000400 0x10001000 0 0x10000000 0)).getLsbD 29 = false ∧
      (cfg (piped 0x6E000400 0x10001000 0 0x10000000 0)).toNat / 2 ^ 30 = 1 ∧ stat (piped 0x6E000400 0x10001000 0 0x10000000 0) = 1 ∧
      (piped 0x4E000400 0x10001000 0 0x10000000 0).usb[(3 : Fin 4)].moved[(15 : Fin 16)] = 0 ∧
      (List.replicate 4096 (0 : Byte)).length ≤ 0x1000) ∧
    ((cfg (piped 0xAE000400 0x10001000 0 0x10000000 3072)).getLsbD 29 = true ∧ stat (piped 0xAE000400 0x10001000 0 0x10000000 3072) = 1 ∧
      (piped 0xAE000400 0x10001000 0 0x10000000 3072).usb[(3 : Fin 4)].moved[(15 : Fin 16)] + (List.replicate 1024 (0 : Byte)).length ≤ 0x1000 ∧
      (List.replicate 1024 (0 : Byte)).length ≤ 1024) := by
  refine ⟨by decide +kernel, by decide +kernel, by decide +kernel, ?_, ?_⟩ <;>
    simp only [List.length_replicate] <;> decide +kernel
theorem witness_UsbPorts :
    let s := piped 0x4E000400 0 0 0x10000000 0
    let reset := fun (s : State) => ({ s with usb := s.usb.set 3 { s.usb[(3 : Fin 4)] with inReset := s.usb[(3 : Fin 4)].inReset.set 3 true } } : State)
    Registers.wf s = true ∧ s.usb[(3 : Fin 4)].inReset[(3 : Fin 4)] = false ∧ (reset s).usb[(3 : Fin 4)].inReset[(3 : Fin 4)] = true ∧
    (s.reg (devReg 0x32 (0x4000 * 3 + 0x40))).getLsbD 31 = true ∧ (s.reg (devReg 0x32 (0x4000 * 3 + 0x40))).getLsbD 28 = true ∧
    (busyTile.reg (devReg 0x32 (0x4000 * 3 + 0x40))).getLsbD 31 = false ∧
    (let t := s.setReg (devReg 0x32 (0x4000 * 3 + 0x40)) 0x80000000
     (t.reg (devReg 0x32 (0x4000 * 3 + 0x40))).getLsbD 31 = true ∧ (t.reg (devReg 0x32 (0x4000 * 3 + 0x40))).getLsbD 28 = false) ∧
    (s.reg (devReg 0x32 (0x4000 * 3 + 0x110 + 0x20 * 15))).toNat / 2 ^ 28 = 1 ∧
    (s.reg (devReg 0x32 (0x4000 * 3 + 0x100 + 0x20 * 15))).toNat / 2 ^ 25 % 4 = 3 ∧
    (∀ p : Fin 16, (busyTile.reg (devReg 0x32 (0x4000 * 3 + 0x110 + 0x20 * p.val))).toNat / 2 ^ 28 ≠ 1) := by decide +kernel
theorem witness_DrawersAndPins :
    (let s := (busyTile.setReg (mxReg (0x200 + 4 * 1)) 8).setReg (devReg 0x33 (0x100 + 0x10 * 7)) 0x20010002
     let s := { s with timeBase := 375000, gio := { s.gio with ended := s.gio.ended.set 7 (some 0), pins := 0x80000000 } }
     let ctrl := s.reg (devReg 0x33 (0x100 + 0x10 * 7))
     (2 : Master).val = 1 + (1 : Stn).val ∧ (s.reg (mxReg (0x200 + 4 * 1))).getLsbD 3 = true ∧ ctrl.toNat / 2 ^ 29 = (1 : Stn).val ∧
      (s.reg (devReg 0x33 (0x104 + 0x10 * 7))).getLsbD 31 = false ∧ s.gio.ended[(7 : Fin 8)] = some 0 ∧
      ¬(s.timeBase - 0).toNat < ctrl.toNat / 2 ^ 16 % 256 * 375000 ∧ ((374999 : W64) - 0).toNat < ctrl.toNat / 2 ^ 16 % 256 * 375000 ∧
      (s.reg (devReg 0x33 (0x104 + 0x10 * 7))).getLsbD 30 ≠ true ∧ Registers.wf s = true ∧ s.gio.pins.getLsbD (31 : Fin 32).val ≠ false) ∧
    busyTile.gio.ended[(7 : Fin 8)] = none ∧ (busyTile.reg (mxReg (0x200 + 4 * 1))).getLsbD 3 = false ∧
    ((busyTile.setReg (devReg 0x33 (0x104 + 0x10 * 7)) 0x80000000).reg (devReg 0x33 (0x104 + 0x10 * 7))).getLsbD 31 = true ∧
    (let s := (busyTile.setReg (devReg 0x33 8) 0).setReg (devReg 0x33 0x1C) 0x80000000
     (s.reg (devReg 0x33 8)).getLsbD 31 = false ∧ (s.reg (devReg 0x33 0x1C)).getLsbD 31 = true) ∧ (255 : W32).toNat < 256 := by decide +kernel

/-- A pulse of drawer 7, 100 ms wide, began t counts of the time base after 0; 100 ms have passed since 0. -/
def pulsing (t : W64) : State :=
  let s := busyTile.setReg (devReg 0x33 (0x104 + 0x10 * 7)) 0x80000000
  { s with timeBase := 37500000, gio := { s.gio with began := s.gio.began.set 7 (some t) } }
theorem witness_DrawerPulses :
    let lasted := fun (s : State) => ∀ b, s.gio.began[(7 : Fin 8)] = some b →
      max 1 ((s.reg (devReg 0x33 (0x100 + 0x10 * 7))).toNat / 2 ^ 8 % 256) * 375000 ≤ (s.timeBase - b).toNat
    (pulsing 0).reg (devReg 0x33 (0x104 + 0x10 * 7)) = 0x80000000 ∧ lasted (pulsing 0) ∧ ¬lasted (pulsing 1) :=
  ⟨by decide +kernel, fun b h => by
    have : (pulsing 0).gio.began[(7 : Fin 8)] = some 0 := rfl
    obtain rfl : b = 0 := by rw [this] at h; exact (Option.some.inj h).symm
    decide +kernel, fun h => absurd (h 1 rfl) (by decide +kernel)⟩

theorem witness_UsbTransfers_parts :
    let cfg := fun (s : State) => s.reg (devReg 0x32 (0x4000 * 3 + 0x100 + 0x20 * 15))
    let s := piped 0x6E000400 0x10001000 0 0x10000000 1024
    let t := piped 0x6E000400 0x10001000 0 0x10000000 3072
    s.inReset = false ∧ Registers.wf s = true ∧ (cfg s).getLsbD 29 = true ∧ (cfg s).toNat / 2 ^ 30 = 1 ∧ (cfg s).toNat % 2 ^ 11 = 1024 ∧
      (s.reg (devReg 0x32 (0x4000 * 3 + 0x110 + 0x20 * 15))).toNat / 2 ^ 28 = 1 ∧
      s.usb[(3 : Fin 4)].moved[(15 : Fin 16)] + 1024 < 4096 ∧ t.usb[(3 : Fin 4)].moved[(15 : Fin 16)] + 1024 = 4096 := by decide +kernel
/-- The sense pin of drawer 7 stands at a level since a time; DBN is 1 ms, and the time base stands at 1 ms. -/
def sensing (level : Bool) (since : W64) : State :=
  let s := busyTile.setReg (devReg 0x33 (0x100 + 0x10 * 7)) 0x01000006
  { s with timeBase := 375000, gio := { s.gio with sense := s.gio.sense.set 7 level, senseAt := s.gio.senseAt.set 7 since } }
theorem witness_Drawers_sense :
    (∀ x ∈ ([(0, true), (1, false)] : List (Nat × Bool)),
      let s := sensing true (BitVec.ofNat 64 x.1)
      s.gio.sense[(7 : Fin 8)] = true ∧ s.inReset = false ∧ (s.reg (devReg 0x33 (0x104 + 0x10 * 7))).getLsbD 30 ≠ true ∧ Registers.wf s = true ∧
        s.pending = [] ∧
        (((s.reg (devReg 0x33 (0x100 + 0x10 * 7))).toNat / 2 ^ 24 % 32 * 375000 ≤ (s.timeBase - s.gio.senseAt[(7 : Fin 8)]).toNat) ↔ x.2 = true)) ∧
    (sensing false 0).gio.sense[(7 : Fin 8)] ≠ true ∧ busyTile.fitted 3 = true ∧ ({ busyTile with grade := .dq2080 } : State).fitted 3 = false ∧
    (∀ n : Fin 8, (busyTile.reg (drwReg n.val 4)).getLsbD 30 = busyTile.gio.sense[n]) := by decide +kernel

/-! ### Witnesses: embedded flash, the vault and images -/

def flashing (w : FlashWork) (addr : W32) : State :=
  let s := busyTile.setReg (efReg 8) addr
  { s with flashCtl := { s.flashCtl with work := w } }
/-- A commit that tile 0 of station 1 armed and asked for. -/
def job : CommitJob := ⟨(1, 0), (1, 0), [], []⟩
theorem witness_BootFlash :
    (let s := flashing .idle 0x3FF000
     Registers.wf s = true ∧ s.core.wants = none ∧ s.flashCtl.work = .idle ∧ (s.reg (efReg 8)).toNat < 0x400000 ∧
      (s.reg (efReg 8)).toNat % 4096 = 0 ∧ (s.reg (efReg 8)).toNat % 256 = 0 ∧
      (s.reg (efReg 8)).toNat / 0x200000 ≠ ((s.setReg (efReg 4) 0).reg (efReg 4)).toNat % 4 ∧
      (s.reg (efReg 8)).toNat / 0x200000 = ((s.setReg (efReg 4) 1).reg (efReg 4)).toNat % 4) ∧
    0x400000 ≤ ((flashing .idle 0x400000).reg (efReg 8)).toNat ∧ ((flashing .idle 0x80).reg (efReg 8)).toNat % 256 ≠ 0 ∧
    (flashing (.commit job 5 false) 0).flashCtl.work ≠ .idle ∧ (flashing (.commit job 5 false) 0).flashCtl.work = .commit job 5 false ∧
    (flashing (.append [1]) 0).flashCtl.work = .append [1] ∧
    (let s := { flashing (.erase 0x3FF000) 0 with flashCtl := { (flashing (.erase 0x3FF000) 0).flashCtl with waits := some job } }
     s.flashCtl.waits = some job ∧ s.flashCtl.work = .erase 0x3FF000 ∧ Registers.wf s = true ∧ s.core.wants = none) ∧
    (let s := flashing (.erase 0x3FF000) 0
     s.flashCtl.waits = none ∧ smWf flashReset s.flash = true ∧ s.flashCtl.work = .erase 0x3FF000) ∧
    (let s := flashing (.program 0x3FFF00 (.replicate 256 5)) 0
     s.flashCtl.waits = none ∧ smWf flashReset s.flash = true ∧ s.flashCtl.work = .program 0x3FFF00 (.replicate 256 5) ∧
      (List.replicate 256 (5 : Byte)).length = 256 ∧ 0x3FFF00 + 256 ≤ 0x400000) := by decide +kernel
def vaulted (len : W32) (f : Vault → Vault) : State :=
  let s := busyTile.setReg 0x0210000008 len
  { s with vault := f s.vault }
theorem witness_VaultCommands :
    (let s := vaulted 4096 id
     Registers.wf s = true ∧ s.hall.attest = none ∧ (s.reg (devReg 1 0xC)).getLsbD 8 = true ∧ s.vault.cmd = none ∧ s.hall.run ≠ .firmware ∧ s.headMode = false ∧
      (s.reg 0x0210000008).toNat % 2 ^ 13 ≤ 4096 ∧ 4096 < ((vaulted 4097 id).reg 0x0210000008).toNat % 2 ^ 13 ∧
      ((vaulted 2048 id).reg 0x0210000008).toNat % 2 ^ 13 ≤ 2048 ∧ 2048 < ((vaulted 2049 id).reg 0x0210000008).toNat % 2 ^ 13) ∧
    ((busyTile.setReg (devReg 1 0xC) 0xF7).reg (devReg 1 0xC)).getLsbD 8 = false ∧
    (∀ c ∈ [VaultCmd.hashInit, .hashUpdate, .hashFinal, .verify 4, .sign, .random], (vaulted 0 fun V => { V with cmd := some c }).vault.cmd = some c) ∧
    (vaulted 0 fun V => { V with hash := some [1] }).vault.hash = some [1] ∧
    (let V := (vaulted 0 fun V => { V with slots := V.slots.set 3 .active, moduli := V.moduli.set 3 77 }).vault
     (4 : Byte).toNat ≤ 4 ∧ V.slots.toList.getD ((4 : Byte).toNat - 1) .empty = .active ∧ V.moduli.toList.getD ((4 : Byte).toNat - 1) 0 = 77) ∧
    (busyTile.vault.slots.toList.getD ((1 : Byte).toNat - 1) .empty ≠ .active) := by decide +kernel
theorem witness_VaultOneWay :
    (let s := vaulted 0 fun V => { V with cmd := some .hashInit, hallMin := 64, stnMin := 64 }
     s.vault.hallMin ≤ 64 ∧ s.vault.stnMin ≤ 64 ∧ exec .vaultCommandEnd s = .next s.vaultCommandEnd) ∧
    (let s := vaulted 0 fun V => { V with cmd := some .auth }
     s.vault.cmd = some .auth ∧ s.hall.attest = none ∧ Registers.wf s = true ∧ (s.reg 0x0210001000).toNat ≠ 0x5541444E ∧
      s.vault.slots.toList.getD (4 - 1) .empty ≠ .active) :=
  ⟨⟨by decide +kernel, by decide +kernel, rfl⟩, by decide +kernel⟩

/-- An AUTH record of this device with an operation and its argument, whose signer is slot 1, and its signature. -/
def authHead (op arg : Byte) : List Byte :=
  leBytes 4 0x5541444E ++ [op, arg, 1, 0] ++ leBytes 8 Config.serial.toNat ++ .replicate 512 0
def authRecord (op arg : Byte) : List Byte := authHead op arg ++ pssEm (sha512 (authHead op arg))
/-- The vault is at work on that record; slot 1 holds the key of its signer. -/
def authing (op arg : Byte) (f : Vault → Vault) : State :=
  (busyTile.setRegBytes 0x0210001000 (authRecord op arg)).modVault fun V => f { V with
    cmd := some .auth
    slots := V.slots.set 0 .active
    moduli := V.moduli.set 0 (beNat (pssEm (sha512 (authHead op arg))) + 1) }
theorem authHead_length (op arg : Byte) : (authHead op arg).length = 0x210 := by
  simp only [authHead, List.length_append, leBytes_length, List.length_cons, List.length_nil, List.length_replicate]
theorem authRecord_length (op arg : Byte) : (authRecord op arg).length = 0x410 := by
  rw [authRecord, List.length_append, authHead_length, pssEm_length]
theorem authing_reg (op arg : Byte) (f : Vault → Vault) (a : Nat) :
    (authing op arg f).reg a = (busyTile.setRegBytes 0x0210001000 (authRecord op arg)).reg a := by
  rw [authing, State.modVault_reg]
theorem busy_wf : Registers.wf busyTile = true := by decide +kernel
theorem authing_byte (op arg : Byte) (f : Vault → Vault) (i : Nat) (h : i < 0x410) :
    ((authing op arg f).reg (0x0210001000 + i / 4 * 4)).extractLsb' (8 * (i % 4)) 8 = (authRecord op arg).getD i 0 := by
  rw [authing_reg, busyTile.regByte_setRegBytes 0x0210001000 i _ busy_wf (by rw [authRecord_length]; omega)]
theorem authing_part (op arg : Byte) (f : Vault → Vault) (o n : Nat) (ho : o % 4 = 0) (hn : n % 4 = 0) (h : o + n ≤ 0x410) :
    (authing op arg f).gvIn o n = slice (authRecord op arg) o n := by
  have := busyTile.regBytes_part 0x0210001000 o n (authRecord op arg) busy_wf ho hn (by rw [authRecord_length]; omega)
  rw [← this, State.gvIn, State.regBytes, State.regBytes]
  simp only [authing_reg, gv]
  refine congrArg (fun a => (List.range (n / 4)).flatMap fun i =>
    leBytes 4 ((busyTile.setRegBytes 0x0210001000 (authRecord op arg)).reg (a + 4 * i)).toNat) (by omega)
theorem authing_wf (op arg : Byte) (f : Vault → Vault) : Registers.wf (authing op arg f) = true := by
  rw [authing, Registers.wf, State.modVault_regs, ← Registers.wf]
  exact setRegBytes_wf busyTile 0x0210001000 (authRecord op arg) busy_wf
theorem authRecord_all (op arg : Byte) : slice (authRecord op arg) 0 0x410 = authRecord op arg := by
  rw [slice_eq _ _ _ (by rw [authRecord_length]), List.drop_zero, List.take_of_length_le (by rw [authRecord_length])]
theorem authRecord_head (op arg : Byte) : (authRecord op arg).take 0x210 = authHead op arg := List.take_left' (authHead_length op arg)
theorem authRecord_sig (op arg : Byte) : slice (authRecord op arg) 0x210 512 = pssEm (sha512 (authHead op arg)) := by
  rw [slice_eq _ _ _ (by rw [authRecord_length]), authRecord, List.drop_left' (authHead_length op arg),
    List.take_of_length_le (by rw [pssEm_length])]
theorem authRecord_fields (op arg : Byte) :
    leNat (slice (authRecord op arg) 0 4) = 0x5541444E ∧ leNat (slice (authRecord op arg) 4 1) = op.toNat ∧
    leNat (slice (authRecord op arg) 5 1) = arg.toNat ∧ leNat (slice (authRecord op arg) 6 1) = 1 ∧
    leNat (slice (authRecord op arg) 8 8) = Config.serial.toNat := by
  have one : ∀ b : Byte, leNat [b] = b.toNat := fun b => by simp [leNat]
  have h4 : slice (authRecord op arg) 4 1 = [op] := rfl
  have h5 : slice (authRecord op arg) 5 1 = [arg] := rfl
  have h6 : slice (authRecord op arg) 6 1 = [1] := rfl
  have h0 : slice (authRecord op arg) 0 4 = leBytes 4 0x5541444E := rfl
  have h8 : slice (authRecord op arg) 8 8 = leBytes 8 Config.serial.toNat := rfl
  rw [h0, h4, h5, h6, h8, one, one, one]
  refine ⟨rfl, rfl, rfl, rfl, ?_⟩
  · exact leNat_leBytes 8 Config.serial.toNat Config.serial.isLt
theorem authing_key (op arg : Byte) (V : Vault → Vault) (hs : ∀ v, (V v).slots = v.slots) (hm : ∀ v, (V v).moduli = v.moduli) :
    (authing op arg V).keyModulus 1 = some (beNat (pssEm (sha512 (authHead op arg))) + 1) := by
  simp [State.keyModulus, authing, hs, hm]
theorem authing_keeps (op arg : Byte) (f : Vault → Vault) :
    (authing op arg f).hall = busyTile.hall ∧ (authing op arg f).timeBase = busyTile.timeBase ∧
    (authing op arg f).headMode = busyTile.headMode := by
  refine ⟨?_, ?_, ?_⟩
  · rw [authing, State.modVault_hall, State.setRegBytes_eq]
  · rw [authing, State.modVault_timeBase, State.setRegBytes_eq]
  · rw [State.headMode, State.rbit, authing_reg, State.reg_setRegBytes_of_ne _ _ _ _ fun i hi => by simp only [chReg, devReg]; omega]
    rfl
theorem authing_vault (op arg : Byte) (f : Vault → Vault) : (authing op arg f).vault = f { busyTile.vault with
    cmd := some .auth
    slots := busyTile.vault.slots.set 0 .active
    moduli := busyTile.vault.moduli.set 0 (beNat (pssEm (sha512 (authHead op arg))) + 1) } := by
  rw [authing, State.modVault_vault, State.setRegBytes_eq]
/-- A record that the vault's rules accept has its effect, its checks passing. -/
theorem authing_result (op arg : Byte) (V : Vault → Vault) (hs : ∀ v, (V v).slots = v.slots) (hm : ∀ v, (V v).moduli = v.moduli)
    (h : ∀ m, ∃ W, (authing op arg V).vault.authApply op.toNat arg.toNat m = some W) : ∃ W, (authing op arg V).authResult.2 = some W := by
  obtain ⟨a, b, c, d, e⟩ := authRecord_fields op arg
  obtain ⟨W, hW⟩ := h (leNat (slice (authRecord op arg) 0x10 512))
  refine ⟨W, ?_⟩
  rw [State.authResult, authing_part op arg V 0 0x410 rfl rfl (by omega), authRecord_all]
  simp only [a, b, c, d, e, authing_key op arg V hs hm, authRecord_head, authRecord_sig, rsaVerify_self]
  simp [hW]
theorem authing_le (op arg : Byte) (V : Vault → Vault) (o n : Nat) (h : o + n ≤ 0x410) :
    ((List.range n).map fun i => ((authing op arg V).reg (0x0210000000 + (0x1000 + (o + i) / 4 * 4))).extractLsb' (8 * ((o + i) % 4)) 8) =
      slice (authRecord op arg) o n :=
  List.map_congr_left fun i hi => by
    have := List.mem_range.1 hi
    rw [← Nat.add_assoc, authing_byte op arg V (o + i) (by omega)]
theorem witness_VaultAbort :
    (∀ op ∈ ([1, 2, 3, 4, 5] : List Byte), ∀ counts ∈ ([0, 562499, 562500] : List W64),
      let arg : Byte := if op = 1 then 4 else if op = 2 then 1 else 64
      let s := authing op arg fun V => { V with since := 0 - counts }
      Registers.wf s = true ∧ s.hall.attest = none ∧ s.hall.run ≠ .firmware ∧ s.headMode = false ∧ s.vault.cmd = some .auth ∧
        (∃ W, s.authResult.2 = some W) ∧ (2 * (s.timeBase - s.vault.since).toNat - 375000) / 750000 = counts.toNat / 562500 ∧
        ((List.range 5).map fun i => (s.reg (0x0210000000 + (0x1000 + i / 4 * 4))).extractLsb' (8 * (i % 4)) 8).getD 4 0 = op) ∧
    (let s := vaulted 0 fun V => { V with cmd := some .auth }
     s.vault.cmd = some .auth ∧ s.authResult.2 = none) ∧
    (let s := vaulted 0 fun V => { V with cmd := some .sign }
     s.vault.cmd ≠ none ∧ s.vault.cmd ≠ some .auth ∧ s.hall.run ≠ .firmware ∧ s.headMode = false) := by
  refine ⟨fun op hop counts hc => ?_, by decide +kernel, by decide +kernel⟩
  intro arg s
  have q := authing_keeps op arg fun V => { V with since := 0 - counts }
  refine ⟨authing_wf _ _ _, by rw [q.1]; decide +kernel, by rw [q.1]; decide +kernel, by rw [q.2.2]; decide +kernel, rfl,
    authing_result op arg _ (fun _ => rfl) (fun _ => rfl) fun m => ?_, ?_, ?_⟩
  · rw [authing_vault]
    have hv : busyTile.vault.slots = .replicate 4 .empty ∧ busyTile.vault.hallMin = 0 ∧ busyTile.vault.stnMin = 0 := by decide
    simp only [List.mem_cons, List.not_mem_nil, or_false] at hop
    rcases hop with rfl | rfl | rfl | rfl | rfl <;> simp [Vault.authApply, Vault.slot, hv, arg]
  · rw [q.2.1, authing_vault, show busyTile.timeBase = 0 by decide]
    show (2 * ((0 : W64) - (0 - counts)).toNat - 375000) / 750000 = _
    simp only [List.mem_cons, List.not_mem_nil, or_false] at hc
    rcases hc with rfl | rfl | rfl <;> decide
  · have h := authing_byte op arg (fun V => { V with since := 0 - counts }) 4 (by omega)
    have e : (authRecord op arg).getD 4 0 = op := rfl
    rw [e] at h
    exact h
theorem witness_VaultSpent :
    (∀ x ∈ ([(65, 0), (255, 64), (64, 64), (1, 64)] : List (Byte × Nat)),
      let s := authing 3 x.1 fun V => { V with hallMin := x.2 }
      let le := fun (o n : Nat) => leNat ((List.range n).map fun i =>
        (s.reg (0x0210000000 + (0x1000 + (o + i) / 4 * 4))).extractLsb' (8 * ((o + i) % 4)) 8)
      ∃ key, s.vault.cmd = some .auth ∧ s.hall.attest = none ∧ Registers.wf s = true ∧ s.keyModulus (le 6 1) = some key ∧
        le 0 4 = 0x5541444E ∧ le 8 8 = Config.serial.toNat ∧ rsaVerify key (sha512 (s.gvIn 0 0x210)) (s.gvIn 0x210 512) = true ∧ le 4 1 = 3 ∧
        (64 < le 5 1 ∨ s.vault.hallMin = 64)) := by
  intro x hx s le
  obtain ⟨a, b, c, d, e⟩ := authRecord_fields 3 x.1
  have f : ∀ o n, o + n ≤ 0x410 → le o n = leNat (slice (authRecord 3 x.1) o n) := fun o n h => congrArg leNat (authing_le 3 x.1 _ o n h)
  rw [f 0 4 (by omega), f 4 1 (by omega), f 5 1 (by omega), f 6 1 (by omega), f 8 8 (by omega), a, b, c, d, e,
    authing_key 3 x.1 (fun V => { V with hallMin := x.2 }) (fun _ => rfl) (fun _ => rfl), authing_part 3 x.1 _ 0 0x210 rfl rfl (by omega),
    authing_part 3 x.1 _ 0x210 512 rfl rfl (by omega), slice_eq _ 0 _ (by rw [authRecord_length]; omega), List.drop_zero, authRecord_head,
    authRecord_sig]
  refine ⟨_, by rw [authing_vault], ?_, authing_wf _ _ _, rfl, rfl, rfl, rsaVerify_self _, rfl, ?_⟩
  · rw [(authing_keeps 3 x.1 _).1]
    decide +kernel
  · simp only [List.mem_cons, List.not_mem_nil, or_false] at hx
    rcases hx with rfl | rfl | rfl | rfl
    · exact .inl (by decide)
    · exact .inl (by decide)
    · exact .inr (by rw [authing_vault])
    · exact .inr (by rw [authing_vault])

/-! ### Witnesses: what the Hall answers by itself -/

/-- The firmware runs, and these notices wait. -/
def noticed (ns : List Notice) (f : State → State) : State :=
  let s := f busyTile
  { s with notices := ns, hall := { s.hall with run := .firmware } }
theorem foldl_keeps_false {σ α β : Type} (f : σ × Bool × β → α → σ × Bool × β) (h : ∀ x b, x.2.1 = false → (f x b).2.1 = false) :
    ∀ (l : List α) (x : σ × Bool × β), x.2.1 = false → (l.foldl f x).2.1 = false
  | [], _, hx => hx
  | b :: l, x, hx => foldl_keeps_false f h l (f x b) (h x b hx)
/-- An address of an LP5 channel that is not ready. -/
theorem memPlace_lp5 (s : State) (a : Nat) (h0 : s.lpReady 0 = false) (h1 : s.lpReady 1 = false) (ha : 0x1000000000 ≤ a) (hb : a < 0x2000000000) :
    ∃ p : Fin 2, s.memPlace a = some (.lp5 p, a) ∧ s.lpReady p = false := by
  by_cases h : a < 0x1800000000
  · exact ⟨0, by
      have : s.targetOf a = some 1 := by
        rw [State.targetOf, if_neg (by omega), if_pos (by omega)]
      simp [State.memPlace, this, h0], h0⟩
  · exact ⟨1, by
      have : s.targetOf a = some 2 := by
        rw [State.targetOf, if_neg (by omega), if_neg (by omega), if_pos (by omega)]
      simp [State.memPlace, this, h1], h1⟩
/-- A read whose first beat is of an LP5 channel that is not ready fails. -/
theorem memRead_lp5_fails (s : State) (m : Master) (a n : Nat) (h0 : s.lpReady 0 = false) (h1 : s.lpReady 1 = false)
    (ha : 0x1000000000 ≤ a) (hb : a < 0x2000000000) (hc : a % 64 = 0) (hn : 64 ≤ n) : (s.memRead m a n).2.1 = false := by
  obtain ⟨k, rfl⟩ : ∃ k, n = k + 1 := ⟨n - 1, by omega⟩
  obtain ⟨p, hp, hr⟩ := memPlace_lp5 s a h0 h1 ha hb
  have hmask : maskWords (BitVec.ofNat 64 ((2 ^ 64 - 1) * 2 ^ 0)) = [0, 1, 2, 3, 4, 5, 6, 7] := by decide
  rw [State.memRead, List.replicate_succ, cutBeats, hc]
  have e : min (64 - 0) ((0 : Byte) :: List.replicate k 0).length = 64 := by
    simp only [List.length_cons, List.length_replicate]
    omega
  rw [e, List.foldl_cons]
  apply foldl_keeps_false
  · intro x b hx
    split
    · exact hx
    · simp [hx]
  · simp only [Nat.sub_zero, hp, State.beatRead, hmask, List.map_cons, List.findSome?_cons, State.memCode, hr]
    rfl
theorem slotCrcs_lp5_fails (s : State) (st : Stn) (t : TileNo) (h0 : s.lpReady 0 = false) (h1 : s.lpReady 1 = false)
    (quiet : ∀ m g, s.mxWaits m g = false) : (s.slotCrcs st t).2.1 = false := by
  obtain ⟨l, e⟩ := fwEnter_quiet quiet (slotAddr st t + 0x10000) 1024
  have : (Config.copySlot st.val + t.val) % 2 ^ 19 < 2 ^ 19 := Nat.mod_lt _ (by decide)
  have := memRead_lp5_fails { s with mxLast := l } mHall (slotAddr st t + 0x10000) 1024 h0 h1 (by unfold slotAddr; omega) (by unfold slotAddr; omega)
    (by unfold slotAddr; omega) (by omega)
  simp [State.slotCrcs, e, this]
theorem witness_HallNotices :
    busyTile.hall.run ≠ .firmware ∧
    (let s := noticed [.lane .gpio] id
     Notice.tileLost 3 39 ∉ s.notices ∧ Notice.imageFailed 3 39 ∉ s.notices ∧ Notice.selfTestFailed 3 39 ∉ s.notices ∧
      Notice.tileRestart 3 39 ∉ s.notices ∧ Notice.memFault .hall 0 true ∉ s.notices ∧ Notice.memFault .hall 0 false ∉ s.notices ∧
      Notice.netFault 3 ∉ s.notices ∧ Notice.lineFault 3 39 ∉ s.notices) ∧
    ((busyTile.setReg (stnReg 3 0x418) 0x40000000).reg (stnReg 3 0x418)).getLsbD 30 = true ∧
    ((busyTile.setReg (tileReg 3 39 0x220) 0x40000000).reg (tileReg 3 39 0x220)).getLsbD 30 = true := by decide +kernel
theorem witness_HallNotices_tile :
    (let s := noticed [.selfTestFailed 3 39] id
     s.hall.run = .firmware ∧ Notice.selfTestFailed 3 39 ∈ s.notices ∧ Notice.tileLost 3 39 ∉ s.notices ∧ Notice.imageFailed 3 39 ∉ s.notices ∧
      (∀ x, (s.hallStn x).waiting = []) ∧ s.exhausting 3 7 = false ∧
      (let S := s.stn 3
       ((s.setReg (stnReg 3 0x11C) 0x04000000).setStn 3 { S with repairs := [(7, 0)] }).exhausting 3 7 = true)) ∧
    (let s := noticed [.tileLost 3 39] fun s => { s with
       timeBase := 32399999999999
       hall := { s.hall with stns := s.hall.stns.set 3 { s.hall.stns[(3 : Stn)] with lastFault := .replicate 40 (some 0) } } }
     let u := noticed [.tileLost 3 39] id
     Notice.tileLost 3 39 ∈ s.notices ∧ Notice.imageFailed 3 39 ∉ s.notices ∧ Notice.selfTestFailed 3 39 ∉ s.notices ∧
      s.hall.stns[(3 : Stn)].lastFault[(39 : TileNo)] = some 0 ∧ (s.timeBase - 0).toNat < 24 * 3600 * 1000 * 375000 ∧
      s.colState 3 7 = 0 ∧ (s.setReg (stnReg 3 0x11C) 0x04000000).colState 3 7 ≠ 0 ∧
      u.hall.stns[(3 : Stn)].lastFault[(39 : TileNo)] = none ∧ sections u.hall.stns[(3 : Stn)].body = []) := by decide +kernel
theorem witness_HallNotices_other :
    (let s := noticed [.tileRestart 3 39, .lineFault 3 39, .memFault (.station 3) 0x0130FFFFF8 true, .memFault .hall 0x1000FFF8 true, .netFault 3] id
     Notice.tileRestart 3 39 ∈ s.notices ∧ Notice.lineFault 3 39 ∈ s.notices ∧ (s.reg (tileReg 3 39 0x220)).getLsbD 30 = false ∧
      Notice.memFault (.station 3) 0x0130FFFFF8 true ∈ s.notices ∧ Notice.memFault (.station 3) 0x0130FFFFF8 false ∉ s.notices ∧
      Notice.memFault .hall 0x1000FFF8 true ∈ s.notices ∧ Notice.memFault .hall 0x1000FFF8 false ∉ s.notices ∧
      Notice.netFault 3 ∈ s.notices ∧ (s.reg (stnReg 3 0x418)).getLsbD 30 = false ∧ s.reg (stnReg 3 0x404) &&& 0x12 = 0 ∧
      sections s.hall.stns[(3 : Stn)].body = [] ∧ (∀ x, (s.hallStn x).waiting = []) ∧ s.lpReady 0 = false ∧ s.lpReady 1 = false) := by decide +kernel
/-- The slot of a tile cannot be read while the LP5 channels are not ready, so it is not valid. -/
theorem witness_HallNotices_slot :
    let s := noticed [.lineFault 3 39] id
    let u := ({ s.noted with notices := s.notices.erase (.lineFault 3 39) } : State)
    Notice.lineFault 3 39 ∈ s.notices ∧ (u.slotCrcs 3 39).2.1 = false :=
  ⟨by decide +kernel, slotCrcs_lp5_fails _ 3 39 (by decide +kernel) (by decide +kernel) (by decide +kernel)⟩
/-- A read of LP5 memory whose channels are not ready changes nothing. -/
theorem memRead_lp5_state (s : State) (m : Master) (a n : Nat) (h0 : s.lpReady 0 = false) (h1 : s.lpReady 1 = false)
    (ha : 0x1000000000 ≤ a) (hb : a + n ≤ 0x2000000000) : (s.memRead m a n).1 = s := by
  have go : ∀ (f : State × Bool × List Byte → Nat × W64 × BitVec 512 → State × Bool × List Byte)
      (_ : ∀ x b, x.1 = s → 0x1000000000 ≤ b.1 → b.1 < 0x2000000000 → (f x b).1 = s) (fuel c : Nat) (bs : List Byte) (x : State × Bool × List Byte),
      0x1000000000 ≤ c → c + bs.length ≤ 0x2000000000 → x.1 = s → ((cutBeats fuel c bs).foldl f x).1 = s := by
    intro f hf fuel
    induction fuel with
    | zero => exact fun c bs x _ _ hx => hx
    | succ k ih =>
      intro c bs x hc hl hx
      match bs with
      | [] => exact hx
      | v :: vs =>
        rw [cutBeats, List.foldl_cons]
        simp only [List.length_cons] at hl ⊢
        exact ih _ _ _ (by omega) (by rw [List.length_drop, List.length_cons]; omega)
          (hf _ _ hx (show 0x1000000000 ≤ c - c % 64 by omega) (show c - c % 64 < 0x2000000000 by omega))
  refine go _ ?_ n a (List.replicate n 0) (s, true, []) ha (by rw [List.length_replicate]; exact hb) rfl
  rintro ⟨u, ok, d⟩ b rfl h2 h3
  obtain ⟨p, e, r⟩ := memPlace_lp5 u b.1 h0 h1 h2 h3
  have words : ∀ ws : List Nat, (ws.findSome? fun w => u.memCode (.lp5 p) w) = none → ws = [] := fun ws h => by
    match ws with
    | [] => rfl
    | w :: ws => simp [State.memCode, r] at h
  simp only [e, State.beatRead]
  split
  · rfl
  · rename_i none
    simp only [words _ none]
    rfl
theorem staged_none (s : State) (st : Stn) (h : (s.hallStn st).staged = none) : (s.stagedBody st).2 = none := by
  simp [State.stagedBody, State.stagedCells, h, State.readStaged, firstBytes, hdr]
theorem staged_none_quiet (s : State) (st : Stn) (h : (s.hallStn st).staged = none) (q : ∀ m g, s.mxWaits m g = false) :
    ∃ l, (s.stagedBody st).1 = { s with mxLast := l } := by
  obtain ⟨l, e⟩ := fwEnter_quiet q (stageAddr st) 0
  refine ⟨l, ?_⟩
  simp [State.stagedBody, State.stagedCells, h, State.readStaged, firstBytes, hdr, e]
theorem slotCrcs_lp5 (s : State) (st : Stn) (t : TileNo) (h0 : s.lpReady 0 = false) (h1 : s.lpReady 1 = false)
    (q : ∀ m g, s.mxWaits m g = false) : ∃ l, (s.slotCrcs st t).1 = { s with mxLast := l } := by
  obtain ⟨l, e⟩ := fwEnter_quiet q (slotAddr st t + 0x10000) 1024
  have : (Config.copySlot st.val % (2 ^ 19 - 168)) < 2 ^ 19 - 168 := Nat.mod_lt _ (by decide)
  refine ⟨l, ?_⟩
  simp only [State.slotCrcs, e]
  exact memRead_lp5_state { s with mxLast := l } _ _ _ h0 h1 (by unfold slotAddr; omega) (by have := t.isLt; unfold slotAddr; omega)
/-- The copy of a tile cannot be read while the LP5 channels are not ready, and nothing is staged to rebuild it from. -/
theorem copyOf_lp5 (s : State) (st : Stn) (t : TileNo) (h0 : s.lpReady 0 = false) (h1 : s.lpReady 1 = false)
    (q : ∀ m g, s.mxWaits m g = false) (h : (s.hallStn st).staged = none) : ∃ l, s.copyOf st t = ({ s with mxLast := l }, none) := by
  obtain ⟨l, c⟩ := slotCrcs_lp5 s st t h0 h1 q
  have b := staged_none { s with mxLast := l } st h
  obtain ⟨k, d⟩ := staged_none_quiet { s with mxLast := l } st h fun m g => by rw [mxWaits_last]; exact q m g
  exact ⟨k, by
    rw [State.copyOf, slotCrcs_lp5_fails s st t h0 h1 q, c]
    simp [State.rebuild, b, d]⟩
theorem foldl_hall {α : Type} (f : State → α → State) (h : ∀ s a, (f s a).hall = s.hall) : ∀ (l : List α) (s : State), (l.foldl f s).hall = s.hall
  | [], _ => rfl
  | a :: l, s => by rw [List.foldl_cons, foldl_hall f h l, h]
theorem zeroFillStart_hall (s : State) (m : BankMem) (fill : Nat → Bool) : (s.zeroFillStart m fill).hall = s.hall := by
  rw [State.zeroFillStart]
  split
  · rfl
  · exact foldl_hall _ (fun s b => by split <;> rfl) _ _
theorem zeroFillEnd_hall (s : State) (m : BankMem) (b : Nat) : (s.zeroFillEnd m b).hall = s.hall := by
  have power : ∀ (s : State) v, (s.bankRequest m b v).hall = s.hall := fun s v => by
    rw [State.bankRequest]
    dsimp only
    repeat' split
    all_goals rfl
  rw [State.zeroFillEnd]
  dsimp only
  repeat' split
  · rfl
  · rfl
  · rw [power]
    rfl
theorem fillTile_hall (s : State) (st : Stn) (t : TileNo) : (s.fillTile st t).hall = s.hall := by
  rw [State.fillTile, foldl_hall _ fun s b => zeroFillEnd_hall s _ b, zeroFillStart_hall]
/-- With nothing staged for the station, no control section is loaded. -/
theorem nothing_staged (s : State) (st : Stn) (t : TileNo) (h0 : s.lpReady 0 = false) (h1 : s.lpReady 1 = false)
    (q : ∀ m g, s.mxWaits m g = false) (h : (s.hallStn st).staged = none) (run : (s.tile st t).run = .stopped)
    (stop : (s.tile st t).stopReq = false) : ((((s.haltTile st t).copyOf st t).1.fillTile st t).stagedBody st).2 = none := by
  have idle : s.haltTile st t = s := by simp [State.haltTile, State.tileStopRequest, run, stop]
  obtain ⟨l, e⟩ := copyOf_lp5 s st t h0 h1 q h
  rw [idle, e]
  exact staged_none _ st (by rw [State.hallStn, fillTile_hall]; exact h)
/-- A write to a bank of Hall SRAM that is off changes nothing. -/
theorem hallWrite_off (s : State) (e : List Byte) (len : e.length = 32) (h : s.hallBankOn 15 = false) : (s.memWrite mHall 0x100F0000 e).1 = s := by
  match e, len with
  | v :: vs, len =>
    obtain ⟨d, b⟩ : ∃ d, cutBeats 32 0x100F0000 (v :: vs) = [(0x100F0000, 0xFFFFFFFF, d)] := by
      rw [cutBeats]
      have : min (64 - 0x100F0000 % 64) (v :: vs).length = 32 := by rw [len]; decide
      rw [this, List.drop_of_length_le (Nat.le_of_eq len)]
      exact ⟨_, by rw [cutBeats.eq_def]; rfl⟩
    have words : maskWords 0xFFFFFFFF = [0, 1, 2, 3] := by decide
    have place : s.memPlace 0x100F0000 = some (.hall, 0x100F0000) := rfl
    rw [State.memWrite, len, b, List.foldl_cons, List.foldl_nil]
    simp only [place, State.writeMet, State.beatWrite, words, List.findSome?_cons, State.memCode]
    simp [show (0x100F0000 - hallMem 0) / 0x10000 = 15 from rfl, h, State.memOff]
/-- With bank 15 of Hall SRAM off the log's first entry is lost. -/
theorem hallLog_off (s : State) (kind stn tile : Nat) (data : List Byte) (h : s.hallBankOn 15 = false) (n : s.hall.logNext = 0) :
    ∃ f, s.hallLog kind stn tile data = s.modHall f ∧ ∀ H, (f H).stns = H.stns := by
  refine ⟨fun H => { H with logNext := (0 + 1) % 2 ^ 32 }, ?_, fun _ => rfl⟩
  rw [State.hallLog, n]
  rw [show hallMem (0xF0000 + 32 * (0 % 2048)) = 0x100F0000 from rfl, hallWrite_off s _ (by simp [slice]) h]
/-- What the control sections of the staged image for tile 39 of station 3 are, as its restart finds them. -/
abbrev restartStaged (u : State) : List Byte := ((((u.haltTile 3 39).copyOf 3 39).1.fillTile 3 39).stagedBody 3).2.getD []
/-- After a log entry, with nothing staged, none is found. -/
theorem logged_nothing (s : State) (kind stn tile : Nat) (data : List Byte) (b : s.hallBankOn 15 = false) (n : s.hall.logNext = 0)
    (h0 : s.lpReady 0 = false) (h1 : s.lpReady 1 = false) (q : ∀ m g, s.mxWaits m g = false) (h : (s.hallStn 3).staged = none)
    (run : (s.tile 3 39).run = .stopped) (stop : (s.tile 3 39).stopReq = false) :
    sections (restartStaged (s.hallLog kind stn tile data)) = [] := by
  obtain ⟨f, e, k⟩ := hallLog_off s kind stn tile data b n
  have := nothing_staged (s.modHall f) 3 39 h0 h1 (fun m g => by rw [mxWaits_modHall]; exact q m g)
    (by rw [State.hallStn, State.modHall_hall, k]; exact h) run stop
  rw [e, restartStaged, this]
  decide
/-- Notices of tile 39 of station 3 wait, while bank 15 of Hall SRAM is off. -/
def quietly (ns : List Notice) : State := noticed ns fun s => s.setBankPower .hall 15 0
def took (s : State) (n : Notice) : State := { s.noted with notices := s.notices.erase n }
theorem witness_HallNotices_control :
    (let s := quietly [.tileLost 3 39]
     let u := (took s (.tileLost 3 39)).modHallStn 3 fun H => { H with lastFault := H.lastFault.set 39 (some s.timeBase) }
     sections (restartStaged (u.logStopped 3 39 0)) = []) ∧
    (let s := quietly [.tileRestart 3 39]
     let v := (took s (.tileRestart 3 39)).modStn 3 fun S => { S with closed := S.closed.filter fun x => x.val ≠ 39 / 5 }
     tileInsns s.hall.stns[(3 : Fin 4)].body 39 = none ∧
      sections (restartStaged (v.hallLog 3 3 39 (leBytes 4 7 ++ leBytes 4 (s.reg (stnReg 3 0x11C)).toNat))) = []) ∧
    (let s := quietly [.lineFault 3 39]
     let u := (took s (.lineFault 3 39)).slotCrcs 3 39
     let r := (u.1.fwEnter (slotAddr 3 39) 256).memRead mHall (slotAddr 3 39) 256
     (s.reg (tileReg 3 39 0x220)).toNat / 2 ^ 8 % 2 ^ 8 = 0 ∧ u.2.1 = false ∧ sections (restartStaged (r.1.hallLog 4 3 39 [0, 1])) = []) := by
  refine ⟨?_, ⟨by decide +kernel, ?_⟩, by decide +kernel, ?_⟩
  · exact logged_nothing _ _ _ _ _ (by decide +kernel) (by decide +kernel) (by decide +kernel) (by decide +kernel) (by decide +kernel)
      (by decide +kernel) (by decide +kernel) (by decide +kernel)
  · exact logged_nothing _ _ _ _ _ (by decide +kernel) (by decide +kernel) (by decide +kernel) (by decide +kernel) (by decide +kernel)
      (by decide +kernel) (by decide +kernel) (by decide +kernel)
  · generalize hs : took (quietly [.lineFault 3 39]) (.lineFault 3 39) = s
    have h0 : s.lpReady 0 = false := by rw [← hs]; decide +kernel
    have h1 : s.lpReady 1 = false := by rw [← hs]; decide +kernel
    have q : ∀ m g, s.mxWaits m g = false := by rw [← hs]; decide +kernel
    have b : s.hallBankOn 15 = false := by rw [← hs]; decide +kernel
    have n : s.hall.logNext = 0 := by rw [← hs]; decide +kernel
    have h : (s.hallStn 3).staged = none := by rw [← hs]; decide +kernel
    have run : (s.tile 3 39).run = .stopped := by rw [← hs]; decide +kernel
    have stop : (s.tile 3 39).stopReq = false := by rw [← hs]; decide +kernel
    refine ⟨slotCrcs_lp5_fails s 3 39 h0 h1 q, ?_⟩
    obtain ⟨l, e⟩ := slotCrcs_lp5 s 3 39 h0 h1 q
    obtain ⟨k, d⟩ := fwEnter_quiet (s := { s with mxLast := l }) (fun m g => by rw [mxWaits_last]; exact q m g) (slotAddr 3 39) 256
    have bound : 0x1000000000 ≤ slotAddr 3 39 ∧ slotAddr 3 39 + 256 ≤ 0x2000000000 := by
      rw [slotAddr, show ((39 : TileNo)).val = 39 by decide]
      generalize Config.copySlot _ = c
      have : c % (2 ^ 19 - 168) < 2 ^ 19 - 168 := Nat.mod_lt _ (by decide)
      omega
    rw [e, d, memRead_lp5_state { s with mxLast := k } _ _ _ h0 h1 bound.1 bound.2]
    exact logged_nothing { s with mxLast := k } _ _ _ _ b n h0 h1 (fun m g => by rw [mxWaits_last]; exact q m g) h run stop
theorem witness_HallNotices_network :
    (∀ w ∈ ([0x10, 0x12, 2] : List Nat), ∀ b : Bool,
      let s := noticed [.netFault 3] fun s => (s.modStn 3 fun S => { S with run := .running }).setReg (stnReg 3 0x404) (BitVec.ofNat 32 w)
      let s := if b then s.modHallStn 3 fun H => { H with starting := some ⟨0, toMe 0x11 3 [], 0⟩ } else s
      Notice.netFault 3 ∈ s.notices ∧ (s.reg (stnReg 3 0x418)).getLsbD 30 = false ∧ (∀ x, (s.hallStn x).waiting = []) ∧
        (s.reg (stnReg 3 0x404)).toNat = w ∧ s.stnBusy 3 = b ∧ (s.stn 3).run = .running) ∧
    (∀ b : Bool, let s := noticed [.tileLost 3 39] fun s => if b then s.modStn 3 fun S => { S with repairs := [(2, 0)] } else s
      (s.stn 3).repairBusy = b) := by decide +kernel
theorem witness_PeerWatches_absent : ({ noticed [] id with grade := .dq2080 } : State).fitted 3 = false ∧ (noticed [] id).fitted 3 = true := by decide +kernel
/-- The flash holds in partition 0 an image of the Hall's firmware that verifies; the firmware runs. -/
def flashed : State :=
  let s := withKey 1 3 (noticed [] id)
  { (s.setReg (devReg 0 0x200) 0).setReg (mxReg 0) 1 with flash := imgCells 1 3 }
theorem part_byte (s : State) (h : s.flash = imgCells 1 3) (n i : Nat) (hn : n ≤ 1032) (hi : i < n) :
    smGet (fun _ => 0) (s.partCells 0 n) i = smGet (fun _ => 0) (imgCells 1 3) i := by
  have g := smGet_zip (fun _ => (0 : Byte)) 0 ((List.range n).map fun i => s.flashByte (0 * 0x200000 + i)) 0 i (by simpa using hi)
  have e : s.partCells 0 n = ((List.range' 0 ((List.range n).map fun i => s.flashByte (0 * 0x200000 + i)).length).zip
      ((List.range n).map fun i => s.flashByte (0 * 0x200000 + i))).map fun e => (0 + e.1, e.2) := by
    refine List.ext_getElem (by simp [State.partCells]) fun k h1 h2 => ?_
    simp [State.partCells]
  rw [e]
  simp only [Nat.zero_add] at g ⊢
  rw [g, img_byte _ _ _ _ (by omega)]
  simp only [List.getElem_map, List.getElem_range]
  rw [State.flashByte, h]
  simp only [Nat.zero_mul, Nat.zero_add]
  rw [img_byte flashReset 1 3 i (by omega), if_neg (by omega)]
theorem part_hdr (s : State) (h : s.flash = imgCells 1 3) (n o k : Nat) (hn : n ≤ 1032) (hk : o + k ≤ n) :
    hdr (s.partCells 0 n) o k = hdr (imgCells 1 3) o k := by
  rw [hdr, hdr]
  refine congrArg leNat ?_
  exact List.map_congr_left fun i hi => part_byte s h n (o + i) hn (by have := List.mem_range.mp hi; omega)
theorem candidate_image (s : State) (h : s.flash = imgCells 1 3) (ok : headerOk (imgCells 1 3) = true) : s.candidate 0 = imgCells 1 3 := by
  have hd := fun (o k : Nat) (hk : o + k ≤ 1024) => part_hdr s h 1024 o k (by omega) hk
  have e : headerOk (s.partCells 0 1024) = headerOk (imgCells 1 3) := by
    simp only [headerOk, hd 0 4 (by omega), hd 4 1 (by omega), hd 6 2 (by omega), hd 0xD 3 (by omega), hd 0x1C 484 (by omega), hd 0x10 4 (by omega)]
  have l : hdr (imgCells 1 3) 0x10 4 = 8 := by decide +kernel
  have k : hdr (imgCells 1 3) 4 1 = 1 := by decide +kernel
  rw [State.candidate, e, ok, hd 4 1 (by omega), k, if_pos (show (true && (1 : Nat) == 1) = true from rfl), hd 0x10 4 (by omega), l]
  refine List.ext_getElem (by simp [State.partCells, imgCells, signedImage_length]) fun i h1 h2 => ?_
  have hi : i < 1032 := by simpa [State.partCells] using h1
  have b : s.flashByte (0 * 0x200000 + i) = (signedImage 1 3)[i]'(by rw [signedImage_length]; exact hi) := by
    rw [State.flashByte, h, Nat.zero_mul, Nat.zero_add, img_byte flashReset 1 3 i hi, if_neg (by omega)]
  simp [State.partCells, imgCells] at b ⊢
  exact b
theorem witness_WarmRestarts :
    busyTile.vault.cmd = none ∧ { busyTile with hall := { busyTile.hall with run := .off } }.hall.run = .off ∧
    (let s := { busyTile with hall := { busyTile.hall with run := .chainBoot } }
     s.vault.cmd = none ∧ s.hall.run ≠ .off ∧ (s.reg (mxReg 0)).getLsbD 0 = false ∧
      (let t := (s.setReg (devReg 0 0x200) 0xC0).setReg (mxReg 0) 1
       t.hall.run ≠ .off ∧ (t.reg (devReg 0 0x200)).toNat / 64 % 4 = 3 ∧ (t.reg (mxReg 0)).getLsbD 0 = true ∧ Memory.wf t = true)) ∧
    (let s := ((noticed [] id).setReg (devReg 0 0x200) 0x40).setReg (mxReg 0) 1
     let t := { s with flashCtl := { s.flashCtl with bad := 2 } }
     (t.flashCtl.bad.getLsbD 1 = true ∧ s.flashCtl.bad.getLsbD 1 = false ∧ t.hall.run ≠ .off)) ∧
    (let s := (noticed [] id).setReg (devReg 0 0x200) 0x80
     s.hall.run = .firmware ∧ (s.reg (devReg 0 0x200)).toNat / 64 % 4 = 2 ∧ Memory.wf s = true ∧ Registers.wf s = true) ∧
    (let s := ((noticed [] id).setReg (devReg 0 0x200) 0x40).setReg (mxReg 0) 1
     s.hall.run = .firmware ∧ (s.reg (devReg 0 0x200)).toNat / 64 % 4 = 1 ∧ (s.reg (mxReg 0)).getLsbD 0 = true ∧ Memory.wf s = true ∧
      Registers.wf s = true ∧ (s.verifyImage 1 (s.candidate 1)).reason ≠ 1) := by decide +kernel
theorem image_headerOk : headerOk (imgCells 1 3) = true := by
  have z : hdr (imgCells 1 3) 0x1C 484 = 0 := by
    rw [hdr_cells _ _ _ _ (by omega)]
    have : ((imgHead 1 3).drop 0x1C).take 484 = List.replicate 484 0 := by decide +kernel
    rw [this]
    decide +kernel
  have fields : hdr (imgCells 1 3) 0 4 = 0x4951444E ∧ hdr (imgCells 1 3) 6 2 = 1 ∧ hdr (imgCells 1 3) 0xD 3 = 0 ∧
      hdr (imgCells 1 3) 4 1 = 1 ∧ hdr (imgCells 1 3) 0x10 4 = 8 := by decide +kernel
  obtain ⟨a1, a2, a3, a4, a5⟩ := fields
  rw [headerOk, a1, a2, a3, z, a4, a5]
  decide
/-- A state with that flash and that key accepts its partition 0. -/
theorem partition_accepted (s : State) (hf : s.flash = imgCells 1 3) (hs : s.grade = .dq4160)
    (svn : s.vault.hallMin = 0 ∧ s.vault.stnMin = 0) (key : s.keyModulus 1 = some (beNat (pssEm (imgDigest 1 3)) + 1)) :
    (s.verifyImage 1 (s.candidate 0)).reason = 1 := by
  rw [candidate_image s hf image_headerOk, image_accepted 1 s (.inl rfl) hs svn key]
theorem flashed_key : flashed.keyModulus 1 = some (beNat (pssEm (imgDigest 1 3)) + 1) := by
  simp [State.keyModulus, flashed, withKey, State.setReg]
theorem flashed_accepts : (flashed.verifyImage 1 (flashed.candidate 0)).reason = 1 :=
  partition_accepted flashed (by simp [flashed]) (by decide +kernel) (by decide +kernel) flashed_key
theorem witness_WarmRestarts_image :
    flashed.vault.cmd = none ∧ flashed.hall.run = .firmware ∧ (flashed.reg (devReg 0 0x200)).toNat / 64 % 4 = 0 ∧
    (flashed.reg (mxReg 0)).getLsbD 0 = true ∧ Memory.wf flashed = true ∧ Registers.wf flashed = true ∧
    (flashed.verifyImage 1 (flashed.candidate 0)).reason = 1 :=
  ⟨by decide +kernel, by decide +kernel, by decide +kernel, by decide +kernel, by decide +kernel, by decide +kernel,
    flashed_accepts⟩
theorem witness_PeerWatches :
    let armed := fun (H : HallStn) => noticed [] fun s => { s with hall := { s.hall with stns := s.hall.stns.set 3 H } }
    let s := armed { watch := some (63, 3) }
    busyTile.hall.run ≠ .firmware ∧ (noticed [] id).hall.stns[(3 : Stn)].watch = none ∧
    (0x7F0000000000 : BitVec 48).toNat / 2 ^ 40 ≠ 0x40 ∧ (0x4000003F0301 : BitVec 48).toNat / 2 ^ 40 = 0x40 ∧
    s.hall.run = .firmware ∧ s.hall.stns[(3 : Stn)].watch = some (63, 3) ∧ (s.peerCommand 63 3 0x14 0 []).hall = s.hall ∧
    (s.hall.stns[(3 : Stn)].tag = none ∧ s.hall.stns[(3 : Stn)].missed < 2) ∧
    (1 : Byte) ≠ 2 ∧ s.staleTag 0x00500003 = false ∧
    (let t := { s with hall := { s.hall with epochs := [(5, 4)] } }
     t.hall.stns[(3 : Stn)].watch = some (63, 3) ∧ t.staleTag 0x00500003 = true ∧ t.staleTag 0x00500004 = false) ∧
    (let s := armed { watch := some (63, 3), missed := 2, tag := some 0xFFFFFFFF }
     let asked := s.peerCommand 63 3 0x14 0 []
     let H : HallStn := { s.hall.stns[(3 : Stn)] with missed := 3 }
     let u := ({ asked with hall := { asked.hall with stns := asked.hall.stns.set 3 H } } : State).peerCommand 63 3 0x13 0xFFFFFFFF
       (leBytes 4 (0xFFF * 2 ^ 20 + 0) ++ [0xFF])
     asked.hall = s.hall ∧ 2 ≤ s.hall.stns[(3 : Stn)].missed ∧ s.hall.stns[(3 : Stn)].tag = some 0xFFFFFFFF ∧
      (0xFFFFFFFF : W32).toNat / 2 ^ 20 ≠ 0 ∧
      s.staleTag 0 = false ∧ s.staleTag 0x7FFFE = false ∧
      (∀ v ∈ [0, 0x7FFFE], 1 ≤ (v + 2 ^ 20 - 0xFFFFFFFF % 2 ^ 20) % 2 ^ 20 ∧ (v + 2 ^ 20 - 0xFFFFFFFF % 2 ^ 20) % 2 ^ 20 ≤ 0x7FFFF) ∧
      u.hall = { s.hall with stns := s.hall.stns.set 3 H }) := by decide +kernel

/-! ### Witnesses: clocks, temperature, voltage, resets and the test access port -/

/-- Station 1 at a divisor, with its minimum, its counts and its last step; TLO is 0x5A and THI is 0x64. -/
def warmed (d min : Nat) (T : Thermal) : State :=
  let s := (busyTile.setReg (stnReg 1 0x404) (BitVec.ofNat 32 (d * 2 ^ 25))).setReg (devReg 1 0x24) (BitVec.ofNat 32 (min * 16))
  { s with timeBase := 3750000, core := { s.core with therm := s.core.therm.set 1 T } }
theorem witness_ThermalSteps :
    let s := warmed 2 1 { cool := 9, hot := 99 }
    let thi : Int := ((s.reg (devReg 1 0x10)).toNat / 2 ^ 8 % 2 ^ 8 : Nat)
    let tlo : Int := ((s.reg (devReg 1 0x10)).toNat / 2 ^ 16 % 2 ^ 8 : Nat)
    Registers.wf s = true ∧ ({ s with grade := .dq2080 } : State).grade.stations ≤ (2 : Stn).val ∧
    (1 : Stn).val < s.grade.stations ∧ tlo ≤ thi ∧ thi ≤ (0x64 : Byte).toInt ∧ (0x63 : Byte).toInt < thi ∧ (0x59 : Byte).toInt < tlo ∧
    ¬((0x5A : Byte).toInt < tlo) ∧
    (s.reg (stnReg 1 0x404)).toNat / 2 ^ 25 % 4 = 2 ∧ min 2 ((s.reg (devReg 1 0x24)).toNat / 16 % 4) = 1 ∧
    100 ≤ s.core.therm[(1 : Stn)].hot + 1 ∧ 10 ≤ s.core.therm[(1 : Stn)].cool + 1 ∧ (s.stn 1).dueDiv = none ∧
    s.core.therm[(1 : Stn)].lastStep = none ∧
    (let u := warmed 0 1 { lastStep := some 0 }
     (u.reg (stnReg 1 0x404)).toNat / 2 ^ 25 % 4 < min 2 ((u.reg (devReg 1 0x24)).toNat / 16 % 4) ∧ 10 * 375000 ≤ (u.timeBase - 0).toNat ∧
      u.core.therm[(1 : Stn)].lastStep = some 0) ∧
    (let u := warmed 1 1 { lastStep := some 1 }
     1 ≤ (u.reg (stnReg 1 0x404)).toNat / 2 ^ 25 % 4 ∧ (u.reg (stnReg 1 0x404)).toNat / 2 ^ 25 % 4 < 2 ∧
      u.core.therm[(1 : Stn)].lastStep = some 1 ∧ ¬(10 * 375000 ≤ (u.timeBase - 1).toNat)) := by decide +kernel
theorem witness_VoltageAndGates :
    (63 : W32).toNat < 64 ∧ (511 : W32).toNat < 512 ∧ Registers.wf busyTile = true ∧ (1 : Master) ≠ 0 := by decide +kernel
/-- What f makes of the reset logic. -/
def cored (f : CoreCtl → CoreCtl) : State := { busyTile with core := f busyTile.core }
theorem witness_DeviceResets :
    (busyTile.core.asserted = false ∧ busyTile.core.wants = none ∧ busyTile.flashCtl.work = .idle ∧ Registers.wf busyTile = true) ∧
    (∀ c ∈ [ResetSource.pin, .command, .hall], (cored fun C => { C with wants := some c }).core.wants = some c) ∧
    (flashing (.erase 0) 0).flashCtl.work ≠ .idle ∧ busyTile.vault.cmd ≠ some .auth ∧
    (∀ b, (flashing (.commit job 5 b) 0).flashCtl.work = .commit job 5 b ∧ smWf flashReset (flashing (.commit job 5 b) 0).flash = true) ∧
    (cored fun C => { C with asserted := true }).core.asserted = true := by decide +kernel
/-- In reset after a power-on, the flash holding the image and the vault its key. -/
def held : State :=
  let s := withKey 1 3 (cored fun C => { C with asserted := true })
  { s.setReg (devReg 1 4) 0 with flash := imgCells 1 3 }
theorem held_key : held.keyModulus 1 = some (beNat (pssEm (imgDigest 1 3)) + 1) := by
  simp [State.keyModulus, held, withKey, State.setReg]
theorem witness_ResetReleases_image :
    (1 : BitVec 2).getLsbD 0 = true ∧ (2 : BitVec 2).getLsbD 0 = false ∧ held.core.asserted = true ∧ held.core.tripped = false ∧ held.flashCtl.torn = false ∧ Registers.wf held = true ∧ Memory.wf held = true ∧
    (held.reg (devReg 1 4)).toNat % 8 ≤ 1 ∧ (held.reg (mxReg 0)).getLsbD 0 = false ∧ (1 : BitVec 3).toNat % 4 = 1 ∧
    (held.verifyImage 1 (held.candidate (1 - 1))).reason = 1 :=
  ⟨by decide, by decide, by decide +kernel, by decide +kernel, by decide +kernel, by decide +kernel, by decide +kernel, by decide +kernel, by decide +kernel,
    by decide +kernel, partition_accepted held (by simp [held]) (by decide +kernel) (by decide +kernel) held_key⟩
theorem witness_ResetReleases :
    busyTile.core.asserted = false ∧ (cored fun C => { C with tripped := true }).core.tripped = true ∧
    (let s := (cored fun C => { C with asserted := true }).setReg (devReg 1 4) 2
     s.core.asserted = true ∧ s.core.tripped = false ∧ s.flashCtl.torn = false ∧ Registers.wf s = true ∧ Memory.wf s = true ∧
      2 ≤ (s.reg (devReg 1 4)).toNat % 8 ∧ ((s.setReg (devReg 1 8) 7).reg (devReg 1 8)).setWidth 3 = (7 : BitVec 3) ∧ (7 : BitVec 3).toNat % 4 = 3 ∧
      (s.reg (mxReg 0)).getLsbD 0 = false ∧ (6 : BitVec 3).toNat % 4 = 2 ∧ (s.verifyImage 1 (s.candidate 1)).reason ≠ 1) := by decide +kernel
/-- The port has selected a physical tile of station 1. -/
def tapped (phys : Phys) : State := { busyTile with tap := { busyTile.tap with stn := 1, phys := phys } }
theorem witness_TestPort :
    busyTile.vault.lock = false ∧ (vaulted 0 fun V => { V with lock := true }).vault.lock = true ∧
    (let s := tapped 8
     s.servedBy s.tap.stn s.tap.phys = some 7 ∧ s.tap.stn.val < s.grade.stations ∧ s.apertureClosed s.tap.stn 7 = false) ∧
    (let s := tapped 11
     s.servedBy s.tap.stn s.tap.phys = none ∧ s.colState s.tap.stn (s.tap.phys.val / 6) = 0) ∧
    (let s := (tapped 6).setReg (stnReg 1 0x104) 0x04000000
     s.servedBy s.tap.stn s.tap.phys = none ∧ s.colState s.tap.stn (s.tap.phys.val / 6) ≠ 0) := by decide +kernel

/-- A device held in reset. -/
def heldInReset (chain : Bool) (s : State) : State := { s with core := { s.core with asserted := true, withChain := chain } }
theorem witness_heldInReset :
    (heldInReset false busyTile).inReset = true ∧ (heldInReset false busyTile).portsHeld = false ∧ (heldInReset true busyTile).portsHeld = true ∧
    (heldInReset true (chained {})).inReset = true ∧ busyTile.inReset = false ∧ busyTile.portsHeld = false ∧
    (let s := heldInReset false (port 3 0x10000000 id)
     s.inReset = true ∧ ¬16 ≤ (3 : Fin 20).val) := by decide +kernel
theorem witness_ResetReleases_testen :
    (heldInReset true busyTile).core.asserted = true ∧ (heldInReset true busyTile).core.tripped = false ∧
    (heldInReset true busyTile).flashCtl.torn = false ∧ Registers.wf (heldInReset true busyTile) = true ∧ Memory.wf (heldInReset true busyTile) = true := by
  decide +kernel
theorem witness_TestPort_quiet : ∀ m g, (tapped 8).mxWaits m g = false := by decide +kernel

/-! ### Witnesses: the block as a whole -/

theorem witness_StepTakesFrontCommand :
    ({ busyTile with pending := [.wrst, .bypass] } : State).pending = .wrst :: [.bypass] := rfl
/-- A frame of USB group 3 began t counts of the time base after 0. -/
def framed (t : W64) : State :=
  { busyTile with timeBase := 750000, usb := busyTile.usb.set 3 { busyTile.usb[(3 : Fin 4)] with frameAt := some t } }
theorem witness_EmptyQueueIsOneClock :
    busyTile.pending = [] ∧ busyTile.core.asserted = false ∧ (cored fun C => { C with asserted := true }).core.asserted = true ∧
    (∀ n : Fin 8, busyTile.tmrRun[n] = false ∧ busyTile.tmrArmed[n] = false) ∧ Registers.wf busyTile = true ∧
    busyTile.hall.run ≠ .firmware ∧ busyTile.flashCtl.work = .idle ∧ (∀ g : Fin 4, busyTile.usb[g].frameAt = none) ∧
    (∀ n : Fin 8, (busyTile.reg (drwReg n.val 4)).getLsbD 31 = false) ∧
    (let s := { flashing (.commit job 0 false) 0 with timeBase := 82499 }
     s.pending = [] ∧ s.flashCtl.work = .commit job 0 false ∧ 82500 ≤ (s.timeBase + 1 - 0).toNat ∧ Registers.wf s = true) ∧
    ((framed 375001).pending = [] ∧ (framed 375001).usb[(3 : Fin 4)].frameAt = some 375001 ∧ Registers.wf (framed 375001) = true ∧
      375000 ≤ ((framed 375001).timeBase + 1 - 375001).toNat ∧ ¬375000 ≤ ((framed 375001).timeBase + 1 - 375002).toNat) ∧
    ((pulsing 1).pending = [] ∧ ((pulsing 1).reg (drwReg 7 4)).getLsbD 31 = true ∧ (pulsing 1).gio.began[(7 : Fin 8)] = some 1 ∧
      Registers.wf (pulsing 1) = true) ∧
    (let s := { busyTile with tmrRun := .replicate 8 true }.setReg (tmrReg 7 8) 1
     s.pending = [] ∧ s.tmrRun[(7 : Fin 8)] = true ∧ s.reg (tmrReg 7 8) ≠ 0) := by decide +kernel
theorem witness_CanonicalFormKept :
    let s := { busyTile with pending := [.wrst] }
    Memory.wf s = true ∧ Registers.wf s = true ∧ smWf flashReset s.flash = true ∧ ∃ u, step s = .next u :=
  ⟨by decide +kernel, by decide +kernel, by decide +kernel, _, rfl⟩
theorem witness_FusesOneWay :
    let s := { busyTile with
      pending := [.vaultCommandEnd]
      vault := { busyTile.vault with hallMin := 64, stnMin := 64, lock := true, slots := busyTile.vault.slots.set 0 .active } }
    s.vault.hallMin ≤ 64 ∧ s.vault.stnMin ≤ 64 ∧ s.vault.lock = true ∧ s.vault.slots[(0 : Fin 4)] ≠ .empty ∧ ∃ u, step s = .next u :=
  ⟨by decide, by decide, rfl, by decide, _, rfl⟩

end Sys2Proof.Tests
end

/-! SUPPORT. The fuses (14 R411, R413; 00 R2), and what the functions of the model leave of them: all but those of the vault leave them as
they are. -/

section
namespace Sys2Proof.Machine

/-- What fuses hold: the grade (00 R2), the owner key slots with their moduli, the minimum security versions and LOCK (14 R411). -/
structure Fuses where
  grade : Grade
  slots : Vector SlotState 4
  moduli : Vector Nat 4
  hallMin : Nat
  stnMin : Nat
  lock : Bool

/-- The fuses of a device of a grade, as its vault holds them. -/
abbrev Vault.fusesOf (V : Vault) (g : Grade) : Fuses := ⟨g, V.slots, V.moduli, V.hallMin, V.stnMin, V.lock⟩

def State.fuses (s : State) : Fuses := s.vault.fusesOf s.grade

/-! ### How the fuses of a state are read -/

@[simp] theorem State.fuses_mk (pending freeCount undef grade regs mem ecc bankChange tiles stns scrubAt lp5Scrub lp5Train mxOpen mxDone mxLast
    tbLatch tmrRun tmrArmed dma cam lc flash flashCtl window serial usb gio links pcie hall vault core tap notices timeBase) :
    (State.mk pending freeCount undef grade regs mem ecc bankChange tiles stns scrubAt lp5Scrub lp5Train mxOpen mxDone mxLast
      tbLatch tmrRun tmrArmed dma cam lc flash flashCtl window serial usb gio links pcie hall vault core tap notices timeBase).fuses =
    ⟨grade, vault.slots, vault.moduli, vault.hallMin, vault.stnMin, vault.lock⟩ := rfl

@[simp] theorem State.fuses_eta (s : State) :
    (⟨s.grade, s.vault.slots, s.vault.moduli, s.vault.hallMin, s.vault.stnMin, s.vault.lock⟩ : Fuses) = s.fuses := rfl

@[simp] theorem State.fuses_ite (p : Prop) [Decidable p] (a b : State) : (if p then a else b).fuses = if p then a.fuses else b.fuses :=
  apply_ite ..

@[simp] theorem State.fst_fuses_ite {α : Type} (p : Prop) [Decidable p] (x y : State × α) :
    (if p then x else y).1.fuses = if p then x.1.fuses else y.1.fuses := by split <;> rfl

/-- A part that hands on the state of another beside its own result. -/
theorem State.fst_fuses_mk {α β : Type} {F : Fuses} {x : State × α} (h : x.1.fuses = F) (b : β) : (x.1, b).1.fuses = F := h

/-- Steps that each leave the fuses leave them together. -/
@[simp] theorem foldl_fuses {α : Type} {f : State → α → State} (h : ∀ s a, (f s a).fuses = s.fuses) (l : List α) (s : State) :
    (l.foldl f s).fuses = s.fuses := by
  induction l generalizing s with
  | nil => rfl
  | cons a l ih => rw [List.foldl_cons, ih, h]

/-- The same of steps that gather a result beside the state. -/
@[simp] theorem foldl_fst_fuses {α β : Type} {f : State × β → α → State × β} (h : ∀ x a, (f x a).1.fuses = x.1.fuses) (l : List α)
    (x : State × β) : (l.foldl f x).1.fuses = x.1.fuses := by
  induction l generalizing x with
  | nil => rfl
  | cons a l ih => rw [List.foldl_cons, ih, h]

/-! ### How a part of an instruction ends -/

/-- The state that a part of an instruction leaves, if it leaves one, has those fuses. -/
def TOut.Keeps (F : Fuses) : TOut → Prop
  | .done s => s.fuses = F
  | .stall _ => True
  | .fault s _ _ => s.fuses = F

def ROut.Keeps (F : Fuses) : ROut → Prop
  | .val _ s => s.fuses = F
  | .stall _ => True
  | .fault s _ _ => s.fuses = F

def RAll.Keeps (F : Fuses) : RAll → Prop
  | .vals _ s => s.fuses = F
  | .stall _ => True
  | .fault s _ _ => s.fuses = F

@[simp] theorem TOut.keeps_done {F : Fuses} {s : State} : (TOut.done s).Keeps F ↔ s.fuses = F := Iff.rfl
@[simp] theorem TOut.keeps_stall {F : Fuses} {q : Bool} : (TOut.stall q).Keeps F := trivial
@[simp] theorem TOut.keeps_fault {F : Fuses} {s : State} {c : Byte} {e : W64} : (TOut.fault s c e).Keeps F ↔ s.fuses = F := Iff.rfl
@[simp] theorem TOut.keeps_ite {F : Fuses} (p : Prop) [Decidable p] (a b : TOut) :
    (if p then a else b).Keeps F ↔ if p then a.Keeps F else b.Keeps F := by split <;> rfl
@[simp] theorem ROut.keeps_val {F : Fuses} {v : W64} {s : State} : (ROut.val v s).Keeps F ↔ s.fuses = F := Iff.rfl
@[simp] theorem ROut.keeps_stall {F : Fuses} {q : Bool} : (ROut.stall q).Keeps F := trivial
@[simp] theorem ROut.keeps_fault {F : Fuses} {s : State} {c : Byte} {e : W64} : (ROut.fault s c e).Keeps F ↔ s.fuses = F := Iff.rfl

theorem TOut.Keeps.bind {F : Fuses} {o : TOut} (h : o.Keeps F) {f : State → TOut} (hf : ∀ s, s.fuses = F → (f s).Keeps F) :
    (o.bind f).Keeps F := by
  cases o with
  | done s => exact hf s h
  | stall q => trivial
  | fault s c e => exact h

/-- What a part leaves beside its result, where the two are matched together. -/
theorem fuses_of_fst {α : Type} {F : Fuses} {x : State × α} {u : State} {a : α} (h : x.1.fuses = F) (e : x = (u, a)) : u.fuses = F := by
  rw [← h, e]

variable {F : Fuses} {c : Ctx} {s0 : State} (s : State) (st : Stn) (t : TileNo)

/-- A change of the vault leaves the grade. -/
@[simp] theorem State.modVault_fuses (f : Vault → Vault) : (s.modVault f).fuses =
    ⟨s.grade, (f s.vault).slots, (f s.vault).moduli, (f s.vault).hallMin, (f s.vault).stnMin, (f s.vault).lock⟩ := rfl

/-! ### Tiles, stations, registers and memory -/

@[simp] theorem State.setTile_fuses (T : Tile) : (s.setTile st t T).fuses = s.fuses := by simp [State.setTile]
@[simp] theorem State.modTile_fuses (f : Tile → Tile) : (s.modTile st t f).fuses = s.fuses := by simp [State.modTile]
@[simp] theorem State.setStn_fuses (S : Station) : (s.setStn st S).fuses = s.fuses := by simp [State.setStn]
@[simp] theorem State.modStn_fuses (f : Station → Station) : (s.modStn st f).fuses = s.fuses := by simp [State.modStn]
@[simp] theorem State.setReg_fuses (a : Nat) (v : W32) : (s.setReg a v).fuses = s.fuses := by simp [State.setReg]
@[simp] theorem State.setFld_fuses (a lo w v : Nat) : (s.setFld a lo w v).fuses = s.fuses := by simp [State.setFld]
@[simp] theorem State.setFlag_fuses (a i : Nat) : (s.setFlag a i).fuses = s.fuses := by simp [State.setFlag]
@[simp] theorem State.bump_fuses (a n : Nat) : (s.bump a n).fuses = s.fuses := by simp [State.bump]
@[simp] theorem State.setByte_fuses (a : Nat) (v : Byte) : (s.setByte a v).fuses = s.fuses := by simp [State.setByte]
@[simp] theorem State.setBytes_fuses (a : Nat) (bs : List Byte) : (s.setBytes a bs).fuses = s.fuses := by
  induction bs generalizing s a with
  | nil => rfl
  | cons b bs ih => rw [State.setBytes, ih, State.setByte_fuses]
@[simp] theorem State.setLe_fuses (a n v : Nat) : (s.setLe a n v).fuses = s.fuses := by simp [State.setLe]
@[simp] theorem State.clearMem_fuses (lo hi : Nat) : (s.clearMem lo hi).fuses = s.fuses := by simp [State.clearMem]
@[simp] theorem State.setUpset_fuses (a : Nat) (u : Upset) : (s.setUpset a u).fuses = s.fuses := by
  unfold State.setUpset
  split <;> simp
@[simp] theorem State.useFree_fuses (n : Nat) : (s.useFree n).fuses = s.fuses := by simp [State.useFree]
@[simp] theorem State.notify_fuses (n : Notice) : (s.notify n).fuses = s.fuses := by simp [State.notify]
@[simp] theorem State.clocked_fuses {f : State → State} (h : (f s).fuses = s.fuses) : (s.clocked f).fuses = s.fuses := by
  simp [State.clocked, h]
@[simp] theorem State.countCe_fuses (off n : Nat) : (s.countCe st t off n).fuses = s.fuses := by simp [State.countCe]
@[simp] theorem State.recordUe_fuses (off n : Nat) : (s.recordUe st t off n).fuses = s.fuses := by
  unfold State.recordUe
  split <;> simp
@[simp] theorem State.writeData_fuses (off : Nat) (bs : List Byte) : (s.writeData st t off bs).fuses = s.fuses := by simp [State.writeData]

/-! ### Meetings with the outside port, and how a trigger ends -/

@[simp] theorem State.retried_fuses : (s.retried st t).fuses = s.fuses := s.bump_fuses _ _
@[simp] theorem State.writeBusy_fuses : (s.writeBusy st t).fuses = s.fuses := by simp [State.writeBusy]
@[simp] theorem State.met_fuses (meet : Meet) (reads writes : Bool) : (s.met st t meet reads writes).fuses = s.fuses := by
  unfold State.met
  split <;> simp

/-! ### Reads and triggers of an instruction (02, 04, 05) -/

section
variable {s}

@[simp] theorem fireRdcr_keeps (h0 : c.s0.fuses = F) (h : s.fuses = F) (b : W64) : (fireRdcr c b s).Keeps F := by simp [fireRdcr, h0, h]
@[simp] theorem fireWrcr_keeps (h0 : c.s0.fuses = F) (h : s.fuses = F) (b : W64) : (fireWrcr c b s).Keeps F := by simp [fireWrcr, h0, h]
@[simp] theorem fireTransfer_keeps (h0 : c.s0.fuses = F) (h : s.fuses = F) (k : PKind) (pend result : W64) :
    (fireTransfer c k pend result s).Keeps F := by
  simp [fireTransfer, h0, h]
@[simp] theorem fireJmp_keeps (h0 : c.s0.fuses = F) (h : s.fuses = F) (b : W64) : (fireJmp c b s).Keeps F := by simp [fireJmp, h0, h]
@[simp] theorem fireCall_keeps (h0 : c.s0.fuses = F) (h : s.fuses = F) (b : W64) : (fireCall c b s).Keeps F := by simp [fireCall, h0, h]
@[simp] theorem fireRet_keeps (h0 : c.s0.fuses = F) (h : s.fuses = F) : (fireRet c s).Keeps F := by simp [fireRet, h0, h]
@[simp] theorem fireSys_keeps (h0 : c.s0.fuses = F) (h : s.fuses = F) (b : W64) : (fireSys c b s).Keeps F := by simp [fireSys, h0, h]
@[simp] theorem fireEret_keeps (h0 : c.s0.fuses = F) (h : s.fuses = F) : (fireEret c s).Keeps F := by simp [fireEret, h0, h]
@[simp] theorem fireShield_keeps (h : s.fuses = F) (b : W64) : (fireShield c b s).Keeps F := by simp [fireShield, h]
@[simp] theorem fireIdle_keeps (h : s.fuses = F) : (fireIdle c s).Keeps F := by simp [fireIdle, h]
@[simp] theorem fireSend_keeps (h0 : c.s0.fuses = F) (h : s.fuses = F) (ch : Fin 8) (b : W64) : (fireSend c ch b s).Keeps F := by
  simp [fireSend, h0, h]
@[simp] theorem fireMdst_keeps (h0 : c.s0.fuses = F) (h : s.fuses = F) (b : W64) : (fireMdst c b s).Keeps F := by simp [fireMdst, h0, h]
@[simp] theorem fireMbox_keeps (h : s.fuses = F) (b : W64) : (fireMbox c b s).Keeps F := by simp [fireMbox, h]
@[simp] theorem fireLsu_keeps (h0 : c.s0.fuses = F) (h : s.fuses = F) (op : LsuOp) (b : W64) : (fireLsu c op b s).Keeps F := by
  unfold fireLsu
  dsimp only
  (repeat' split) <;> simp [h0, h]
@[simp] theorem fireLreq_keeps (h0 : c.s0.fuses = F) (h : s.fuses = F) (k : Fin 4) (b : W64) : (fireLreq c k b s).Keeps F := by
  unfold fireLreq
  dsimp only
  (repeat' split) <;> simp [h0, h]
@[simp] theorem fireSadr_keeps (h0 : c.s0.fuses = F) (h : s.fuses = F) (k : Fin 4) (b : W64) : (fireSadr c k b s).Keeps F := by
  unfold fireSadr
  dsimp only
  (repeat' split) <;> simp [h0, h]
@[simp] theorem fireWait_keeps (h0 : c.s0.fuses = F) (h : s.fuses = F) (k : Fin 4) (b : W64) : (fireWait c k b s).Keeps F := by
  unfold fireWait
  dsimp only
  (repeat' split) <;> simp [h0, h]
@[simp] theorem fireBlk_keeps (h0 : c.s0.fuses = F) (h : s.fuses = F) (b : W64) : (fireBlk c b s).Keeps F := by
  unfold fireBlk
  dsimp only
  (repeat' split) <;> simp [h0, h]
@[simp] theorem fireAtomic_keeps (h0 : c.s0.fuses = F) (h : s.fuses = F) (swap : Bool) (b : W64) : (fireAtomic c swap b s).Keeps F := by
  unfold fireAtomic
  dsimp only
  (repeat' split) <;> simp [h0, h]
@[simp] theorem fireAlu_keeps (h : s.fuses = F) (n : Fin 2) (op : AluOp) (b : W64) : (fireAlu c n op b s).Keeps F := by simp [fireAlu, h]
@[simp] theorem fireMac_keeps (h : s.fuses = F) (n : Fin 2) (mode : MacMode) (accum : Bool) (k : Fin 4) (b : W64) :
    (fireMac c n mode accum k b s).Keeps F := by
  simp [fireMac, h]
@[simp] theorem fireShf_keeps (h : s.fuses = F) (op : ShfOp) (b : W64) : (fireShf c op b s).Keeps F := by simp [fireShf, h]
@[simp] theorem fireVector_keeps (h0 : c.s0.fuses = F) (h : s.fuses = F) (op : ScuOp) (b : W64) : (fireVector c op b s).Keeps F := by
  unfold fireVector
  dsimp only
  (repeat' split) <;> simp [h0, h]
@[simp] theorem fireVcfg_keeps (h : s.fuses = F) (b : W64) : (fireVcfg c b s).Keeps F := by simp [fireVcfg, h]
@[simp] theorem fireWimg_keeps (h0 : c.s0.fuses = F) (h : s.fuses = F) (b : W64) : (fireWimg c b s).Keeps F := by
  unfold fireWimg
  dsimp only
  (repeat' split) <;> simp [h0, h]
@[simp] theorem fireWout_keeps (h0 : c.s0.fuses = F) (h : s.fuses = F) (b : W64) : (fireWout c b s).Keeps F := by
  unfold fireWout
  dsimp only
  (repeat' split) <;> simp [h0, h]
@[simp] theorem fireWalk_keeps (h : s.fuses = F) (b : W64) : (fireWalk c b s).Keeps F := by simp [fireWalk, h]
@[simp] theorem readRecv_keeps (h0 : s0.fuses = F) (h : s.fuses = F) (ch : Fin 8) : (readRecv s0 st t ch s).Keeps F := by
  unfold readRecv
  (repeat' split) <;> simp [h0, h]
theorem readSource_keeps (h0 : s0.fuses = F) (h : s.fuses = F) (m : Move) : (readSource s0 st t m s).Keeps F := by
  unfold readSource
  dsimp only
  (repeat' split) <;> simp [h0, h]
theorem readMoves_keeps (h0 : s0.fuses = F) (ms : List Move) (vs : List (Byte × W64)) (h : s.fuses = F) :
    (readMoves s0 st t ms vs s).Keeps F := by
  induction ms generalizing s vs with
  | nil => exact h
  | cons m ms ih =>
    have k := readSource_keeps st t h0 h m
    unfold readMoves
    split
    · exact ih vs h
    · split <;> rename_i e <;> rw [e] at k
      · exact ih _ k
      · trivial
      · exact k
theorem fireTrig_keeps (h0 : c.s0.fuses = F) (h : s.fuses = F) (x : Trig) (b : W64) : (fireTrig c x b s).Keeps F := by
  unfold fireTrig
  split <;> simp [h0, h]
theorem fireMoves_keeps (h0 : c.s0.fuses = F) (vs : List (Byte × W64)) (ms : List Move) (h : s.fuses = F) :
    (fireMoves c vs ms s).Keeps F := by
  induction ms generalizing s with
  | nil => exact h
  | cons m ms ih =>
    unfold fireMoves
    split
    · exact TOut.Keeps.bind (fireTrig_keeps (c := { c with dst := BitVec.ofNat 64 m.dpos }) h0 h _ _) fun u hu => ih hu
    · exact ih h
theorem fireAll_keeps (h0 : c.s0.fuses = F) (h : s.fuses = F) (vs : List (Byte × W64)) (ms : List Move) : (fireAll c vs ms s).Keeps F := by
  have all := fun ms => fireMoves_keeps h0 vs ms h
  unfold fireAll
  split
  · split
    · exact all _
    · exact all _
  · exact all _

end

/-! ### Exceptions (05) -/

@[simp] theorem State.tileStopped_fuses (cause : Byte) (at_ : W16) : (s.tileStopped st t cause at_).fuses = s.fuses := by
  simp [State.tileStopped]
@[simp] theorem State.atticEntry_fuses (k : Fin 3) (f : Vector W64 16) (lvl : Nat) (vecOff : Nat) (cause : Byte) :
    (s.atticEntry st t k f lvl vecOff cause).fuses = s.fuses := by
  simp [State.atticEntry]
@[simp] theorem State.enter_fuses (e : Exc) : (s.enter st t e).fuses = s.fuses := by simp [State.enter]
@[simp] theorem State.enterTest_fuses : (s.enterTest st t).fuses = s.fuses := by simp [State.enterTest]
@[simp] theorem State.eretReturn_fuses (at_ : W16) : (s.eretReturn st t at_).fuses = s.fuses := by
  unfold State.eretReturn
  dsimp only
  (repeat' split) <;> simp

/-! ### The queue unit (08) -/

@[simp] theorem State.elementIssue_fuses (k : Fin 4) : (s.elementIssue st t k).fuses = s.fuses := by
  unfold State.elementIssue
  dsimp only
  split <;> simp
@[simp] theorem State.storeElementSend_fuses (k : Fin 4) : (s.storeElementSend st t k).fuses = s.fuses := by
  unfold State.storeElementSend
  dsimp only
  split <;> simp
@[simp] theorem State.blockIssue_fuses (k : Fin 4) (out : Bool) (meet : Meet) : (s.blockIssue st t k out meet).fuses = s.fuses := by
  unfold State.blockIssue
  dsimp only
  (repeat' split) <;> simp
@[simp] theorem State.blockDone_fuses (k : Fin 4) (out : Bool) (meet : Meet) : (s.blockDone st t k out meet).fuses = s.fuses := by
  unfold State.blockDone
  dsimp only
  (repeat' split) <;> simp
@[simp] theorem State.quAnswer_fuses (r : QResp) : (s.quAnswer st t r).fuses = s.fuses := by
  unfold State.quAnswer
  dsimp only
  (repeat' split) <;> simp

/-! ### The scan unit (04) -/

@[simp] theorem State.walkEnd_fuses (err : Bool) (ended samples edges : Nat) :
    (s.walkEnd st t err ended samples edges).fuses = s.fuses := by
  simp [State.walkEnd]
@[simp] theorem State.walkEdge_fuses (meet : Meet) (w : Walk) (samples k i : Nat) (dNext : Option Int) :
    (s.walkEdge st t meet w samples k i dNext).1.fuses = s.fuses := by
  unfold State.walkEdge
  dsimp only
  (repeat' split) <;> simp
@[simp] theorem State.walkSample_fuses (meet : Meet) : (s.walkSample st t meet).fuses = s.fuses := by
  unfold State.walkSample
  extract_lets T finish
  split
  · rfl
  next w _ =>
    extract_lets k p off u x smp step
    have ends (v : State) (w : Walk) (ended l : Nat) (hv : v.fuses = s.fuses) : (finish v w ended l).fuses = s.fuses := by
      have hy := (v.walkEdge_fuses st t meet w l (l - 1) 0 none).trans hv
      unfold finish
      split
      · simpa using hv
      · split <;> rename_i e <;> rw [e] at hy
        · exact hy
        · simpa using hy
    have hu : u.fuses = s.fuses := by simp [u]
    have hstep : step.1.fuses = s.fuses := by
      unfold step
      split <;> simp [hu]
    clear_value step
    split
    · rfl
    split
    · exact ends s w 1 k rfl
    split
    · simp
    · simp
    · split
      · exact hstep
      split
      · exact ends _ _ _ _ hstep
      · simpa using hstep

/-! ### Issue (02) -/

@[simp] theorem State.finish_fuses (old : Tile) (i : Insn) (rep : Option Nat) : (s.finish st t old i rep).fuses = s.fuses := by
  unfold State.finish
  dsimp only
  split <;> simp
theorem State.runMoves_keeps (i : Insn) (ms : List Move) : (s.runMoves st t i ms).Keeps s.fuses := by
  have k := readMoves_keeps st t (s0 := s) rfl ms [] rfl
  unfold State.runMoves
  dsimp only
  split <;> rename_i e <;> rw [e] at k
  · trivial
  · exact k
  · split
    · trivial
    · exact fireAll_keeps rfl (by rw [State.modTile_fuses]; exact k) _ _
theorem State.execute_keeps (i : Insn) : (s.execute st t i).Keeps s.fuses := by
  unfold State.execute
  dsimp only
  split
  · split
    · rfl
    · split
      · simp
      · exact (s.runMoves_keeps st t i _).bind fun u hu => by simp [hu]
  · rename_i n unint _
    split
    · split <;> simp
    · split
      · simp
      · split
        · simp
        · have k := (s.setTile st t { s.tile st t with rc := BitVec.ofNat 16 n, rip := true, repu := unint }).runMoves_keeps st t i
            (i.enabled (s.tile st t))
          split <;> rename_i e <;> rw [e] at k
          · trivial
          · simpa using k
          · simpa using k
@[simp] theorem State.takeReport_fuses (r : Report) : (s.takeReport st t r).fuses = s.fuses := by simp [State.takeReport]
@[simp] theorem State.drained_fuses {f : State → State} (h : ∀ u, (f u).fuses = u.fuses) : (s.drained st t f).fuses = s.fuses := by
  unfold State.drained
  dsimp only
  split <;> simp [h]
@[simp] theorem State.takeExc_fuses (cause : Byte) (efaddr : W64) : (s.takeExc st t cause efaddr).fuses = s.fuses := by simp [State.takeExc]
@[simp] theorem State.takeFault_fuses {s1 : State} (h : s1.fuses = s.fuses) (cause : Byte) (efaddr : W64) :
    (s.takeFault s1 st t cause efaddr).fuses = s.fuses := by
  simp [State.takeFault, h]
@[simp] theorem State.takeTest_fuses : (s.takeTest st t).fuses = s.fuses := by simp [State.takeTest]
@[simp] theorem State.takeStop_fuses : (s.takeStop st t).fuses = s.fuses := by simp [State.takeStop]
@[simp] theorem State.stalled_fuses : (s.stalled st t).fuses = s.fuses := by simp [State.stalled]
@[simp] theorem State.forceOld_fuses : (s.forceOld st t).fuses = s.fuses := by simp [State.forceOld]
@[simp] theorem State.loadCount_fuses : (s.loadCount st t).fuses = s.fuses := by
  unfold State.loadCount
  dsimp only
  split <;> simp
@[simp] theorem State.boundary_fuses : (s.boundary st t).fuses = s.fuses := by
  unfold State.boundary
  extract_lets u T irq takeIrq v
  have hu : u.fuses = s.fuses := s.forceOld_fuses st t
  have hv : v.fuses = s.fuses := (u.loadCount_fuses st t).trans hu
  have takes (w : State) (n : Nat) (hw : w.fuses = s.fuses) : (takeIrq w n).fuses = s.fuses := by simp [takeIrq, hw]
  clear_value irq
  split
  · rfl
  split
  · simp [hu]
  split
  · simp [hu]
  split
  · simp [hu]
  split
  · simp [hu]
  split
  · simp [hu]
  split
  · exact (v.takeExc_fuses ..).trans hv
  · split
    · exact takes u _ hu
    · simp [hu]
  next i _ =>
    split
    · simp [hv]
    have hi := (v.execute_keeps st t i)
    split <;> rename_i e <;> rw [e] at hi
    · exact (v.takeFault_fuses st t hi _ _).trans hv
    · split
      · exact takes v _ hv
      · simp [hv]
    · have hw := TOut.keeps_done.1 hi |>.trans hv
      split
      · exact takes v _ hv
      · exact hw
@[simp] theorem State.trigger_fuses (seg : Option (Fin 8)) (x : Trig) (b : W64) : (s.trigger st t seg x b).fuses = s.fuses := by
  have k : (fireTrig (Ctx.alone s st t seg) x b s).Keeps s.fuses := fireTrig_keeps rfl rfl x b
  unfold State.trigger
  split
  · rfl
  split
  · simp
  split <;> rename_i e <;> rw [e] at k
  · dsimp only
    split <;> simpa using k
  · simp
  · exact s.takeFault_fuses st t k _ _

/-! ### Banks and ECC (08) -/

@[simp] theorem State.clearBank_fuses (m : BankMem) (b : Nat) : (s.clearBank m b).fuses = s.fuses := by simp [State.clearBank]
@[simp] theorem State.setBankPower_fuses (m : BankMem) (b v : Nat) : (s.setBankPower m b v).fuses = s.fuses := by simp [State.setBankPower]
@[simp] theorem State.setChange_fuses (m : BankMem) (b : Nat) (x : Option (BitVec 2) × Option (BitVec 2)) :
    (s.setChange m b x).fuses = s.fuses := by
  simp [State.setChange]
@[simp] theorem State.endChange_fuses (m : BankMem) (b : Nat) : (s.endChange m b).fuses = s.fuses := by simp [State.endChange]
@[simp] theorem State.bankRequest_fuses (m : BankMem) (b : Nat) (v : BitVec 2) : (s.bankRequest m b v).fuses = s.fuses := by
  unfold State.bankRequest
  (repeat' split) <;> simp
@[simp] theorem State.bankPowerWrite_fuses (m : BankMem) (hi : Bool) (v : W32) : (s.bankPowerWrite m hi v).fuses = s.fuses := by
  unfold State.bankPowerWrite
  (repeat' split) <;> simp
@[simp] theorem State.bankChangeEnd_fuses (m : BankMem) (b : Nat) : (s.bankChangeEnd m b).fuses = s.fuses := by
  unfold State.bankChangeEnd
  (repeat' split) <;> simp
@[simp] theorem State.zeroFillStart_fuses (m : BankMem) (fill : Nat → Bool) : (s.zeroFillStart m fill).fuses = s.fuses := by
  simp [State.zeroFillStart]
@[simp] theorem State.zeroFillEnd_fuses (m : BankMem) (b : Nat) : (s.zeroFillEnd m b).fuses = s.fuses := by
  unfold State.zeroFillEnd
  dsimp only
  (repeat' split) <;> simp
@[simp] theorem State.memCe_fuses (m : FaultMem) (n : Nat) : (s.memCe m n).fuses = s.fuses := by
  unfold State.memCe
  (repeat' split) <;> simp
@[simp] theorem State.memUe_fuses (m : FaultMem) (a : Nat) : (s.memUe m a).fuses = s.fuses := by
  unfold State.memUe
  split <;> simp
@[simp] theorem State.scrubWords_fuses (m : FaultMem) (ws : List Nat) : (s.scrubWords m ws).fuses = s.fuses :=
  foldl_fuses (fun s a => by split <;> simp) ws s
@[simp] theorem State.memScrub_fuses (m : BankMem) (b : Nat) (found : Upset) : (s.memScrub m b found).fuses = s.fuses := by
  simp [State.memScrub]
@[simp] theorem State.lpInit_fuses (n : Fin 2) : (s.lpInit n).fuses = s.fuses := by simp [State.lpInit]
@[simp] theorem State.lpTrainingEnd_fuses (n : Fin 2) (pass : Bool) : (s.lpTrainingEnd n pass).fuses = s.fuses := by
  simp [State.lpTrainingEnd]
@[simp] theorem State.lpSelfRefresh_fuses (n : Fin 2) (enter : Bool) : (s.lpSelfRefresh n enter).fuses = s.fuses := by
  simp [State.lpSelfRefresh]
@[simp] theorem State.lpMr4_fuses (n : Fin 2) (hot : Bool) : (s.lpMr4 n hot).fuses = s.fuses := by simp [State.lpMr4]
@[simp] theorem State.lpScrub_fuses (n : Fin 2) (found : Upset) : (s.lpScrub n found).fuses = s.fuses := by simp [State.lpScrub]
@[simp] theorem State.lpCtrlWrite_fuses (n : Fin 2) (v : W32) : (s.lpCtrlWrite n v).fuses = s.fuses := by simp [State.lpCtrlWrite]

/-! ### Load cells and the Pantry (10) -/

@[simp] theorem State.flashErase_fuses (o n : Nat) : (s.flashErase o n).fuses = s.fuses := by simp [State.flashErase]
@[simp] theorem State.flashProgram_fuses (o : Nat) (bs : List Byte) : (s.flashProgram o bs).fuses = s.fuses := by
  induction bs generalizing s o with
  | nil => rfl
  | cons b bs ih => exact ih _ _
@[simp] theorem State.setRegBytes_fuses (a : Nat) (bs : List Byte) : (s.setRegBytes a bs).fuses = s.fuses := by simp [State.setRegBytes]
@[simp] theorem State.modLc_fuses (c : Fin 8) (f : LcChan → LcChan) : (s.modLc c f).fuses = s.fuses := by simp [State.modLc]
@[simp] theorem State.lcFlag_fuses (c : Fin 8) (i : Nat) : (s.lcFlag c i).fuses = s.fuses := by simp [State.lcFlag]
@[simp] theorem State.settleIf_fuses (old : State) (c : Fin 8) : (s.settleIf old c).fuses = s.fuses := by simp [State.settleIf]
@[simp] theorem State.lcSettingsWrite_fuses (c : Fin 8) (off : Nat) (v : W32) : (s.lcSettingsWrite c off v).fuses = s.fuses := by
  simp [State.lcSettingsWrite]
@[simp] theorem State.lcTake_fuses (c : Fin 8) : (s.lcTake c).fuses = s.fuses := by simp [State.lcTake]
@[simp] theorem State.lcLoad_fuses (c : Fin 8) : (s.lcLoad c).fuses = s.fuses := by simp [State.lcLoad]
@[simp] theorem State.lcLoadEnd_fuses (c : Fin 8) : (s.lcLoadEnd c).fuses = s.fuses := by simp [State.lcLoadEnd]
@[simp] theorem State.lcEnable_fuses (c : Fin 8) : (s.lcEnable c).fuses = s.fuses := by simp [State.lcEnable]
@[simp] theorem State.lcExcitation_fuses (c : Fin 8) (on : Bool) : (s.lcExcitation c on).fuses = s.fuses := by simp [State.lcExcitation]
@[simp] theorem State.excitationFault_fuses (c : Fin 8) : (s.excitationFault c).fuses = s.fuses := by simp [State.excitationFault]
@[simp] theorem State.openWire_fuses (c : Fin 8) (line : Fin 6) : (s.openWire c line).fuses = s.fuses := by simp [State.openWire]
@[simp] theorem State.wireReconnect_fuses (c : Fin 8) (line : Fin 6) : (s.wireReconnect c line).fuses = s.fuses := by
  simp [State.wireReconnect]
@[simp] theorem State.senseFault_fuses (c : Fin 8) : (s.senseFault c).fuses = s.fuses := by simp [State.senseFault]
@[simp] theorem State.senseFaultEnd_fuses (c : Fin 8) : (s.senseFaultEnd c).fuses = s.fuses := by simp [State.senseFaultEnd]
@[simp] theorem State.calsealChange_fuses (isOpen : Bool) : (s.calsealChange isOpen).fuses = s.fuses := by simp [State.calsealChange]
@[simp] theorem State.lcNotify_fuses (c : Fin 8) : (s.lcNotify c).fuses = s.fuses := by simp [State.lcNotify]
@[simp] theorem State.lcSample_fuses (c : Fin 8) (first second : List (BitVec 24)) (ovr : Bool) :
    (s.lcSample c first second ovr).fuses = s.fuses := by
  simp [State.lcSample]
@[simp] theorem State.modFlash_fuses (f : FlashCtl → FlashCtl) : (s.modFlash f).fuses = s.fuses := by simp [State.modFlash]
@[simp] theorem State.doorbell_fuses (off : Nat) (v : W64) : (s.doorbell st t off v).fuses = s.fuses := by simp [State.doorbell]
@[simp] theorem State.disarm_fuses : s.disarm.fuses = s.fuses := by simp [State.disarm]
@[simp] theorem State.pantryRes_fuses (res : Nat) : (s.pantryRes res).fuses = s.fuses := by simp [State.pantryRes]
@[simp] theorem State.commitStart_fuses (j : CommitJob) : (s.commitStart j).fuses = s.fuses := by simp [State.commitStart]
@[simp] theorem State.commitOver_fuses (j : CommitJob) (res : Nat) : (s.commitOver j res).fuses = s.fuses := by simp [State.commitOver]
@[simp] theorem State.commitGo_fuses (asker : Stn × BitVec 6) : (s.commitGo asker).fuses = s.fuses := by
  unfold State.commitGo
  (repeat' split) <;> simp
@[simp] theorem State.auditAppend_fuses (rec : List Byte) : (s.auditAppend rec).fuses = s.fuses := by simp [State.auditAppend]
@[simp] theorem State.commitRecord_fuses : s.commitRecord.fuses = s.fuses := by
  unfold State.commitRecord
  split <;> simp
@[simp] theorem State.commitTick_fuses : s.commitTick.fuses = s.fuses := by
  unfold State.commitTick
  split <;> simp
@[simp] theorem State.commitEnd_fuses (ok : Bool) : (s.commitEnd ok).fuses = s.fuses := by
  unfold State.commitEnd
  split
  · dsimp only
    simp only [State.commitOver_fuses, State.pantryRes_fuses, State.setFld_fuses, State.disarm_fuses, State.setRegBytes_fuses]
    rw [foldl_fuses fun s c => by split <;> simp]
    simp
  · rfl
@[simp] theorem State.appendGo_fuses : s.appendGo.fuses = s.fuses := by simp [State.appendGo]
@[simp] theorem State.appendEnd_fuses (ok : Bool) : (s.appendEnd ok).fuses = s.fuses := by
  unfold State.appendEnd
  split <;> simp

/-! ### The matrix queue (11) -/

@[simp] theorem State.decodeError_fuses (m : Master) (a : Nat) : (s.decodeError m a).fuses = s.fuses := by simp [State.decodeError]
@[simp] theorem State.mxAnswer_fuses (m : Master) (r : MxOpen) : (s.mxAnswer m r).fuses = s.fuses := by
  unfold State.mxAnswer
  split <;> simp
@[simp] theorem State.mxEnqueue_fuses (m : Master) (req : MxReq) (origin : Option (Stn × QReq)) :
    (s.mxEnqueue m req origin).fuses = s.fuses := by
  simp [State.mxEnqueue]
@[simp] theorem State.matrixRequest_fuses (m : Master) (r : MxReq) : (s.matrixRequest m r).fuses = s.fuses := by simp [State.matrixRequest]

/-! ### A tile from outside its program (05) -/

@[simp] theorem State.noted_fuses : s.noted.fuses = s.fuses := by simp [State.noted]
@[simp] theorem State.reserved_fuses (a : Nat) (v : W32) : (s.reserved a v).fuses = s.fuses := by simp [State.reserved]
@[simp] theorem State.reservedIf_fuses (c : Bool) (a : Nat) (v : W32) : (s.reservedIf c a v).fuses = s.fuses := by simp [State.reservedIf]
@[simp] theorem State.issue_fuses (meet : Meet) : (s.issue st t meet).fuses = s.fuses := by
  unfold State.issue
  dsimp only
  (repeat' split) <;> simp
@[simp] theorem State.irqEntry_fuses : (s.irqEntry st t).fuses = s.fuses := by simp [State.irqEntry]
@[simp] theorem State.arithReport_fuses : (s.arithReport st t).fuses = s.fuses := by simp [State.arithReport]
@[simp] theorem State.windowEnd_fuses : (s.windowEnd st t).fuses = s.fuses := by simp [State.windowEnd]
@[simp] theorem State.idleWake_fuses : (s.idleWake st t).fuses = s.fuses := by simp [State.idleWake]
@[simp] theorem State.operationComplete_fuses (u : UnitId) : (s.operationComplete st t u).fuses = s.fuses := by
  simp [State.operationComplete]
@[simp] theorem State.transfer_fuses (x : Trig) (b : W64) : (s.transfer st t x b).fuses = s.fuses := by simp [State.transfer]
@[simp] theorem State.idleTrigger_fuses : (s.idleTrigger st t).fuses = s.fuses := by simp [State.idleTrigger]
@[simp] theorem State.takeComplete_fuses : (s.takeComplete st t).fuses = s.fuses := by simp [State.takeComplete]
@[simp] theorem State.recordTest_fuses (c k : Nat) (serves : Bool) : (s.recordTest st c k serves).fuses = s.fuses := by
  simp [State.recordTest]
@[simp] theorem State.beginRepair_fuses : (s.beginRepair st).fuses = s.fuses := by
  unfold State.beginRepair
  dsimp only
  (repeat' split) <;> simp
@[simp] theorem State.askRepair_fuses (r : Fin 8 × Fin 6) : (s.askRepair st r).fuses = s.fuses := by simp [State.askRepair]
@[simp] theorem State.tileStart_fuses : (s.tileStart st t).fuses = s.fuses := by simp [State.tileStart]
@[simp] theorem State.clearCounters_fuses : (s.clearCounters st t).fuses = s.fuses := by simp [State.clearCounters]
@[simp] theorem State.startTile_fuses : (s.startTile st t).fuses = s.fuses := by simp [State.startTile]
@[simp] theorem State.tileSelfTestEnd_fuses : (s.tileSelfTestEnd st t).fuses = s.fuses := by
  unfold State.tileSelfTestEnd
  dsimp only
  (repeat' split) <;> simp
@[simp] theorem State.pipeFailure_fuses (p : Phys) (k : PipeKind) : (s.pipeFailure st p k).fuses = s.fuses := by
  unfold State.pipeFailure
  dsimp only
  (repeat' split) <;> simp
@[simp] theorem State.tileStopRequest_fuses : (s.tileStopRequest st t).fuses = s.fuses := by
  unfold State.tileStopRequest
  split <;> simp
@[simp] theorem State.tileStopTaken_fuses : (s.tileStopTaken st t).fuses = s.fuses := by simp [State.tileStopTaken]
@[simp] theorem State.tileTestRequest_fuses : (s.tileTestRequest st t).fuses = s.fuses := by simp [State.tileTestRequest]
@[simp] theorem State.testEntry_fuses : (s.testEntry st t).fuses = s.fuses := by simp [State.testEntry]
@[simp] theorem State.tileSwi_fuses (hall : Bool) (v : W32) : (s.tileSwi st t hall v).fuses = s.fuses := by simp [State.tileSwi]

/-! ### The station network (07) -/

@[simp] theorem State.netFlag_fuses (i : Nat) : (s.netFlag st i).fuses = s.fuses := by simp [State.netFlag]
@[simp] theorem State.charge_fuses (w : LinkWord) (sel : Nat) : (s.charge st w sel).fuses = s.fuses := by
  unfold State.charge
  dsimp only
  split <;> simp
@[simp] theorem State.holdWord_fuses (sel : Nat) (w : LinkWord) (conflict : Bool) : (s.holdWord st sel w conflict).fuses = s.fuses := by
  simp [State.holdWord]
@[simp] theorem State.channelInject_fuses (c : Fin 8) (slot : Nat) : (s.channelInject st t c slot).fuses = s.fuses := by
  unfold State.channelInject
  (repeat' split) <;> simp
@[simp] theorem State.creditInject_fuses (c : Fin 8) (slot : Nat) : (s.creditInject st t c slot).fuses = s.fuses := by
  unfold State.creditInject
  (repeat' split) <;> simp
@[simp] theorem State.queueLeave_fuses (n : Nat) (ws : List LinkWord) : (s.queueLeave st n ws).fuses = s.fuses := by simp [State.queueLeave]
@[simp] theorem State.feedLocal_fuses (n : Nat) : (s.feedLocal st n).fuses = s.fuses := by simp [State.feedLocal]
@[simp] theorem State.bePop_fuses (n i cls : Nat) : (s.bePop st n i cls).fuses = s.fuses := by simp [State.bePop]
@[simp] theorem State.loadOutput_fuses (sel cyc : Nat) (found : LinkUpset) : (s.loadOutput st sel cyc found).fuses = s.fuses := by
  unfold State.loadOutput
  dsimp only
  (repeat' split) <;> simp
@[simp] theorem State.linkWordHop_fuses (sel slot : Nat) (found : LinkUpset) : (s.linkWordHop st sel slot found).fuses = s.fuses := by
  unfold State.linkWordHop
  dsimp only
  (repeat' split) <;> simp
@[simp] theorem State.channelDataDeliver_fuses (slot : Nat) : (s.channelDataDeliver st t slot).fuses = s.fuses := by
  unfold State.channelDataDeliver
  dsimp only
  (repeat' split) <;> simp
@[simp] theorem State.creditDeliver_fuses (slot : Nat) : (s.creditDeliver st t slot).fuses = s.fuses := by
  unfold State.creditDeliver
  split <;> simp
@[simp] theorem State.mailArrive_fuses (n : Nat) (src : Nat) (band : Bool) (payload : BitVec 48) :
    (s.mailArrive st n src band payload).fuses = s.fuses := by
  simp [State.mailArrive]
@[simp] theorem State.mailboxDeliver_fuses (n slot : Nat) : (s.mailboxDeliver st n slot).fuses = s.fuses := by
  unfold State.mailboxDeliver
  split <;> simp
@[simp] theorem State.queueWordIn_fuses (n m slot : Nat) : (s.queueWordIn st n m slot).1.fuses = s.fuses := by
  unfold State.queueWordIn
  (repeat' split) <;> simp
@[simp] theorem State.takeDivisor_fuses : (s.takeDivisor st).fuses = s.fuses := by
  unfold State.takeDivisor
  split <;> simp
@[simp] theorem State.freezeWork_fuses : (s.freezeWork st).fuses = s.fuses := by simp [State.freezeWork]
@[simp] theorem State.frameBoundary_fuses : (s.frameBoundary st).fuses = s.fuses := by simp [State.frameBoundary]
@[simp] theorem State.freezeEnd_fuses : (s.freezeEnd st).fuses = s.fuses := by simp [State.freezeEnd]
@[simp] theorem State.slotTableScrub_fuses (sel i : Nat) (found : Upset) : (s.slotTableScrub st sel i found).fuses = s.fuses := by
  unfold State.slotTableScrub
  (repeat' split) <;> simp
@[simp] theorem State.netFixGo_fuses (v : W32) : (s.netFixGo st v).fuses = s.fuses := by
  unfold State.netFixGo
  dsimp only
  (repeat' split) <;> simp
@[simp] theorem State.netHalt_fuses (halt : Bool) : (s.netHalt st halt).fuses = s.fuses := by simp [State.netHalt]
@[simp] theorem State.hallMailboxSend_fuses (v : W32) : (s.hallMailboxSend st v).fuses = s.fuses := by
  simp only [State.hallMailboxSend, State.fuses_ite, State.setStn_fuses, State.setReg_fuses, ite_self]
@[simp] theorem State.hallPop_fuses : (s.hallPop st).fuses = s.fuses := by simp [State.hallPop]

/-! ### Nodes of the network (08) -/

@[simp] theorem State.stnMemFail_fuses (off n : Nat) (r : RespStat) : (s.stnMemFail st off n r).fuses = s.fuses := by
  unfold State.stnMemFail
  (repeat' split) <;> simp
@[simp] theorem State.stnMemCe_fuses (off n : Nat) : (s.stnMemCe st off n).fuses = s.fuses := by simp [State.stnMemCe]
@[simp] theorem State.stnMemWrite_fuses (off : Nat) (bs : List Byte) : (s.stnMemWrite st off bs).fuses = s.fuses := by
  simp [State.stnMemWrite]
@[simp] theorem State.stnMemRead_fuses (off n : Nat) : (s.stnMemRead st off n).1.fuses = s.fuses := by
  unfold State.stnMemRead
  split <;> simp
@[simp] theorem State.stnMemStore_fuses (off : Nat) (bs : List Byte) : (s.stnMemStore st off bs).1.fuses = s.fuses := by
  unfold State.stnMemStore
  dsimp only
  split <;> simp
@[simp] theorem State.takeRequest_fuses (node : Fin 9) (q : QReq) : (s.takeRequest st node q).fuses = s.fuses := by
  unfold State.takeRequest
  split <;> simp
@[simp] theorem State.queueArrival_fuses (node : Fin 9) (slot : Nat) : (s.queueArrival st t node slot).fuses = s.fuses := by
  have h := s.queueWordIn_fuses st (40 + node.val) t.val slot
  unfold State.queueArrival
  split <;> simp_all
@[simp] theorem State.nodeAnswer_fuses (g : Fin 8) (q : QReq) (r : RespStat) (data : List Byte) :
    (s.nodeAnswer st g q r data).fuses = s.fuses := by
  simp [State.nodeAnswer]
@[simp] theorem State.nodeBusyRead_fuses (g : Fin 8) (q : QReq) : (s.nodeBusyRead st g q).fuses = s.fuses := by simp [State.nodeBusyRead]
@[simp] theorem State.busyWb_fuses (q : QReq) : (s.busyWb st q).fuses = s.fuses := by simp [State.busyWb]
@[simp] theorem State.nodeBusyWrite_fuses (q : QReq) : (s.nodeBusyWrite st q).fuses = s.fuses := by simp [State.nodeBusyWrite]
@[simp] theorem State.nodeAccess_fuses (g : Fin 8) (collide : Bool) : (s.nodeAccess st g collide).fuses = s.fuses := by
  unfold State.nodeAccess
  (repeat' split) <;> simp
@[simp] theorem State.nodeBankAccess_fuses (g : Fin 8) (collide : Bool) : (s.nodeBankAccess st g collide).fuses = s.fuses := by
  simp [State.nodeBankAccess]
@[simp] theorem State.readReissue_fuses (g : Fin 8) (collide : Bool) : (s.readReissue st g collide).fuses = s.fuses := by
  simp [State.readReissue]
@[simp] theorem State.atomicAtBank_fuses (g : Fin 8) (collide : Bool) : (s.atomicAtBank st g collide).fuses = s.fuses := by
  unfold State.atomicAtBank
  (repeat' split) <;> simp
@[simp] theorem State.queueResponse_fuses (node : Fin 9) (slot : Nat) : (s.queueResponse st t node slot).fuses = s.fuses := by
  have h := s.queueWordIn_fuses st t.val (40 + node.val) slot
  unfold State.queueResponse
  split <;> simp_all
@[simp] theorem State.lineFill_fuses : (s.lineFill st t).fuses = s.fuses := by
  unfold State.lineFill
  dsimp only
  (repeat' split) <;> simp
@[simp] theorem State.lfixWrite_fuses (v : W32) : (s.lfixWrite st t v).1.fuses = s.fuses := by
  unfold State.lfixWrite
  dsimp only
  (repeat' split) <;> simp
@[simp] theorem State.lineReloadEnd_fuses : (s.lineReloadEnd st t).fuses = s.fuses := by simp [State.lineReloadEnd]

/-! ### Memory seen from the matrix (08, 11) -/

@[simp] theorem State.memOff_fuses (m : FaultMem) (c : MxCode) : (s.memOff m c).fuses = s.fuses := by
  unfold State.memOff
  split <;> simp
@[simp] theorem State.beatRead_fuses (m : FaultMem) (a : Nat) (mask : W64) : (s.beatRead m a mask).1.fuses = s.fuses := by
  unfold State.beatRead
  dsimp only
  (repeat' split) <;> simp
@[simp] theorem State.beatWrite_fuses (m : FaultMem) (a : Nat) (mask : W64) (d : BitVec 512) :
    (s.beatWrite m a mask d).1.fuses = s.fuses := by
  unfold State.beatWrite
  (repeat' split) <;> simp
@[simp] theorem State.pieceError_fuses (m : Master) (a b : Nat) : (s.pieceError m a b).fuses = s.fuses := by simp [State.pieceError]
@[simp] theorem State.busyMark_fuses (mem : FaultMem) : (s.busyMark mem).fuses = s.fuses := by
  unfold State.busyMark
  split <;> simp
@[simp] theorem State.writeMet_fuses (m : Master) (mem : FaultMem) (p : Nat) (mask : W64) (d : BitVec 512) (meet : Option PortMeet) :
    (s.writeMet m mem p mask d meet).1.1.fuses = s.fuses := by
  unfold State.writeMet
  dsimp only
  (repeat' split) <;> simp
@[simp] theorem State.memWrite_fuses (m : Master) (a : Nat) (bs : List Byte) (around : Around) :
    (s.memWrite m a bs around).1.fuses = s.fuses :=
  foldl_fst_fuses (fun x b => by split <;> simp) _ (s, true)
@[simp] theorem State.memRead_fuses (m : Master) (a n : Nat) : (s.memRead m a n).1.fuses = s.fuses :=
  foldl_fst_fuses (fun x b => by dsimp only; split <;> simp) _ (s, true, [])

/-! ### Time base and timers (11) -/

@[simp] theorem State.dmaRelease_fuses (src sel : Nat) (self : Option (Fin 16)) : (s.dmaRelease src sel self).fuses = s.fuses := by
  simp [State.dmaRelease]
@[simp] theorem State.timerRun_fuses (n : Fin 8) : (s.timerRun n).fuses = s.fuses := by simp [State.timerRun]
@[simp] theorem State.timerEnable_fuses (n : Fin 8) (v : W32) : (s.timerEnable n v).fuses = s.fuses := by simp [State.timerEnable]
@[simp] theorem State.timerStart_fuses (n : Fin 8) : (s.timerStart n).fuses = s.fuses := by simp [State.timerStart]
@[simp] theorem State.timerTiles_fuses (n : Fin 8) : (s.timerTiles n).fuses = s.fuses := by simp [State.timerTiles]
@[simp] theorem State.timerEvent_fuses (n : Fin 8) : (s.timerEvent n).fuses = s.fuses := by
  unfold State.timerEvent
  dsimp only
  (repeat' split) <;> simp
@[simp] theorem State.timerTick_fuses (n : Fin 8) : (s.timerTick n).fuses = s.fuses := by simp [State.timerTick]
@[simp] theorem State.tbLatchRead_fuses (m : Master) : (s.tbLatchRead m).fuses = s.fuses := by simp [State.tbLatchRead]

/-! ### Camera ingest (09) -/

@[simp] theorem State.modCtx_fuses (k : Fin 8) (f : CamCtx → CamCtx) : (s.modCtx st k f).fuses = s.fuses := by simp [State.modCtx]
@[simp] theorem State.openSlot_fuses (k : Fin 8) (row0 : Nat) : (s.openSlot st k row0).fuses = s.fuses := by simp [State.openSlot]
@[simp] theorem State.closeSlot_fuses (k : Fin 8) (fe inc shortf : Bool) : (s.closeSlot st k fe inc shortf).fuses = s.fuses := by
  unfold State.closeSlot
  dsimp only
  split <;> simp
@[simp] theorem State.endFrame_fuses (k : Fin 8) (fe inc always : Bool) : (s.endFrame st k fe inc always).fuses = s.fuses := by
  simp [State.endFrame]
@[simp] theorem State.received_fuses (r : Fin 4) : (s.received st r).fuses = s.fuses := by simp [State.received]
@[simp] theorem State.frameStart_fuses (r : Fin 4) (vc : BitVec 2) (fnum : W16) : (s.frameStart st r vc fnum).fuses = s.fuses := by
  simp [State.frameStart]
@[simp] theorem State.frameEnd_fuses (r : Fin 4) (vc : BitVec 2) : (s.frameEnd st r vc).fuses = s.fuses := by simp [State.frameEnd]
@[simp] theorem State.lineStart_fuses (r : Fin 4) (vc : BitVec 2) (line : W16) : (s.lineStart st r vc line).fuses = s.fuses := by
  simp [State.lineStart]
@[simp] theorem State.csiUlps_fuses (r : Fin 4) (enter : Bool) : (s.csiUlps st r enter).fuses = s.fuses := by simp [State.csiUlps]
@[simp] theorem State.startOfTx_fuses (r : Fin 4) (ok : Bool) : (s.startOfTx st r ok).fuses = s.fuses := by simp [State.startOfTx]
@[simp] theorem State.headerError_fuses (r : Fin 4) : (s.headerError st r).fuses = s.fuses := by simp [State.headerError]
@[simp] theorem State.storeRow_fuses (r : Fin 4) (k : Fin 8) (row : Nat) (p : LongPkt) : (s.storeRow st r k row p).fuses = s.fuses := by
  unfold State.storeRow
  extract_lets g row0 late s1 s2 i got short long flags
  split
  · rfl
  have h1 : s1.fuses = s.fuses := by
    unfold s1
    split
    · split <;> simp
    · rfl
  have h2 : s2.fuses = s.fuses := by simp [s2, h1]
  split
  · exact h2
  · extract_lets S u v
    have h3 : v.fuses = s.fuses := by simp [v, u, h2]
    simp [h3]
@[simp] theorem State.longPacket_fuses (r : Fin 4) (p : LongPkt) : (s.longPacket st r p).fuses = s.fuses := by
  unfold State.longPacket
  dsimp only
  rw [State.fuses_ite, State.modStn_fuses, foldl_fuses fun s k => ?_]
  · simp
  · (repeat' split) <;> simp
@[simp] theorem State.ingestWrite_fuses (k : Fin 8) (around : Around) : (s.ingestWrite st k around).fuses = s.fuses := by
  unfold State.ingestWrite
  dsimp only
  (repeat' split) <;> simp
@[simp] theorem State.postNotice_fuses (k : Fin 8) (node : Nat) (payload : BitVec 48) :
    (s.postNotice st k node payload).fuses = s.fuses := by
  simp [State.postNotice]
@[simp] theorem State.slotComplete_fuses (k : Fin 8) (around : Around) : (s.slotComplete st k around).fuses = s.fuses := by
  unfold State.slotComplete
  split <;> simp
@[simp] theorem State.cfgFields_fuses (k : Fin 8) (v : W32) : (s.cfgFields st k v).fuses = s.fuses := by simp [State.cfgFields]
@[simp] theorem State.flushCtx_fuses (k : Fin 8) : (s.flushCtx st k).fuses = s.fuses := by simp [State.flushCtx]
@[simp] theorem State.camWritten_fuses {f : State → State} (h : (f s).fuses = s.fuses) : (s.camWritten st f).fuses = s.fuses := by
  simp [State.camWritten, h]
@[simp] theorem State.contextEnable_fuses (k : Fin 8) (v : W32) : (s.contextEnable st k v).fuses = s.fuses := by simp [State.contextEnable]
@[simp] theorem State.contextDisable_fuses (k : Fin 8) (v : W32) : (s.contextDisable st k v).fuses = s.fuses := by
  simp [State.contextDisable]
@[simp] theorem State.contextAbort_fuses (k : Fin 8) (v : W32) : (s.contextAbort st k v).fuses = s.fuses := by simp [State.contextAbort]

/-! ### The legacy bus (13) -/

@[simp] theorem State.laneNotice_fuses (src : LaneSrc) : (s.laneNotice src).fuses = s.fuses := by simp [State.laneNotice]
@[simp] theorem State.modWin_fuses (f : WinState → WinState) : (s.modWin f).fuses = s.fuses := by simp [State.modWin]
@[simp] theorem State.setMirror_fuses (n i : Nat) (v : W16) : (s.setMirror n i v).fuses = s.fuses := by simp [State.setMirror]
@[simp] theorem State.setWinFifo_fuses (k : Fin 16) (f : WinFifo) : (s.setWinFifo k f).fuses = s.fuses := by simp [State.setWinFifo]
@[simp] theorem State.logAppend_fuses (lo ts : W32) : (s.logAppend lo ts).fuses = s.fuses := by
  unfold State.logAppend
  dsimp only
  (repeat' split) <;> simp
@[simp] theorem State.logPop_fuses : s.logPop.fuses = s.fuses := by
  unfold State.logPop
  dsimp only
  (repeat' split) <;> simp
@[simp] theorem State.mirrorWrite_fuses (m : Master) (n : Fin 8) (pair : Fin 128) (v : W32) :
    (s.mirrorWrite m n pair v).fuses = s.fuses := by
  simp [State.mirrorWrite]
@[simp] theorem State.aliasWrite_fuses (m : Master) (clr : Bool) (n : Fin 8) (pair : Fin 128) (v : W32) :
    (s.aliasWrite m clr n pair v).fuses = s.fuses := by
  simp [State.aliasWrite]
@[simp] theorem State.typeWrite_fuses (m : Master) (n : Fin 8) (quad : Fin 64) (v : W32) : (s.typeWrite m n quad v).fuses = s.fuses := by
  simp [State.typeWrite]
@[simp] theorem State.fifoPush_fuses (m : Master) (k : Fin 16) (v : W32) : (s.fifoPush m k v).fuses = s.fuses := by simp [State.fifoPush]
@[simp] theorem State.fifoClr_fuses (m : Master) (k : Fin 16) : (s.fifoClr m k).fuses = s.fuses := by simp [State.fifoClr]
@[simp] theorem State.fwPerform_fuses (fw : FwAccess) : (s.fwPerform fw).fuses = s.fuses := by
  unfold State.fwPerform
  (repeat' split) <;> simp
@[simp] theorem State.fifoRead_fuses (k : Fin 16) (l : Bool × Bool) : (s.fifoRead k l).1.fuses = s.fuses := by
  unfold State.fifoRead
  dsimp only
  (repeat' split) <;> simp
@[simp] theorem State.legacyRead_fuses (la : BitVec 20) (bheN : Bool) (fw : FwAccess) : (s.legacyRead la bheN fw).fuses = s.fuses := by
  unfold State.legacyRead
  split <;> simp
@[simp] theorem State.legacyWrite_fuses (la : BitVec 20) (x : WriteCycle) (data : W16) (fw : FwAccess) :
    (s.legacyWrite la x data fw).fuses = s.fuses := by
  unfold State.legacyWrite
  (repeat' split) <;> simp
@[simp] theorem State.lresetRise_fuses : s.lresetRise.fuses = s.fuses := by simp [State.lresetRise]
@[simp] theorem State.lresetRecord_fuses : s.lresetRecord.fuses = s.fuses := by
  unfold State.lresetRecord
  split <;> simp
@[simp] theorem State.lresetFall_fuses : s.lresetFall.fuses = s.fuses := by simp [State.lresetFall]
@[simp] theorem State.lioevWrite_fuses (hi : Bool) (v : W32) : (s.lioevWrite st hi v).fuses = s.fuses := by simp [State.lioevWrite]

/-! ### Serial ports (13) -/

@[simp] theorem State.setSer_fuses (p : Fin 20) (P : SerPort) : (s.setSer p P).fuses = s.fuses := by simp [State.setSer]
@[simp] theorem State.serNotice_fuses (old : State) (p : Fin 20) : (s.serNotice old p).fuses = s.fuses := by simp [State.serNotice]
@[simp] theorem State.serSend_fuses (p : Fin 20) : (s.serSend p).fuses = s.fuses := by
  unfold State.serSend
  dsimp only
  split <;> simp
@[simp] theorem State.serialRx_fuses (p : Fin 20) (c : RxChar) : (s.serialRx p c).fuses = s.fuses := by simp [State.serialRx]
@[simp] theorem State.serialTx_fuses (p : Fin 20) : (s.serialTx p).fuses = s.fuses := by simp [State.serialTx]
@[simp] theorem State.serPop_fuses (p : Fin 20) : (s.serPop p).fuses = s.fuses := by simp [State.serPop]
@[simp] theorem State.serDataRead_fuses (m : Master) (p : Fin 20) : (s.serDataRead m p).fuses = s.fuses := by simp [State.serDataRead]
@[simp] theorem State.serDataWrite_fuses (m : Master) (p : Fin 20) (v : W32) : (s.serDataWrite m p v).fuses = s.fuses := by
  simp [State.serDataWrite]
@[simp] theorem State.rxTimeout_fuses (p : Fin 20) : (s.rxTimeout p).fuses = s.fuses := by simp [State.rxTimeout]
@[simp] theorem State.modemChange_fuses (p : Fin 20) (lines : BitVec 4) : (s.modemChange p lines).fuses = s.fuses := by
  simp [State.modemChange]
@[simp] theorem State.deRelease_fuses (n : Fin 4) : (s.deRelease n).fuses = s.fuses := by simp [State.deRelease]
@[simp] theorem State.serCtrlWrite_fuses (m : Master) (p : Fin 20) (v : W32) : (s.serCtrlWrite m p v).fuses = s.fuses := by
  simp [State.serCtrlWrite]
@[simp] theorem State.serBaudWrite_fuses (p : Fin 20) (v : W32) : (s.serBaudWrite p v).fuses = s.fuses := by simp [State.serBaudWrite]

/-! ### USB (13) -/

@[simp] theorem State.modUsb_fuses (g : Fin 4) (f : UsbGroup → UsbGroup) : (s.modUsb g f).fuses = s.fuses := by simp [State.modUsb]
@[simp] theorem State.pipeEnd_fuses (g : Fin 4) (p : Fin 16) (res count : Nat) (short : Bool) :
    (s.pipeEnd g p res count short).fuses = s.fuses := by
  simp only [State.pipeEnd, State.fuses_ite, State.laneNotice_fuses, State.modUsb_fuses, State.setFlag_fuses, State.setReg_fuses, ite_self]
@[simp] theorem State.usbPipeGo_fuses (g : Fin 4) (p : Fin 16) (fits : Bool) : (s.usbPipeGo g p fits).fuses = s.fuses := by
  unfold State.usbPipeGo
  (repeat' split) <;> simp
@[simp] theorem State.usbPipeAbort_fuses (g : Fin 4) (p : Fin 16) : (s.usbPipeAbort g p).fuses = s.fuses := by simp [State.usbPipeAbort]
@[simp] theorem State.usbStore_fuses (g : Fin 4) (o : Nat) (bs : List Byte) : (s.usbStore g o bs).fuses = s.fuses := by
  induction bs generalizing s o with
  | nil => rfl
  | cons b bs ih => rw [State.usbStore, ih, State.setFld_fuses]
@[simp] theorem State.pipeToggle_fuses (g : Fin 4) (p : Fin 16) (n : Nat) : (s.pipeToggle g p n).fuses = s.fuses := by
  simp [State.pipeToggle]
@[simp] theorem State.pipeAcked_fuses (g : Fin 4) (p : Fin 16) (mps want n : Nat) : (s.pipeAcked g p mps want n).fuses = s.fuses := by
  simp [State.pipeAcked]
@[simp] theorem State.usbTransferEnd_fuses (g : Fin 4) (p : Fin 16) (o : UsbOutcome) : (s.usbTransferEnd g p o).fuses = s.fuses := by
  unfold State.usbTransferEnd
  dsimp only
  (repeat' split) <;> simp
@[simp] theorem State.usbIntervalPoll_fuses (g : Fin 4) (p : Fin 16) (o : UsbOutcome) : (s.usbIntervalPoll g p o).fuses = s.fuses := by
  unfold State.usbIntervalPoll
  (repeat' split) <;> simp
@[simp] theorem State.portChg_fuses (g k : Fin 4) : (s.portChg g k).fuses = s.fuses := by simp [State.portChg]
@[simp] theorem State.usbPortReset_fuses (g k : Fin 4) : (s.usbPortReset g k).fuses = s.fuses := by simp [State.usbPortReset]
@[simp] theorem State.usbPortResetEnd_fuses (g k : Fin 4) (speed : BitVec 2) : (s.usbPortResetEnd g k speed).fuses = s.fuses := by
  unfold State.usbPortResetEnd
  dsimp only
  (repeat' split) <;> simp
@[simp] theorem State.usbSuspend_fuses (g k : Fin 4) : (s.usbSuspend g k).fuses = s.fuses := by simp [State.usbSuspend]
@[simp] theorem State.usbResume_fuses (g k : Fin 4) : (s.usbResume g k).fuses = s.fuses := by simp [State.usbResume]
@[simp] theorem State.portGone_fuses (g k : Fin 4) : (s.portGone g k).fuses = s.fuses := by simp [State.portGone]
@[simp] theorem State.usbConnectChange_fuses (g k : Fin 4) (attached : Bool) : (s.usbConnectChange g k attached).fuses = s.fuses := by
  simp [State.usbConnectChange]
@[simp] theorem State.usbOvercurrent_fuses (g k : Fin 4) : (s.usbOvercurrent g k).fuses = s.fuses := by simp [State.usbOvercurrent]
@[simp] theorem State.usbCtrlWrite_fuses (m : Master) (g : Fin 4) (v : W32) : (s.usbCtrlWrite m g v).fuses = s.fuses := by
  simp [State.usbCtrlWrite]
@[simp] theorem State.frameTick_fuses (g : Fin 4) : (s.frameTick g).fuses = s.fuses := by
  unfold State.frameTick
  split <;> simp
@[simp] theorem State.usbPortWrite_fuses (g k : Fin 4) (v : W32) : (s.usbPortWrite g k v).fuses = s.fuses := by simp [State.usbPortWrite]

/-! ### GPIO and drawers (13) -/

@[simp] theorem State.drawerFire_fuses (n : Fin 8) : (s.drawerFire n).fuses = s.fuses := by simp [State.drawerFire]
@[simp] theorem State.fire_fuses (m : Master) (n : Fin 8) : (s.fire m n).fuses = s.fuses := by simp [State.fire]
@[simp] theorem State.pulseEnd_fuses (n : Fin 8) : (s.pulseEnd n).fuses = s.fuses := by simp [State.pulseEnd]
@[simp] theorem State.senseSettle_fuses (n : Fin 8) : (s.senseSettle n).fuses = s.fuses := by simp [State.senseSettle]
@[simp] theorem State.drawerSense_fuses (n : Fin 8) (level : Bool) : (s.drawerSense n level).fuses = s.fuses := by simp [State.drawerSense]
@[simp] theorem State.gpioEdge_fuses (i : Fin 32) (level : Bool) : (s.gpioEdge i level).fuses = s.fuses := by simp [State.gpioEdge]
@[simp] theorem State.gioSet_fuses (m : Master) (v : W32) : (s.gioSet m v).fuses = s.fuses := by simp [State.gioSet]
@[simp] theorem State.gioClr_fuses (m : Master) (v : W32) : (s.gioClr m v).fuses = s.fuses := by simp [State.gioClr]
@[simp] theorem State.drwCtrlWrite_fuses (m : Master) (n : Fin 8) (v : W32) : (s.drwCtrlWrite m n v).fuses = s.fuses := by
  simp [State.drwCtrlWrite]

/-! ### Station start, stop and repair (01, 15) -/

@[simp] theorem State.retire_fuses (c x : Nat) : (s.retire st c x).fuses = s.fuses := by simp [State.retire]
@[simp] theorem State.shiftColumn_fuses (c x : Nat) : (s.shiftColumn st c x).fuses = s.fuses := by simp [State.shiftColumn]
@[simp] theorem State.forceRetire_fuses (c : Nat) : (s.forceRetire st c).fuses = s.fuses := by simp [State.forceRetire]
@[simp] theorem State.stnRunStart_fuses : (s.stnRunStart st).fuses = s.fuses := by simp [State.stnRunStart]
@[simp] theorem State.startTestColumn_fuses (c : Nat) : (s.startTestColumn st c).fuses = s.fuses := by simp [State.startTestColumn]
@[simp] theorem State.netReset_fuses : (s.netReset st).fuses = s.fuses := by simp [State.netReset]
@[simp] theorem State.stationStartEnd_fuses : (s.stationStartEnd st).fuses = s.fuses := by simp [State.stationStartEnd]
@[simp] theorem State.stopTiles_fuses : (s.stopTiles st).fuses = s.fuses := by simp [State.stopTiles]
@[simp] theorem State.stnRunStop_fuses : (s.stnRunStop st).fuses = s.fuses := by
  unfold State.stnRunStop
  dsimp only
  split <;> simp
@[simp] theorem State.stnRunFail_fuses : (s.stnRunFail st).fuses = s.fuses := by
  unfold State.stnRunFail
  dsimp only
  split <;> simp
@[simp] theorem State.stationStopEnd_fuses : (s.stationStopEnd st).fuses = s.fuses := by
  unfold State.stationStopEnd
  dsimp only
  split <;> simp
@[simp] theorem State.loseTile_fuses : (s.loseTile st t).fuses = s.fuses := by simp [State.loseTile]
@[simp] theorem State.columnRepair_fuses : (s.columnRepair st).fuses = s.fuses := by
  unfold State.columnRepair
  split <;> simp
@[simp] theorem State.stnRepairGo_fuses (v : W32) : (s.stnRepairGo st v).fuses = s.fuses := by
  simp only [State.stnRepairGo, State.fuses_ite, State.askRepair_fuses, State.setFld_fuses, ite_self]
@[simp] theorem State.twWrite_fuses (hi : Bool) (v : W32) : (s.twWrite st hi v).fuses = s.fuses := by simp [State.twWrite]

/-! ### Embedded and boot flash (10, 14) -/

@[simp] theorem State.bootRes_fuses (res : Nat) : (s.bootRes res).fuses = s.fuses := by simp [State.bootRes]
@[simp] theorem State.bootStart_fuses (align : Nat) (w : FlashWork) : (s.bootStart align w).fuses = s.fuses := by simp [State.bootStart]
@[simp] theorem State.bootErase_fuses : s.bootErase.fuses = s.fuses := by simp [State.bootErase]
@[simp] theorem State.bootProgram_fuses : s.bootProgram.fuses = s.fuses := by simp [State.bootProgram]
@[simp] theorem State.flashFree_fuses (o n : Nat) : (s.flashFree o n).fuses = s.fuses := by simp [State.flashFree]
@[simp] theorem State.bootDone_fuses (res : Nat) : (s.bootDone res).fuses = s.fuses := by
  unfold State.bootDone
  dsimp only
  split <;> simp
@[simp] theorem State.bootOpEnd_fuses (ok : Bool) : (s.bootOpEnd ok).fuses = s.fuses := by
  unfold State.bootOpEnd
  split <;> simp

/-! ### The vault (14) -/

@[simp] theorem State.gvOut_fuses (bs : List Byte) : (s.gvOut bs).fuses = s.fuses := by simp [State.gvOut]
@[simp] theorem State.vaultStart_fuses (c : VaultCmd) : (s.vaultStart c).fuses = s.fuses := by simp [State.vaultStart]
@[simp] theorem State.vaultEnd_fuses (res : Nat) : (s.vaultEnd res).fuses = s.fuses := by simp [State.vaultEnd]
@[simp] theorem State.draw_fuses (words : Nat) : (s.draw words).fuses = s.fuses := by simp [State.draw]
@[simp] theorem State.gvOutPart_fuses (bs : List Byte) : (s.gvOutPart bs).fuses = s.fuses := by simp [State.gvOutPart]
@[simp] theorem State.gvInPart_fuses (bs : List Byte) : (s.gvInPart bs).fuses = s.fuses := by simp [State.gvInPart]

/-! ### Clocks and resets (16) -/

@[simp] theorem State.gateWrite_fuses (m : Master) (v : W32) : (s.gateWrite m v).fuses = s.fuses := by simp [State.gateWrite]
@[simp] theorem State.divStep_fuses (d : Nat) : (s.divStep st d).fuses = s.fuses := by simp [State.divStep]
@[simp] theorem State.thermalSample_fuses (temp iod : Byte) : (s.thermalSample st temp iod).fuses = s.fuses := by simp [State.thermalSample]
@[simp] theorem State.thsWrite_fuses (v : W32) : (s.thsWrite st v).fuses = s.fuses := by simp [State.thsWrite]
@[simp] theorem State.thcfgWrite_fuses (v : W32) : (s.thcfgWrite v).fuses = s.fuses := by simp [State.thcfgWrite]
@[simp] theorem State.avsWrite_fuses (m : Master) (v : W32) : (s.avsWrite m v).fuses = s.fuses := by simp [State.avsWrite]
@[simp] theorem State.vidStep_fuses : s.vidStep.fuses = s.fuses := by simp [State.vidStep]
@[simp] theorem State.keepBits_fuses (old : State) (l : List (Nat × W32)) : (s.keepBits old l).fuses = s.fuses := by simp [State.keepBits]
@[simp] theorem State.ownReset_fuses : s.ownReset.fuses = s.fuses := by simp [State.ownReset]
@[simp] theorem State.headStrap_fuses : s.headStrap.fuses = s.fuses := by simp [State.headStrap]
@[simp] theorem State.cutFlash_fuses : s.cutFlash.fuses = s.fuses := by
  unfold State.cutFlash
  split <;> simp
@[simp] theorem State.requestReset_fuses (src : ResetSource) : (s.requestReset src).fuses = s.fuses := by simp [State.requestReset]
@[simp] theorem State.chainPortReset_fuses : s.chainPortReset.fuses = s.fuses := by simp [State.chainPortReset]

/-! ### Images (14) -/

@[simp] theorem State.readStaged_fuses (a : Nat) (x : Option Staged) : (s.readStaged a x).1.fuses = s.fuses := by
  cases x <;> simp [State.readStaged]

/-! ### Boot (14) -/

@[simp] theorem State.modHall_fuses (f : Hall → Hall) : (s.modHall f).fuses = s.fuses := by simp [State.modHall]
@[simp] theorem State.modHallStn_fuses (f : HallStn → HallStn) : (s.modHallStn st f).fuses = s.fuses := by simp [State.modHallStn]
@[simp] theorem State.hallLog_fuses (kind stn tile : Nat) (data : List Byte) : (s.hallLog kind stn tile data).fuses = s.fuses := by
  simp [State.hallLog]
@[simp] theorem State.enterFirmware_fuses (src : Nat) (v : Verdict) : (s.enterFirmware src v).fuses = s.fuses := by
  unfold State.enterFirmware
  dsimp only
  split <;> simp
@[simp] theorem State.repairAudit_fuses : s.repairAudit.fuses = s.fuses := by simp [State.repairAudit]

/-! ### DMA control (11) -/

@[simp] theorem State.setDmaCur_fuses (n : Fin 16) (a : Nat) : (s.setDmaCur n a).fuses = s.fuses := by simp [State.setDmaCur]
@[simp] theorem State.setDmaCount_fuses (n : Fin 16) (v : Nat) : (s.setDmaCount n v).fuses = s.fuses := by simp [State.setDmaCount]
@[simp] theorem State.setDmaState_fuses (n : Fin 16) (v : Nat) : (s.setDmaState n v).fuses = s.fuses := by simp [State.setDmaState]
@[simp] theorem State.modDma_fuses (n : Fin 16) (f : DmaChan → DmaChan) : (s.modDma n f).fuses = s.fuses := by simp [State.modDma]
@[simp] theorem State.dmaGo_fuses (n : Fin 16) : (s.dmaGo n).fuses = s.fuses := by simp [State.dmaGo]
@[simp] theorem State.dmaStop_fuses (n : Fin 16) : (s.dmaStop n).fuses = s.fuses := by simp [State.dmaStop]
@[simp] theorem State.dmaAbort_fuses (n : Fin 16) : (s.dmaAbort n).fuses = s.fuses := by simp [State.dmaAbort]
@[simp] theorem State.dmaDisable_fuses (n : Fin 16) : (s.dmaDisable n).fuses = s.fuses := by simp [State.dmaDisable]
@[simp] theorem State.shadowStore_fuses (n : Fin 16) (hi : Bool) (v : W32) (was : Bool) : (s.shadowStore n hi v was).fuses = s.fuses := by
  simp [State.shadowStore]
@[simp] theorem State.takeShadow_fuses (n : Fin 16) : (s.takeShadow n).fuses = s.fuses := by simp [State.takeShadow]
@[simp] theorem State.idleHandover_fuses (n : Fin 16) : (s.idleHandover n).fuses = s.fuses := by simp [State.idleHandover]
@[simp] theorem State.dmaCtrlWrite_fuses (n : Fin 16) (v : W32) : (s.dmaCtrlWrite n v).fuses = s.fuses := by simp [State.dmaCtrlWrite]

/-! ### Register accesses -/

@[simp] theorem okW_fuses : (okW s).1.fuses = s.fuses := by simp [okW]
@[simp] theorem refusedW_fuses : (refusedW s).1.fuses = s.fuses := by simp [refusedW]
@[simp] theorem stateW_fuses : (stateW s).1.fuses = s.fuses := by simp [stateW]
@[simp] theorem State.plainWrite_fuses (a : Nat) (v hw : W32) : (s.plainWrite a v hw).fuses = s.fuses := by
  unfold State.plainWrite
  split <;> simp
@[simp] theorem State.tileRegWrite_fuses (m : Master) (off : Nat) (v hw : W32) : (s.tileRegWrite m st t off v hw).1.fuses = s.fuses := by
  unfold State.tileRegWrite
  dsimp only
  split
  · split
    · rfl
    · dsimp only [okW]
      split <;> simp
  · simp
@[simp] theorem State.netStatWrite_fuses (v hw : W32) : (s.netStatWrite st v hw).fuses = s.fuses := by simp [State.netStatWrite]
@[simp] theorem State.stnRegRead_fuses (off : Nat) : (s.stnRegRead st off).1.fuses = s.fuses := by simp [State.stnRegRead]
@[simp] theorem State.stnRegWrite_fuses (m : Master) (off : Nat) (v hw : W32) : (s.stnRegWrite m st off v hw).1.fuses = s.fuses := by
  simp only [State.stnRegWrite, State.fst_fuses_ite, State.fuses_ite, okW_fuses, refusedW_fuses, stateW_fuses, State.plainWrite_fuses,
    State.twWrite_fuses, State.lioevWrite_fuses, State.stnRepairGo_fuses, State.bankPowerWrite_fuses, State.zeroFillStart_fuses,
    State.setReg_fuses, State.netHalt_fuses, State.setFld_fuses, State.netStatWrite_fuses, State.netFixGo_fuses,
    State.hallMailboxSend_fuses, State.modStn_fuses, ite_self]
  (repeat' split) <;> simp
@[simp] theorem State.blkRead_fuses (m : Master) (blk off : Nat) : (s.blkRead m blk off).1.fuses = s.fuses := by
  unfold State.blkRead
  split <;> simp
@[simp] theorem State.lcCtrlWrite_fuses (c : Fin 8) (v : W32) : (s.lcCtrlWrite c v).fuses = s.fuses := by simp [State.lcCtrlWrite]
@[simp] theorem State.efWrite_fuses (off : Nat) (v hw : W32) : (s.efWrite off v hw).1.fuses = s.fuses := by
  unfold State.efWrite
  (repeat' split) <;> simp
@[simp] theorem State.camWrite_fuses (off : Nat) (v hw : W32) : (s.camWrite st off v hw).fuses = s.fuses := by simp [State.camWrite]
@[simp] theorem State.lbWrite_fuses (m : Master) (off : Nat) (v hw : W32) : (s.lbWrite m off v hw).fuses = s.fuses := by
  simp [State.lbWrite]
@[simp] theorem State.serWrite_fuses (m : Master) (off : Nat) (v hw : W32) : (s.serWrite m off v hw).fuses = s.fuses := by
  unfold State.serWrite
  (repeat' split) <;> simp
@[simp] theorem State.usbWrite_fuses (m : Master) (off : Nat) (v hw : W32) : (s.usbWrite m off v hw).fuses = s.fuses := by
  simp [State.usbWrite]
@[simp] theorem State.gioWrite_fuses (m : Master) (off : Nat) (v hw : W32) : (s.gioWrite m off v hw).fuses = s.fuses := by
  simp [State.gioWrite]
@[simp] theorem State.pciWrite_fuses (m : Master) (off : Nat) (v hw : W32) : (s.pciWrite m off v hw).fuses = s.fuses := by
  simp [State.pciWrite]
@[simp] theorem State.cprWrite_fuses (m : Master) (off : Nat) (v hw : W32) : (s.cprWrite m off v hw).fuses = s.fuses := by
  simp [State.cprWrite]
@[simp] theorem State.regRead_fuses (m : Master) (a : Nat) : (s.regRead m a).1.fuses = s.fuses := by
  simp only [State.regRead, State.fst_fuses_ite, State.fst_fuses_mk (s.stnRegRead_fuses _ _), State.fst_fuses_mk (s.blkRead_fuses _ _ _),
    ite_self]

/-! ### Matrix requests (11) -/

@[simp] theorem beatFail_fuses (c : MxCode) : (beatFail s c).1.fuses = s.fuses := by simp [beatFail]
@[simp] theorem State.insnBeat_fuses (write : Bool) (a : Nat) (b : Beat) : (s.insnBeat write a b).1.fuses = s.fuses := by
  unfold State.insnBeat
  dsimp only
  (repeat' split) <;> simp
@[simp] theorem State.atomicBeat_fuses (mem : FaultMem) (p : Nat) (word : Fin 8) (new : W64 → W64) :
    (s.atomicBeat mem p word new).1.fuses = s.fuses := by
  unfold State.atomicBeat
  dsimp only
  (repeat' split) <;> simp
@[simp] theorem State.freeWords_fuses (d : BitVec 512) (ws : List Nat) : (s.freeWords d ws).1.fuses = s.fuses := by
  simp [State.freeWords]
@[simp] theorem State.atomicMet_fuses (m : Master) (mem : FaultMem) (p : Nat) (mask : W64) (word : Fin 8) (new : W64 → W64)
    (meet : Option PortMeet) : (s.atomicMet m mem p mask word new meet).1.1.fuses = s.fuses := by
  unfold State.atomicMet
  dsimp only
  split <;> simp
@[simp] theorem State.memBeat_fuses (m : Master) (op : MxOp) (mem : FaultMem) (p : Nat) (b : Beat) (meet : Option PortMeet) :
    (s.memBeat m op mem p b meet).1.1.fuses = s.fuses := by
  unfold State.memBeat
  dsimp only
  (repeat' split) <;> simp
@[simp] theorem State.mxTake_fuses (m : Master) (a : Nat) : (s.mxTake m a).fuses = s.fuses := by
  unfold State.mxTake
  split <;> simp
@[simp] theorem State.ingestGranted_fuses (k : Fin 8) (around : Around) : (s.ingestGranted st k around).fuses = s.fuses := by
  unfold State.ingestGranted
  split <;> simp
@[simp] theorem State.slotGranted_fuses (k : Fin 8) (around : Around) : (s.slotGranted st k around).fuses = s.fuses := by
  unfold State.slotGranted
  split <;> simp
@[simp] theorem State.mxReplace_fuses (m : Master) (i : Nat) (r : MxOpen) : (s.mxReplace m i r).fuses = s.fuses := by simp [State.mxReplace]

/-! ### DMA transfers (11) -/

@[simp] theorem State.dmaError_fuses (n : Fin 16) : (s.dmaError n).fuses = s.fuses := by simp [State.dmaError]
@[simp] theorem State.dmaStopErr_fuses (n : Fin 16) : (s.dmaStopErr n).fuses = s.fuses := by simp [State.dmaStopErr]
@[simp] theorem State.dmaIssue_fuses (n : Fin 16) (d : DmaDesc) : (s.dmaIssue n d).fuses = s.fuses := by simp [State.dmaIssue]
@[simp] theorem State.dmaBegin_fuses (n : Fin 16) : (s.dmaBegin n).fuses = s.fuses := by
  unfold State.dmaBegin
  split <;> simp
@[simp] theorem State.dmaSettle_fuses (n : Fin 16) (d : DmaDesc) : (s.dmaSettle n d).fuses = s.fuses := by simp [State.dmaSettle]
@[simp] theorem State.dmaEnd_fuses (n : Fin 16) (d : DmaDesc) (bad : Bool) : (s.dmaEnd n d bad).fuses = s.fuses := by simp [State.dmaEnd]
@[simp] theorem State.dmaHandover_fuses (n : Fin 16) (d : DmaDesc) (shv : Bool) : (s.dmaHandover n d shv).fuses = s.fuses := by
  simp [State.dmaHandover]
@[simp] theorem State.dmaGateOn_fuses {f : State → State} (h : (f s).fuses = s.fuses) : (s.dmaGateOn f).fuses = s.fuses := by
  simp [State.dmaGateOn, h]

/-! ### Chain links (12) -/

@[simp] theorem State.modLink_fuses (p : Fin 2) (f : ChainLink → ChainLink) : (s.modLink p f).fuses = s.fuses := by simp [State.modLink]
@[simp] theorem State.modPcie_fuses (f : Pcie → Pcie) : (s.modPcie f).fuses = s.fuses := by simp [State.modPcie]
@[simp] theorem State.linkSend_fuses (p : Fin 2) (k : Packet) : (s.linkSend p k).fuses = s.fuses := by simp [State.linkSend]
@[simp] theorem State.leave_fuses (p : Fin 2) (k : Packet) : (s.leave p k).fuses = s.fuses := by simp [State.leave]
@[simp] theorem State.forward_fuses (p : Fin 2) (k : Packet) : (s.forward p k).fuses = s.fuses := by simp [State.forward]
@[simp] theorem State.msixRaise_fuses (v : Fin 4) : (s.msixRaise v).fuses = s.fuses := by simp [State.msixRaise]
@[simp] theorem State.msixFlush_fuses : s.msixFlush.fuses = s.fuses := by simp [State.msixFlush]
@[simp] theorem State.dmaErrPcie_fuses : s.dmaErrPcie.fuses = s.fuses := by simp [State.dmaErrPcie]
@[simp] theorem State.hostDeliver_fuses (ks : List Packet) : (s.hostDeliver ks).fuses = s.fuses := by
  induction ks generalizing s with
  | nil => simp [State.hostDeliver]
  | cons k ks ih =>
    unfold State.hostDeliver
    split <;> simp [ih]
@[simp] theorem State.hostRx_fuses (k : Packet) : (s.hostRx k).fuses = s.fuses := by simp [State.hostRx]
@[simp] theorem State.sendReply_fuses (p : Fin 2) (k : Packet) : (s.sendReply p k).fuses = s.fuses := by simp [State.sendReply]
@[simp] theorem State.originate_fuses (k : Packet) : (s.originate k).fuses = s.fuses := by simp [State.originate]
@[simp] theorem State.hallEvent_fuses (kind : Nat) (stn : Byte) (data : List Byte) : (s.hallEvent kind stn data).fuses = s.fuses := by
  unfold State.hallEvent
  split <;> simp
@[simp] theorem State.linkChanged_fuses : s.linkChanged.fuses = s.fuses := by simp [State.linkChanged]
@[simp] theorem State.linkDown_fuses (p : Fin 2) (why : DownCause) : (s.linkDown p why).fuses = s.fuses := by
  unfold State.linkDown
  (repeat' split) <;> simp
@[simp] theorem State.linkUp_fuses (p : Fin 2) : (s.linkUp p).fuses = s.fuses := by simp [State.linkUp]
@[simp] theorem State.wrapRemove_fuses (p : Fin 2) : (s.wrapRemove p).fuses = s.fuses := by simp [State.wrapRemove]
@[simp] theorem State.fcsChecked_fuses (p : Fin 2) (f : LinkFrame) {g : State → State} (h : (g s).fuses = s.fuses) :
    (s.fcsChecked p f g).fuses = s.fuses := by
  simp [State.fcsChecked, h]
@[simp] theorem State.linkAck_fuses (p : Fin 2) (f : LinkFrame) : (s.linkAck p f).fuses = s.fuses := by
  refine s.fcsChecked_fuses p f ?_
  split <;> simp
@[simp] theorem State.linkRetry_fuses (p : Fin 2) (fs : List LinkFrame) : (s.linkRetry p fs).fuses = s.fuses := by simp [State.linkRetry]
@[simp] theorem State.linkNak_fuses (p : Fin 2) (f : LinkFrame) : (s.linkNak p f).fuses = s.fuses := by
  refine s.fcsChecked_fuses p f ?_
  split <;> simp
@[simp] theorem State.linkRetryTimeout_fuses (p : Fin 2) : (s.linkRetryTimeout p).fuses = s.fuses := by simp [State.linkRetryTimeout]
@[simp] theorem State.frameIn_fuses (p : Fin 2) (f : LinkFrame) : (s.frameIn p f).1.fuses = s.fuses := by
  unfold State.frameIn
  dsimp only
  (repeat' split) <;> simp
@[simp] theorem State.probeSend_fuses (p : Fin 2) (frac : W16) : (s.probeSend p frac).fuses = s.fuses := by simp [State.probeSend]
@[simp] theorem State.probeAnswer_fuses (p : Fin 2) (f : LinkFrame) (turnaround : W64) :
    (s.probeAnswer p f turnaround).fuses = s.fuses := by
  simp [State.probeAnswer]
@[simp] theorem State.probeReply_fuses (p : Fin 2) (f : LinkFrame) (t4 : W64) : (s.probeReply p f t4).fuses = s.fuses := by
  refine s.fcsChecked_fuses p f ?_
  split <;> simp
@[simp] theorem State.sfpChange_fuses (p : Fin 2) (present los txFault lock : Bool) :
    (s.sfpChange p present los txFault lock).fuses = s.fuses := by
  simp [State.sfpChange]
@[simp] theorem State.pcieLinkChange_fuses (rate width : BitVec 3) (cfg : PciCfg) : (s.pcieLinkChange rate width cfg).fuses = s.fuses := by
  simp [State.pcieLinkChange]

/-! ### What the Hall does (15) -/

@[simp] theorem State.answer_fuses (a : Arrived) (status detail : Nat) (res : List Byte) (dup : Bool) :
    (s.answer a status detail res dup).fuses = s.fuses := by
  unfold State.answer
  split <;> simp
@[simp] theorem State.hallFinish_fuses (a : Arrived) (status detail : Nat) (res : List Byte) :
    (s.hallFinish a status detail res).fuses = s.fuses := by
  simp [State.hallFinish]
@[simp] theorem State.finishOpt_fuses (a : Option Arrived) (status detail : Nat) (res : List Byte) :
    (s.finishOpt a status detail res).fuses = s.fuses := by
  unfold State.finishOpt
  split <;> simp
@[simp] theorem State.stationEvent_fuses (state tile : Byte) : (s.stationEvent st state tile).fuses = s.fuses := by
  simp [State.stationEvent]
@[simp] theorem State.noteStations_fuses (old : State) : (s.noteStations old).fuses = s.fuses := by simp [State.noteStations]
@[simp] theorem State.noteColumns_fuses (old : State) : (s.noteColumns old).fuses = s.fuses := by simp [State.noteColumns]
@[simp] theorem State.noteAll_fuses (old : State) : (s.noteAll old).fuses = s.fuses := by simp [State.noteAll]
@[simp] theorem State.hallPump_fuses : (s.hallPump st).fuses = s.fuses := by simp [State.hallPump]
@[simp] theorem State.hallPlace_fuses (t : BitVec 6) (payload : BitVec 48) : (s.hallPlace st t payload).fuses = s.fuses := by
  simp [State.hallPlace]
@[simp] theorem State.hallWord_fuses (t : BitVec 6) (payload : BitVec 48) : (s.hallWord st t payload).fuses = s.fuses := by
  simp [State.hallWord]
@[simp] theorem State.releaseHeld_fuses : (s.releaseHeld st).fuses = s.fuses := by simp [State.releaseHeld]
@[simp] theorem State.learnTag_fuses (tag : W32) : (s.learnTag tag).fuses = s.fuses := by simp [State.learnTag]
@[simp] theorem State.fillTile_fuses : (s.fillTile st t).fuses = s.fuses := by simp [State.fillTile]
@[simp] theorem State.loadInsns_fuses (insn crcs : List Byte) : (s.loadInsns st t insn crcs).fuses = s.fuses := by simp [State.loadInsns]
@[simp] theorem State.loadImgCrc_fuses (crcs : List Byte) : (s.loadImgCrc st t crcs).fuses = s.fuses := by simp [State.loadImgCrc]
@[simp] theorem State.hallTileStart_fuses : (s.hallTileStart st t).fuses = s.fuses := by simp [State.hallTileStart]
@[simp] theorem State.haltTile_fuses : (s.haltTile st t).fuses = s.fuses := by simp [State.haltTile]
@[simp] theorem State.logStopped_fuses (action : Nat) : (s.logStopped st t action).fuses = s.fuses := by simp [State.logStopped]
@[simp] theorem State.retireNow_fuses : (s.retireNow st t).fuses = s.fuses := by simp [State.retireNow]
@[simp] theorem State.retireTile_fuses : (s.retireTile st t).fuses = s.fuses := by simp [State.retireTile]
@[simp] theorem State.retirePump_fuses : (s.retirePump st).fuses = s.fuses := by
  unfold State.retirePump
  split <;> simp
@[simp] theorem State.selfTestFault_fuses : (s.selfTestFault st t).fuses = s.fuses := by simp [State.selfTestFault]

/-! ### Commands that the Hall serves (12, 14) -/

@[simp] theorem State.attestEnd_fuses (signed : Bool) : (s.attestEnd signed).fuses = s.fuses := by
  unfold State.attestEnd
  split <;> simp
@[simp] theorem State.loadTable_fuses (body : List Byte) (x : Section) : (s.loadTable st body x).fuses = s.fuses := by
  simp [State.loadTable]
@[simp] theorem State.startTiles_fuses (body : List Byte) : (s.startTiles st body).fuses = s.fuses := by simp [State.startTiles]
@[simp] theorem State.stopCmd_fuses (a : Arrived) : (s.stopCmd st a).fuses = s.fuses := by simp [State.stopCmd]
@[simp] theorem State.setRole_fuses (tag : W32) (src notify : Byte) : (s.setRole st tag src notify).fuses = s.fuses := by
  simp [State.setRole]
@[simp] theorem State.roleSetCmd_fuses (a : Arrived) : (s.roleSetCmd st a).fuses = s.fuses := by simp [State.roleSetCmd]
@[simp] theorem State.mboxPump_fuses : (s.mboxPump st).fuses = s.fuses := by
  unfold State.mboxPump
  split <;> simp
@[simp] theorem State.mboxCmd_fuses (a : Arrived) : (s.mboxCmd st a).fuses = s.fuses := by
  unfold State.mboxCmd
  dsimp only
  split <;> simp
@[simp] theorem State.orShort_fuses (a : Arrived) {f : State → State} (h : (f s).fuses = s.fuses) : (s.orShort a f).fuses = s.fuses := by
  simp [State.orShort, h]
@[simp] theorem State.stnChecked_fuses (a : Arrived) {f : State → State} (h : (f s).fuses = s.fuses) :
    (s.stnChecked st a f).fuses = s.fuses := by
  unfold State.stnChecked
  split <;> simp [h]
@[simp] theorem State.restartStation_fuses : (s.restartStation st).fuses = s.fuses := by simp [State.restartStation]
@[simp] theorem State.pantryCmd_fuses (a : Arrived) : (s.pantryCmd a).fuses = s.fuses := by simp [State.pantryCmd]
@[simp] theorem State.logCmd_fuses (a : Arrived) : (s.logCmd a).fuses = s.fuses := by simp [State.logCmd]

/-! ### Notices (15) -/

@[simp] theorem State.commitAnswers_fuses : (s.commitAnswers st).fuses = s.fuses := by simp [State.commitAnswers]
@[simp] theorem State.logMemFault_fuses (m : FaultMem) (a : Nat) : (s.logMemFault m a).fuses = s.fuses := by
  unfold State.logMemFault
  split <;> simp
@[simp] theorem State.peerWatchArm_fuses (payload : BitVec 48) : (s.peerWatchArm st payload).fuses = s.fuses := by simp [State.peerWatchArm]
@[simp] theorem State.peerCommand_fuses (dev : BitVec 6) (stn : BitVec 2) (op : Byte) (role : W32) (params : List Byte) :
    (s.peerCommand dev stn op role params).fuses = s.fuses := by
  unfold State.peerCommand
  split <;> simp
@[simp] theorem State.watchEnds_fuses : (s.watchEnds st).fuses = s.fuses := by simp [State.watchEnds]
@[simp] theorem State.peerFailover_fuses (dev : BitVec 6) (stn : BitVec 2) (tag : W32) (f : FailoverReply) :
    (s.peerFailover st dev stn tag f).fuses = s.fuses := by
  unfold State.peerFailover
  split <;> simp
@[simp] theorem State.peerWatchPoll_fuses (r : PollReply) (f : FailoverReply) : (s.peerWatchPoll st r f).fuses = s.fuses := by
  unfold State.peerWatchPoll
  dsimp only
  (repeat' split) <;> simp
@[simp] theorem State.hallTake_fuses : (s.hallTake st).fuses = s.fuses := by
  unfold State.hallTake
  split <;> simp

/-! ### The Porch (12) -/

@[simp] theorem State.enumIn_fuses (p : Fin 2) (k : Packet) : (s.enumIn p k).fuses = s.fuses := by
  simp only [State.enumIn, State.fuses_ite, State.forward_fuses, State.setReg_fuses, ite_self]
@[simp] theorem State.shiftTimes_fuses (d : W64) : (s.shiftTimes d).fuses = s.fuses := by simp [State.shiftTimes]
@[simp] theorem State.syncTiles_fuses : s.syncTiles.fuses = s.fuses := by simp [State.syncTiles]
@[simp] theorem State.syncStep_fuses (tmaster corr : Nat) (evt : Bool) : (s.syncStep tmaster corr evt).fuses = s.fuses := by
  simp [State.syncStep]
@[simp] theorem State.syncIn_fuses (p : Fin 2) (k : Packet) (residence : W64) : (s.syncIn p k residence).fuses = s.fuses := by
  simp [State.syncIn]
@[simp] theorem State.syncOut_fuses (k : Packet) : (s.syncOut k).fuses = s.fuses := by simp [State.syncOut]
@[simp] theorem State.rxTailWrite_fuses (tail : BitVec 12) (accessOk : Bool) : (s.rxTailWrite tail accessOk).fuses = s.fuses := by
  simp [State.rxTailWrite]
@[simp] theorem State.rxDiscard_fuses : s.rxDiscard.fuses = s.fuses := by simp [State.rxDiscard]

/-! ### The test access port (17) -/

@[simp] theorem State.modTap_fuses (f : Tap → Tap) : (s.modTap f).fuses = s.fuses := by simp [State.modTap]
@[simp] theorem State.tapBypass_fuses : s.tapBypass.fuses = s.fuses := by simp [State.tapBypass]
@[simp] theorem State.tapIdcode_fuses : s.tapIdcode.fuses = s.fuses := by simp [State.tapIdcode]
@[simp] theorem State.tapSample_fuses (pins preload : Boundary) : (s.tapSample pins preload).fuses = s.fuses := by simp [State.tapSample]
@[simp] theorem State.tapExtest_fuses (x : BoundaryScan) : (s.tapExtest x).fuses = s.fuses := by simp [State.tapExtest]
@[simp] theorem State.tapOpen_fuses {f : State → State} (h : (f s).fuses = s.fuses) : (s.tapOpen f).fuses = s.fuses := by
  simp [State.tapOpen, h]
@[simp] theorem State.tapSel_fuses (phys : Phys) : (s.tapSel st phys).fuses = s.fuses := by simp [State.tapSel]
@[simp] theorem State.tapHalt_fuses (halt : Bool) : (s.tapHalt halt).fuses = s.fuses := by simp [State.tapHalt]

/-! ### One cycle -/

@[simp] theorem State.laneTick_fuses : s.laneTick.fuses = s.fuses := by simp [State.laneTick]

end Sys2Proof.Machine
end

/-! SUPPORT. What can change the fuses (14 R411 to R413): an AUTH of the vault, at its end or cut short, and then one way only. Each function that
may come to one of these, through a register of the vault, a device reset or a digest that the Hall takes, keeps F below the fuses. -/

section
namespace Sys2Proof.Machine

/-- From fuses a come fuses b: the grade stays, slots go from empty to active to revoked and keep a modulus, minima of at most 64 rise to at
most 64, and LOCK stays set. -/
structure Fuses.OneWay (a b : Fuses) : Prop where
  grade : b.grade = a.grade
  slots : ∀ k : Fin 4, slotCode a.slots[k] ≤ slotCode b.slots[k]
  moduli : ∀ k : Fin 4, a.slots[k] ≠ .empty → b.moduli[k] = a.moduli[k]
  hallMin : a.hallMin ≤ b.hallMin
  hallTop : a.hallMin ≤ 64 → b.hallMin ≤ 64
  stnMin : a.stnMin ≤ b.stnMin
  stnTop : a.stnMin ≤ 64 → b.stnMin ≤ 64
  lock : a.lock = true → b.lock = true

theorem Fuses.OneWay.refl (a : Fuses) : a.OneWay a := by constructor <;> simp

theorem Fuses.OneWay.trans {a b c : Fuses} (h : a.OneWay b) (k : b.OneWay c) : a.OneWay c where
  grade := k.grade.trans h.grade
  slots i := (h.slots i).trans (k.slots i)
  moduli i e := by
    have ne : b.slots[i] ≠ .empty := fun e' => by
      have := h.slots i
      rw [e'] at this
      cases ea : a.slots[i] <;> simp_all [slotCode]
    rw [k.moduli i ne, h.moduli i e]
  hallMin := h.hallMin.trans k.hallMin
  hallTop e := k.hallTop (h.hallTop e)
  stnMin := h.stnMin.trans k.stnMin
  stnTop e := k.stnTop (h.stnTop e)
  lock e := k.lock (h.lock e)

@[simp] theorem Fuses.oneWay_ite {F : Fuses} (p : Prop) [Decidable p] (a b : Fuses) :
    F.OneWay (if p then a else b) ↔ if p then F.OneWay a else F.OneWay b := by split <;> rfl

/-! ### What an AUTH record does -/

/-- A slot i programmed goes on from its state, and its modulus may be new only where it was empty. -/
theorem Vault.setSlot_oneWay (V : Vault) (g : Grade) (i : Nat) (x : SlotState) (m : Vector Nat 4)
    (hx : ∀ k : Fin 4, k.val = i → slotCode V.slots[k] ≤ slotCode x) (hm : ∀ k : Fin 4, V.slots[k] ≠ .empty → m[k] = V.moduli[k]) :
    (V.fusesOf g).OneWay { V.fusesOf g with slots := V.slots.set! i x, moduli := m } := by
  refine { Fuses.OneWay.refl (V.fusesOf g) with slots := fun k => ?_, moduli := hm }
  by_cases e : k.val = i
  · have := hx k e
    subst e
    simpa using this
  · simp [Ne.symm e]

/-- A slot that ARG names, in the vector of slots. -/
theorem Vault.slot_some {V : Vault} {arg : Nat} {x : SlotState} (h : V.slot arg = some x) {k : Fin 4} (e : k.val = arg - 1) :
    V.slots[k] = x := by
  unfold Vault.slot at h
  split at h
  · have := Option.some.inj h
    simpa only [Fin.getElem_fin, e] using this
  · cases h

/-- An enrolment in an empty slot: its modulus is new, the others stay. -/
theorem Vault.enrol_oneWay {V : Vault} {arg : Nat} (h : V.slot arg = some .empty) (g : Grade) (modulus : Nat) :
    (V.fusesOf g).OneWay { V.fusesOf g with slots := V.slots.set! (arg - 1) .active, moduli := V.moduli.set! (arg - 1) modulus } := by
  refine V.setSlot_oneWay g _ _ _ (fun k e => by simp [slot_some h e, slotCode]) fun k ne => ?_
  have : k.val ≠ arg - 1 := fun e => ne (slot_some h e)
  simp [Ne.symm this]

theorem Vault.authApply_oneWay {V W : Vault} {op arg modulus : Nat} (h : V.authApply op arg modulus = some W) (g : Grade) :
    (V.fusesOf g).OneWay (W.fusesOf g) := by
  unfold Vault.authApply at h
  split at h
  · obtain ⟨he, ⟨⟩⟩ := Option.ite_none_right_eq_some.1 h
    exact V.enrol_oneWay he g _
  split at h
  · obtain ⟨he, ⟨⟩⟩ := Option.ite_none_right_eq_some.1 h
    exact V.setSlot_oneWay g _ _ _ (fun k e => by simp [slot_some he e, slotCode]) fun _ _ => rfl
  split at h
  · obtain ⟨⟨lo, hi⟩, ⟨⟩⟩ := Option.ite_none_right_eq_some.1 h
    exact { Fuses.OneWay.refl (V.fusesOf g) with hallMin := lo.le, hallTop := fun _ => hi }
  split at h
  · obtain ⟨⟨lo, hi⟩, ⟨⟩⟩ := Option.ite_none_right_eq_some.1 h
    exact { Fuses.OneWay.refl (V.fusesOf g) with stnMin := lo.le, stnTop := fun _ => hi }
  split at h
  · cases h
    exact { Fuses.OneWay.refl (V.fusesOf g) with lock := fun _ => rfl }
  · cases h

/-- An accepted AUTH record takes the fuses one way. -/
theorem State.authResult_oneWay {s : State} {W : Vault} (h : s.authResult.2 = some W) : s.fuses.OneWay (W.fusesOf s.grade) := by
  unfold State.authResult at h
  dsimp only at h
  split at h
  · cases h
  split at h
  · cases h
  split at h
  · cases h
  split at h
  · cases h
  next e =>
    cases h
    exact Vault.authApply_oneWay e s.grade

/-- Minima that move no further than those of fuses one way on. -/
theorem Fuses.OneWay.minima {a b : Fuses} (h : a.OneWay b) {m n : Nat} (hm : a.hallMin ≤ m) (hm' : m ≤ b.hallMin) (hn : a.stnMin ≤ n)
    (hn' : n ≤ b.stnMin) : a.OneWay { a with hallMin := m, stnMin := n } :=
  { Fuses.OneWay.refl a with hallMin := hm, hallTop := fun e => hm'.trans (h.hallTop e), stnMin := hn
                             stnTop := fun e => hn'.trans (h.stnTop e) }

/-- Steps that each keep F below the fuses keep it together. -/
@[simp] theorem foldl_oneWay {F : Fuses} {α : Type} {f : State → α → State} (hf : ∀ s a, F.OneWay s.fuses → F.OneWay (f s a).fuses)
    (l : List α) {s : State} (h : F.OneWay s.fuses) : F.OneWay (l.foldl f s).fuses := by
  induction l generalizing s with
  | nil => exact h
  | cons a l ih => exact ih (hf s a h)

@[simp] theorem foldl_fst_oneWay {F : Fuses} {α β : Type} {f : State × β → α → State × β}
    (hf : ∀ x a, F.OneWay x.1.fuses → F.OneWay (f x a).1.fuses) (l : List α) {x : State × β} (h : F.OneWay x.1.fuses) :
    F.OneWay (l.foldl f x).1.fuses := by
  induction l generalizing x with
  | nil => exact h
  | cons a l ih => exact ih (hf x a h)

/-- Fewer than four bytes of GV_IN hold no word, and read as no byte: so read OP and ARG where an AUTH is cut short. -/
theorem State.gvIn_short (s : State) (off : Nat) {n : Nat} (h : n < 4) : s.gvIn off n = [] := by
  simp [State.gvIn, State.regBytes, Nat.div_eq_of_lt h]

variable {F : Fuses} {s : State} (st : Stn) (t : TileNo) (h : F.OneWay s.fuses)
include h

/-! ### Parts that run another -/

@[simp] theorem State.clocked_oneWay {f : State → State} (hf : F.OneWay (f s).fuses) : F.OneWay (s.clocked f).fuses := by
  simp [State.clocked, h, hf]
@[simp] theorem State.tapOpen_oneWay {f : State → State} (hf : F.OneWay (f s).fuses) : F.OneWay (s.tapOpen f).fuses := by
  unfold State.tapOpen
  split <;> simp [h, hf]
@[simp] theorem State.orShort_oneWay (a : Arrived) {f : State → State} (hf : F.OneWay (f s).fuses) : F.OneWay (s.orShort a f).fuses := by
  unfold State.orShort
  split <;> simp [h, hf]
@[simp] theorem State.stnChecked_oneWay (a : Arrived) {f : State → State} (hf : F.OneWay (f s).fuses) :
    F.OneWay (s.stnChecked st a f).fuses := by
  unfold State.stnChecked
  (repeat' split) <;> simp [h, hf]

/-! ### The vault (14) -/

theorem State.vaultAuth_oneWay : F.OneWay s.vaultAuth.fuses := by
  unfold State.vaultAuth
  split
  · simpa using h
  next res V e => simpa using h.trans (State.authResult_oneWay (s := s) (W := V) (by rw [e]))
@[simp] theorem State.vaultCut_oneWay : F.OneWay s.vaultCut.fuses := by
  unfold State.vaultCut
  split
  next W _ e =>
    have k := State.authResult_oneWay e
    dsimp only
    split
    · exact h.trans (k.minima (by exact le_min k.hallMin (Nat.le_add_right _ _)) (min_le_left _ _)
        (by exact le_min k.stnMin (Nat.le_add_right _ _)) (min_le_left _ _))
    split
    · exact h
    split
    -- OP would be one byte of GV_IN, which holds no whole word
    next op => simp [State.gvIn_short, leNat] at op
    · exact h.trans k
  · exact h
@[simp] theorem State.vaultCommandEnd_oneWay : F.OneWay s.vaultCommandEnd.fuses := by
  unfold State.vaultCommandEnd
  split
  · exact h
  · simp [h]
  · dsimp only
    split <;> simp [h]
  · split <;> simp [h]
  · split <;> simp [h]
  · simp [h]
  · exact State.vaultAuth_oneWay h
  · simp [h]
@[simp] theorem State.vaultAbort_oneWay : F.OneWay s.vaultAbort.fuses := by simp [State.vaultAbort, h]
@[simp] theorem State.vaultRun_oneWay (c : VaultCmd) : F.OneWay (s.vaultRun c).fuses := by simp [State.vaultRun, h]
omit h in
theorem State.vaultAbsorb_oneWay (n : Nat) (m : List Byte) (h : F.OneWay s.fuses) : F.OneWay (s.vaultAbsorb n m).fuses := by
  induction n generalizing s m with
  | zero => exact h
  | succ n ih =>
    unfold State.vaultAbsorb
    split
    · exact h
    · exact ih _ (by simp [h])
@[simp] theorem State.vaultDigest_oneWay (m : List Byte) : F.OneWay (s.vaultDigest m).fuses := by
  unfold State.vaultDigest
  split
  · exact State.vaultRun_oneWay (State.vaultAbsorb_oneWay _ _ (State.vaultRun_oneWay h _)) _
  · exact h
@[simp] theorem State.vaultVerify_oneWay (key : Byte) (digest sig : List Byte) : F.OneWay (s.vaultVerify key digest sig).fuses := by
  simp [State.vaultVerify, h]

/-! ### Clocks and resets (16) -/

@[simp] theorem State.deviceReset_oneWay (src : ResetSource) : F.OneWay (s.deviceReset src).fuses := by simp [State.deviceReset, h]
@[simp] theorem State.powerOn_oneWay : F.OneWay s.powerOn.fuses :=
  State.deviceReset_oneWay (s := { s with core := { s.core with tripped := false } }) h .powerOn
@[simp] theorem State.clockLoss_oneWay : F.OneWay s.clockLoss.fuses := by
  unfold State.clockLoss
  (repeat' split) <;> simp [h]
@[simp] theorem State.thermtrip_oneWay : F.OneWay s.thermtrip.fuses :=
  State.deviceReset_oneWay (s := { s with core := { s.core with tripped := true } }) h .powerOn
@[simp] theorem State.resetAssert_oneWay : F.OneWay s.resetAssert.fuses := by
  unfold State.resetAssert
  split <;> simp [h]

/-! ### Images (14) -/

@[simp] theorem State.verifyIn_oneWay (kind : Nat) (m : List Host.Cell) : F.OneWay (s.verifyIn kind m).1.fuses := by
  unfold State.verifyIn
  dsimp only
  (repeat' split) <;> simp [h]

/-! ### Boot (14) -/

omit h in
theorem State.cellarTry_of_good {part : Nat} (good : bit s.flashCtl.bad part = false) : s.cellarTry part =
    (s.setBytes (hallMem 0) ((s.candidate part).map (·.2))).verifyIn 1 (s.candidate part) := by
  rw [State.cellarTry, good, if_neg Bool.false_ne_true]
@[simp] theorem State.cellarTry_oneWay (part : Nat) : F.OneWay (s.cellarTry part).1.fuses := by
  cases good : bit s.flashCtl.bad part with
  | false =>
    rw [State.cellarTry_of_good good]
    apply State.verifyIn_oneWay
    rwa [State.setBytes_fuses]
  | true => simpa [State.cellarTry, good] using h
omit h in
@[simp] theorem State.cellarRun_oneWay (h : F.OneWay s.fuses) (ps : List Nat) : F.OneWay (s.cellarRun ps).fuses := by
  induction ps generalizing s with
  | nil => simpa [State.cellarRun] using h
  | cons p ps ih =>
    have k := State.cellarTry_oneWay h p
    unfold State.cellarRun
    dsimp only
    split
    · simpa using k
    · exact ih (by simpa using k)
@[simp] theorem State.cellarBoot_oneWay : F.OneWay s.cellarBoot.fuses := by simp [State.cellarBoot, h]
@[simp] theorem State.resetRelease_oneWay (x : ReleaseInputs) : F.OneWay (s.resetRelease x).fuses := by
  unfold State.resetRelease
  dsimp only
  (repeat' split) <;> simp [h]
@[simp] theorem State.warmRestart_oneWay : F.OneWay s.warmRestart.fuses := by
  unfold State.warmRestart
  dsimp only
  (repeat' split) <;> simp [h]
@[simp] theorem State.divergence_oneWay : F.OneWay s.divergence.fuses := by simp [State.divergence, h]

/-! ### Register accesses -/

@[simp] theorem State.devWrite_oneWay (off : Nat) (v hw : W32) : F.OneWay (s.devWrite off v hw).fuses := by simp [State.devWrite, h]
@[simp] theorem State.blkWrite_oneWay (m : Master) (blk off : Nat) (v hw : W32) : F.OneWay (s.blkWrite m blk off v hw).1.fuses := by
  unfold State.blkWrite
  dsimp only
  (repeat' split) <;> simp [h]
@[simp] theorem State.gvWrite_oneWay (off : Nat) (v hw : W32) : F.OneWay (s.gvWrite off v hw).1.fuses := by
  unfold State.gvWrite
  (repeat' split) <;> simp [h]
/-- A store into registers: from the state s where it is refused, else from the state r that has noted what it breaks. -/
theorem State.regStore_oneWay {r : State} (hr : F.OneWay r.fuses) (m : Master) (a : Nat) (v hw : W32) :
    F.OneWay (s.regStore r m a v hw).1.fuses := by
  unfold State.regStore
  dsimp only
  (repeat' split) <;> simp [h, hr]
@[simp] theorem State.regWrite_oneWay (m : Master) (a : Nat) (v hw : W32) : F.OneWay (s.regWrite m a v hw).1.fuses := by
  have k := State.regStore_oneWay (r := s.reserved a v) h h m a v hw
  unfold State.regWrite
  split
  · simp [h]
  · dsimp only
    split <;> exact k

/-! ### Matrix requests (11) -/

@[simp] theorem State.regBeat_oneWay (m : Master) (write : Bool) (a i : Nat) (d : BitVec 512) :
    F.OneWay (s.regBeat m write a i d).1.fuses := by
  unfold State.regBeat
  split <;> simp [h]
@[simp] theorem State.regForm_oneWay (m : Master) (write one : Bool) (a : Nat) (b : Beat) (silent : Bool) :
    F.OneWay (s.regForm m write one a b silent).1.fuses := by
  unfold State.regForm
  (repeat' split) <;> simp [h]
omit h in
@[simp] theorem State.vaultWords_oneWay (h : F.OneWay s.fuses) (m : Master) (write : Bool) (a : Nat) (d : BitVec 512) (ws : List Nat) :
    F.OneWay (s.vaultWords m write a d ws).1.fuses := by
  induction ws generalizing s with
  | nil => exact h
  | cons i ws ih =>
    have k := State.regBeat_oneWay h m write a i d
    unfold State.vaultWords
    dsimp only
    split
    · exact k
    · exact ih k
@[simp] theorem State.vaultBeat_oneWay (m : Master) (write : Bool) (a : Nat) (b : Beat) : F.OneWay (s.vaultBeat m write a b).1.fuses := by
  unfold State.vaultBeat
  dsimp only
  (repeat' split) <;> simp [h]
@[simp] theorem State.beat_oneWay (m : Master) (op : MxOp) (one : Bool) (a : Nat) (b : Beat) (around : Around) :
    F.OneWay (s.beat m op one a b around).1.1.fuses := by
  unfold State.beat
  dsimp only
  (repeat' split) <;> simp [h]
@[simp] theorem State.pieceBeats_oneWay (m : Master) (r : MxOpen) (part : MxPart) (around : Around) :
    F.OneWay (s.pieceBeats m r part around).1.fuses := by
  have start : F.OneWay (s, r).1.fuses := h
  unfold State.pieceBeats
  dsimp only
  split
  · simpa using h
  · refine foldl_fst_oneWay (fun x i hx => ?_) _ start
    exact State.beat_oneWay hx ..
@[simp] theorem State.mxPerform_oneWay (g : Target) (m : Master) (around : Around) : F.OneWay (s.mxPerform g m around).fuses := by
  unfold State.mxPerform
  split
  · exact h
  split
  · exact h
  next r _ =>
    extract_lets u x
    have hu : F.OneWay u.fuses := h
    have hx : F.OneWay x.1.fuses := State.pieceBeats_oneWay hu ..
    simpa using hx
@[simp] theorem State.matrixPiece_oneWay (g : Target) (around : Around) : F.OneWay (s.matrixPiece g around).fuses := by
  unfold State.matrixPiece
  split <;> simp [h]
@[simp] theorem State.remap_oneWay (m : Master) (v : W32) : F.OneWay (s.remap m v).fuses := by simp [State.remap, h]
@[simp] theorem State.registerWrite_oneWay (m : Master) (a : Nat) (v hw : W32) : F.OneWay (s.registerWrite m a v hw).fuses := by
  unfold State.registerWrite
  split <;> simp [h]

/-! ### DMA transfers (11) -/

@[simp] theorem State.dmaBeat_oneWay (op : MxOp) (a : Nat) (b : Beat) (around : Around) (first : Bool) :
    F.OneWay (s.dmaBeat op a b around first).1.fuses := by
  unfold State.dmaBeat
  split <;> simp [h]
@[simp] theorem State.dmaFetch_oneWay (n : Fin 16) (around : Around) : F.OneWay (s.dmaFetch n around).fuses := by simp [State.dmaFetch, h]
@[simp] theorem State.dmaMove_oneWay (d : DmaDesc) (r : DmaReq) (b : Nat × BitVec 512) (around : Around) :
    F.OneWay (s.dmaMove d r b around).1.fuses := by
  simp [State.dmaMove, h]
@[simp] theorem State.dmaPerform_oneWay (d : DmaDesc) (r : DmaReq) (known : Option (Nat × BitVec 4)) (around : Around) :
    F.OneWay (s.dmaPerform d r known around).1.fuses := by
  unfold State.dmaPerform
  extract_lets u
  have hu : F.OneWay (u, DmaDone.mk known false []).1.fuses := by
    unfold u
    split <;> simp [h]
  refine foldl_fst_oneWay (fun x b hx => ?_) _ hu
  split
  · exact hx
  · have k := State.dmaMove_oneWay hx d r b around
    dsimp only
    split <;> exact k
@[simp] theorem State.dmaStep_oneWay (n : Fin 16) (d : DmaDesc) (r : DmaReq) (around : Around) :
    F.OneWay (s.dmaStep n d r around).fuses := by
  simp [State.dmaStep, h]
@[simp] theorem State.dmaResponse_oneWay (n : Fin 16) (around : Around) : F.OneWay (s.dmaResponse n around).fuses := by
  unfold State.dmaResponse
  (repeat' split) <;> simp [h]
@[simp] theorem State.dmaStatWrite_oneWay (n : Fin 16) (v : W64) (around : Around) : F.OneWay (s.dmaStatWrite n v around).1.fuses := by
  unfold State.dmaStatWrite
  extract_lets a i
  split
  · exact State.dmaBeat_oneWay h ..
  · exact State.dmaBeat_oneWay h ..
@[simp] theorem State.dmaWriteback_oneWay (n : Fin 16) (shv : Bool) (around : Around) : F.OneWay (s.dmaWriteback n shv around).fuses := by
  unfold State.dmaWriteback
  split <;> simp [h]
@[simp] theorem State.dmaShadowWrite_oneWay (n : Fin 16) (hi : Bool) (v : W32) (handover : Option Around) :
    F.OneWay (s.dmaShadowWrite n hi v handover).fuses := by
  unfold State.dmaShadowWrite
  (repeat' split) <;> simp [h]
@[simp] theorem State.mxServe_oneWay (g : Target) (m : Master) : F.OneWay (s.mxServe g m).fuses := by
  unfold State.mxServe
  (repeat' split) <;> simp [h]
omit h in
@[simp] theorem State.mxAhead_oneWay (h : F.OneWay s.fuses) (g : Target) (m : Master) (first : Bool) (n : Nat) :
    F.OneWay (s.mxAhead g m first n).fuses := by
  induction n generalizing s with
  | zero => exact h
  | succ n ih =>
    unfold State.mxAhead
    split
    · exact h
    split
    · exact h
    · exact ih (State.mxServe_oneWay h ..)
@[simp] theorem State.mxEnter_oneWay (m : Master) (a : Nat) (first : Bool) : F.OneWay (s.mxEnter m a first).fuses := by
  unfold State.mxEnter
  split <;> simp [h]
@[simp] theorem State.fwEnter_oneWay (a n : Nat) : F.OneWay (s.fwEnter a n).fuses :=
  foldl_oneWay (fun _ _ hu => State.mxEnter_oneWay hu ..) _ h

/-! ### What the Hall does (15) -/

@[simp] theorem State.stagedCells_oneWay : F.OneWay (s.stagedCells st).1.fuses := by simp [State.stagedCells, h]
@[simp] theorem State.stagedBody_oneWay : F.OneWay (s.stagedBody st).1.fuses := by
  unfold State.stagedBody
  dsimp only
  split <;> simp [h]
@[simp] theorem State.slotWrite_oneWay (insn : List Byte) : F.OneWay (s.slotWrite st t insn).fuses := by simp [State.slotWrite, h]
@[simp] theorem State.slotCrcs_oneWay : F.OneWay (s.slotCrcs st t).1.fuses := by simp [State.slotCrcs, h]
@[simp] theorem State.hallReg_oneWay (a : Nat) (v : W32) : F.OneWay (s.hallReg a v).fuses := by simp [State.hallReg, h]
@[simp] theorem State.loadData_oneWay (body : List Byte) (x : Section) : F.OneWay (s.loadData st t body x).fuses := by
  simp [State.loadData, h]
@[simp] theorem State.loadControl_oneWay (body : List Byte) (x : Section) : F.OneWay (s.loadControl st t body x).fuses := by
  exact State.hallReg_oneWay (State.hallReg_oneWay (State.hallReg_oneWay (State.hallReg_oneWay h _ _) _ _) _ _) _ _
@[simp] theorem State.rebuild_oneWay : F.OneWay (s.rebuild st t).1.fuses := by
  unfold State.rebuild
  dsimp only
  split <;> simp [h]
@[simp] theorem State.copyOf_oneWay : F.OneWay (s.copyOf st t).1.fuses := by
  unfold State.copyOf
  extract_lets x r
  have hx : F.OneWay x.1.fuses := State.slotCrcs_oneWay st t h
  have hr : F.OneWay r.1.fuses := by simp [r, hx]
  split
  · exact hr
  · exact State.rebuild_oneWay st t hr
@[simp] theorem State.restartTile_oneWay (reason : Nat) : F.OneWay (s.restartTile st t reason).fuses := by
  unfold State.restartTile
  extract_lets x y body u v w z z'
  have hy : F.OneWay y.1.fuses := State.stagedBody_oneWay st (by simp [x, h])
  have hv : F.OneWay v.fuses := by
    unfold v
    split <;> simp [u, hy]
  have hw : F.OneWay w.fuses := foldl_oneWay (fun _ _ k => State.loadData_oneWay st t k ..) _ hv
  have hz : F.OneWay z.fuses := foldl_oneWay (fun _ _ k => State.loadControl_oneWay st t k ..) _ hw
  simp [z', hz]
@[simp] theorem State.tileFault_oneWay (reason : Nat) (logs : Bool) : F.OneWay (s.tileFault st t reason logs).fuses := by
  simp [State.tileFault, h]

/-! ### Commands that the Hall serves (12, 14) -/

@[simp] theorem State.stage_oneWay (a : Nat) (old : Option Staged) (limit : Nat) (grade : Option Nat) (p : List Byte) :
    F.OneWay (s.stage a old limit grade p).1.fuses := by
  unfold State.stage
  dsimp only
  split <;> simp [h]
@[simp] theorem State.attestCmd_oneWay (a : Arrived) : F.OneWay (s.attestCmd a).fuses := by simp [State.attestCmd, h]
@[simp] theorem State.attestAbort_oneWay : F.OneWay s.attestAbort.fuses := by simp [State.attestAbort, h]
@[simp] theorem State.loadStation_oneWay (body : List Byte) : F.OneWay (s.loadStation st body).fuses := by
  refine foldl_oneWay (fun u x hu => ?_) _ h
  split
  · simpa using hu
  split
  · exact foldl_oneWay (fun v w hv => State.hallReg_oneWay hv ..) _ hu
  · exact hu
@[simp] theorem State.loadTile_oneWay (body : List Byte) : F.OneWay (s.loadTile st t body).fuses := by
  unfold State.loadTile
  split <;> simp [h]
@[simp] theorem State.loadTiles_oneWay (body : List Byte) : F.OneWay (s.loadTiles st body).fuses := by
  refine foldl_oneWay (fun u x hu => ?_) _ (by simp [h])
  dsimp only
  split <;> simp [hu]
@[simp] theorem State.verifyStaged_oneWay : F.OneWay (s.verifyStaged st).1.fuses := by simp [State.verifyStaged, h]
@[simp] theorem State.startJob_oneWay (v : Verdict) : F.OneWay (s.startJob st v).fuses := by simp [State.startJob, h]
@[simp] theorem State.startCmd_oneWay (a : Arrived) : F.OneWay (s.startCmd st a).fuses := by
  have k := State.verifyStaged_oneWay st (State.attestAbort_oneWay h)
  unfold State.startCmd
  dsimp only
  split <;> simp [k]
@[simp] theorem State.stnExec_oneWay (a : Arrived) : F.OneWay (s.stnExec st a).fuses := by
  unfold State.stnExec
  split <;> simp [h]
@[simp] theorem State.stnCmd_oneWay (a : Arrived) : F.OneWay (s.stnCmd st a).fuses := by simp [State.stnCmd, h]
omit h in
@[simp] theorem State.drainStn_oneWay (h : F.OneWay s.fuses) (n : Nat) : F.OneWay (s.drainStn st n).fuses := by
  induction n generalizing s with
  | zero => exact h
  | succ n ih =>
    unfold State.drainStn
    split
    · exact h
    split
    · exact h
    · exact ih (by simp [h])
@[simp] theorem State.drain_oneWay : F.OneWay (s.drain st).fuses := by simp [State.drain, h]
@[simp] theorem State.devCmd_oneWay (a : Arrived) : F.OneWay (s.devCmd a).fuses := by
  unfold State.devCmd
  split
  · simp [h]
  · refine State.orShort_oneWay h _ ?_
    split <;> simp [h]
@[simp] theorem State.hallAccept_oneWay (a : Arrived) : F.OneWay (s.hallAccept a).fuses := by simp [State.hallAccept, h]
@[simp] theorem State.cellarAccept_oneWay (a : Arrived) : F.OneWay (s.cellarAccept a).fuses := by
  unfold State.cellarAccept
  split <;> simp [h]
@[simp] theorem State.startOver_oneWay : F.OneWay (s.startOver st).fuses := by simp [State.startOver, h]
@[simp] theorem State.startEnds_oneWay : F.OneWay (s.startEnds st).fuses := by simp [State.startEnds, h]
@[simp] theorem State.stopEnds_oneWay : F.OneWay (s.stopEnds st).fuses := by
  unfold State.stopEnds
  extract_lets H u x
  have hu : F.OneWay u.fuses := by simp [u, h]
  have hx : F.OneWay x.1.fuses := State.verifyStaged_oneWay st (State.attestAbort_oneWay hu)
  split
  · exact h
  split
  · split
    · simp [hx]
    · exact State.drain_oneWay st hx
  · exact State.drain_oneWay st hu
@[simp] theorem State.fixEntry_oneWay : F.OneWay (s.fixEntry st).fuses := by
  unfold State.fixEntry
  dsimp only
  (repeat' split) <;> simp [h]
@[simp] theorem State.fixPump_oneWay : F.OneWay (s.fixPump st).fuses := by simp [State.fixPump, h]
@[simp] theorem State.hallMail_oneWay : F.OneWay (s.hallMail st).fuses := by simp [State.hallMail, h]
@[simp] theorem State.hallMails_oneWay : F.OneWay s.hallMails.fuses :=
  foldl_oneWay (fun _ st hu => State.hallMail_oneWay st hu) _ h
@[simp] theorem State.hallReact_oneWay (old : State) : F.OneWay (s.hallReact old).fuses := by simp [State.hallReact, h]
@[simp] theorem State.vaultDone_oneWay : F.OneWay s.vaultDone.fuses := by simp [State.vaultDone, h]
@[simp] theorem State.hallStartEnd_oneWay : F.OneWay (s.hallStartEnd st).fuses := by simp [State.hallStartEnd, h]
@[simp] theorem State.hallStopEnd_oneWay : F.OneWay (s.hallStopEnd st).fuses := by simp [State.hallStopEnd, h]

/-! ### Notices (15) -/

@[simp] theorem State.takeNotice_oneWay {p : Notice → Bool} {f : Notice → State → State}
    (hf : ∀ n u, F.OneWay u.fuses → F.OneWay (f n u).fuses) : F.OneWay (s.takeNotice p f).fuses := by
  unfold State.takeNotice
  split
  · exact h
  · split
    · exact State.hallReact_oneWay (hf _ _ (by simpa using h)) s
    · exact h
@[simp] theorem State.tileLostNotice_oneWay : F.OneWay (s.tileLostNotice st t).fuses := by
  refine State.takeNotice_oneWay h fun n u hu => ?_
  split <;> simp [hu]
@[simp] theorem State.tileRestartNotice_oneWay : F.OneWay (s.tileRestartNotice st t).fuses := by
  refine State.takeNotice_oneWay h fun n u hu => ?_
  extract_lets c v w
  have hw : F.OneWay w.fuses := by
    unfold w
    split <;> simp [v, hu]
  simp [hw]
@[simp] theorem State.lineFaultNotice_oneWay : F.OneWay (s.lineFaultNotice st t).fuses := by
  unfold State.lineFaultNotice
  split
  · exact h
  refine State.takeNotice_oneWay h fun n u hu => ?_
  extract_lets l x r crc v
  have hr : F.OneWay r.1.fuses := by simp [r, x, hu]
  split
  · simp [v, hr]
  · simp [hr]
@[simp] theorem State.commitRequest_oneWay (tile : BitVec 6) (set : Nat) : F.OneWay (s.commitRequest st tile set).fuses := by
  unfold State.commitRequest
  extract_lets off u bytes v begun w
  have hv : F.OneWay v.fuses := by simp [v, u, h]
  have hw : F.OneWay w.fuses := by simp [w, hv]
  split
  · exact hw
  · simpa using hw
@[simp] theorem State.pantryNotice_oneWay : F.OneWay (s.pantryNotice st).fuses := by
  refine State.takeNotice_oneWay h fun _ u hu => ?_
  dsimp only
  split
  · simpa using hu
  split
  · exact State.commitRequest_oneWay st (by simpa using hu) _ _
  · simpa using hu
  · simpa using hu
@[simp] theorem State.rebuildCopies_oneWay (a : Nat) : F.OneWay (s.rebuildCopies a).fuses := by
  refine foldl_oneWay (fun u st hu => foldl_oneWay (fun v t hv => ?_) _ ?_) _ h
  · split
    · exact State.rebuild_oneWay st t hv
    · exact hv
  · simp [hu]
@[simp] theorem State.memFaultNotice_oneWay (m : FaultMem) (a : Addr) : F.OneWay (s.memFaultNotice m a).fuses := by
  refine State.takeNotice_oneWay h fun n u hu => ?_
  dsimp only
  split <;> simp [hu]
@[simp] theorem State.netFaultNotice_oneWay : F.OneWay (s.netFaultNotice st).fuses := by
  unfold State.netFaultNotice
  split
  · exact h
  refine State.takeNotice_oneWay h fun n u hu => ?_
  extract_lets w u1 u2 u3
  have h2 : F.OneWay u2.fuses := by simp [u2, u1, hu]
  have h3 : F.OneWay u3.fuses := by
    unfold u3
    split <;> simp [h2]
  split <;> simp [h3]

/-! ### The Porch (12) -/

@[simp] theorem State.chainWord_oneWay (w : Around) (write : Bool) (a : Nat) (v : W32) : F.OneWay (s.chainWord w write a v).1.fuses := by
  unfold State.chainWord
  dsimp only
  split <;> simp [h]
omit h in
@[simp] theorem State.readWords_oneWay (h : F.OneWay s.fuses) (w : Around) (a n i : Nat) (acc : List Byte) :
    F.OneWay (s.readWords w a n i acc).1.fuses := by
  induction n generalizing s i acc with
  | zero => exact h
  | succ n ih =>
    have k := State.chainWord_oneWay h w false ((a + 4 * i) % 2 ^ 40) 0
    unfold State.readWords
    dsimp only
    split
    · exact k
    · exact ih k _ _
omit h in
@[simp] theorem State.writeWords_oneWay (h : F.OneWay s.fuses) (w : Around) (a : Nat) (p : List Byte) (n i : Nat) :
    F.OneWay (s.writeWords w a p n i).1.fuses := by
  induction n generalizing s i with
  | zero => exact h
  | succ n ih =>
    have k := State.chainWord_oneWay h w true ((a + 4 * i) % 2 ^ 40) (leBv 32 (slice p (12 + 4 * i) 4))
    unfold State.writeWords
    dsimp only
    split
    · exact k
    · exact ih k _
@[simp] theorem State.porchCmd_oneWay (w : Around) (op : Byte) (p : List Byte) : F.OneWay (s.porchCmd w op p).1.fuses := by
  unfold State.porchCmd
  (repeat' split) <;> simp [h]
@[simp] theorem State.execCmd_oneWay (a : Arrived) (w : Around) : F.OneWay (s.execCmd a w).fuses := by
  unfold State.execCmd
  (repeat' split) <;> simp [h]
@[simp] theorem State.multiIn_oneWay (p : Fin 2) (me : Byte) (k : Packet) (w : Around) : F.OneWay (s.multiIn p me k w).fuses := by
  simp [State.multiIn, h]
@[simp] theorem State.examine_oneWay (p : Fin 2) (k : Packet) (residence : W64) (w : Around) :
    F.OneWay (s.examine p k residence w).fuses := by
  unfold State.examine
  (repeat' split) <;> simp [h]
@[simp] theorem State.packetIn_oneWay (p : Fin 2) (k : Packet) (residence : W64) (w : Around) :
    F.OneWay (s.packetIn p k residence w).fuses := by
  simp [State.packetIn, h]
@[simp] theorem State.commandIn_oneWay (p : Fin 2) (k : Packet) (op : Byte) (residence : W64) (w : Around) :
    F.OneWay (s.commandIn p k op residence w).fuses := by
  simp [State.commandIn, h]
@[simp] theorem State.chainBootIn_oneWay (p : Fin 2) (k : PacketIn) : F.OneWay (s.chainBootIn p k).fuses := by simp [State.chainBootIn, h]
@[simp] theorem State.linkDataFrame_oneWay (p : Fin 2) (f : FrameIn) : F.OneWay (s.linkDataFrame p f).fuses := by
  unfold State.linkDataFrame
  dsimp only
  split <;> simp [h]
@[simp] theorem State.hostInject_oneWay (k : Packet) (w : Around) : F.OneWay (s.hostInject k w).fuses := by simp [State.hostInject, h]
omit h in
@[simp] theorem State.cmdRing_oneWay (h : F.OneWay s.fuses) (n : Nat) : F.OneWay (s.cmdRing n).fuses := by
  induction n generalizing s with
  | zero => exact h
  | succ n ih =>
    unfold State.cmdRing
    dsimp only
    split
    · exact h
    split
    · exact h
    split
    · simpa using h
    · exact ih (by simp [h])
@[simp] theorem State.cmdTailWrite_oneWay (tail : BitVec 12) (posted : List HostCmd) : F.OneWay (s.cmdTailWrite tail posted).fuses := by
  simp [State.cmdTailWrite, h]
omit h in
@[simp] theorem State.winLines_oneWay (h : F.OneWay s.fuses) (w : Around) (a : Nat) (op : MxOp) (bytes : List (Option Byte)) (one : Bool)
    (n l : Nat) (bad : Bool) (acc : List (BitVec 512)) : F.OneWay (s.winLines w a op bytes one n l bad acc).1.fuses := by
  induction n generalizing s l bad acc with
  | zero => exact h
  | succ n ih =>
    unfold State.winLines
    dsimp only
    split
    · exact ih (by simp [h]) _ _ _
    · exact ih (State.beat_oneWay (by split <;> simp [h]) ..) _ _ _
@[simp] theorem State.windowAccess_oneWay (x : BitVec 22) (op : WinOp) (w : Around) : F.OneWay (s.windowAccess x op w).fuses := by
  simp [State.windowAccess, h]
@[simp] theorem State.pcieResume_oneWay : F.OneWay s.pcieResume.fuses := by simp [State.pcieResume, h]
omit h in
@[simp] theorem State.reacting_oneWay {f : State → State} (hf : F.OneWay (f s).fuses) : F.OneWay (s.reacting f).fuses :=
  State.pcieResume_oneWay (State.hallReact_oneWay hf s)

/-! ### Load-cell writes (10) -/

@[simp] theorem State.lcDeliver_oneWay (c : Fin 8) (first second : List (BitVec 24)) (x : LcTake) :
    F.OneWay (s.lcDeliver c first second x).fuses := by
  simp [State.lcDeliver, h]

/-! ### The test access port (17) -/

@[simp] theorem State.tapRead_oneWay (off : Nat) : F.OneWay (s.tapRead off).fuses := by
  refine State.tapOpen_oneWay h ?_
  dsimp only
  split
  · split
    · exact h
    · rw [State.modTap_fuses]
      apply State.beat_oneWay
      exact State.mxEnter_oneWay h ..
  · rw [State.modTap_fuses]
    exact h

/-! ### One cycle -/

@[simp] theorem State.hallTick_oneWay : F.OneWay s.hallTick.fuses := by simp [State.hallTick, h]
@[simp] theorem State.tick_oneWay : F.OneWay s.tick.fuses := by simp [State.tick, h]

end Sys2Proof.Machine
end

/-! SUPPORT. Every step takes the fuses one way (14 R411, R413). -/

section
namespace Sys2Proof.Machine

variable {F : Fuses} {s : State}

/-- The state that a command ends in, if it ends in one, has fuses one way on from F. -/
def EndsOneWay (F : Fuses) : Host.Outcome State Fault Refusal → Prop
  | .next u => F.OneWay u.fuses
  | _ => True

theorem EndsOneWay.next (h : F.OneWay s.fuses) : EndsOneWay F (.next s) := h

/-- A command that writes registers ends in its state, or in no state where a reserved bit was written. -/
theorem EndsOneWay.out (h : F.OneWay s.fuses) : EndsOneWay F s.out := by
  unfold State.out
  split
  · trivial
  · exact h

/-- A command leaves fuses one way on: each is a function of the layers above, and some note the reserved bits they write. -/
theorem exec_oneWay (h : F.OneWay s.fuses) (i : Instr) : EndsOneWay F (exec i s) := by
  cases i
  case instruction | interruptEntry | idleWake | wrcr | tileSwi | stationStartEnd | stationStopEnd | stnRepairGo | stnTworldWrite |
    netFixGo | hallMailboxSend | bankPowerWrite | contextEnable | contextDisable | contextAbort | lcSettingsWrite | pantryNotice |
    matrixPiece | remap | timerEnable | dmaBeatResponse | dmaWriteback | dmaShadowWrite | linkDataFrame | regWrite | stationStart |
    cmdTailWrite | pcieWindowAccess | typeWrite | fifoPush | serDataWrite | stnLioevWrite | tileLostNotice | tileRestartNotice |
    tileLfixGo | lineFaultNotice | memFaultNotice | netFaultNotice | cprAvsWrite | cprGateWrite | registerWrite =>
    exact .out (by simp [h])
  all_goals exact .next (by simp [h])

theorem step_oneWay {u : State} (e : step s = .next u) : s.fuses.OneWay u.fuses := by
  unfold step at e
  split at e
  · cases e
    exact State.tick_oneWay (.refl _)
  next c rest _ =>
    have k := exec_oneWay (F := s.fuses) (s := { s with pending := rest }) (.refl _) c
    rw [e] at k
    exact k

end Sys2Proof.Machine
end

section
open Sys2Proof Sys2Proof.Machine

/-- Settles O60: a step takes the fuses one way, as only an AUTH of the vault can program them (14 R411, R413). -/
theorem fusesOneWay : Obligations.FusesOneWay := by
  unfold Obligations.FusesOneWay
  intro s u k rank hallTop stnTop e
  have h := step_oneWay e
  have rank_eq : rank = slotCode := by
    funext x
    cases x <;> rfl
  rw [rank_eq]
  exact ⟨h.grade, h.slots k, h.moduli k, h.hallMin, h.hallTop hallTop, h.stnMin, h.stnTop stnTop, h.lock⟩
end

/-! SUPPORT. The state after reset: its registers read as the tables of their blocks give, its tiles and stations are new. -/

section
namespace Sys2Proof.Machine

theorem State.reg_reset (a : Nat) : State.reset.reg a = regReset a := rfl

theorem State.tile_reset (st : Stn) (t : TileNo) : State.reset.tile st t = {} := by simp [State.tile, State.reset]

theorem State.stn_reset (st : Stn) : State.reset.stn st = {} := by simp [State.stn, State.reset]

/-- Columns are unrepaired (01 R16). -/
theorem regReset_colMap : ∀ st : Stn, ∀ c < 8, regReset (stnReg st (0x100 + 4 * c)) = 0 := by decide

/-- No channel of the DMA is enabled or reports (11 R329). -/
theorem regReset_dmaStat : ∀ n : Fin 16, regReset (dmaReg n 8) = 0 := by decide

/-- Windows 2k and 2k + 1 belong to station k, and none is enabled (13 R380, R382). -/
theorem regReset_winCfg : ∀ n < 8, regReset (devReg 0x30 (0x40 + 4 * n)) = BitVec.ofNat 32 (n / 2 * 2 ^ 28) := by decide

theorem regReset_irqSrc : ∀ k < 4, regReset (devReg 0x30 (0x24 + 4 * k)) = 1 := by decide

theorem regReset_serBaud : ∀ p < 20, regReset (devReg 0x31 (0x104 + 0x40 * p)) = 0x04C4002D := by decide

/-- The drawers' settings below their owners (13 R392). -/
theorem regReset_drwCtrl : ∀ n : Fin 8, (regReset (devReg 0x33 (0x100 + 0x10 * n.val))).toNat % 2 ^ 29 = 0x0AC86400 := by decide

end Sys2Proof.Machine
end

section
open Sys2Proof Sys2Proof.Machine

/-- Settles O57, from the fields of the state after reset and the reset values of its registers. -/
theorem resetState : Obligations.ResetState := by
  unfold Obligations.ResetState
  intro s
  have tiles (st : Stn) (t : TileNo) : (s.tile st t).run = .stopped := by rw [State.tile_reset]
  have stations (st : Stn) : (s.stn st).run = .stopped := by rw [State.stn_reset]
  have timers (n : Fin 8) : s.tmrRun[n] = false := by simp [s, State.reset]
  have slots (k : Fin 4) : s.vault.slots[k] = .empty := by simp [s, State.reset]
  have mxCtrl : s.reg (mxReg 0) = 0 := by rw [State.reg_reset]; decide
  have avs : s.reg (devReg 1 0x30) = 0x14 := by rw [State.reg_reset]; decide
  have thcfg : s.reg (devReg 1 0x10) = 0x005A6400 := by rw [State.reg_reset]; decide
  have gates : s.reg (devReg 1 0xC) = 0x1F7 := by rw [State.reg_reset]; decide
  exact ⟨rfl, rfl, rfl, rfl, rfl, tiles, stations, regReset_colMap, mxCtrl, avs, thcfg, gates, regReset_dmaStat, timers,
    regReset_winCfg, regReset_irqSrc, regReset_serBaud, regReset_drwCtrl, slots, rfl, rfl, rfl, fun _ => rfl⟩
end

/-! SUPPORT. The canonical form of memory, registers and flash (01 R25, R30; 14 R397), and that every function of the model keeps it: each
update of one of the three is an update of a sparse map, and the rest of the state does not matter. -/

section
namespace Sys2Proof.Machine

/-- Memory, registers and flash have their canonical form. -/
def State.Canon (s : State) : Prop := Memory.wf s = true ∧ Registers.wf s = true ∧ smWf flashReset s.flash = true

/-! ### How a part of an instruction ends -/

/-- The state that a part of an instruction leaves, if it leaves one, is canonical. -/
def TOut.Canon : TOut → Prop
  | .done s => s.Canon
  | .stall _ => True
  | .fault s _ _ => s.Canon

def ROut.Canon : ROut → Prop
  | .val _ s => s.Canon
  | .stall _ => True
  | .fault s _ _ => s.Canon

def RAll.Canon : RAll → Prop
  | .vals _ s => s.Canon
  | .stall _ => True
  | .fault s _ _ => s.Canon

theorem TOut.Canon.ite {p : Prop} [Decidable p] {a b : TOut} (ha : a.Canon) (hb : b.Canon) : (if p then a else b).Canon := by
  split
  · exact ha
  · exact hb

theorem TOut.Canon.bind {o : TOut} {f : State → TOut} (h : o.Canon) (hf : ∀ {s : State}, s.Canon → (f s).Canon) : (o.bind f).Canon := by
  cases o with
  | done s => exact hf h
  | stall q => trivial
  | fault s c e => exact h

/-! ### What a part leaves, where its result is matched -/

section
variable {u : State} {cause : Byte} {e : W64}

theorem State.Canon.of_fst {α : Type} {x : State × α} {a : α} (e : x = (u, a)) (h : x.1.Canon) : u.Canon := by
  subst e
  exact h
theorem State.Canon.of_done {o : TOut} (e : o = .done u) (h : o.Canon) : u.Canon := by
  subst e
  exact h
theorem State.Canon.of_fault {o : TOut} (q : o = .fault u cause e) (h : o.Canon) : u.Canon := by
  subst q
  exact h
theorem State.Canon.of_val {o : ROut} {v : W64} (e : o = .val v u) (h : o.Canon) : u.Canon := by
  subst e
  exact h
theorem State.Canon.of_readFault {o : ROut} (q : o = .fault u cause e) (h : o.Canon) : u.Canon := by
  subst q
  exact h
theorem State.Canon.of_vals {o : RAll} {vs : List (Byte × W64)} (e : o = .vals vs u) (h : o.Canon) : u.Canon := by
  subst e
  exact h
theorem State.Canon.of_readsFault {o : RAll} (q : o = .fault u cause e) (h : o.Canon) : u.Canon := by
  subst q
  exact h

end

/-! ### Parts of a state, and steps put together -/

variable {s u : State} {st : Stn} {t : TileNo} {c : Ctx}

/-- A state with the same memory, registers and flash. -/
theorem State.Canon.frame (h : s.Canon) (hm : u.mem = s.mem) (hr : u.regs = s.regs) (hf : u.flash = s.flash) :
    u.Canon := by
  obtain ⟨m, r, f⟩ := h
  refine ⟨?_, ?_, ?_⟩
  · rw [Memory.wf, hm]
    exact m
  · rw [Registers.wf, hr]
    exact r
  · rw [hf]
    exact f

theorem State.Canon.ite {p : Prop} [Decidable p] {a b : State} (ha : a.Canon) (hb : b.Canon) : (if p then a else b).Canon := by
  split
  · exact ha
  · exact hb

theorem State.Canon.ite_fst {α : Type} {p : Prop} [Decidable p] {a b : State × α} (ha : a.1.Canon) (hb : b.1.Canon) :
    (if p then a else b).1.Canon := by
  split
  · exact ha
  · exact hb

/-- A part that hands on the state of another beside its own result. -/
theorem State.Canon.fst_mk {α β : Type} {x : State × α} {b : β} (h : x.1.Canon) : (x.1, b).1.Canon := h

/-- Steps that each keep the form keep it together. -/
theorem State.Canon.foldl {α : Type} {f : State → α → State} {l : List α} (h : s.Canon) (hf : ∀ {s a}, s.Canon → (f s a).Canon) :
    (l.foldl f s).Canon := by
  induction l generalizing s with
  | nil => exact h
  | cons a l ih => exact ih (hf h)

/-- The same of steps that gather a result beside the state. -/
theorem State.Canon.foldl_fst {α β : Type} {f : State × β → α → State × β} {l : List α} {x : State × β} (h : x.1.Canon)
    (hf : ∀ {x a}, x.1.Canon → (f x a).1.Canon) : (l.foldl f x).1.Canon := by
  induction l generalizing x with
  | nil => exact h
  | cons a l ih => exact ih (hf h)

/-! ### Updates of the three maps -/

theorem State.Canon.setReg {a v} (h : s.Canon) : (s.setReg a v).Canon :=
  have ⟨m, r, f⟩ := h
  ⟨m, setReg_wf s a v r, f⟩
theorem State.Canon.setByte {a v} (h : s.Canon) : (s.setByte a v).Canon :=
  have ⟨m, r, f⟩ := h
  ⟨setByte_wf s a v m, r, f⟩
theorem State.Canon.setBytes {a bs} (h : s.Canon) : (s.setBytes a bs).Canon := by
  induction bs generalizing s a with
  | nil => exact h
  | cons b bs ih => exact ih h.setByte
theorem State.Canon.clearMem {lo hi} (h : s.Canon) : (s.clearMem lo hi).Canon :=
  have ⟨m, r, f⟩ := h
  ⟨clearMem_wf s lo hi m, r, f⟩
theorem State.Canon.flashErase {o n} (h : s.Canon) : (s.flashErase o n).Canon :=
  have ⟨m, r, f⟩ := h
  ⟨m, r, smDrop_wf flashReset s.flash o (o + n) f⟩
theorem State.Canon.flashProgram {o bs} (h : s.Canon) : (s.flashProgram o bs).Canon := by
  induction bs generalizing s o with
  | nil => exact h
  | cons b bs ih =>
    obtain ⟨m, r, f⟩ := h
    exact ih ⟨m, r, smSet_wf flashReset s.flash o _ f⟩
/-- The contents of a bank go (08 R223). -/
theorem State.Canon.clearBank {m b} (h : s.Canon) : (s.clearBank m b).Canon :=
  have ⟨hm, r, f⟩ := h
  ⟨smFilter_wf memReset s.mem _ hm, r, f⟩

/-! ### Tiles, stations, registers and memory -/

theorem State.Canon.setTile {T} (h : s.Canon) : (s.setTile st t T).Canon := .frame h rfl rfl rfl
theorem State.Canon.modTile {f} (h : s.Canon) : (s.modTile st t f).Canon := h.setTile
theorem State.Canon.setStn {S} (h : s.Canon) : (s.setStn st S).Canon := .frame h rfl rfl rfl
theorem State.Canon.modStn {f} (h : s.Canon) : (s.modStn st f).Canon := h.setStn
theorem State.Canon.setFld {a lo w v} (h : s.Canon) : (s.setFld a lo w v).Canon := h.setReg
theorem State.Canon.setFlag {a i} (h : s.Canon) : (s.setFlag a i).Canon := h.setFld
theorem State.Canon.bump {a n} (h : s.Canon) : (s.bump a n).Canon := h.setReg
theorem State.Canon.setLe {a n v} (h : s.Canon) : (s.setLe a n v).Canon := h.setBytes
theorem State.Canon.setUpset {a u} (h : s.Canon) : (s.setUpset a u).Canon := by
  unfold State.setUpset
  split <;> exact .frame h rfl rfl rfl
theorem State.Canon.useFree {n} (h : s.Canon) : (s.useFree n).Canon := .frame h rfl rfl rfl
theorem State.Canon.notify {n} (h : s.Canon) : (s.notify n).Canon := .frame h rfl rfl rfl
theorem State.Canon.clocked {f} (h : s.Canon) (hf : ∀ {s}, s.Canon → (f s).Canon) : (s.clocked f).Canon := .ite h (hf h)
theorem State.Canon.countCe {off n} (h : s.Canon) : (s.countCe st t off n).Canon := h.bump
theorem State.Canon.recordUe {off n} (h : s.Canon) : (s.recordUe st t off n).Canon := by
  unfold State.recordUe
  split
  · exact h
  · exact .setFlag (.ite h h.setFld)
theorem State.Canon.writeData {off bs} (h : s.Canon) : (s.writeData st t off bs).Canon := h.setBytes.foldl (·.setUpset)

/-! ### Meetings with the outside port -/

theorem State.Canon.retried (h : s.Canon) : (s.retried st t).Canon := h.bump
theorem State.Canon.writeBusy (h : s.Canon) : (s.writeBusy st t).Canon := h.setFlag
theorem State.Canon.met {meet reads writes} (h : s.Canon) : (s.met st t meet reads writes).Canon := by
  unfold State.met
  split
  · exact h
  · exact .ite h.retried h
  · exact .ite h.writeBusy h

/-! ### Exceptions (05) -/

theorem State.Canon.tileStopped {cause at_} (h : s.Canon) : (s.tileStopped st t cause at_).Canon := h.modTile.setReg.notify
theorem State.Canon.atticEntry {k f lvl vecOff cause} (h : s.Canon) : (s.atticEntry st t k f lvl vecOff cause).Canon :=
  .ite h.tileStopped h.setTile
theorem State.Canon.enter {e} (h : s.Canon) : (s.enter st t e).Canon :=
  .ite h.tileStopped <| .ite h.atticEntry <| .ite h.atticEntry h.writeData.setTile
theorem State.Canon.enterTest (h : s.Canon) : (s.enterTest st t).Canon := h.atticEntry.modTile
theorem State.Canon.eretReturn {at_} (h : s.Canon) : (s.eretReturn st t at_).Canon := by
  unfold State.eretReturn
  dsimp only
  split
  · exact h.setTile
  · split
    · exact h.countCe.setTile
    · exact h.tileStopped
    · exact h.recordUe.tileStopped

/-! ### The control unit (05) -/

theorem fireRdcr_canon {b} (h : s.Canon) (h0 : c.s0.Canon) : (fireRdcr c b s).Canon := .ite h0 <| .ite h0 h.modTile
theorem fireWrcr_canon {b} (h : s.Canon) (h0 : c.s0.Canon) : (fireWrcr c b s).Canon :=
  .ite h0 <| .ite h0 <| .ite h0 (.modTile (.frame h rfl rfl rfl))
theorem fireTransfer_canon {k pend result} (h : s.Canon) (h0 : c.s0.Canon) : (fireTransfer c k pend result s).Canon :=
  .ite h0 h.modTile
theorem fireJmp_canon {b} (h : s.Canon) (h0 : c.s0.Canon) : (fireJmp c b s).Canon := fireTransfer_canon h h0
theorem fireCall_canon {b} (h : s.Canon) (h0 : c.s0.Canon) : (fireCall c b s).Canon := .ite h0 <| .ite h0 (fireTransfer_canon h h0)
theorem fireRet_canon (h : s.Canon) (h0 : c.s0.Canon) : (fireRet c s).Canon := .ite h0 <| .ite h0 (fireTransfer_canon h.modTile h0)
theorem fireSys_canon {b} (h : s.Canon) (h0 : c.s0.Canon) : (fireSys c b s).Canon := fireTransfer_canon h h0
theorem fireEret_canon (h : s.Canon) (h0 : c.s0.Canon) : (fireEret c s).Canon := .ite h0 <| .ite h0 <| .ite h0 h.modTile
theorem fireShield_canon {b} (h : s.Canon) : (fireShield c b s).Canon := h.modTile
theorem fireIdle_canon (h : s.Canon) : (fireIdle c s).Canon := .ite trivial h.modTile

/-! ### The network unit (07) -/

theorem fireSend_canon {ch b} (h : s.Canon) (h0 : c.s0.Canon) : (fireSend c ch b s).Canon := .ite h0 <| .ite trivial h.modTile
theorem fireMdst_canon {b} (h : s.Canon) (h0 : c.s0.Canon) : (fireMdst c b s).Canon :=
  .ite (.ite trivial h.modTile) <| .ite h0 <| .ite trivial h.modTile
theorem fireMbox_canon {b} (h : s.Canon) : (fireMbox c b s).Canon := .ite trivial h.modTile
theorem readRecv_canon {s0 ch} (h : s.Canon) (h0 : s0.Canon) : (readRecv s0 st t ch s).Canon := by
  unfold readRecv
  split
  · exact h0
  · split
    · trivial
    · split
      · trivial
      · exact h.modTile

/-! ### Loads and stores (02) -/

theorem fireLsu_canon {op b} (h : s.Canon) (h0 : c.s0.Canon) : (fireLsu c op b s).Canon := by
  unfold fireLsu
  dsimp only
  split
  · exact h0
  · split
    · exact trivial
    · split
      · exact h0
      · exact .ite h.writeData h0.recordUe
      · exact .ite h.writeData h.countCe.modTile

/-! ### The queue unit (08) -/

theorem fireLreq_canon {k b} (h : s.Canon) (h0 : c.s0.Canon) : (fireLreq c k b s).Canon := by
  unfold fireLreq
  dsimp only
  split
  · exact h0
  · exact .ite trivial h.modTile
theorem fireSadr_canon {k b} (h : s.Canon) (h0 : c.s0.Canon) : (fireSadr c k b s).Canon := by
  unfold fireSadr
  dsimp only
  split
  · exact h0
  · exact .ite trivial h.modTile
theorem fireWait_canon {k b} (h : s.Canon) (h0 : c.s0.Canon) : (fireWait c k b s).Canon := by
  unfold fireWait
  split
  · exact trivial
  · split
    · exact h0.modTile
    · exact h.modTile
theorem fireBlk_canon {b} (h : s.Canon) (h0 : c.s0.Canon) : (fireBlk c b s).Canon := by
  unfold fireBlk
  dsimp only
  split
  · exact h0
  · split
    · exact h0
    · exact .ite h0 <| .ite (.ite trivial h.modTile) <| .ite trivial h.modTile
theorem fireAtomic_canon {swap b} (h : s.Canon) (h0 : c.s0.Canon) : (fireAtomic c swap b s).Canon := by
  unfold fireAtomic
  dsimp only
  split
  · exact h0
  · exact .ite h0 h.modTile
theorem State.Canon.elementIssue {k} (h : s.Canon) : (s.elementIssue st t k).Canon := by
  unfold State.elementIssue
  dsimp only
  split
  · exact h
  · exact .ite h h.setTile
theorem State.Canon.storeElementSend {k} (h : s.Canon) : (s.storeElementSend st t k).Canon := by
  unfold State.storeElementSend
  dsimp only
  split
  · exact h
  · exact .ite h h.setTile
theorem State.Canon.blockIssue {k out meet} (h : s.Canon) : (s.blockIssue st t k out meet).Canon := by
  unfold State.blockIssue
  dsimp only
  split
  · exact h
  · split
    · split
      · exact h
      · split
        · exact h.setTile
        · exact h.recordUe.modTile
        · exact h.countCe.met.modTile
    · exact .ite h h.setTile
theorem State.Canon.blockDone {k out meet} (h : s.Canon) : (s.blockDone st t k out meet).Canon := by
  unfold State.blockDone
  dsimp only
  split
  · exact h
  · split
    · exact h
    · exact .ite h <| .ite h.setTile <| .ite h.setTile <| .ite h.setTile h.writeData.met.modTile
theorem State.Canon.quAnswer {r} (h : s.Canon) : (s.quAnswer st t r).Canon := by
  unfold State.quAnswer
  dsimp only
  split
  · exact h
  · split
    · exact h.setTile
    · split
      · exact h
      · exact h.setTile
    · split
      · exact h
      · exact h.setTile
    · exact .ite h.setTile h.setTile.setFlag
    · exact .ite h.setTile h.useFree.setTile.setFlag

/-! ### Triggers of the arithmetic units (04) -/

theorem fireAlu_canon {n op b} (h : s.Canon) : (fireAlu c n op b s).Canon := h.modTile
theorem fireMac_canon {n mode accum k b} (h : s.Canon) : (fireMac c n mode accum k b s).Canon := h.modTile
theorem fireShf_canon {op b} (h : s.Canon) : (fireShf c op b s).Canon := h.modTile

/-! ### The scan unit (04) -/

theorem fireVector_canon {op b} (h : s.Canon) (h0 : c.s0.Canon) : (fireVector c op b s).Canon := by
  unfold fireVector
  extract_lets a k wr p badB s1 badA q r x out s2
  have h1 : s1.Canon := h.countCe.recordUe
  split
  · exact h0
  split
  · exact h0
  split
  · exact h0
  split
  · exact h0
  split
  · trivial
  split
  · exact h1.countCe.recordUe.modTile
  · exact State.Canon.ite h1.modTile h1.modTile.writeData
theorem fireVcfg_canon {b} (h : s.Canon) : (fireVcfg c b s).Canon := .ite trivial h.modTile
theorem fireWimg_canon {b} (h : s.Canon) (h0 : c.s0.Canon) : (fireWimg c b s).Canon := by
  unfold fireWimg
  dsimp only
  split
  · exact h0
  · exact .ite h0 <| .ite trivial h.modTile
theorem fireWout_canon {b} (h : s.Canon) (h0 : c.s0.Canon) : (fireWout c b s).Canon := by
  unfold fireWout
  dsimp only
  split
  · exact h0
  · exact .ite h0 <| .ite trivial h.modTile
theorem fireWalk_canon {b} (h : s.Canon) : (fireWalk c b s).Canon := .ite trivial h.modTile
theorem State.Canon.walkEnd {err ended samples edges} (h : s.Canon) : (s.walkEnd st t err ended samples edges).Canon := h.modTile
theorem State.Canon.walkEdge {meet w samples k i dNext} (h : s.Canon) : (s.walkEdge st t meet w samples k i dNext).1.Canon := by
  unfold State.walkEdge
  dsimp only
  split
  · exact h
  · exact .ite_fst h.walkEnd <| .ite_fst h.walkEnd h.writeData.met
theorem State.Canon.walkSample {meet} (h : s.Canon) : (s.walkSample st t meet).Canon := by
  unfold State.walkSample
  extract_lets T finish
  have hfinish {s w ended l} (k : s.Canon) : (finish s w ended l).Canon := by
    unfold finish
    split
    · exact k.walkEnd
    · split
      next e => exact .of_fst e k.walkEdge
      next e => exact .walkEnd (.of_fst e k.walkEdge)
  split
  · exact h
  · extract_lets k p off s1 w smp step
    have h1 : s1.Canon := h.countCe.met
    have hstep : step.1.Canon := by
      unfold step
      split
      · exact h1.walkEdge
      · exact h1
    clear_value step
    split
    · exact h
    · split
      · exact hfinish h
      · split
        · exact h.walkEnd
        · exact h.recordUe.walkEnd
        · split
          · exact hstep
          · exact .ite (hfinish hstep) hstep.modTile

/-! ### Issue of an instruction (02, 05) -/

theorem fireTrig_canon {x b} (h : s.Canon) (h0 : c.s0.Canon) : (fireTrig c x b s).Canon := by
  unfold fireTrig
  split
  · exact fireAlu_canon h
  · exact fireMac_canon h
  · exact fireShf_canon h
  · exact fireVcfg_canon h
  · exact fireWimg_canon h h0
  · exact fireWout_canon h h0
  · exact fireWalk_canon h
  · exact fireVector_canon h h0
  · exact fireLsu_canon h h0
  · exact fireWait_canon h h0
  · exact fireLreq_canon h h0
  · exact fireSadr_canon h h0
  · exact fireBlk_canon h h0
  · exact fireAtomic_canon h h0
  · exact fireAtomic_canon h h0
  · exact fireSend_canon h h0
  · exact fireMdst_canon h h0
  · exact fireMbox_canon h
  · exact fireJmp_canon h h0
  · exact fireCall_canon h h0
  · exact fireRet_canon h h0
  · exact fireSys_canon h h0
  · exact fireEret_canon h h0
  · exact fireShield_canon h
  · exact fireRdcr_canon h h0
  · exact fireWrcr_canon h h0
  · exact fireIdle_canon h
theorem readSource_canon {s0 m} (h : s.Canon) (h0 : s0.Canon) : (readSource s0 st t m s).Canon := by
  unfold readSource
  extract_lets T ready
  have hready (b : Bool) (v : W64) : (ready b v).Canon := by
    unfold ready
    split
    · trivial
    · exact h
  split
  case h_1 | h_2 | h_3 | h_8 | h_9 => exact h
  case h_4 | h_5 | h_6 | h_7 => exact hready _ _
  · split
    · trivial
    · exact .ite h.modTile h
  · split
    · exact h
    · exact h
    · trivial
    · exact h
  · split
    · exact h
    · exact h
    · trivial
    · exact h
  · split
    · exact h.modTile
    · exact h0
    · trivial
  · split
    · exact h.modTile
    · exact h0
    · split
      · exact h0
      · exact h.modTile.setFlag
  · exact readRecv_canon h h0
theorem readMoves_canon {s0 ms vs} (h : s.Canon) (h0 : s0.Canon) : (readMoves s0 st t ms vs s).Canon := by
  induction ms generalizing s vs with
  | nil => exact h
  | cons m ms ih =>
    unfold readMoves
    split
    · exact ih h
    · split
      next e => exact ih (.of_val e (readSource_canon h h0))
      · trivial
      next e => exact .of_readFault e (readSource_canon h h0)
theorem fireMoves_canon {vs ms} (h : s.Canon) (h0 : c.s0.Canon) : (fireMoves c vs ms s).Canon := by
  induction ms generalizing s with
  | nil => exact h
  | cons m ms ih =>
    unfold fireMoves
    split
    next x _ => exact .bind (fireTrig_canon (c := { c with dst := BitVec.ofNat 64 m.dpos }) h h0) ih
    · exact ih h
theorem fireAll_canon {vs ms} (h : s.Canon) (h0 : c.s0.Canon) : (fireAll c vs ms s).Canon := by
  unfold fireAll
  split
  · split <;> exact fireMoves_canon h h0
  · exact fireMoves_canon h h0
theorem State.Canon.finish {old i rep} (h : s.Canon) : (s.finish st t old i rep).Canon := by
  unfold State.finish
  dsimp only
  split
  · exact .setTile (.ite h.bump.bump h.bump)
  · exact .ite (.eretReturn (.setTile (.ite h.bump.bump h.bump))) (.setTile (.ite h.bump.bump h.bump))
theorem State.Canon.runMoves {i ms} (h : s.Canon) : (s.runMoves st t i ms).Canon := by
  unfold State.runMoves
  extract_lets T
  split
  · trivial
  next e => exact .of_readsFault e (readMoves_canon h h)
  next e => exact .ite trivial (fireAll_canon (.modTile (.of_vals e (readMoves_canon h h))) h)
theorem State.Canon.execute {i} (h : s.Canon) : (s.execute st t i).Canon := by
  unfold State.execute
  dsimp only
  split
  · split
    · exact h
    · split
      · exact h.modTile
      · exact .bind h.runMoves (·.finish)
  · split
    · split
      · exact h.modTile
      · exact h.modTile.finish
    · split
      · exact h.setTile
      · split
        · exact h.setTile.modTile
        · split
          · exact trivial
          next e => exact .of_fault e h.setTile.runMoves
          next e => exact .finish (.ite (.modTile (.of_done e h.setTile.runMoves)) (.of_done e h.setTile.runMoves))
theorem State.Canon.takeReport {r} (h : s.Canon) : (s.takeReport st t r).Canon := h.modTile.enter
theorem State.Canon.drained {f} (h : s.Canon) (hf : ∀ {s}, s.Canon → (f s).Canon) : (s.drained st t f).Canon := by
  unfold State.drained
  dsimp only
  split
  · exact h.setTile.takeReport
  · exact hf h.setTile
theorem State.Canon.takeExc {cause efaddr} (h : s.Canon) : (s.takeExc st t cause efaddr).Canon := h.drained (·.enter)
theorem State.Canon.takeFault {s1 cause efaddr} (h : s.Canon) (h1 : s1.Canon) : (s.takeFault s1 st t cause efaddr).Canon :=
  .ite (h.drained id) h1.takeExc
theorem State.Canon.takeTest (h : s.Canon) : (s.takeTest st t).Canon := .ite h.modTile.enterTest (h.drained (·.enterTest))
theorem State.Canon.takeStop (h : s.Canon) : (s.takeStop st t).Canon := h.modTile
theorem State.Canon.stalled (h : s.Canon) : (s.stalled st t).Canon := h.bump.modTile
theorem State.Canon.forceOld (h : s.Canon) : (s.forceOld st t).Canon := h.modTile
theorem State.Canon.loadCount (h : s.Canon) : (s.loadCount st t).Canon := by
  unfold State.loadCount
  dsimp only
  split
  · exact h.setTile
  · exact h
theorem State.Canon.boundary (h : s.Canon) : (s.boundary st t).Canon := by
  unfold State.boundary
  split
  · exact h
  · extract_lets s1 T irq takeIrq s2
    have h1 : s1.Canon := h.forceOld
    have h2 : s2.Canon := h1.loadCount
    clear_value irq
    split
    · exact h1.takeStop
    split
    · exact h1.takeTest
    split
    · exact h1.drained id
    split
    · exact h1.stalled
    split
    · exact h1.drained (·.modTile.enter)
    split
    · exact h2.takeExc
    · split
      · exact h1.takeExc
      · exact h1.stalled.bump.modTile
    split
    · exact h2.takeExc
    split
    next e => exact h2.takeFault (.of_fault e h2.execute)
    · split
      · exact h2.takeExc
      · exact h2.stalled.modTile
    next e =>
      split
      · exact h2.takeExc
      · exact .of_done e h2.execute
theorem State.Canon.trigger {seg x b} (h : s.Canon) : (s.trigger st t seg x b).Canon := by
  unfold State.trigger
  split
  · exact h
  · split
    · exact h.takeFault h.modTile
    · have hx := fireTrig_canon (c := Ctx.alone s st t seg) (x := x) (b := b) h h
      split
      next e => exact .ite (.modTile (.of_done e hx)) (.of_done e hx)
      · exact h.stalled
      next e => exact h.takeFault (.of_fault e hx)

/-! ### Banks, scrubbers and LP5 controllers (08) -/

theorem State.Canon.setBankPower {m b v} (h : s.Canon) : (s.setBankPower m b v).Canon := h.setFld
theorem State.Canon.setChange {m b x} (h : s.Canon) : (s.setChange m b x).Canon := .frame h rfl rfl rfl
theorem State.Canon.endChange {m b} (h : s.Canon) : (s.endChange m b).Canon := .frame h rfl rfl rfl
theorem State.Canon.bankRequest {m b v} (h : s.Canon) : (s.bankRequest m b v).Canon := by
  unfold State.bankRequest
  split
  · exact h
  · split
    · exact h.setChange
    · exact .ite h.setChange <| .ite h <| .ite h.setChange (.setBankPower (.ite h.clearBank h))
theorem State.Canon.bankPowerWrite {m hi v} (h : s.Canon) : (s.bankPowerWrite m hi v).Canon := by
  unfold State.bankPowerWrite
  split
  · exact h
  · split <;> exact h.foldl (·.bankRequest)
theorem State.Canon.bankChangeEnd {m b} (h : s.Canon) : (s.bankChangeEnd m b).Canon := by
  unfold State.bankChangeEnd
  split
  · dsimp only
    split
    · exact .ite h.endChange.setBankPower.clearBank h.endChange.setBankPower
    · exact .bankRequest (.ite h.endChange.setBankPower.clearBank h.endChange.setBankPower)
  · exact h
theorem State.Canon.zeroFillStart {m fill} (h : s.Canon) : (s.zeroFillStart m fill).Canon :=
  .ite h (h.foldl (fun k => .ite k.setFld k))
theorem State.Canon.zeroFillEnd {m b} (h : s.Canon) : (s.zeroFillEnd m b).Canon := by
  unfold State.zeroFillEnd
  split
  · exact h
  · dsimp only
    split
    · exact h.clearBank.endChange.setFld
    · exact h.clearBank.endChange.setFld.bankRequest
theorem State.Canon.memCe {m n} (h : s.Canon) : (s.memCe m n).Canon := by
  unfold State.memCe
  split
  · exact h
  · split
    · exact h.bump
    · exact h.bump.setFlag
    · exact h.setFld.setFlag
    · exact h.bump.setFlag
theorem State.Canon.memUe {m a} (h : s.Canon) : (s.memUe m a).Canon := by
  unfold State.memUe
  split
  · exact .setFlag (.ite h h.setFld)
  · exact .setFlag (.ite h h.setReg)
  · exact .setFlag (.ite h h.setReg)
  · exact .setFlag (.ite h h.setReg.setReg)
theorem State.Canon.scrubWords {m ws} (h : s.Canon) : (s.scrubWords m ws).Canon := by
  unfold State.scrubWords
  refine h.foldl (fun k => ?_)
  split
  · exact k
  · exact k.setUpset.memCe
  · exact k.memUe.notify
theorem State.Canon.memScrub {m b found} (h : s.Canon) : (s.memScrub m b found).Canon :=
  .ite h (.frame (.scrubWords (.ite h h.setUpset)) rfl rfl rfl)
theorem State.Canon.lpInit {n} (h : s.Canon) : (s.lpInit n).Canon := .ite h (.frame h.setFld rfl rfl rfl)
theorem State.Canon.lpTrainingEnd {n pass} (h : s.Canon) : (s.lpTrainingEnd n pass).Canon := .ite h (.frame h.setFld rfl rfl rfl)
theorem State.Canon.lpSelfRefresh {n enter} (h : s.Canon) : (s.lpSelfRefresh n enter).Canon := .ite h h.setFld.setFld
theorem State.Canon.lpMr4 {n hot} (h : s.Canon) : (s.lpMr4 n hot).Canon := .ite h.setFld h
theorem State.Canon.lpScrub {n found} (h : s.Canon) : (s.lpScrub n found).Canon :=
  .ite h (.frame (.scrubWords (.ite h h.setUpset)) rfl rfl rfl)
theorem State.Canon.lpCtrlWrite {n v} (h : s.Canon) : (s.lpCtrlWrite n v).Canon :=
  .ite h.setReg.lpSelfRefresh.lpInit h.setReg.lpSelfRefresh

/-! ### Load cells and the Pantry (10) -/

theorem State.Canon.setRegBytes {a bs} (h : s.Canon) : (s.setRegBytes a bs).Canon := h.foldl (·.setReg)
theorem State.Canon.modLc {c f} (h : s.Canon) : (s.modLc c f).Canon := .frame h rfl rfl rfl
theorem State.Canon.lcFlag {c i} (h : s.Canon) : (s.lcFlag c i).Canon := h.setFlag.notify
theorem State.Canon.settleIf {old c} (h : s.Canon) : (s.settleIf old c).Canon := .ite h h.modLc
theorem State.Canon.lcSettingsWrite {c off v} (h : s.Canon) : (s.lcSettingsWrite c off v).Canon := by
  unfold State.lcSettingsWrite
  split
  · exact h
  · extract_lets a s1
    have h1 : s1.Canon := .ite h.setReg <| .ite h.setReg <| .ite h.setReg h
    exact .ite h1.setFld.settleIf h
theorem State.Canon.lcTake {c} (h : s.Canon) : (s.lcTake c).Canon := by
  unfold State.lcTake
  exact .ite h.setFld (((((h.setFld.setFld.setReg.setReg.foldl (·.setReg)).modLc).setFld).setFld).settleIf)
theorem State.Canon.lcLoad {c} (h : s.Canon) : (s.lcLoad c).Canon := .ite h.modLc h
theorem State.Canon.lcLoadEnd {c} (h : s.Canon) : (s.lcLoadEnd c).Canon := .ite h h.modLc.lcTake
theorem State.Canon.lcEnable {c} (h : s.Canon) : (s.lcEnable c).Canon := .ite h.setFld <| .ite h.setFld h.setFld.setFld.modLc
theorem State.Canon.lcExcitation {c on} (h : s.Canon) : (s.lcExcitation c on).Canon :=
  .ite h <| .ite h.setFld.modLc <| .ite h.setFld.modLc h.setFld
theorem State.Canon.excitationFault {c} (h : s.Canon) : (s.excitationFault c).Canon := .ite h.modLc.lcFlag h
theorem State.Canon.openWire {c line} (h : s.Canon) : (s.openWire c line).Canon := .ite h.setFld.lcFlag h
theorem State.Canon.wireReconnect {c line} (h : s.Canon) : (s.wireReconnect c line).Canon := h.setFld
theorem State.Canon.senseFault {c} (h : s.Canon) : (s.senseFault c).Canon := .ite h.modLc.lcFlag h
theorem State.Canon.senseFaultEnd {c} (h : s.Canon) : (s.senseFaultEnd c).Canon := h.modLc
theorem State.Canon.calsealChange {isOpen} (h : s.Canon) : (s.calsealChange isOpen).Canon :=
  .ite (h.setFld.foldl (·.lcLoad)) h.setFld
theorem State.Canon.lcNotify {c} (h : s.Canon) : (s.lcNotify c).Canon := h.foldl (fun k => .ite k.modTile k)
theorem State.Canon.lcSample {c first second ovr} (h : s.Canon) : (s.lcSample c first second ovr).Canon := by
  unfold State.lcSample
  extract_lets st a R x0 x1 L h2 f y clip openNow flags seq ts d1 off n due s1 s2 b s3
  have h1 : s1.Canon := h.modLc
  have h2' : s2.Canon := .ite h1.lcFlag h1
  have h3 : s3.Canon := .ite h2'.lcFlag.setFld <| .ite h2'.lcFlag h2'.setLe.setLe.setUpset.setUpset.setReg
  exact .ite h <| .ite h3.lcNotify h3
theorem State.Canon.modFlash {f} (h : s.Canon) : (s.modFlash f).Canon := .frame h rfl rfl rfl
theorem State.Canon.doorbell {off v} (h : s.Canon) : (s.doorbell st t off v).Canon :=
  .ite h (.notify (.ite h.setReg.setFld.setFld.setFld h.setReg))
theorem State.Canon.disarm (h : s.Canon) : s.disarm.Canon := h.setFld
theorem State.Canon.pantryRes {res} (h : s.Canon) : (s.pantryRes res).Canon := h.setFld.setFlag
theorem State.Canon.commitStart {j} (h : s.Canon) : (s.commitStart j).Canon := .ite h.pantryRes h.modFlash.setFld
theorem State.Canon.commitOver {j res} (h : s.Canon) : (s.commitOver j res).Canon := h.modFlash.notify
theorem State.Canon.commitGo {asker} (h : s.Canon) : (s.commitGo asker).Canon := by
  unfold State.commitGo
  dsimp only
  split
  · exact h
  · split
    · exact h.setFld
    · split
      · exact h.commitStart
      · exact h.setFld
      · exact h.setFld
      · exact h.modFlash
theorem State.Canon.auditAppend {rec} (h : s.Canon) : (s.auditAppend rec).Canon := h.flashProgram.modFlash
theorem State.Canon.commitRecord (h : s.Canon) : s.commitRecord.Canon := by
  unfold State.commitRecord
  split
  · exact h.auditAppend.modFlash
  · exact h
theorem State.Canon.commitTick (h : s.Canon) : s.commitTick.Canon := by
  unfold State.commitTick
  split
  · exact .ite h.commitRecord h
  · exact h
theorem State.Canon.commitEnd {ok} (h : s.Canon) : (s.commitEnd ok).Canon := by
  unfold State.commitEnd
  split
  · extract_lets s1 s2 s3 s4 s5 s6 res
    have h1 : s1.Canon := h.commitRecord
    have h2 : s2.Canon := h1.flashErase
    have h3 : s3.Canon := .ite h2.flashProgram h2
    have h4 : s4.Canon := h3.modFlash
    have h5 : s5.Canon := h4.foldl (fun k => .ite k.lcTake k)
    have h6 : s6.Canon := h5.setRegBytes
    exact h6.disarm.setFld.pantryRes.commitOver
  · exact h
theorem State.Canon.appendGo (h : s.Canon) : s.appendGo.Canon :=
  .ite h <| .ite h.setFld <| .ite h.pantryRes <| .ite h.pantryRes h.modFlash.setFld
theorem State.Canon.appendEnd {ok} (h : s.Canon) : (s.appendEnd ok).Canon := by
  unfold State.appendEnd
  split
  · exact .ite h.modFlash.setFld.auditAppend.pantryRes h.modFlash.setFld.pantryRes
  · exact h

/-! ### Requests on the matrix (11) -/

theorem State.Canon.decodeError {m a} (h : s.Canon) : (s.decodeError m a).Canon := by
  unfold State.decodeError
  extract_lets s1 s2
  have h1 : s1.Canon := .ite h h.setFld.setReg.setReg
  have h2 : s2.Canon := h1.setFlag
  exact .ite h2.notify h2
theorem State.Canon.mxAnswer {m r} (h : s.Canon) : (s.mxAnswer m r).Canon := by
  unfold State.mxAnswer
  split
  · exact .frame h rfl rfl rfl
  · exact h.modStn
theorem State.Canon.mxEnqueue {m req origin} (h : s.Canon) : (s.mxEnqueue m req origin).Canon := by
  unfold State.mxEnqueue
  extract_lets n cuts s1 todo r
  have h1 : s1.Canon := h.foldl (fun k => .ite k.decodeError k)
  exact .ite h1.mxAnswer (.frame h1 rfl rfl rfl)
theorem State.Canon.matrixRequest {m r} (h : s.Canon) : (s.matrixRequest m r).Canon := .ite h.mxEnqueue h

/-! ### A tile seen from outside (05) -/

theorem State.Canon.noted (h : s.Canon) : s.noted.Canon := .frame h rfl rfl rfl
theorem State.Canon.reserved {a v} (h : s.Canon) : (s.reserved a v).Canon := .frame h rfl rfl rfl
theorem State.Canon.reservedIf {c a v} (h : s.Canon) : (s.reservedIf c a v).Canon := .ite h.reserved h
theorem State.Canon.issue {meet} (h : s.Canon) : (s.issue st t meet).Canon := by
  unfold State.issue
  dsimp only
  split
  · split
    · exact .ite h.boundary.retried.stalled h.boundary.met
    · exact h.boundary
  · exact h.boundary
theorem State.Canon.irqEntry (h : s.Canon) : (s.irqEntry st t).Canon := .ite h.boundary h
theorem State.Canon.arithReport (h : s.Canon) : (s.arithReport st t).Canon := .ite h.boundary h
theorem State.Canon.windowEnd (h : s.Canon) : (s.windowEnd st t).Canon := .ite h h.modTile
theorem State.Canon.idleWake (h : s.Canon) : (s.idleWake st t).Canon := .ite h.boundary h
theorem State.Canon.operationComplete {u} (h : s.Canon) : (s.operationComplete st t u).Canon := .ite h h.modTile
theorem State.Canon.transfer {x b} (h : s.Canon) : (s.transfer st t x b).Canon := h.trigger.modTile
theorem State.Canon.idleTrigger (h : s.Canon) : (s.idleTrigger st t).Canon := .ite h.stalled.modTile h.trigger
theorem State.Canon.takeComplete (h : s.Canon) : (s.takeComplete st t).Canon := .ite h.setTile h
theorem State.Canon.recordTest {c k serves} (h : s.Canon) : (s.recordTest st c k serves).Canon := h.setFld.setFld.setFld
theorem State.Canon.beginRepair (h : s.Canon) : (s.beginRepair st).Canon := by
  unfold State.beginRepair
  dsimp only
  split
  · exact h
  · split
    · exact h
    · exact h.setStn.setFlag
theorem State.Canon.askRepair {r} (h : s.Canon) : (s.askRepair st r).Canon := .ite h h.modStn.beginRepair
theorem State.Canon.tileStart (h : s.Canon) : (s.tileStart st t).Canon := .ite h.modTile h
theorem State.Canon.clearCounters (h : s.Canon) : (s.clearCounters st t).Canon := h.foldl (·.setReg)
theorem State.Canon.startTile (h : s.Canon) : (s.startTile st t).Canon := h.setTile.clearCounters.useFree
theorem State.Canon.tileSelfTestEnd (h : s.Canon) : (s.tileSelfTestEnd st t).Canon := by
  unfold State.tileSelfTestEnd
  split
  · exact h
  · extract_lets c k ok s1 s2
    have h1 : s1.Canon := h.recordTest
    have h2 : s2.Canon := h1.modTile.notify
    exact .ite (.ite h2.askRepair h2) <| .ite h1.modTile.notify h1.startTile
theorem State.Canon.pipeFailure {p k} (h : s.Canon) : (s.pipeFailure st p k).Canon := by
  unfold State.pipeFailure
  dsimp only
  split
  · exact h.modStn
  · exact .ite h.modStn.tileStopped h.modStn
theorem State.Canon.tileStopRequest (h : s.Canon) : (s.tileStopRequest st t).Canon := by
  unfold State.tileStopRequest
  split
  · exact h.modTile
  · exact h.modTile
  · exact h
theorem State.Canon.tileStopTaken (h : s.Canon) : (s.tileStopTaken st t).Canon := .ite h.boundary h
theorem State.Canon.tileTestRequest (h : s.Canon) : (s.tileTestRequest st t).Canon := .ite h.modTile h
theorem State.Canon.testEntry (h : s.Canon) : (s.testEntry st t).Canon := .ite h.boundary h
theorem State.Canon.tileSwi {hall v} (h : s.Canon) : (s.tileSwi st t hall v).Canon := .ite h h.modTile

/-! ### The station network (07) -/

theorem State.Canon.netFlag {i} (h : s.Canon) : (s.netFlag st i).Canon := .ite h.setFlag.notify h.setFlag
theorem State.Canon.charge {w sel} (h : s.Canon) : (s.charge st w sel).Canon := by
  unfold State.charge
  dsimp only
  split
  · exact h
  · exact .ite h.modTile h
theorem State.Canon.holdWord {sel w conflict} (h : s.Canon) : (s.holdWord st sel w conflict).Canon := by
  unfold State.holdWord
  extract_lets s1 S
  have h1 : s1.Canon := .ite h.bump.netFlag.charge h
  exact .ite h1.netFlag h1.setStn
theorem State.Canon.channelInject {c slot} (h : s.Canon) : (s.channelInject st t c slot).Canon := by
  unfold State.channelInject
  split
  · exact h
  · split
    · exact h
    · exact .ite h.setStn.modTile h
theorem State.Canon.creditInject {c slot} (h : s.Canon) : (s.creditInject st t c slot).Canon := by
  unfold State.creditInject
  split
  · exact h
  · split
    · exact h
    · exact .ite h.setStn.modTile h
theorem State.Canon.queueLeave {n ws} (h : s.Canon) : (s.queueLeave st n ws).Canon := .ite h.modTile h.modStn
theorem State.Canon.feedLocal {n} (h : s.Canon) : (s.feedLocal st n).Canon := h.queueLeave.modTile.modStn
theorem State.Canon.bePop {n i cls} (h : s.Canon) : (s.bePop st n i cls).Canon := .ite h.modStn <| .ite h.queueLeave h.modStn
theorem State.Canon.loadOutput {sel cyc found} (h : s.Canon) : (s.loadOutput st sel cyc found).Canon := by
  unfold State.loadOutput
  dsimp only
  split
  · exact .modStn (.queueLeave (.ite h.feedLocal h))
  · split
    · exact .setStn (.ite h.feedLocal h)
    · split
      · split
        · exact .ite h.feedLocal h
        · exact .modStn (.bePop (.ite h.feedLocal h))
      · exact .ite (.netFlag (.modStn (.ite h.feedLocal h))) (.modStn (.ite h.feedLocal h))
theorem State.Canon.linkWordHop {sel slot found} (h : s.Canon) : (s.linkWordHop st sel slot found).Canon := by
  unfold State.linkWordHop
  extract_lets S u1
  split
  · split
    · exact h
    · exact .ite h.loadOutput h
  · extract_lets cyc s1
    have h1 : s1.Canon := h.setStn
    split
    · exact h
    · split
      · exact h
      · split
        · exact h1.netFlag
        · exact .ite (.ite h h1.modStn) <| .ite (.ite h1.modStn h) h1.holdWord
theorem State.Canon.channelDataDeliver {slot} (h : s.Canon) : (s.channelDataDeliver st t slot).Canon := by
  unfold State.channelDataDeliver
  split
  · exact h
  · exact .ite h <| .ite h.modStn.netFlag <| .ite h.modStn.netFlag h.modStn.modTile
theorem State.Canon.creditDeliver {slot} (h : s.Canon) : (s.creditDeliver st t slot).Canon := by
  unfold State.creditDeliver
  split
  · exact h
  · exact .ite h <| .ite h.modStn.modTile.netFlag h.modStn.modTile
theorem State.Canon.mailArrive {n src band payload} (h : s.Canon) : (s.mailArrive st n src band payload).Canon :=
  .ite (.ite h.netFlag h.setStn) <| .ite (.ite h.setTile h.setTile.netFlag) h
theorem State.Canon.mailboxDeliver {n slot} (h : s.Canon) : (s.mailboxDeliver st n slot).Canon := by
  unfold State.mailboxDeliver
  split
  · exact h
  · exact .ite h h.modStn.mailArrive
theorem State.Canon.queueWordIn {n m slot} (h : s.Canon) : (s.queueWordIn st n m slot).1.Canon := by
  unfold State.queueWordIn
  split
  · exact h
  · split
    · exact h
    · exact .ite_fst h h.modStn
theorem State.Canon.takeDivisor (h : s.Canon) : (s.takeDivisor st).Canon := by
  unfold State.takeDivisor
  split
  · exact h
  · exact h.setFld
theorem State.Canon.freezeWork (h : s.Canon) : (s.freezeWork st).Canon := h.setStn.setFld.setFld.beginRepair
theorem State.Canon.frameBoundary (h : s.Canon) : (s.frameBoundary st).Canon :=
  .ite h <| .ite h.bump.setStn.setFld.freezeWork h.bump.setStn
theorem State.Canon.freezeEnd (h : s.Canon) : (s.freezeEnd st).Canon := by
  unfold State.freezeEnd
  extract_lets S halt s1
  have h1 : s1.Canon := h.bump.setStn.freezeWork
  exact .ite h <| .ite h1 h1.takeDivisor.modStn.setFld
theorem State.Canon.slotTableScrub {sel i found} (h : s.Canon) : (s.slotTableScrub st sel i found).Canon := by
  unfold State.slotTableScrub
  dsimp only
  split
  · exact h
  · split
    · exact h
    · exact h.modStn.netFlag
    · exact h.modStn.netFlag
theorem State.Canon.netFixGo {v} (h : s.Canon) : (s.netFixGo st v).Canon :=
  .ite h <| .ite h.setReg <| .ite h.setReg.modStn.setFld h.setReg.modStn
theorem State.Canon.netHalt {halt} (h : s.Canon) : (s.netHalt st halt).Canon := .ite h.setFld h
theorem State.Canon.hallMailboxSend {v} (h : s.Canon) : (s.hallMailboxSend st v).Canon := .ite h <| .ite h.setReg h.setReg.setStn
theorem State.Canon.hallPop (h : s.Canon) : (s.hallPop st).Canon := h.modStn

/-! ### Memory nodes and line fills (08) -/

theorem State.Canon.stnMemFail {off n r} (h : s.Canon) : (s.stnMemFail st off n r).Canon := by
  unfold State.stnMemFail
  split
  · exact h.setFlag
  · split
    · exact h
    · exact h.memUe
  · exact h
theorem State.Canon.stnMemCe {off n} (h : s.Canon) : (s.stnMemCe st off n).Canon := h.memCe
theorem State.Canon.stnMemWrite {off bs} (h : s.Canon) : (s.stnMemWrite st off bs).Canon := h.setBytes.foldl (·.setUpset)
theorem State.Canon.stnMemRead {off n} (h : s.Canon) : (s.stnMemRead st off n).1.Canon := by
  unfold State.stnMemRead
  split
  · exact h.stnMemCe
  · exact h.stnMemFail
theorem State.Canon.stnMemStore {off bs} (h : s.Canon) : (s.stnMemStore st off bs).1.Canon := .ite_fst h.stnMemWrite h.stnMemFail
theorem State.Canon.takeRequest {node q} (h : s.Canon) : (s.takeRequest st node q).Canon := by
  unfold State.takeRequest
  dsimp only
  split
  · exact h.modTile.modStn
  · exact h.modTile.mxEnqueue
theorem State.Canon.queueArrival {node slot} (h : s.Canon) : (s.queueArrival st t node slot).Canon := by
  unfold State.queueArrival
  split
  next e => exact .takeRequest (.of_fst e h.queueWordIn)
  next e => exact .of_fst e h.queueWordIn
theorem State.Canon.nodeAnswer {g q r data} (h : s.Canon) : (s.nodeAnswer st g q r data).Canon := h.modStn
theorem State.Canon.nodeBusyRead {g q} (h : s.Canon) : (s.nodeBusyRead st g q).Canon := h.bump.bump.modStn
theorem State.Canon.busyWb {q} (h : s.Canon) : (s.busyWb st q).Canon := h.setFlag.modTile
theorem State.Canon.nodeBusyWrite {q} (h : s.Canon) : (s.nodeBusyWrite st q).Canon := h.bump.busyWb
theorem State.Canon.nodeAccess {g collide} (h : s.Canon) : (s.nodeAccess st g collide).Canon := by
  unfold State.nodeAccess
  split
  · exact h
  · dsimp only
    split
    · exact .ite h.nodeBusyRead h.stnMemRead.nodeAnswer
    · exact .ite h.nodeBusyRead h.stnMemRead.nodeAnswer
    · exact .nodeAnswer (.ite h.stnMemStore.nodeBusyWrite h.stnMemStore)
    · exact .nodeAnswer (.ite h.stnMemStore.nodeBusyWrite h.stnMemStore)
    · exact h
theorem State.Canon.nodeBankAccess {g collide} (h : s.Canon) : (s.nodeBankAccess st g collide).Canon := .ite h h.nodeAccess
theorem State.Canon.readReissue {g collide} (h : s.Canon) : (s.readReissue st g collide).Canon := .ite h.nodeAccess h
theorem State.Canon.atomicAtBank {g collide} (h : s.Canon) : (s.atomicAtBank st g collide).Canon := by
  unfold State.atomicAtBank
  split
  · exact h
  · split
    · extract_lets off x new s1
      have hx : x.1.Canon := h.stnMemRead
      have h1 : s1.Canon := hx.stnMemWrite.nodeAnswer
      exact .ite hx.nodeAnswer <| .ite h.nodeBusyRead.busyWb <| .ite h1.doorbell h1
    · exact h
theorem State.Canon.queueResponse {node slot} (h : s.Canon) : (s.queueResponse st t node slot).Canon := by
  unfold State.queueResponse
  split
  next e => exact .quAnswer (.of_fst e h.queueWordIn)
  next e => exact .of_fst e h.queueWordIn
theorem State.Canon.lineFill (h : s.Canon) : (s.lineFill st t).Canon := by
  unfold State.lineFill
  dsimp only
  split
  · exact h
  · exact .ite h <| .ite (.notify (.setFlag (.ite h.setTile.modTile h.setTile.modTile.setFld))) h.setTile.modTile
theorem State.Canon.lfixWrite {v} (h : s.Canon) : (s.lfixWrite st t v).1.Canon := by
  unfold State.lfixWrite
  extract_lets a fields s1 s2
  have h1 : s1.Canon := h.setReg
  have h2 : s2.Canon := .ite h1.setFld h1
  exact .ite_fst h <| .ite_fst h <| .ite h2.setFld.modTile h2
theorem State.Canon.lineReloadEnd (h : s.Canon) : (s.lineReloadEnd st t).Canon :=
  .ite h (.setFld (.modTile (.ite h.setBytes.setReg h.setBytes)))

/-! ### Memories seen from the matrix (08, 11) -/

theorem State.Canon.memOff {m c} (h : s.Canon) : (s.memOff m c).Canon := by
  unfold State.memOff
  split
  · exact .ite h.setFlag h
  · exact h
theorem State.Canon.beatRead {m a mask} (h : s.Canon) : (s.beatRead m a mask).1.Canon := by
  unfold State.beatRead
  dsimp only
  split
  · exact h.memOff
  · split
    · exact h.memUe
    · exact h.memCe
theorem State.Canon.beatWrite {m a mask d} (h : s.Canon) : (s.beatWrite m a mask d).1.Canon := by
  unfold State.beatWrite
  split
  · exact h.memOff
  · split
    · exact h.memUe
    · exact (h.foldl (fun k => .ite k.setByte k)).foldl (·.setUpset)
theorem State.Canon.pieceError {m a b} (h : s.Canon) : (s.pieceError m a b).Canon := .ite h.decodeError h
theorem State.Canon.busyMark {mem} (h : s.Canon) : (s.busyMark mem).Canon := by
  unfold State.busyMark
  split
  · exact h.bump
  · exact h.setFlag
  · exact h
theorem State.Canon.writeMet {m mem p mask d meet} (h : s.Canon) : (s.writeMet m mem p mask d meet).1.1.Canon := by
  unfold State.writeMet
  dsimp only
  split
  · split
    · exact h.beatWrite.busyMark
    · exact h.beatWrite
  · split
    · exact h.beatWrite.busyMark
    · exact h.beatWrite
  · split
    · exact h.beatWrite.busyMark
    · exact h.beatWrite
theorem State.Canon.memWrite {m a bs around} (h : s.Canon) : (s.memWrite m a bs around).1.Canon := by
  unfold State.memWrite
  refine .foldl_fst h (fun k => ?_)
  split
  · exact k.pieceError
  · exact k.writeMet
theorem State.Canon.memRead {m a n} (h : s.Canon) : (s.memRead m a n).1.Canon := by
  unfold State.memRead
  refine .foldl_fst h (fun k => ?_)
  dsimp only
  split
  · exact k.pieceError
  · exact k.beatRead

/-! ### Timers (11) -/

theorem State.Canon.dmaRelease {src sel self} (h : s.Canon) : (s.dmaRelease src sel self).Canon :=
  .ite h (h.foldl (fun k => .ite (.ite k.setFlag k.setFld) k))
theorem State.Canon.timerRun {n} (h : s.Canon) : (s.timerRun n).Canon := .frame h.setReg rfl rfl rfl
theorem State.Canon.timerEnable {n v} (h : s.Canon) : (s.timerEnable n v).Canon := by
  unfold State.timerEnable
  split
  · exact h
  · extract_lets a was keep s1
    have h1 : s1.Canon := h.setReg
    exact .ite (.frame h1 rfl rfl rfl) <| .ite h1 <| .ite (.frame h1 rfl rfl rfl) h1.timerRun
theorem State.Canon.timerStart {n} (h : s.Canon) : (s.timerStart n).Canon := .ite h.timerRun h
theorem State.Canon.timerTiles {n} (h : s.Canon) : (s.timerTiles n).Canon :=
  h.foldl (fun k => .ite k (k.foldl (fun l => .ite l.modTile l)))
theorem State.Canon.timerEvent {n} (h : s.Canon) : (s.timerEvent n).Canon := by
  unfold State.timerEvent
  split
  · exact h
  · extract_lets u1 s1 s2 s3
    have hu1 : u1.Canon := h.setFld
    have h1 : s1.Canon := .ite (.frame hu1 rfl rfl rfl) h.setReg
    have h2 : s2.Canon := h1.setFlag
    have h3 : s3.Canon := .ite h2.notify h2
    exact h3.dmaRelease.timerTiles
theorem State.Canon.timerTick {n} (h : s.Canon) : (s.timerTick n).Canon := .ite (.ite h.timerEvent h.setReg) h.timerStart
theorem State.Canon.tbLatchRead {m} (h : s.Canon) : (s.tbLatchRead m).Canon := .frame h rfl rfl rfl

/-! ### Camera ingest (09) -/

theorem State.Canon.modCtx {k f} (h : s.Canon) : (s.modCtx st k f).Canon := .frame h rfl rfl rfl
theorem State.Canon.openSlot {k row0} (h : s.Canon) : (s.openSlot st k row0).Canon := h.modCtx
theorem State.Canon.closeSlot {k fe inc shortf} (h : s.Canon) : (s.closeSlot st k fe inc shortf).Canon := by
  unfold State.closeSlot
  dsimp only
  split
  · exact h
  · exact .ite (.setFlag (.ite h.modCtx h.modCtx.setFlag)) <| .ite h.modCtx h.modCtx.setFlag
theorem State.Canon.endFrame {k fe inc always} (h : s.Canon) : (s.endFrame st k fe inc always).Canon :=
  .ite h.closeSlot.modCtx.setFld.setFld h.closeSlot.modCtx.setFld
theorem State.Canon.received {r} (h : s.Canon) : (s.received st r).Canon := h.setFlag
theorem State.Canon.frameStart {r vc fnum} (h : s.Canon) : (s.frameStart st r vc fnum).Canon := by
  unfold State.frameStart
  split
  · exact h
  · refine h.received.foldl fun {s a} k => ?_
    extract_lets s1 s2
    have k1 : s1.Canon := .ite k.endFrame k
    have k2 : s2.Canon := k1.modCtx.setFld
    exact .ite k1 <| .ite k2.openSlot k2
theorem State.Canon.frameEnd {r vc} (h : s.Canon) : (s.frameEnd st r vc).Canon :=
  .ite h (h.received.foldl (fun k => .ite k.endFrame k))
theorem State.Canon.lineStart {r vc line} (h : s.Canon) : (s.lineStart st r vc line).Canon := .ite h (h.received.foldl (·.modCtx))
theorem State.Canon.csiUlps {r enter} (h : s.Canon) : (s.csiUlps st r enter).Canon := .ite h.setFld h
theorem State.Canon.startOfTx {r ok} (h : s.Canon) : (s.startOfTx st r ok).Canon := .ite h h.setFlag
theorem State.Canon.headerError {r} (h : s.Canon) : (s.headerError st r).Canon :=
  .ite h (h.received.setFlag.setFld.foldl (fun k => .ite k.modCtx k))
theorem State.Canon.storeRow {r k row p} (h : s.Canon) : (s.storeRow st r k row p).Canon := by
  unfold State.storeRow
  extract_lets g row0 late s1 s2 i got short long flags
  have h1 : s1.Canon := by
    unfold s1
    split
    · exact .ite h.closeSlot h
    · exact h
  have h2 : s2.Canon := .ite h1.openSlot h1
  split
  · exact h
  · split
    · exact h2
    · extract_lets S s3 s4
      have h4 : s4.Canon := h2.modCtx.modStn
      exact .ite h4 h4.setFlag
theorem State.Canon.longPacket {r p} (h : s.Canon) : (s.longPacket st r p).Canon := by
  unfold State.longPacket
  split
  · exact h
  · extract_lets ks s1 s2 s3 s4 got s5 s6
    have h1 : s1.Canon := h.received
    have h2 : s2.Canon := .ite h1.setFlag h1
    have h3 : s3.Canon := .ite h2 h2.setFlag.setFld
    have h5 : s5.Canon := .modStn (.ite h3.setFlag h3)
    refine .modStn (h5.foldl fun {s a} k => .ite k ?_)
    extract_lets u1 row u2
    have k1 : u1.Canon := .ite k.setFlag k
    have k2 : u2.Canon := k1.modCtx
    clear_value row
    split
    · exact k1
    · exact .ite k2.modCtx k2.storeRow
theorem State.Canon.ingestWrite {k around} (h : s.Canon) : (s.ingestWrite st k around).Canon := by
  unfold State.ingestWrite
  dsimp only
  split
  · exact h
  · split
    · split
      · exact h.modCtx.memWrite
      · split
        · exact h.modCtx.memWrite.setFlag
        · exact h.modCtx.memWrite.setFlag.modCtx
    · split
      · exact h.modCtx.memWrite.modStn
      · split
        · exact h.modCtx.memWrite.modStn.setFlag
        · exact h.modCtx.memWrite.modStn.setFlag.modCtx
    · split
      · exact h.modCtx
      · exact .ite h.modCtx.memWrite.memWrite h.modCtx.memWrite.memWrite.setFlag.modCtx
theorem State.Canon.postNotice {k node payload} (h : s.Canon) : (s.postNotice st k node payload).Canon := .ite h.setFlag h.modStn
theorem State.Canon.slotComplete {k around} (h : s.Canon) : (s.slotComplete st k around).Canon := by
  unfold State.slotComplete
  split
  · exact h
  · split
    · exact h
    · extract_lets r s1 S s2 p s3 s4 s5 s6
      have hr : r.1.Canon := h.memWrite
      have h1 : s1.Canon := .ite hr hr.setFlag
      have h2 : s2.Canon := h1.modCtx.setReg
      have h3 : s3.Canon := h2.foldl (fun k => .ite k.postNotice k)
      have h4 : s4.Canon := .ite h3.postNotice h3
      have h5 : s5.Canon := h4.setFlag
      have h6 : s6.Canon := .ite h5.notify h5
      exact .ite h6.dmaRelease h4
theorem State.Canon.cfgFields {k v} (h : s.Canon) : (s.cfgFields st k v).Canon := h.setReg
theorem State.Canon.flushCtx {k} (h : s.Canon) : (s.flushCtx st k).Canon := (h.foldl (·.ingestWrite)).foldl (·.slotComplete)
theorem State.Canon.camWritten {f} (h : s.Canon) (hf : ∀ {s}, s.Canon → (f s).Canon) : (s.camWritten st f).Canon := .ite (hf h) h
theorem State.Canon.contextEnable {k v} (h : s.Canon) : (s.contextEnable st k v).Canon := by
  unfold State.contextEnable
  extract_lets a s1
  have h1 : s1.Canon := h.flushCtx.cfgFields
  exact .ite h <| .ite h.modCtx <| .ite h1.setFld.setFld.setReg.modCtx h1.setFlag
theorem State.Canon.contextDisable {k v} (h : s.Canon) : (s.contextDisable st k v).Canon :=
  .ite h <| .ite h.cfgFields <| .ite h.modCtx h.setFld
theorem State.Canon.contextAbort {k v} (h : s.Canon) : (s.contextAbort st k v).Canon :=
  .ite h <| .ite h.cfgFields (.setFld (.modCtx (.ite h.endFrame h)))

/-! ### The legacy bus and the Window (13) -/

theorem State.Canon.laneNotice {src} (h : s.Canon) : (s.laneNotice src).Canon := h.notify
theorem State.Canon.modWin {f} (h : s.Canon) : (s.modWin f).Canon := .frame h rfl rfl rfl
theorem State.Canon.setMirror {n i v} (h : s.Canon) : (s.setMirror n i v).Canon := h.setFld
theorem State.Canon.setWinFifo {k f} (h : s.Canon) : (s.setWinFifo k f).Canon := h.modWin
theorem State.Canon.logAppend {lo ts} (h : s.Canon) : (s.logAppend lo ts).Canon :=
  .ite h.modWin <| .ite h.modWin.laneNotice h.modWin
theorem State.Canon.logPop (h : s.Canon) : s.logPop.Canon := by
  unfold State.logPop
  split
  · exact h.modWin
  · exact .ite h.modWin h.modWin.modWin.logAppend.setFlag
theorem State.Canon.mirrorWrite {m n pair v} (h : s.Canon) : (s.mirrorWrite m n pair v).Canon := .ite h.setReg h
theorem State.Canon.aliasWrite {m clr n pair v} (h : s.Canon) : (s.aliasWrite m clr n pair v).Canon := .ite h.setReg h
theorem State.Canon.typeWrite {m n quad v} (h : s.Canon) : (s.typeWrite m n quad v).Canon := .ite h.setReg h
theorem State.Canon.fifoPush {m k v} (h : s.Canon) : (s.fifoPush m k v).Canon := .ite h <| .ite h.setFlag h.setWinFifo
theorem State.Canon.fifoClr {m k} (h : s.Canon) : (s.fifoClr m k).Canon := .ite h.setWinFifo h
theorem State.Canon.fwPerform {fw} (h : s.Canon) : (s.fwPerform fw).Canon := by
  unfold State.fwPerform
  split
  · exact h
  · split
    · exact h
    · exact h.modWin
    · exact h.setReg
    · exact h.setReg
    · exact h.setReg
theorem State.Canon.fifoRead {k l} (h : s.Canon) : (s.fifoRead k l).1.Canon := by
  unfold State.fifoRead
  dsimp only
  split
  · exact h
  · split <;> exact h.setWinFifo
theorem State.Canon.legacyRead {la bheN fw} (h : s.Canon) : (s.legacyRead la bheN fw).Canon := by
  unfold State.legacyRead
  extract_lets l i s1 s2 s3
  have h1 : s1.Canon := h.fwPerform
  have h2 : s2.Canon := h1.setFlag.bump.useFree
  have h3 : s3.Canon := .ite h2.laneNotice h2
  split
  · exact h.fwPerform.modWin
  · split
    · exact h.fwPerform.modWin
    · exact .ite h1.fifoRead.modWin <| .ite h3.modWin (.modWin (.ite h1.setMirror h1))
theorem State.Canon.legacyWrite {la x data fw} (h : s.Canon) : (s.legacyWrite la x data fw).Canon := by
  unfold State.legacyWrite
  extract_lets l i s1
  have h1 : s1.Canon := h.fwPerform
  split
  · exact h.fwPerform
  · split
    · exact h.fwPerform.modWin
    · split
      · exact h.fwPerform.modWin
      · extract_lets updates s2 met s3 s4 s5 lo
        have h2 : s2.Canon := .ite (h1.foldl (fun k => .ite k.setFld k)) h1
        have h3 : s3.Canon := h2.setFlag.useFree
        have h4 : s4.Canon := .ite h3.laneNotice h3
        have h5 : s5.Canon := .ite h4.modWin h2
        exact h5.logAppend.modWin
theorem State.Canon.lresetRise (h : s.Canon) : s.lresetRise.Canon := .ite h h.modWin
theorem State.Canon.lresetRecord (h : s.Canon) : s.lresetRecord.Canon := by
  unfold State.lresetRecord
  split
  · exact h
  · exact h.modWin.setFlag.logAppend
theorem State.Canon.lresetFall (h : s.Canon) : s.lresetFall.Canon := h.modWin
theorem State.Canon.lioevWrite {hi v} (h : s.Canon) : (s.lioevWrite st hi v).Canon := .ite h (h.foldl (fun k => .ite k.modTile k))

/-! ### Serial ports (13) -/

theorem State.Canon.setSer {p P} (h : s.Canon) : (s.setSer p P).Canon := .frame h rfl rfl rfl
theorem State.Canon.serNotice {old p} (h : s.Canon) : (s.serNotice old p).Canon := .ite h.laneNotice h
theorem State.Canon.serSend {p} (h : s.Canon) : (s.serSend p).Canon := by
  unfold State.serSend
  dsimp only
  split
  · exact h
  · exact .ite h h.setSer
theorem State.Canon.serialRx {p c} (h : s.Canon) : (s.serialRx p c).Canon := by
  unfold State.serialRx
  extract_lets ctrl P par c a s1 s2 s3 s4
  have h1 : s1.Canon := h.setSer
  have h2 : s2.Canon := .ite h1.setFlag h1
  have h3 : s3.Canon := .ite h2.setFlag h2
  have h4 : s4.Canon := .ite h.setFlag <| .ite h3.setFlag h3
  exact .ite h h4.serNotice
theorem State.Canon.serialTx {p} (h : s.Canon) : (s.serialTx p).Canon := h.setSer.serSend.serNotice
theorem State.Canon.serPop {p} (h : s.Canon) : (s.serPop p).Canon := h.setSer.serNotice
theorem State.Canon.serDataRead {m p} (h : s.Canon) : (s.serDataRead m p).Canon := .ite h.serPop.modWin h
theorem State.Canon.serDataWrite {m p v} (h : s.Canon) : (s.serDataWrite m p v).Canon :=
  .ite h (.serNotice (.ite h.setFlag h.setSer.serSend))
theorem State.Canon.rxTimeout {p} (h : s.Canon) : (s.rxTimeout p).Canon := .ite h h.setFlag.serNotice
theorem State.Canon.modemChange {p lines} (h : s.Canon) : (s.modemChange p lines).Canon :=
  .ite h <| .ite h.setSer h.setSer.setFlag.serSend.serNotice
theorem State.Canon.deRelease {n} (h : s.Canon) : (s.deRelease n).Canon := .ite h.setSer h
theorem State.Canon.serCtrlWrite {m p v} (h : s.Canon) : (s.serCtrlWrite m p v).Canon :=
  .serNotice (.serSend (.ite h.setReg h.setReg.setSer))
theorem State.Canon.serBaudWrite {p v} (h : s.Canon) : (s.serBaudWrite p v).Canon := .ite h h.setReg

/-! ### USB groups (13) -/

theorem State.Canon.modUsb {g f} (h : s.Canon) : (s.modUsb g f).Canon := .frame h rfl rfl rfl
theorem State.Canon.pipeEnd {g p res count short} (h : s.Canon) : (s.pipeEnd g p res count short).Canon :=
  .ite h.setReg.setFlag.modUsb.laneNotice h.setReg.setFlag.modUsb
theorem State.Canon.usbPipeGo {g p fits} (h : s.Canon) : (s.usbPipeGo g p fits).Canon := by
  unfold State.usbPipeGo
  split
  · exact h
  · split
    · exact h.pipeEnd
    · exact h.setReg.modUsb
theorem State.Canon.usbPipeAbort {g p} (h : s.Canon) : (s.usbPipeAbort g p).Canon := .ite h.pipeEnd h
theorem State.Canon.usbStore {g o bs} (h : s.Canon) : (s.usbStore g o bs).Canon := by
  induction bs generalizing s o with
  | nil => exact h
  | cons b bs ih => exact ih h.setFld
theorem State.Canon.pipeToggle {g p n} (h : s.Canon) : (s.pipeToggle g p n).Canon := .ite h h.setFld
theorem State.Canon.pipeAcked {g p mps want n} (h : s.Canon) : (s.pipeAcked g p mps want n).Canon :=
  .ite h.pipeToggle.pipeEnd h.pipeToggle.modUsb
theorem State.Canon.usbTransferEnd {g p o} (h : s.Canon) : (s.usbTransferEnd g p o).Canon := by
  unfold State.usbTransferEnd
  split
  · exact h
  · dsimp only
    split
    · exact h.pipeEnd
    · split
      · exact h.usbStore.pipeToggle.pipeEnd
      · exact .ite h.usbStore.pipeToggle.pipeEnd h.usbStore.pipeToggle.modUsb
      · exact h.pipeAcked
      · exact h
theorem State.Canon.usbIntervalPoll {g p o} (h : s.Canon) : (s.usbIntervalPoll g p o).Canon := by
  unfold State.usbIntervalPoll
  dsimp only
  split
  · exact h
  · split
    · exact h.pipeEnd
    · split
      · exact .ite h.usbStore.pipeToggle.pipeEnd h.usbStore.pipeToggle.modUsb
      · exact h.pipeAcked
      · exact h
theorem State.Canon.portChg {g k} (h : s.Canon) : (s.portChg g k).Canon := .ite h.setFlag.laneNotice h.setFlag
theorem State.Canon.usbPortReset {g k} (h : s.Canon) : (s.usbPortReset g k).Canon := h.modUsb
theorem State.Canon.usbPortResetEnd {g k speed} (h : s.Canon) : (s.usbPortResetEnd g k speed).Canon := by
  unfold State.usbPortResetEnd
  split
  · exact h
  · exact .ite h.modUsb <| .ite h.modUsb.setFld.setFld h.modUsb.setFld.setFld.portChg
theorem State.Canon.usbSuspend {g k} (h : s.Canon) : (s.usbSuspend g k).Canon := .ite h.setFld h
theorem State.Canon.usbResume {g k} (h : s.Canon) : (s.usbResume g k).Canon := h.setFld
theorem State.Canon.portGone {g k} (h : s.Canon) : (s.portGone g k).Canon := h.foldl (fun k => .ite k.pipeEnd k)
theorem State.Canon.usbConnectChange {g k attached} (h : s.Canon) : (s.usbConnectChange g k attached).Canon :=
  .ite h <| .ite h.setFld.portChg h.setFld.portChg.portGone
theorem State.Canon.usbOvercurrent {g k} (h : s.Canon) : (s.usbOvercurrent g k).Canon := h.setFld.setFld.portChg
theorem State.Canon.usbCtrlWrite {m g v} (h : s.Canon) : (s.usbCtrlWrite m g v).Canon :=
  .ite h.setReg.modUsb (h.setReg.modUsb.foldl (·.usbPipeAbort))
theorem State.Canon.frameTick {g} (h : s.Canon) : (s.frameTick g).Canon := by
  unfold State.frameTick
  split
  · exact h
  · exact .ite h.modUsb h
theorem State.Canon.usbPortWrite {g k v} (h : s.Canon) : (s.usbPortWrite g k v).Canon := by
  unfold State.usbPortWrite
  extract_lets a s1 s2 s3 s4 s5
  have h1 : s1.Canon := h.setFld
  have h2 : s2.Canon := .ite h1.setFld h1
  have h3 : s3.Canon := .ite h2.setFld.portChg h2
  have h4 : s4.Canon := .ite h3.usbPortReset h3
  have h5 : s5.Canon := .ite h4.usbSuspend h4
  exact .ite h5.usbResume h5

/-! ### Drawers and GPIO (13) -/

theorem State.Canon.drawerFire {n} (h : s.Canon) : (s.drawerFire n).Canon := .ite h.setFlag (.frame h.setFld rfl rfl rfl)
theorem State.Canon.fire {m n} (h : s.Canon) : (s.fire m n).Canon := .ite h.drawerFire h
theorem State.Canon.pulseEnd {n} (h : s.Canon) : (s.pulseEnd n).Canon := .ite (.frame h.setFld rfl rfl rfl) h
theorem State.Canon.senseSettle {n} (h : s.Canon) : (s.senseSettle n).Canon :=
  .ite h <| .ite h.setFld.setFlag.laneNotice h.setFld.setFlag
theorem State.Canon.drawerSense {n level} (h : s.Canon) : (s.drawerSense n level).Canon :=
  .senseSettle (.ite h (.frame h rfl rfl rfl))
theorem State.Canon.gpioEdge {i level} (h : s.Canon) : (s.gpioEdge i level).Canon := by
  unfold State.gpioEdge
  split
  · exact h
  · exact .ite (.laneNotice (.setFlag (.frame h rfl rfl rfl))) (.frame h rfl rfl rfl)
theorem State.Canon.gioSet {m v} (h : s.Canon) : (s.gioSet m v).Canon := .ite h.setReg h
theorem State.Canon.gioClr {m v} (h : s.Canon) : (s.gioClr m v).Canon := .ite h.setReg h
theorem State.Canon.drwCtrlWrite {m n v} (h : s.Canon) : (s.drwCtrlWrite m n v).Canon := .ite h.setReg.drawerFire h.setReg

/-! ### Station start, stop and column repair (01) -/

theorem State.Canon.retire {c x} (h : s.Canon) : (s.retire st c x).Canon := .ite h.setFld.setFld.setFld h.setFld.setFld
/-- Entries that move down by one span stay in order, and differ from the default if it repeats with the span. -/
theorem smWf_shiftDown {α : Type} [DecidableEq α] {d : Nat → α} {lo hi span : Nat}
    (hd : ∀ k, lo + span ≤ k → k < hi → d (k - span) = d k) {m : List (Nat × α)} (h : smWf d m = true) :
    smWf d (shiftDown m lo hi span) = true := by
  induction m with
  | nil => rfl
  | cons e m ih =>
    obtain ⟨j, v⟩ := e
    obtain ⟨hv, above, hm⟩ := (smWf_cons d j v m).1 h
    have rest (i : Nat) (hi' : ∀ x, j < x → (x < lo ∨ hi ≤ x → i < x) ∧ (lo + span ≤ x → x < hi → i < x - span)) :
        smAbove i (shiftDown m lo hi span) := by
      intro x hx
      obtain ⟨y, hy, e⟩ := List.mem_filterMap.1 hx
      have hj := hi' y.1 (above y hy)
      split at e
      next out => exact Option.some.inj e ▸ hj.1 out
      split at e
      · cases e
      next inside low => exact Option.some.inj e ▸ hj.2 (by omega) (by omega)
    by_cases out : j < lo ∨ hi ≤ j
    · have : shiftDown ((j, v) :: m) lo hi span = (j, v) :: shiftDown m lo hi span := by simp [shiftDown, out]
      rw [this]
      exact (smWf_cons d j v _).2 ⟨hv, rest j fun x hx => ⟨fun _ => hx, by omega⟩, ih hm⟩
    by_cases low : j < lo + span
    · have : shiftDown ((j, v) :: m) lo hi span = shiftDown m lo hi span := by simp [shiftDown, out, low]
      rw [this]
      exact ih hm
    · have : shiftDown ((j, v) :: m) lo hi span = (j - span, v) :: shiftDown m lo hi span := by simp [shiftDown, out, low]
      rw [this]
      exact (smWf_cons d _ v _).2 ⟨by rwa [hd j (by omega) (by omega)], rest _ fun x hx => ⟨by omega, by omega⟩, ih hm⟩
/-- The register at an address of the tile part of a station (01 R25). -/
theorem regInfo_tile (st : Stn) {k : Nat} (lo : stnBase st + 0x8000000 ≤ k) (hi : k < stnBase st + 0x8A00000) :
    regInfo k = if k % 4 ≠ 0 then none else if 0x30000 ≤ k % 0x40000 then tileRegInfo (k % 0x10000) else none := by
  have hst := st.isLt
  unfold stnBase at lo hi
  have stations : 0x0100000000 ≤ k ∧ k < 0x0140000000 := by omega
  have tiles : 0x8000000 ≤ k % 0x10000000 ∧ k % 0x10000000 < 0x8A00000 := by omega
  have span : k % 0x10000000 % 0x40000 = k % 0x40000 := by omega
  have part : k % 0x10000000 % 0x10000 = k % 0x10000 := by omega
  simp only [regInfo, stations, tiles, and_self, if_true, span, part]
/-- The registers of one tile reset as those of the tile below (01 R25). -/
theorem regReset_below (st : Stn) {k : Nat} (lo : stnBase st + 0x8040000 ≤ k) (hi : k < stnBase st + 0x8A00000) :
    regReset (k - 0x40000) = regReset k := by
  rw [regReset, regReset, regInfo_tile st (k := k) (by omega) hi, regInfo_tile st (k := k - 0x40000) (by omega) (by omega)]
  have word : (k - 0x40000) % 4 = k % 4 := by omega
  have span : (k - 0x40000) % 0x40000 = k % 0x40000 := by omega
  have part : (k - 0x40000) % 0x10000 = k % 0x10000 := by omega
  rw [word, span, part]
/-- A retirement at a station's start moves registers and memory down the column (01 R33). -/
theorem State.Canon.shiftColumn {c x} (h : s.Canon) : (s.shiftColumn st c x).Canon := by
  unfold State.shiftColumn
  split
  · exact h
  next hx =>
    obtain ⟨m, r, f⟩ := h
    refine State.Canon.foldl ⟨?_, ?_, f⟩ fun k => .ite k k.setTile
    · exact smWf_shiftDown (fun _ _ _ => by simp only [memReset]) m
    · refine smWf_shiftDown (fun k lo hi => regReset_below st ?_ ?_) r
      all_goals
        unfold tileBase at lo hi
        rw [Fin.val_ofNat] at lo hi
        omega
theorem State.Canon.forceRetire {c} (h : s.Canon) : (s.forceRetire st c).Canon := .ite h (.setFld (.ite h.retire.shiftColumn h))
theorem State.Canon.stnRunStart (h : s.Canon) : (s.stnRunStart st).Canon := .ite h ((h.foldl (·.forceRetire)).modStn)
theorem State.Canon.startTestColumn {c} (h : s.Canon) : (s.startTestColumn st c).Canon :=
  (h.foldl (fun k => .ite k.retire.shiftColumn k.retire)).foldl (·.recordTest)
theorem State.Canon.netReset (h : s.Canon) : (s.netReset st).Canon := (((h.foldl (·.setReg)).setFld).setStn).foldl (·.modTile)
theorem State.Canon.stationStartEnd (h : s.Canon) : (s.stationStartEnd st).Canon := by
  unfold State.stationStartEnd
  split
  · exact h
  · extract_lets s1
    have h1 : s1.Canon := h.foldl (·.startTestColumn)
    exact .ite h1.modStn h1.netReset.modStn
theorem State.Canon.stopTiles (h : s.Canon) : (s.stopTiles st).Canon := h.foldl (·.tileStopRequest)
theorem State.Canon.stnRunStop (h : s.Canon) : (s.stnRunStop st).Canon := by
  unfold State.stnRunStop
  dsimp only
  split
  · exact h.setStn
  · exact h.stopTiles.modStn
  · exact h
theorem State.Canon.stnRunFail (h : s.Canon) : (s.stnRunFail st).Canon := by
  unfold State.stnRunFail
  dsimp only
  split
  · exact h.setStn
  · exact h.stopTiles.modStn
  · exact .ite h.setStn h
  · exact h
theorem State.Canon.stationStopEnd (h : s.Canon) : (s.stationStopEnd st).Canon := by
  unfold State.stationStopEnd
  dsimp only
  split
  · exact .ite h (((((h.foldl (fun k => .ite k.takeStop k)).setFld).setFld).takeDivisor).modStn)
  · exact h
/-- A column repair takes back the registers and the memory of a tile (01 R18). -/
theorem State.Canon.loseTile (h : s.Canon) : (s.loseTile st t).Canon :=
  have ⟨m, r, f⟩ := h
  State.Canon.setTile ⟨clearMem_wf s _ _ m, smDrop_wf regReset s.regs _ _ r, f⟩
theorem State.Canon.columnRepair (h : s.Canon) : (s.columnRepair st).Canon := by
  unfold State.columnRepair
  split
  · exact h
  · exact .ite h <| .ite h.modStn.retire.modStn <| .ite h.modStn.retire.modStn h.modStn.retire.setFld.loseTile.notify
theorem State.Canon.stnRepairGo {v} (h : s.Canon) : (s.stnRepairGo st v).Canon := .ite h <| .ite h.setFld h.setFld.askRepair
theorem State.Canon.twWrite {hi v} (h : s.Canon) : (s.twWrite st hi v).Canon := .ite h (h.foldl (fun k => .ite k.setFld k))

/-! ### Boot flash (14) -/

theorem State.Canon.bootRes {res} (h : s.Canon) : (s.bootRes res).Canon := h.setFld
theorem State.Canon.bootStart {align w} (h : s.Canon) : (s.bootStart align w).Canon := .ite h <| .ite h.bootRes h.modFlash.setFld
theorem State.Canon.bootErase (h : s.Canon) : s.bootErase.Canon := h.bootStart
theorem State.Canon.bootProgram (h : s.Canon) : s.bootProgram.Canon := h.bootStart
theorem State.Canon.flashFree {o n} (h : s.Canon) : (s.flashFree o n).Canon := h.flashErase.flashProgram.useFree
theorem State.Canon.bootDone {res} (h : s.Canon) : (s.bootDone res).Canon := by
  unfold State.bootDone
  extract_lets s1
  have h1 : s1.Canon := h.modFlash.setFld.bootRes
  split
  · exact h1
  · exact .ite h1 <| .ite h1.modFlash.commitStart h1.modFlash.commitStart.commitOver
theorem State.Canon.bootOpEnd {ok} (h : s.Canon) : (s.bootOpEnd ok).Canon := by
  unfold State.bootOpEnd
  split
  · exact .ite h.flashErase.bootDone h.flashFree.bootDone
  · exact .ite h.flashProgram.bootDone h.flashFree.bootDone
  · exact h

/-! ### The vault (14) -/

theorem State.Canon.modVault {f} (h : s.Canon) : (s.modVault f).Canon := .frame h rfl rfl rfl
theorem State.Canon.gvOut {bs} (h : s.Canon) : (s.gvOut bs).Canon := h.setRegBytes
theorem State.Canon.vaultStart {c} (h : s.Canon) : (s.vaultStart c).Canon := .ite h <| .ite h.setFlag h.modVault.setFld
theorem State.Canon.vaultEnd {res} (h : s.Canon) : (s.vaultEnd res).Canon := h.modVault.setFld.setFlag.setFld
theorem State.Canon.draw {words} (h : s.Canon) : (s.draw words).Canon := h.modVault
theorem State.Canon.gvOutPart {bs} (h : s.Canon) : (s.gvOutPart bs).Canon := h.gvOut
theorem State.Canon.vaultAuth (h : s.Canon) : s.vaultAuth.Canon := by
  unfold State.vaultAuth
  split
  · exact h.vaultEnd
  · exact h.modVault.vaultEnd
theorem State.Canon.vaultCut (h : s.Canon) : s.vaultCut.Canon := by
  unfold State.vaultCut
  split
  · exact .ite h.modVault <| .ite h <| .ite h.modVault h.modVault
  · exact h
theorem State.Canon.vaultCommandEnd (h : s.Canon) : s.vaultCommandEnd.Canon := by
  unfold State.vaultCommandEnd
  split
  · exact h
  · exact h.modVault.vaultEnd
  · exact .ite h.vaultEnd h.modVault.vaultEnd
  · split
    · exact h.gvOut.modVault.vaultEnd
    · exact h.gvOut.useFree.vaultEnd
  · split <;> exact h.vaultEnd
  · exact h.draw.gvOut.vaultEnd
  · exact h.vaultAuth
  · exact .ite h.vaultEnd h.draw.gvOutPart.vaultEnd
theorem State.Canon.vaultAbort (h : s.Canon) : s.vaultAbort.Canon := .ite h.vaultCut.vaultEnd h
theorem State.Canon.vaultRun {c} (h : s.Canon) : (s.vaultRun c).Canon := h.vaultStart.vaultCommandEnd
theorem State.Canon.gvInPart {bs} (h : s.Canon) : (s.gvInPart bs).Canon := h.setRegBytes
theorem State.Canon.vaultAbsorb {n m} (h : s.Canon) : (s.vaultAbsorb n m).Canon := by
  induction n generalizing s m with
  | zero => exact h
  | succ n ih => exact .ite h (ih h.gvInPart.setFld.vaultRun)
theorem State.Canon.vaultDigest {m} (h : s.Canon) : (s.vaultDigest m).Canon := .ite h.vaultRun.vaultAbsorb.vaultRun h
theorem State.Canon.vaultVerify {key digest sig} (h : s.Canon) : (s.vaultVerify key digest sig).Canon := .ite h.gvInPart.vaultRun h

/-! ### Clocks, thermal throttle and resets (16) -/

theorem State.Canon.gateWrite {m v} (h : s.Canon) : (s.gateWrite m v).Canon := .ite h (h.foldl (fun k => .ite k.setFld k))
theorem State.Canon.divStep {d} (h : s.Canon) : (s.divStep st d).Canon :=
  .ite (.modStn (.frame h rfl rfl rfl)) (.setFld (.frame h rfl rfl rfl))
theorem State.Canon.thermalSample {temp iod} (h : s.Canon) : (s.thermalSample st temp iod).Canon := by
  unfold State.thermalSample
  split
  · exact h
  · extract_lets s1 thi tlo T d isHot cool hot set core s2 s3
    have h1 : s1.Canon := h.setFld.setFld
    have h2 : s2.Canon := h1.frame rfl rfl rfl
    have h3 : s3.Canon := .ite h2.setFlag.notify h2
    exact .ite h3 <| .ite h3.divStep <| .ite h3.divStep <| .ite h3.divStep h3
theorem State.Canon.thsWrite {v} (h : s.Canon) : (s.thsWrite st v).Canon :=
  .ite (.divStep (.ite h.setFld.setFld h.setFld)) <| .ite h.setFld.setFld h.setFld
theorem State.Canon.thcfgWrite {v} (h : s.Canon) : (s.thcfgWrite v).Canon := .ite h.setReg <| .ite h.setReg h.useFree.setReg
theorem State.Canon.avsWrite {m v} (h : s.Canon) : (s.avsWrite m v).Canon := .ite h.setReg h
theorem State.Canon.vidStep (h : s.Canon) : s.vidStep.Canon := .ite h (.frame h rfl rfl rfl)
theorem State.Canon.keepBits {old l} (h : s.Canon) : (s.keepBits old l).Canon := h.foldl (·.setReg)
theorem State.Canon.ownReset (h : s.Canon) : s.ownReset.Canon :=
  h.foldl (fun k => (((k.foldl (·.setFld.setFld)).foldl (·.setFld)).setFld).setFld)
theorem State.Canon.headStrap (h : s.Canon) : s.headStrap.Canon := h.setFld.setFld
theorem State.Canon.cutFlash (h : s.Canon) : s.cutFlash.Canon := by
  unfold State.cutFlash
  refine .modFlash ?_
  split
  · exact h.modFlash
  · exact h.flashFree.flashErase
  · exact h.flashFree
  · exact h.flashFree
  · exact h
/-- The state after reset holds no entries. -/
theorem State.reset_canon : State.reset.Canon := ⟨rfl, rfl, rfl⟩

/-! ### Clocks, thermal throttle and resets (16) -/

theorem State.Canon.deviceReset {src} (h : s.Canon) : (s.deviceReset src).Canon :=
  have ⟨_, _, f⟩ := h.vaultCut.cutFlash
  State.Canon.headStrap (.ownReset (.setFld (.keepBits ⟨rfl, rfl, f⟩)))
theorem State.Canon.requestReset {src} (h : s.Canon) : (s.requestReset src).Canon := .ite h (.frame h rfl rfl rfl)
theorem State.Canon.powerOn (h : s.Canon) : s.powerOn.Canon := .deviceReset (.frame h rfl rfl rfl)
theorem State.Canon.clockLoss (h : s.Canon) : s.clockLoss.Canon := by
  unfold State.clockLoss
  split
  · exact h
  · dsimp only
    split
    · exact h.deviceReset
    · exact h.deviceReset.setFld
theorem State.Canon.thermtrip (h : s.Canon) : s.thermtrip.Canon := .deviceReset (.frame h rfl rfl rfl)
theorem State.Canon.resetAssert (h : s.Canon) : s.resetAssert.Canon := by
  unfold State.resetAssert
  split
  · exact h
  · exact .ite h.deviceReset h
theorem State.Canon.chainPortReset (h : s.Canon) : s.chainPortReset.Canon := by
  unfold State.chainPortReset
  extract_lets s1 s2
  have h1 : s1.Canon := h.foldl (·.setReg.setReg)
  have h2 : s2.Canon := h1.setReg.setFld
  clear_value s2
  exact h2.frame rfl rfl rfl

/-! ### Signed images (14) -/

theorem State.Canon.verifyIn {kind m} (h : s.Canon) : (s.verifyIn kind m).1.Canon := by
  unfold State.verifyIn
  dsimp only
  split
  · exact .ite_fst h.vaultDigest.vaultVerify h
  · exact h
theorem State.Canon.readStaged {a a2} (h : s.Canon) : (s.readStaged a a2).1.Canon := by
  unfold State.readStaged
  split
  · exact h
  · exact .foldl_fst h (·.memRead)

/-! ### Boot and warm restart (14) -/

theorem State.Canon.modHall {f} (h : s.Canon) : (s.modHall f).Canon := .frame h rfl rfl rfl
theorem State.Canon.modHallStn {f} (h : s.Canon) : (s.modHallStn st f).Canon := h.modHall
theorem State.Canon.hallLog {kind stn tile data} (h : s.Canon) : (s.hallLog kind stn tile data).Canon := h.memWrite.modHall
theorem State.Canon.cellarTry {part} (h : s.Canon) : (s.cellarTry part).1.Canon := by
  unfold State.cellarTry
  extract_lets m
  split
  · exact h
  · exact h.setBytes.verifyIn
theorem State.Canon.enterFirmware {src v} (h : s.Canon) : (s.enterFirmware src v).Canon :=
  .ite h.modHall.setFld.hallLog h.modHall.setReg.setFld.setFld
theorem State.Canon.cellarRun {ps} (h : s.Canon) : (s.cellarRun ps).Canon := by
  induction ps generalizing s with
  | nil => exact h.modHall
  | cons p ps ih => exact .ite h.cellarTry.modHall.enterFirmware (ih h.cellarTry.modHall)
theorem State.Canon.cellarBoot (h : s.Canon) : s.cellarBoot.Canon := h.clearMem.modHall.cellarRun
theorem State.Canon.repairAudit (h : s.Canon) : s.repairAudit.Canon := .ite h.auditAppend.modFlash h
theorem State.Canon.resetRelease {x} (h : s.Canon) : (s.resetRelease x).Canon := by
  unfold State.resetRelease
  split
  · exact h
  · extract_lets s1 s2 u1 s3
    have h1 : s1.Canon := h.modFlash
    have h2 : s2.Canon := .ite h1.setFld h1
    have h3 : s3.Canon := .frame h2 rfl rfl rfl
    exact h3.repairAudit.headStrap.cellarBoot
theorem State.Canon.warmRestart (h : s.Canon) : s.warmRestart.Canon := by
  unfold State.warmRestart
  extract_lets s1 s2 src x
  have h1 : s1.Canon := h.vaultAbort.modHall
  have h2 : s2.Canon := h1.clearMem.modHall
  have hx : x.1.Canon := h2.cellarTry
  exact .ite h1 <| .ite (.ite h2.modHall <| .ite hx.enterFirmware hx.modHall) h1.cellarBoot
theorem State.Canon.divergence (h : s.Canon) : s.divergence.Canon := h.setFlag.setFld.warmRestart

/-! ### DMA channel control (11) -/

theorem State.Canon.setDmaCur {n a} (h : s.Canon) : (s.setDmaCur n a).Canon := h.setReg.setReg
theorem State.Canon.setDmaCount {n v} (h : s.Canon) : (s.setDmaCount n v).Canon := h.setFld
theorem State.Canon.setDmaState {n v} (h : s.Canon) : (s.setDmaState n v).Canon := h.setFld
theorem State.Canon.modDma {n f} (h : s.Canon) : (s.modDma n f).Canon := .frame h rfl rfl rfl
theorem State.Canon.dmaGo {n} (h : s.Canon) : (s.dmaGo n).Canon := .ite h.setDmaState.modDma h
theorem State.Canon.dmaStop {n} (h : s.Canon) : (s.dmaStop n).Canon := .ite h <| .ite h.modDma h.setDmaState.modDma
theorem State.Canon.dmaAbort {n} (h : s.Canon) : (s.dmaAbort n).Canon := h.dmaStop
theorem State.Canon.dmaDisable {n} (h : s.Canon) : (s.dmaDisable n).Canon := h.setFld.dmaStop
theorem State.Canon.shadowStore {n hi v was} (h : s.Canon) : (s.shadowStore n hi v was).Canon :=
  .ite (.ite h.setFld h) <| .ite h.setReg h.setReg
theorem State.Canon.takeShadow {n} (h : s.Canon) : (s.takeShadow n).Canon := h.setReg.setFld.setFld.setFld.setDmaState.modDma
theorem State.Canon.idleHandover {n} (h : s.Canon) : (s.idleHandover n).Canon := .ite h.takeShadow h
theorem State.Canon.dmaCtrlWrite {n v} (h : s.Canon) : (s.dmaCtrlWrite n v).Canon := by
  unfold State.dmaCtrlWrite
  split
  · exact h.dmaDisable
  · extract_lets s1 s2
    have h1 : s1.Canon := h.setFld
    have h2 : s2.Canon := .ite h1.dmaAbort h1
    exact .ite h2.dmaGo h2
theorem okW_canon (h : s.Canon) : (okW s).1.Canon := h
theorem refusedW_canon (h : s.Canon) : (refusedW s).1.Canon := h
theorem stateW_canon (h : s.Canon) : (stateW s).1.Canon := h

/-! ### Reads and writes of registers (00, 15) -/

theorem State.Canon.plainWrite {a v hw} (h : s.Canon) : (s.plainWrite a v hw).Canon := by
  unfold State.plainWrite
  split
  · exact h
  · exact h.setReg
theorem State.Canon.tileRegWrite {m off v hw} (h : s.Canon) : (s.tileRegWrite m st t off v hw).1.Canon := by
  unfold State.tileRegWrite
  extract_lets a hall stopped x
  have hx : x.1.Canon := h.lfixWrite
  split
  · split
    · exact refusedW_canon h
    · refine okW_canon ?_
      split
      · exact h.tileStart
      · exact h.tileStopRequest
      · exact h.tileTestRequest
      · exact h
  · exact .ite_fst (.ite_fst (okW_canon h.plainWrite) (stateW_canon h)) <|
      .ite_fst (.ite_fst (okW_canon h.setReg) (refusedW_canon h)) <| .ite_fst (.ite_fst (refusedW_canon h) (okW_canon h.tileSwi)) <|
      .ite_fst (.ite_fst (okW_canon h.bankPowerWrite.zeroFillStart) (refusedW_canon h)) <|
      .ite_fst (.ite_fst (.ite_fst (okW_canon (.ite hx.setFlag hx)) (stateW_canon h)) (refusedW_canon h)) <|
      .ite_fst (.ite_fst (refusedW_canon h) <| .ite_fst (stateW_canon h) (okW_canon h.setReg)) (okW_canon h.plainWrite)
theorem State.Canon.netStatWrite {v hw} (h : s.Canon) : (s.netStatWrite st v hw).Canon := h.plainWrite.foldl (·.netFlag)
theorem State.Canon.stnRegRead {off} (h : s.Canon) : (s.stnRegRead st off).1.Canon := .ite h.hallPop h
theorem State.Canon.stnRegWrite {m off v hw} (h : s.Canon) : (s.stnRegWrite m st off v hw).1.Canon := by
  unfold State.stnRegWrite
  extract_lets a running plain s1 sel k
  have hplain : plain.1.Canon := okW_canon h.plainWrite
  have h1 : s1.Canon := h.netHalt.setFld
  clear_value plain
  refine .ite_fst (refusedW_canon h) <| .ite_fst (okW_canon ?_) <| .ite_fst (.ite_fst (okW_canon h) hplain) <|
    .ite_fst (okW_canon h.twWrite) <| .ite_fst (.ite_fst (okW_canon h) hplain) <| .ite_fst (okW_canon h.lioevWrite) <|
    .ite_fst (okW_canon h.stnRepairGo) <| .ite_fst (okW_canon h.bankPowerWrite) <| .ite_fst (okW_canon h.zeroFillStart) <|
    .ite_fst (okW_canon h.setReg) <| .ite_fst (okW_canon (.ite h1 h1.setFld)) <| .ite_fst (okW_canon h.netStatWrite) <|
    .ite_fst (okW_canon h.netFixGo) <| .ite_fst (okW_canon h.hallMailboxSend) <| .ite_fst (.ite_fst (stateW_canon h) hplain) <|
    .ite_fst (.ite_fst (stateW_canon h) <| .ite_fst (okW_canon h) (okW_canon h.modStn)) hplain
  split
  · exact h.stnRunStart
  · exact h.stnRunStop
  · exact h.stnRunFail
  · exact h
theorem State.Canon.blkRead {m blk off} (h : s.Canon) : (s.blkRead m blk off).1.Canon :=
  .ite_fst h <| .ite h.tbLatchRead <| .ite h.logPop <| .ite h.serPop h
theorem State.Canon.lcCtrlWrite {c v} (h : s.Canon) : (s.lcCtrlWrite c v).Canon := by
  unfold State.lcCtrlWrite
  extract_lets a s1 s2 s3 s4 s5
  have h1 : s1.Canon := .ite h.lcSettingsWrite h
  have h2 : s2.Canon := h1.setFld
  have h3 : s3.Canon := .ite h2 h2.setFld
  have h4 : s4.Canon := .ite h3.lcExcitation h3
  have h5 : s5.Canon := .ite h4.lcLoad h4
  exact .ite h <| .ite h5.lcEnable h5.setFld
theorem State.Canon.efWrite {off v hw} (h : s.Canon) : (s.efWrite off v hw).1.Canon := by
  unfold State.efWrite
  extract_lets a s1 s2
  have h1 : s1.Canon := .ite h.disarm h
  have h2 : s2.Canon := .ite h1.commitGo h1
  split
  · refine okW_canon ?_
    split
    · exact h.bootErase
    · exact h.bootProgram
    · exact h
  · exact .ite_fst (.ite_fst (stateW_canon h) (okW_canon h.plainWrite)) <|
      .ite_fst (okW_canon (.ite h2.appendGo h2)) (okW_canon h.plainWrite)
theorem State.Canon.camWrite {off v hw} (h : s.Canon) : (s.camWrite st off v hw).Canon := by
  unfold State.camWrite
  extract_lets a keep s1 k
  have h1 : s1.Canon := h.setReg
  exact .ite (.ite h1.setFld h1) <| .ite (.ite h.contextEnable <| .ite h.contextAbort h.contextDisable) <|
    .ite (.ite h h.plainWrite) h.plainWrite
theorem State.Canon.lbWrite {m off v hw} (h : s.Canon) : (s.lbWrite m off v hw).Canon := by
  unfold State.lbWrite
  extract_lets a s1 s2 keep s3 p
  have h1 : s1.Canon := h.plainWrite
  have h2 : s2.Canon := .ite h1 h1.modWin
  have h3 : s3.Canon := .ite h.fifoClr h
  exact .ite (.ite h2.laneNotice h2) <| .ite h.setReg <| .ite h.fifoPush <| .ite h3.plainWrite <| .ite h.setReg h.plainWrite
theorem State.Canon.serWrite {m off v hw} (h : s.Canon) : (s.serWrite m off v hw).Canon := by
  unfold State.serWrite
  split
  · exact h
  · dsimp only
    split
    · exact h.serCtrlWrite
    · exact h.serBaudWrite
    · exact h.serDataWrite
    · exact h.plainWrite.serNotice
theorem State.Canon.usbWrite {m off v hw} (h : s.Canon) : (s.usbWrite m off v hw).Canon := by
  unfold State.usbWrite
  extract_lets g o a k s1 p s2 s3
  have h1 : s1.Canon := h.usbPortWrite
  have h2 : s2.Canon := h.plainWrite
  have h3 : s3.Canon := .ite h2.usbPipeAbort h2
  exact .ite h.usbCtrlWrite <| .ite (.ite h1.portChg h1) <| .ite (.ite (.ite h3.usbPipeGo h3) <| .ite h h.plainWrite) h.plainWrite
theorem State.Canon.gioWrite {m off v hw} (h : s.Canon) : (s.gioWrite m off v hw).Canon := by
  unfold State.gioWrite
  extract_lets a
  exact .ite h.gioSet <| .ite h.gioClr <| .ite h.plainWrite <| .ite (.ite h.plainWrite h) <| .ite h.drwCtrlWrite h.plainWrite
theorem State.Canon.pciWrite {m off v hw} (h : s.Canon) : (s.pciWrite m off v hw).Canon := by
  unfold State.pciWrite
  extract_lets a host w s1 u1
  have h1 : s1.Canon := h.plainWrite
  exact .ite (.frame h1 rfl rfl rfl) <| .ite (.ite h h.plainWrite) <| .ite (.ite h h.setReg) <| .ite (.ite h h.plainWrite) <|
    .ite (.ite h h.plainWrite) h.plainWrite
theorem State.Canon.cprWrite {m off v hw} (h : s.Canon) : (s.cprWrite m off v hw).Canon := by
  unfold State.cprWrite
  split
  · exact .ite (.requestReset (.ite h.chainPortReset h)) <| .ite h.chainPortReset h
  · split
    · exact h.gateWrite
    · split
      · exact h.thcfgWrite
      · split
        · exact .ite h.thsWrite.setFlag.notify h.thsWrite
        · exact .ite h.avsWrite h.plainWrite
theorem State.Canon.devWrite {off v hw} (h : s.Canon) : (s.devWrite off v hw).Canon := by
  unfold State.devWrite
  extract_lets a s1
  have h1 : s1.Canon := h.plainWrite
  exact .ite h.bankPowerWrite <| .ite h.zeroFillStart <| .ite (.ite h1.setFld h1) <| .ite (.ite h1.warmRestart h1) h.plainWrite
theorem State.Canon.blkWrite {m blk off v hw} (h : s.Canon) : (s.blkWrite m blk off v hw).1.Canon := by
  unfold State.blkWrite
  extract_lets plain n n2 c
  have hplain : plain.Canon := h.plainWrite
  split
  · exact okW_canon h
  · split
    · exact okW_canon h.devWrite
    · exact okW_canon h.cprWrite
    · split
      · exact okW_canon hplain
      · split
        · exact okW_canon h.dmaCtrlWrite
        · exact okW_canon (.ite hplain h)
        · exact okW_canon (.ite hplain h)
        · exact okW_canon (.ite hplain h)
        · exact okW_canon h.shadowStore
        · exact okW_canon h.shadowStore
        · exact okW_canon hplain
    · split
      · exact okW_canon hplain
      · split
        · exact okW_canon h.timerEnable
        · exact okW_canon (.ite h hplain)
        · exact okW_canon (.ite h hplain)
        · exact okW_canon (.ite h hplain)
        · exact okW_canon hplain
    · exact okW_canon (.ite hplain.setFld hplain)
    · exact okW_canon (.ite h.lpCtrlWrite hplain)
    · exact okW_canon (.ite h.lpCtrlWrite hplain)
    · exact okW_canon (.ite h.plainWrite hplain)
    · exact okW_canon h.pciWrite
    · exact okW_canon h.camWrite
    · exact okW_canon h.camWrite
    · exact okW_canon h.camWrite
    · exact okW_canon h.camWrite
    · exact .ite_fst (okW_canon h) <| .ite_fst (okW_canon h.lcCtrlWrite) <| .ite_fst (okW_canon h.lcSettingsWrite) <|
        .ite_fst (okW_canon h) <| .ite_fst (okW_canon hplain.notify) (okW_canon hplain)
    · exact h.efWrite
    · exact okW_canon h.lbWrite
    · exact okW_canon h.serWrite
    · exact okW_canon h.usbWrite
    · exact okW_canon h.gioWrite
    · exact okW_canon hplain
theorem State.Canon.gvWrite {off v hw} (h : s.Canon) : (s.gvWrite off v hw).1.Canon := by
  unfold State.gvWrite
  split
  · split
    · exact okW_canon h.vaultAbort
    · split
      · exact h.setFlag
      · split
        · exact okW_canon h.vaultStart
        · exact okW_canon h.setFlag
  · exact .ite_fst h.setFlag (okW_canon h.plainWrite)
theorem State.Canon.regRead {m a} (h : s.Canon) : (s.regRead m a).1.Canon := by
  unfold State.regRead
  exact .ite_fst (.ite_fst h <| .ite_fst (.ite_fst h h) <| .fst_mk h.stnRegRead) <|
    .ite_fst (.ite_fst h <| .fst_mk h.blkRead) <| .ite_fst h <| .ite_fst h h
theorem State.Canon.regStore {r m a v hw} (h : s.Canon) (hr : r.Canon) : (s.regStore r m a v hw).1.Canon := by
  unfold State.regStore
  split
  · extract_lets st o
    split
    · exact refusedW_canon h
    · split
      · split
        · exact stateW_canon h
        · exact hr.tileRegWrite
      · exact hr.stnRegWrite
  · split
    · extract_lets blk
      split
      · exact refusedW_canon h
      · exact .blkWrite (.ite h hr)
    · split
      · exact refusedW_canon h
      · split
        · exact stateW_canon h
        · exact hr.gvWrite
theorem State.Canon.regWrite {m a v hw} (h : s.Canon) : (s.regWrite m a v hw).1.Canon := by
  unfold State.regWrite
  split
  · exact okW_canon h
  · extract_lets x
    have hx : x.1.Canon := h.regStore (.frame h rfl rfl rfl)
    split
    · exact hx.frame rfl rfl rfl
    · exact hx
theorem beatFail_canon {c} (h : s.Canon) : (beatFail s c).1.Canon := h
theorem State.Canon.regBeat {m write a i d} (h : s.Canon) : (s.regBeat m write a i d).1.Canon := .ite_fst h.regWrite h.regRead
theorem State.Canon.regForm {m write one a b silent} (h : s.Canon) : (s.regForm m write one a b silent).1.Canon := by
  unfold State.regForm
  split
  · exact .ite_fst (beatFail_canon h) <| .ite_fst (beatFail_canon h) <| .ite_fst (beatFail_canon h) h.regBeat
  · exact .ite_fst (beatFail_canon h) (beatFail_canon h)
  · exact beatFail_canon h
theorem State.Canon.vaultWords {m write a d is} (h : s.Canon) : (s.vaultWords m write a d is).1.Canon := by
  induction is generalizing s with
  | nil => exact h
  | cons i is ih =>
    unfold State.vaultWords
    extract_lets x
    split
    · exact beatFail_canon h.regBeat
    · exact ih h.regBeat
theorem State.Canon.vaultBeat {m write a b} (h : s.Canon) : (s.vaultBeat m write a b).1.Canon := by
  unfold State.vaultBeat
  dsimp only
  split
  · exact beatFail_canon h
  · split
    · exact beatFail_canon h
    · split
      · exact h.vaultWords
      · exact .ite_fst (beatFail_canon h.setFlag) (beatFail_canon h)
theorem State.Canon.insnBeat {write a b} (h : s.Canon) : (s.insnBeat write a b).1.Canon :=
  .ite_fst (beatFail_canon h) <| .ite_fst (h.foldl (fun k => .ite k.setByte k)) h
theorem State.Canon.atomicBeat {mem p word new} (h : s.Canon) : (s.atomicBeat mem p word new).1.Canon := by
  unfold State.atomicBeat
  dsimp only
  split
  · exact beatFail_canon h.memOff
  · exact .ite_fst (beatFail_canon h.memUe) (.setUpset (.setLe (.ite h.memCe h)))

/-! ### Pieces of matrix requests (11) -/

theorem State.Canon.freeWords {d ws} (h : s.Canon) : (s.freeWords d ws).1.Canon := .foldl_fst h (·.useFree)
theorem State.Canon.atomicMet {m mem p mask word new meet} (h : s.Canon) : (s.atomicMet m mem p mask word new meet).1.1.Canon := by
  unfold State.atomicMet
  dsimp only
  split
  · exact h.atomicBeat.busyMark
  · exact h.atomicBeat
theorem State.Canon.memBeat {m op mem p b meet} (h : s.Canon) : (s.memBeat m op mem p b meet).1.1.Canon := by
  unfold State.memBeat
  split
  · dsimp only
    split
    · exact h.beatRead
    · split
      · exact h.beatRead.busyMark
      · split
        · exact h.beatRead.busyMark
        · exact h.beatRead.freeWords
      · exact h.beatRead
  · exact h.writeMet
  · exact h.atomicMet
  · exact h.atomicMet
theorem State.Canon.beat {m op one a b around} (h : s.Canon) : (s.beat m op one a b around).1.1.Canon := by
  unfold State.beat
  split
  · exact h
  · dsimp only
    split
    · exact beatFail_canon h
    · split
      · exact beatFail_canon h
      · split
        · exact beatFail_canon h
        · split
          · split
            · exact beatFail_canon h
            · exact h
          · split
            · exact beatFail_canon h
            · split
              · exact h.insnBeat
              · split
                · exact h.memBeat
                · split
                  · exact h.vaultBeat
                  · exact h.regForm
theorem State.Canon.pieceBeats {m r part around} (h : s.Canon) : (s.pieceBeats m r part around).1.Canon :=
  .ite_fst h.decodeError (.foldl_fst h (·.beat))
theorem State.Canon.mxTake {m a} (h : s.Canon) : (s.mxTake m a).Canon := by
  unfold State.mxTake
  split
  · exact h
  · exact .frame h rfl rfl rfl
theorem State.Canon.ingestGranted {k around} (h : s.Canon) : (s.ingestGranted st k around).Canon := by
  unfold State.ingestGranted
  split
  · exact h
  · exact .ite h.mxTake.ingestWrite h
theorem State.Canon.slotGranted {k around} (h : s.Canon) : (s.slotGranted st k around).Canon := by
  unfold State.slotGranted
  split
  · exact h
  · exact .ite h.mxTake.slotComplete h
theorem State.Canon.mxReplace {m i r} (h : s.Canon) : (s.mxReplace m i r).Canon :=
  .ite (.mxAnswer (.frame h rfl rfl rfl)) (.frame h rfl rfl rfl)
theorem State.Canon.mxPerform {g m around} (h : s.Canon) : (s.mxPerform g m around).Canon := by
  unfold State.mxPerform
  split
  · exact h
  · split
    · exact h
    · exact .mxReplace (.pieceBeats (.frame h rfl rfl rfl))
theorem State.Canon.matrixPiece {g around} (h : s.Canon) : (s.matrixPiece g around).Canon := by
  unfold State.matrixPiece
  split
  · exact h
  · exact h.mxPerform
theorem State.Canon.remap {m v} (h : s.Canon) : (s.remap m v).Canon := h.regWrite
theorem State.Canon.registerWrite {m a v hw} (h : s.Canon) : (s.registerWrite m a v hw).Canon := by
  unfold State.registerWrite
  split
  · exact h.decodeError
  · exact .ite h.regWrite h
theorem State.Canon.dmaBeat {op a b around first} (h : s.Canon) : (s.dmaBeat op a b around first).1.Canon :=
  .ite_fst h.beat <| .ite h.decodeError h

/-! ### DMA channels at work (11) -/

theorem State.Canon.dmaError {n} (h : s.Canon) : (s.dmaError n).Canon := .ite h.setFlag.setFlag.notify h.setFlag.setFlag
theorem State.Canon.dmaStopErr {n} (h : s.Canon) : (s.dmaStopErr n).Canon := h.setDmaState.setFlag.dmaError.modDma
theorem State.Canon.dmaFetch {n around} (h : s.Canon) : (s.dmaFetch n around).Canon :=
  .ite h <| .ite h.mxTake.dmaBeat.dmaStopErr <| .ite h.mxTake.dmaBeat.setDmaState.setFlag <|
  .ite h.mxTake.dmaBeat.setDmaCount.setDmaState.modDma h.mxTake.dmaBeat.setDmaCount.setDmaState.modDma
theorem State.Canon.dmaIssue {n d} (h : s.Canon) : (s.dmaIssue n d).Canon := h.setDmaCount.modDma
theorem State.Canon.dmaBegin {n} (h : s.Canon) : (s.dmaBegin n).Canon := by
  unfold State.dmaBegin
  split
  · exact h
  · exact .ite h <| .ite h.setFld.setDmaState.dmaIssue <| .ite h.dmaIssue h
theorem State.Canon.dmaMove {d r b around} (h : s.Canon) : (s.dmaMove d r b around).1.Canon := h.dmaBeat
theorem State.Canon.dmaPerform {d r known around} (h : s.Canon) : (s.dmaPerform d r known around).1.Canon := by
  unfold State.dmaPerform
  refine .foldl_fst (.ite h.useFree h) (fun k => .ite_fst k ?_)
  dsimp only
  split <;> exact k.dmaMove
theorem State.Canon.dmaSettle {n d} (h : s.Canon) : (s.dmaSettle n d).Canon :=
  .ite h <| .ite h.setDmaState.modDma <| .ite h.setDmaState h
theorem State.Canon.dmaStep {n d r around} (h : s.Canon) : (s.dmaStep n d r around).Canon :=
  .dmaSettle (.ite h.mxTake.dmaPerform.modDma h.mxTake.dmaPerform.modDma.dmaIssue)
theorem State.Canon.dmaResponse {n around} (h : s.Canon) : (s.dmaResponse n around).Canon := by
  unfold State.dmaResponse
  split
  · exact h
  · split
    · exact h
    · split
      · exact h
      · exact h.dmaStep
theorem State.Canon.dmaStatWrite {n v around} (h : s.Canon) : (s.dmaStatWrite n v around).1.Canon := .ite_fst h.dmaBeat h.dmaBeat
theorem State.Canon.dmaEnd {n d bad} (h : s.Canon) : (s.dmaEnd n d bad).Canon :=
  .ite h.dmaError <| .ite (.ite h.setFlag.setFlag.notify h.setFlag.setFlag) h
theorem State.Canon.dmaHandover {n d shv} (h : s.Canon) : (s.dmaHandover n d shv).Canon :=
  .ite h.setDmaState.modDma <| .ite h.takeShadow <| .ite h.setDmaState.modDma h.setDmaCur.setDmaState.modDma
theorem State.Canon.dmaWriteback {n shv around} (h : s.Canon) : (s.dmaWriteback n shv around).Canon := by
  unfold State.dmaWriteback
  split
  · exact h
  · exact .ite h <| .ite h.mxTake.dmaStatWrite.dmaStopErr h.mxTake.dmaStatWrite.dmaEnd.dmaRelease.dmaHandover
theorem State.Canon.dmaShadowWrite {n hi v handover} (h : s.Canon) : (s.dmaShadowWrite n hi v handover).Canon := by
  unfold State.dmaShadowWrite
  split
  · exact h
  · extract_lets was
    split
    · exact h.shadowStore
    · split
      · extract_lets t
        have ht : t.Canon := .ite h.dmaWriteback h.idleHandover
        exact .ite ht.shadowStore ht
      · exact .shadowStore (.ite h.dmaWriteback h)
theorem State.Canon.mxServe {g m} (h : s.Canon) : (s.mxServe g m).Canon := by
  unfold State.mxServe
  split
  · exact h.mxPerform
  · split
    · split
      · exact h
      · split
        · exact h.dmaFetch
        · exact h.dmaResponse
        · exact h.dmaWriteback
    · split
      · exact h
      · split
        · exact h
        · exact .ite h.ingestGranted h.slotGranted
theorem State.Canon.mxAhead {g m first n} (h : s.Canon) : (s.mxAhead g m first n).Canon := by
  induction n generalizing s with
  | zero => exact h
  | succ n ih =>
    unfold State.mxAhead
    split
    · exact h
    · exact .ite h (ih h.mxServe)
theorem State.Canon.mxEnter {m a first} (h : s.Canon) : (s.mxEnter m a first).Canon := by
  unfold State.mxEnter
  split
  · exact h
  · exact h.mxAhead.mxTake
theorem State.Canon.fwEnter {a n} (h : s.Canon) : (s.fwEnter a n).Canon := h.foldl (·.mxEnter)
theorem State.Canon.dmaGateOn {f} (h : s.Canon) (hf : ∀ {s}, s.Canon → (f s).Canon) : (s.dmaGateOn f).Canon := .ite h (hf h)

/-! ### Chain links (12) -/

theorem State.Canon.modLink {p f} (h : s.Canon) : (s.modLink p f).Canon := .frame h rfl rfl rfl
theorem State.Canon.modPcie {f} (h : s.Canon) : (s.modPcie f).Canon := .frame h rfl rfl rfl
theorem State.Canon.linkSend {p k} (h : s.Canon) : (s.linkSend p k).Canon := h.modLink
theorem State.Canon.leave {p k} (h : s.Canon) : (s.leave p k).Canon := .ite h.linkSend h.linkSend
theorem State.Canon.forward {p k} (h : s.Canon) : (s.forward p k).Canon := h.leave
theorem State.Canon.msixRaise {v} (h : s.Canon) : (s.msixRaise v).Canon := .ite h.modPcie h.setFld
theorem State.Canon.msixFlush (h : s.Canon) : s.msixFlush.Canon := h.foldl (fun k => .ite k.setFld.msixRaise k)
theorem State.Canon.dmaErrPcie (h : s.Canon) : s.dmaErrPcie.Canon := h.setFlag.modPcie.msixRaise
theorem State.Canon.hostDeliver {ks} (h : s.Canon) : (s.hostDeliver ks).Canon := by
  induction ks generalizing s with
  | nil => exact h.modPcie
  | cons k ks ih =>
    unfold State.hostDeliver
    split
    · exact h.modPcie
    · exact .ite h.modPcie.dmaErrPcie (ih h.modPcie.msixRaise.setFld)
theorem State.Canon.hostRx {k} (h : s.Canon) : (s.hostRx k).Canon := h.hostDeliver
theorem State.Canon.sendReply {p k} (h : s.Canon) : (s.sendReply p k).Canon := .ite h.hostRx h.forward
theorem State.Canon.originate {k} (h : s.Canon) : (s.originate k).Canon := h.sendReply
theorem State.Canon.hallEvent {kind stn data} (h : s.Canon) : (s.hallEvent kind stn data).Canon := by
  unfold State.hallEvent
  split
  · exact h
  · exact .ite h h.originate.modHall
theorem State.Canon.linkChanged (h : s.Canon) : s.linkChanged.Canon := .ite h.setFlag.msixRaise h.setFlag
theorem State.Canon.linkDown {p why} (h : s.Canon) : (s.linkDown p why).Canon := by
  unfold State.linkDown
  split
  · exact h
  · extract_lets s1 ks s2 s3 was s4
    have h1 : s1.Canon := by
      unfold s1
      split
      · exact h.setFld
      · exact h.setFld
      · exact h
    have h2 : s2.Canon := h1.setFld.setFlag.linkChanged
    have h3 : s3.Canon := h2.modLink
    have h4 : s4.Canon := h3.setFlag.foldl (·.leave)
    exact .ite h1 <| .ite h4 h4.hallEvent
theorem State.Canon.linkUp {p} (h : s.Canon) : (s.linkUp p).Canon := .ite h h.setFld.linkChanged.modLink
theorem State.Canon.wrapRemove {p} (h : s.Canon) : (s.wrapRemove p).Canon := .ite h.setFld.hallEvent h
theorem State.Canon.fcsChecked {p f g} (h : s.Canon) (hg : ∀ {s}, s.Canon → (g s).Canon) : (s.fcsChecked p f g).Canon :=
  .ite h <| .ite (hg h) h.bump.setFlag
theorem State.Canon.linkAck {p f} (h : s.Canon) : (s.linkAck p f).Canon := by
  unfold State.linkAck
  refine h.fcsChecked (fun k => ?_)
  split
  · exact k
  · exact k.modLink
theorem State.Canon.linkRetry {p fs} (h : s.Canon) : (s.linkRetry p fs).Canon := h.bump.modLink
theorem State.Canon.linkNak {p f} (h : s.Canon) : (s.linkNak p f).Canon := by
  unfold State.linkNak
  refine h.fcsChecked (fun k => ?_)
  split
  · exact k
  · exact k.linkRetry
theorem State.Canon.linkRetryTimeout {p} (h : s.Canon) : (s.linkRetryTimeout p).Canon := .ite h h.linkRetry
theorem State.Canon.frameIn {p f} (h : s.Canon) : (s.frameIn p f).1.Canon := by
  unfold State.frameIn
  split
  · exact h
  · extract_lets ok s1
    have h1 : s1.Canon := .ite h h.bump.setFlag
    exact .ite_fst h1 <| .ite_fst h1.modLink h1.modLink
theorem State.Canon.probeSend {p frac} (h : s.Canon) : (s.probeSend p frac).Canon := .ite h h.modLink
theorem State.Canon.probeAnswer {p f turnaround} (h : s.Canon) : (s.probeAnswer p f turnaround).Canon := h.fcsChecked (·.modLink)
theorem State.Canon.probeReply {p f t4} (h : s.Canon) : (s.probeReply p f t4).Canon := by
  unfold State.probeReply
  refine h.fcsChecked (fun k => ?_)
  split
  · exact k
  · exact k.modLink.setReg
theorem State.Canon.sfpChange {p present los txFault lock} (h : s.Canon) : (s.sfpChange p present los txFault lock).Canon :=
  .ite h.setFld.setFld.setFld.setFld.linkDown h.setFld.setFld.setFld.setFld
theorem State.Canon.pcieLinkChange {rate width cfg} (h : s.Canon) : (s.pcieLinkChange rate width cfg).Canon :=
  .ite h.setFld.setFld.modPcie.msixFlush h

/-! ### What the Hall does (15) -/

theorem State.Canon.answer {a status detail res dup} (h : s.Canon) : (s.answer a status detail res dup).Canon := by
  unfold State.answer
  split
  · exact h
  · exact .ite h.forward h.sendReply
theorem State.Canon.hallFinish {a status detail res} (h : s.Canon) : (s.hallFinish a status detail res).Canon := h.modHall.answer
theorem State.Canon.finishOpt {a status detail res} (h : s.Canon) : (s.finishOpt a status detail res).Canon := by
  unfold State.finishOpt
  split
  · exact h
  · exact h.hallFinish
theorem State.Canon.stationEvent {state tile} (h : s.Canon) : (s.stationEvent st state tile).Canon := h.hallEvent
theorem State.Canon.noteStations {old} (h : s.Canon) : (s.noteStations old).Canon :=
  h.foldl (fun k => .ite k k.hallLog.stationEvent)
theorem State.Canon.noteColumns {old} (h : s.Canon) : (s.noteColumns old).Canon :=
  h.foldl (fun k => k.foldl (fun l => .ite l l.hallLog))
theorem State.Canon.noteAll {old} (h : s.Canon) : (s.noteAll old).Canon := h.noteStations.noteColumns
theorem State.Canon.hallPump (h : s.Canon) : (s.hallPump st).Canon := .ite h <| .ite h.modHallStn h.modStn.modHallStn
theorem State.Canon.hallPlace {t' payload} (h : s.Canon) : (s.hallPlace st t' payload).Canon := h.modHallStn.hallPump
theorem State.Canon.hallWord {t' payload} (h : s.Canon) : (s.hallWord st t' payload).Canon := .ite h.modHallStn h.hallPlace
theorem State.Canon.releaseHeld (h : s.Canon) : (s.releaseHeld st).Canon := .ite h (h.modHallStn.foldl (·.hallWord))
theorem State.Canon.learnTag {tag} (h : s.Canon) : (s.learnTag tag).Canon := .ite h h.modHall
theorem State.Canon.stagedCells (h : s.Canon) : (s.stagedCells st).1.Canon := h.fwEnter.readStaged
theorem State.Canon.stagedBody (h : s.Canon) : (s.stagedBody st).1.Canon := by
  unfold State.stagedBody
  dsimp only
  split
  · exact h.stagedCells
  · exact h.stagedCells.vaultDigest
theorem State.Canon.slotWrite {insn} (h : s.Canon) : (s.slotWrite st t insn).Canon := h.fwEnter.memWrite
theorem State.Canon.slotCrcs (h : s.Canon) : (s.slotCrcs st t).1.Canon := by
  unfold State.slotCrcs
  exact h.fwEnter.memRead
theorem State.Canon.hallReg {a v} (h : s.Canon) : (s.hallReg a v).Canon := h.mxEnter.regWrite
theorem State.Canon.fillTile (h : s.Canon) : (s.fillTile st t).Canon := h.zeroFillStart.foldl (·.zeroFillEnd)
theorem State.Canon.loadInsns {insn crcs} (h : s.Canon) : (s.loadInsns st t insn crcs).Canon := h.clearMem.setBytes.setRegBytes
theorem State.Canon.loadImgCrc {crcs} (h : s.Canon) : (s.loadImgCrc st t crcs).Canon := h.setReg
theorem State.Canon.loadData {body x} (h : s.Canon) : (s.loadData st t body x).Canon := h.fwEnter.memWrite
theorem State.Canon.loadControl {body x} (h : s.Canon) : (s.loadControl st t body x).Canon := h.hallReg.hallReg.hallReg.hallReg
theorem State.Canon.hallTileStart (h : s.Canon) : (s.hallTileStart st t).Canon := h.tileStart.hallWord
theorem State.Canon.haltTile (h : s.Canon) : (s.haltTile st t).Canon := .ite h.tileStopRequest.takeStop h.tileStopRequest
theorem State.Canon.rebuild (h : s.Canon) : (s.rebuild st t).1.Canon := by
  unfold State.rebuild
  dsimp only
  split
  · exact h.stagedBody
  · exact h.stagedBody.slotWrite
theorem State.Canon.copyOf (h : s.Canon) : (s.copyOf st t).1.Canon := by
  unfold State.copyOf
  extract_lets x r
  have hx : x.1.Canon := h.slotCrcs
  have hr : r.1.Canon := by
    unfold r
    split
    · exact hx.fwEnter.memRead
    · exact hx
  split
  · exact hr
  · exact hr.rebuild
theorem State.Canon.restartTile {reason} (h : s.Canon) : (s.restartTile st t reason).Canon := by
  unfold State.restartTile
  refine .stationEvent (.hallLog (.hallWord (.hallTileStart (.foldl (.foldl ?_ (·.loadData)) (·.loadControl)))))
  split
  · exact h.haltTile.copyOf.fillTile.stagedBody
  · exact h.haltTile.copyOf.fillTile.stagedBody.loadInsns
theorem State.Canon.logStopped {action} (h : s.Canon) : (s.logStopped st t action).Canon := h.hallLog
theorem State.Canon.retireNow (h : s.Canon) : (s.retireNow st t).Canon := .ite h.stnRunFail h.stnRepairGo
theorem State.Canon.retireTile (h : s.Canon) : (s.retireTile st t).Canon := .ite h.logStopped.modHallStn h.logStopped.retireNow
theorem State.Canon.retirePump (h : s.Canon) : (s.retirePump st).Canon := by
  unfold State.retirePump
  split
  · exact h
  · exact .ite h h.modHallStn.retireNow
theorem State.Canon.tileFault {reason logs} (h : s.Canon) : (s.tileFault st t reason logs).Canon := by
  unfold State.tileFault
  extract_lets again s1
  have h1 : s1.Canon := h.modHallStn
  exact .ite h1.retireTile (.restartTile (.ite h1.logStopped h1))
theorem State.Canon.selfTestFault (h : s.Canon) : (s.selfTestFault st t).Canon := by
  unfold State.selfTestFault
  exact .ite h.logStopped.stnRunFail h.logStopped

/-! ### Commands that the Hall serves (12, 14) -/

theorem State.Canon.stage {a old limit grade p} (h : s.Canon) : (s.stage a old limit grade p).1.Canon :=
  .ite_fst h h.fwEnter.memWrite
theorem State.Canon.attestCmd {a} (h : s.Canon) : (s.attestCmd a).Canon := .ite h.answer h.vaultDigest.gvInPart.vaultStart.modHall
theorem State.Canon.attestEnd {signed} (h : s.Canon) : (s.attestEnd signed).Canon := by
  unfold State.attestEnd
  split
  · exact h
  · exact .ite h <| .ite h.modHall.hallFinish h.modHall.answer
theorem State.Canon.attestAbort (h : s.Canon) : s.attestAbort.Canon := .ite h.vaultAbort.attestEnd h
theorem State.Canon.loadTable {body x} (h : s.Canon) : (s.loadTable st body x).Canon := h.setReg.modStn
theorem State.Canon.loadStation {body} (h : s.Canon) : (s.loadStation st body).Canon :=
  h.foldl (fun k => .ite k.loadTable <| .ite (k.foldl (·.hallReg)) k)
theorem State.Canon.loadTile {body} (h : s.Canon) : (s.loadTile st t body).Canon := by
  unfold State.loadTile
  split
  · exact h
  · exact h.loadInsns.loadImgCrc.slotWrite
theorem State.Canon.loadTiles {body} (h : s.Canon) : (s.loadTiles st body).Canon := by
  unfold State.loadTiles
  refine (h.foldl (·.fillTile)).foldl (fun k => ?_)
  dsimp only
  split
  · exact k.loadTile
  · exact k.loadData
  · exact k.loadControl
  · exact k.fwEnter.memWrite
  · exact k
theorem State.Canon.startTiles {body} (h : s.Canon) : (s.startTiles st body).Canon := h.foldl (fun k => .ite k k.hallTileStart)
theorem State.Canon.verifyStaged (h : s.Canon) : (s.verifyStaged st).1.Canon := by
  unfold State.verifyStaged
  exact h.stagedCells.verifyIn
theorem State.Canon.startJob {v} (h : s.Canon) : (s.startJob st v).Canon := by
  unfold State.startJob
  exact h.modHallStn.loadStation.stnRunStart
theorem State.Canon.startCmd {a} (h : s.Canon) : (s.startCmd st a).Canon := by
  unfold State.startCmd
  exact .ite h.attestAbort.verifyStaged.hallFinish h.attestAbort.verifyStaged.startJob.modHallStn
theorem State.Canon.stopCmd {a} (h : s.Canon) : (s.stopCmd st a).Canon := .ite h.stnRunStop.modHallStn h.stnRunStop.hallFinish
theorem State.Canon.setRole {tag src notify} (h : s.Canon) : (s.setRole st tag src notify).Canon :=
  .ite h.setReg.learnTag.hallLog.hallWord h.setReg.learnTag.hallLog
theorem State.Canon.roleSetCmd {a} (h : s.Canon) : (s.roleSetCmd st a).Canon :=
  .ite h.hallFinish <| .ite h.hallFinish h.setRole.hallFinish
theorem State.Canon.mboxPump (h : s.Canon) : (s.mboxPump st).Canon := by
  unfold State.mboxPump
  split
  · exact h
  · exact .ite h.setStn.modHallStn.hallFinish <| .ite h.setStn.modHallStn.hallFinish h.setStn.modHallStn
theorem State.Canon.mboxCmd {a} (h : s.Canon) : (s.mboxCmd st a).Canon := by
  unfold State.mboxCmd
  dsimp only
  split
  · exact h.hallFinish
  · exact h.modHallStn.mboxPump
theorem State.Canon.orShort {a f} (h : s.Canon) (hf : ∀ {s}, s.Canon → (f s).Canon) : (s.orShort a f).Canon := .ite h.answer (hf h)
theorem State.Canon.stnExec {a} (h : s.Canon) : (s.stnExec st a).Canon := by
  unfold State.stnExec
  dsimp only
  split
  · exact h.orShort (·.stage.modHallStn.hallFinish)
  · exact .ite h.answer h.startCmd
  · exact h.stopCmd
  · exact h.orShort (·.roleSetCmd)
  · exact h.hallFinish
  · exact .ite h.answer <| .ite h.answer (h.orShort (·.mboxCmd))
  · exact h.answer
theorem State.Canon.stnChecked {a f} (h : s.Canon) (hf : ∀ {s}, s.Canon → (f s).Canon) : (s.stnChecked st a f).Canon := by
  unfold State.stnChecked
  split
  · exact h.answer
  · exact .ite h.answer <| .ite h.answer (hf h)
theorem State.Canon.stnCmd {a} (h : s.Canon) : (s.stnCmd st a).Canon := h.stnChecked (·.stnExec)
theorem State.Canon.restartStation (h : s.Canon) : (s.restartStation st).Canon :=
  .ite h.modHallStn <| .ite h.modHallStn h.modHallStn.stnRunStop.modHallStn
theorem State.Canon.drainStn {n} (h : s.Canon) : (s.drainStn st n).Canon := by
  induction n generalizing s with
  | zero => exact h
  | succ n ih =>
    unfold State.drainStn
    split
    · exact h
    · split
      · exact h
      · exact ih h.modHallStn.stnCmd
theorem State.Canon.drain (h : s.Canon) : (s.drain st).Canon := .drainStn (.ite h.restartStation h)
theorem State.Canon.pantryCmd {a} (h : s.Canon) : (s.pantryCmd a).Canon := by
  unfold State.pantryCmd
  extract_lets p region index count
  exact .ite h.hallFinish <| .ite (.ite h.hallFinish <| .ite h.hallFinish h.hallFinish) <|
    .ite (.ite h.hallFinish <| .ite h.hallFinish h.hallFinish) <| .ite h.hallFinish <| .ite h.hallFinish h.hallFinish
theorem State.Canon.logCmd {a} (h : s.Canon) : (s.logCmd a).Canon := .hallFinish (.foldl_fst h (·.memRead))
theorem State.Canon.devCmd {a} (h : s.Canon) : (s.devCmd a).Canon := by
  unfold State.devCmd
  split
  · exact h.answer
  · refine h.orShort (fun k => ?_)
    split
    · exact k.attestCmd
    · exact k.pantryCmd
    · exact k.logCmd
    · exact k.answer
theorem State.Canon.hallAccept {a} (h : s.Canon) : (s.hallAccept a).Canon :=
  .ite h.devCmd <| .ite (h.stnChecked (·.answer)) <| .ite h.modHallStn h.stnCmd
theorem State.Canon.cellarAccept {a} (h : s.Canon) : (s.cellarAccept a).Canon := by
  unfold State.cellarAccept
  split
  · exact h.orShort (·.stage.modHall.answer)
  · exact .ite h.readStaged.verifyIn.answer.enterFirmware h.readStaged.verifyIn.answer
  · exact h.answer
theorem State.Canon.startOver (h : s.Canon) : (s.startOver st).Canon := .ite h h.modHallStn.finishOpt.drain
theorem State.Canon.startEnds (h : s.Canon) : (s.startEnds st).Canon :=
  .ite h (.startOver (.ite h.loadTiles.startTiles.modHallStn h))
theorem State.Canon.stopEnds (h : s.Canon) : (s.stopEnds st).Canon := by
  unfold State.stopEnds
  extract_lets H s1 x
  have h1 : s1.Canon := h.modHallStn.finishOpt
  have hx : x.1.Canon := h1.attestAbort.verifyStaged
  exact .ite h <| .ite (.ite hx.startJob.modHallStn hx.drain) h1.drain
theorem State.Canon.fixEntry (h : s.Canon) : (s.fixEntry st).Canon := by
  unfold State.fixEntry
  split
  · exact h
  · dsimp only
    split
    · exact h.stagedBody.modHallStn
    · exact h.stagedBody.hallReg.netFixGo
theorem State.Canon.fixPump (h : s.Canon) : (s.fixPump st).Canon := .ite h <| .ite h.modHallStn h.fixEntry
theorem State.Canon.hallMail (h : s.Canon) : (s.hallMail st).Canon := by
  unfold State.hallMail
  extract_lets s1 H
  have h1 : s1.Canon := h.startOver.retirePump.fixPump
  exact .ite h1 h1.releaseHeld.hallPump.mboxPump.drain
theorem State.Canon.hallMails (h : s.Canon) : s.hallMails.Canon := h.foldl (·.hallMail)
theorem State.Canon.hallReact {old} (h : s.Canon) : (s.hallReact old).Canon := .ite h h.noteAll.attestEnd.hallMails.noteAll
theorem State.Canon.vaultDone (h : s.Canon) : s.vaultDone.Canon := h.vaultCommandEnd.attestEnd
theorem State.Canon.hallStartEnd (h : s.Canon) : (s.hallStartEnd st).Canon :=
  .ite h.stationStartEnd.noteAll.startEnds.noteAll h.stationStartEnd
theorem State.Canon.hallStopEnd (h : s.Canon) : (s.hallStopEnd st).Canon :=
  .ite h.stationStopEnd.noteAll.stopEnds.noteAll h.stationStopEnd

/-! ### Notices (15) -/

theorem State.Canon.takeNotice {p f} (h : s.Canon) (hf : ∀ {n s}, s.Canon → (f n s).Canon) : (s.takeNotice p f).Canon := by
  unfold State.takeNotice
  split
  · exact h
  · refine .ite (.hallReact (hf ?_)) h
    exact h.frame rfl rfl rfl
theorem State.Canon.tileLostNotice (h : s.Canon) : (s.tileLostNotice st t).Canon := by
  unfold State.tileLostNotice
  refine h.takeNotice (fun k => ?_)
  split
  · exact k.tileFault
  · exact k.tileFault
  · exact k.selfTestFault
theorem State.Canon.tileRestartNotice (h : s.Canon) : (s.tileRestartNotice st t).Canon := by
  unfold State.tileRestartNotice
  refine h.takeNotice (fun k => .restartTile (.hallLog ?_))
  split
  · exact k.modStn
  · exact k.modStn.loadImgCrc
theorem State.Canon.lineFaultNotice (h : s.Canon) : (s.lineFaultNotice st t).Canon := by
  unfold State.lineFaultNotice
  split
  · exact h
  · refine h.takeNotice fun k => .ite ?_ ?_
    · exact k.slotCrcs.fwEnter.memRead.setRegBytes.hallReg.hallReg.hallLog
    · exact k.slotCrcs.fwEnter.memRead.hallLog.restartTile
theorem State.Canon.commitAnswers (h : s.Canon) : (s.commitAnswers st).Canon := h.modFlash.foldl (·.hallWord)
theorem State.Canon.commitRequest {tile set} (h : s.Canon) : (s.commitRequest st tile set).Canon := by
  unfold State.commitRequest
  extract_lets off s1 bytes s2 begun s3
  have h1 : s1.Canon := h.fwEnter
  have h2 : s2.Canon := h1.vaultDigest.setRegBytes.setRegBytes
  have h3 : s3.Canon := h2.commitGo
  exact .ite h3 h3.hallWord
theorem State.Canon.pantryNotice (h : s.Canon) : (s.pantryNotice st).Canon := by
  unfold State.pantryNotice
  refine h.takeNotice (fun k => .ite k.commitAnswers ?_)
  dsimp only
  split
  · exact k.commitAnswers.setFld.commitRequest
  · exact k.commitAnswers.setFld.lcLoad.lcLoad
  · exact k.commitAnswers.setFld
theorem State.Canon.logMemFault {m a} (h : s.Canon) : (s.logMemFault m a).Canon := by
  unfold State.logMemFault
  dsimp only
  split <;> exact h.hallLog
theorem State.Canon.rebuildCopies {a} (h : s.Canon) : (s.rebuildCopies a).Canon :=
  h.foldl (fun k => .foldl (.ite k.modHallStn k) (fun l => .ite l.rebuild l))
theorem State.Canon.memFaultNotice {m a} (h : s.Canon) : (s.memFaultNotice m a).Canon := by
  unfold State.memFaultNotice
  refine h.takeNotice (fun k => ?_)
  dsimp only
  split
  · exact k.logMemFault.tileFault
  · exact k.logMemFault
  · exact k.logMemFault.warmRestart
  · exact k.logMemFault.rebuildCopies
theorem State.Canon.netFaultNotice (h : s.Canon) : (s.netFaultNotice st).Canon := by
  unfold State.netFaultNotice
  split
  · exact h
  · refine h.takeNotice fun {n s} k => ?_
    extract_lets w s1 s2 s3
    have k2 : s2.Canon := k.hallLog.hallReg
    have k3 : s3.Canon := .ite k2.modHallStn.fixEntry k2
    exact .ite k3.restartStation k3
theorem State.Canon.peerWatchArm {payload} (h : s.Canon) : (s.peerWatchArm st payload).Canon := .ite h h.modHallStn
theorem State.Canon.peerCommand {dev stn op role params} (h : s.Canon) : (s.peerCommand dev stn op role params).Canon := by
  unfold State.peerCommand
  split
  · exact h
  · exact h.useFree.originate
theorem State.Canon.watchEnds (h : s.Canon) : (s.watchEnds st).Canon := h.modHallStn
theorem State.Canon.peerFailover {dev stn tag f} (h : s.Canon) : (s.peerFailover st dev stn tag f).Canon := by
  unfold State.peerFailover
  extract_lets s1 ended s2 lane me s3
  have h1 : s1.Canon := h.peerCommand
  have h2 : s2.Canon := by
    unfold s2
    split
    · exact h1.learnTag
    · exact h1
  have h3 : s3.Canon := .ite h2 h2.setRole
  exact .ite h2.watchEnds h3.hallLog.watchEnds
theorem State.Canon.peerWatchPoll {r f} (h : s.Canon) : (s.peerWatchPoll st r f).Canon := by
  unfold State.peerWatchPoll
  split
  · exact h
  · split
    · exact h
    · dsimp only
      split
      · split
        · exact h.peerCommand.modHallStn
        · exact h.peerCommand.learnTag.modHallStn
      · split
        · exact .ite h.peerCommand.modHallStn.peerFailover h.peerCommand.modHallStn
        · exact .ite h.peerCommand.learnTag.modHallStn.peerFailover h.peerCommand.learnTag.modHallStn
theorem State.Canon.hallTake (h : s.Canon) : (s.hallTake st).Canon := by
  unfold State.hallTake
  split
  · exact h
  · exact .ite h.hallPop <| .ite h.hallPop.hallEvent <| .ite h.hallPop.peerWatchArm h.hallPop

/-! ### The Porch and the PCIe head (12) -/

theorem State.Canon.enumIn {p k} (h : s.Canon) : (s.enumIn p k).Canon := .ite h.forward h.setReg.forward
theorem State.Canon.shiftTimes {d} (h : s.Canon) : (s.shiftTimes d).Canon := .frame h rfl rfl rfl
theorem State.Canon.syncTiles (h : s.Canon) : s.syncTiles.Canon := h.foldl (fun k => .ite k (k.foldl (fun l => .ite l.modTile l)))
theorem State.Canon.syncStep {tmaster corr evt} (h : s.Canon) : (s.syncStep tmaster corr evt).Canon := by
  unfold State.syncStep
  extract_lets off tb s0 s1 s2 s3 s4
  have h0 : s0.Canon := h.shiftTimes
  have h1 : s1.Canon := h0.frame rfl rfl rfl
  have h2 : s2.Canon := .ite (h1.foldl (·.timerStart)) h1
  have h4 : s4.Canon := h2.setReg.setReg.setReg.setFlag
  exact .ite h4.syncTiles h4
theorem State.Canon.syncIn {p k residence} (h : s.Canon) : (s.syncIn p k residence).Canon := .ite h.forward h.syncStep.forward
theorem State.Canon.syncOut {k} (h : s.Canon) : (s.syncOut k).Canon := .ite h.forward h.forward
theorem State.Canon.chainWord {w write a v} (h : s.Canon) : (s.chainWord w write a v).1.Canon :=
  .ite_fst h.decodeError h.mxEnter.beat
theorem State.Canon.readWords {w a n i acc} (h : s.Canon) : (s.readWords w a n i acc).1.Canon := by
  induction n generalizing s i acc with
  | zero => exact h
  | succ n ih =>
    unfold State.readWords
    extract_lets x
    split
    · exact h.chainWord
    · exact ih h.chainWord
theorem State.Canon.writeWords {w a p n i} (h : s.Canon) : (s.writeWords w a p n i).1.Canon := by
  induction n generalizing s i with
  | zero => exact h
  | succ n ih =>
    unfold State.writeWords
    extract_lets x
    split
    · exact h.chainWord
    · exact ih h.chainWord
theorem State.Canon.porchCmd {w op p} (h : s.Canon) : (s.porchCmd w op p).1.Canon := by
  unfold State.porchCmd
  split
  · exact h
  · split
    · exact h
    · exact .ite_fst h.readWords <| .ite_fst h h.writeWords
theorem State.Canon.execCmd {a w} (h : s.Canon) : (s.execCmd a w).Canon := by
  unfold State.execCmd
  dsimp only
  split
  · exact .ite h.answer <| .ite (.ite h.answer h.answer.requestReset) h.porchCmd.answer
  · split
    · split
      · exact .ite h.answer h.hallAccept
      · exact .ite h.answer h.cellarAccept
      · exact h.answer
    · exact h.answer
theorem State.Canon.multiIn {p me k w} (h : s.Canon) : (s.multiIn p me k w).Canon := .ite h.forward <| .ite h.forward h.execCmd
theorem State.Canon.examine {p k residence w} (h : s.Canon) : (s.examine p k residence w).Canon := by
  unfold State.examine
  split
  · exact h.enumIn
  · split
    · exact h.forward
    · exact .ite (.ite h.syncIn <| .ite h.setFlag h.forward) <| .ite h.setFlag <| .ite h.multiIn <| .ite h.forward <|
        .ite (.ite h.learnTag h.execCmd) <| .ite h.setFlag h.forward
theorem State.Canon.packetIn {p k residence w} (h : s.Canon) : (s.packetIn p k residence w).Canon :=
  .ite h <| .ite h.hostRx <| .ite h.forward h.examine.hallReact
theorem State.Canon.commandIn {p k op residence w} (h : s.Canon) : (s.commandIn p k op residence w).Canon := h.packetIn
theorem State.Canon.chainBootIn {p k} (h : s.Canon) : (s.chainBootIn p k).Canon := .ite h.packetIn h
theorem State.Canon.linkDataFrame {p f} (h : s.Canon) : (s.linkDataFrame p f).Canon := by
  unfold State.linkDataFrame
  dsimp only
  split
  · exact h.frameIn
  · exact .ite h.frameIn.useFree.packetIn h.frameIn.packetIn
theorem State.Canon.hostInject {k w} (h : s.Canon) : (s.hostInject k w).Canon :=
  .ite h.forward <| .ite h.syncOut h.examine.hallReact
theorem State.Canon.cmdRing {n} (h : s.Canon) : (s.cmdRing n).Canon := by
  induction n generalizing s with
  | zero => exact h
  | succ n ih =>
    unfold State.cmdRing
    extract_lets size head
    split
    · exact h
    · split
      · exact h
      · split
        · exact h.dmaErrPcie
        · extract_lets bad s1 s2 s3
          have h2 : s2.Canon := .ite h.modPcie h.modPcie.hostInject
          have h3 : s3.Canon := h2.setFld.modPcie.msixRaise
          exact ih (.ite h3 h3.dmaErrPcie)
theorem State.Canon.cmdTailWrite {tail posted} (h : s.Canon) : (s.cmdTailWrite tail posted).Canon := .ite h h.setFld.modPcie.cmdRing
theorem State.Canon.rxTailWrite {tail accessOk} (h : s.Canon) : (s.rxTailWrite tail accessOk).Canon :=
  .ite h <| .ite h.setFld.dmaErrPcie h.setFld.hostDeliver
theorem State.Canon.rxDiscard (h : s.Canon) : s.rxDiscard.Canon := .ite h h.setFlag.modPcie.msixRaise
theorem State.Canon.winLines {w a op bytes one n l bad acc} (h : s.Canon) : (s.winLines w a op bytes one n l bad acc).1.Canon := by
  induction n generalizing s l bad acc with
  | zero => exact h
  | succ n ih =>
    unfold State.winLines
    split
    · exact ih h.pieceError
    · exact ih (.beat (.ite h.mxEnter h))
theorem State.Canon.windowAccess {x op w} (h : s.Canon) : (s.windowAccess x op w).Canon :=
  .ite h <| .ite (.ite h.modPcie.modPcie h.modPcie) <| .ite (.ite h.modPcie h) <| .ite h.winLines <|
  .ite h.winLines.modPcie.modPcie h.winLines.modPcie
theorem State.Canon.pcieResume (h : s.Canon) : s.pcieResume.Canon := .ite h h.cmdRing.hostDeliver.msixFlush
theorem State.Canon.reacting {f} (h : s.Canon) (hf : ∀ {s}, s.Canon → (f s).Canon) : (s.reacting f).Canon :=
  ((hf h).hallReact).pcieResume

/-! ### Commands of the load cells (10) -/

theorem State.Canon.lcDeliver {c first second x} (h : s.Canon) : (s.lcDeliver c first second x).Canon :=
  .ite h <| .ite h.mxEnter.lcSample.busyMark h.mxEnter.lcSample

/-! ### The test access port (17) -/

theorem State.Canon.modTap {f} (h : s.Canon) : (s.modTap f).Canon := .frame h rfl rfl rfl
theorem State.Canon.tapBypass (h : s.Canon) : s.tapBypass.Canon := h.modTap
theorem State.Canon.tapIdcode (h : s.Canon) : s.tapIdcode.Canon := h.modTap
theorem State.Canon.tapSample {pins preload} (h : s.Canon) : (s.tapSample pins preload).Canon := h.modTap
theorem State.Canon.tapExtest {x} (h : s.Canon) : (s.tapExtest x).Canon := h.modTap
theorem State.Canon.tapOpen {f} (h : s.Canon) (hf : ∀ {s}, s.Canon → (f s).Canon) : (s.tapOpen f).Canon := .ite h.tapBypass (hf h)
theorem State.Canon.tapSel {phys} (h : s.Canon) : (s.tapSel st phys).Canon := h.tapOpen (·.modTap)
theorem State.Canon.tapRead {off} (h : s.Canon) : (s.tapRead off).Canon := by
  unfold State.tapRead
  refine h.tapOpen (fun k => ?_)
  dsimp only
  split
  · exact .ite k.modTap k.mxEnter.beat.modTap
  · exact k.modTap
theorem State.Canon.tapHalt {halt} (h : s.Canon) : (s.tapHalt halt).Canon := h.tapOpen (·.modTap.netHalt)

/-! ### One cycle -/

theorem State.Canon.hallTick (h : s.Canon) : s.hallTick.Canon := .ite h.hallMails.noteAll h
theorem State.Canon.laneTick (h : s.Canon) : s.laneTick.Canon := (h.foldl (·.frameTick)).foldl (·.pulseEnd.senseSettle)
theorem State.Canon.tick (h : s.Canon) : s.tick.Canon :=
  .ite h (.hallTick (.laneTick (.commitTick (.foldl (.frame h rfl rfl rfl) (·.timerTick)))))

end Sys2Proof.Machine
end

/-! SUPPORT. Every step keeps the canonical form. -/

section
namespace Sys2Proof.Machine

variable {s : State}

/-- The state that a command ends in, if it ends in one, is canonical. -/
def EndsCanon : Host.Outcome State Fault Refusal → Prop
  | .next u => u.Canon
  | _ => True

theorem EndsCanon.next (h : s.Canon) : EndsCanon (.next s) := h

/-- A command that writes registers ends in its state, or in no state where a reserved bit was written. -/
theorem EndsCanon.out (h : s.Canon) : EndsCanon s.out := by
  unfold State.out
  split
  · trivial
  · exact h

/-- Each command is a function of the layers above. -/
theorem exec_canon (h : s.Canon) (i : Instr) : EndsCanon (exec i s) := by
  cases i
  case instruction => exact .out h.noted.issue
  case interruptEntry => exact .out h.noted.irqEntry
  case arithReport => exact .next h.arithReport
  case deferralWindowEnd => exact .next h.windowEnd
  case idleWake => exact .out h.noted.idleWake
  case operationComplete => exact .next h.operationComplete
  case add | addt | sub | subt | and | or | xor | andn | cmpeq | cmpne | cmplt | cmpltu | min | max | minu | maxu | addw |
    subw | cmpeqw | cmpltw | addh | subh | cmpeqh | cmplth | mla8 | mul8 | mla15 | mul15 | mla31 | mul31 | shl | shr | sar |
    rol | extu | exts | ins | perm | grad | thr | census | absd | vcfg | wimg | wout | walk | ld8 | ld8s | ld16 | ld16s | ld32 |
    ld32s | ld64 | st8 | st16 | st32 | st64 | lreq | sadr | wait | blk | aadd | aswp | shield | rdcr | send | mdst |
    mailboxTake | mbox =>
    exact .next h.trigger
  case walkSample => exact .next h.walkSample
  case elementIssue => exact .next h.elementIssue
  case storeElementSend => exact .next h.storeElementSend
  case blockIssue => exact .next h.blockIssue
  case blockDone => exact .next h.blockDone
  case queueRequestArrival => exact .next h.queueArrival
  case atomicAtBank => exact .next h.atomicAtBank
  case queueResponseArrival => exact .next h.queueResponse
  case jmp | call | ret | sys | eret =>
    exact .next h.transfer
  case wrcr => exact .out h.noted.trigger
  case idle => exact .next h.idleTrigger
  case mailboxTakeComplete => exact .next h.takeComplete
  case lineFillComplete => exact .next h.lineFill
  case tileStart => exact .next h.tileStart
  case tileSelfTestEnd => exact .next h.tileSelfTestEnd.hallReact
  case pipeFailure => exact .next h.pipeFailure
  case tileStopRequest => exact .next h.tileStopRequest
  case tileStopTaken => exact .next h.tileStopTaken
  case tileTestRequest => exact .next h.tileTestRequest
  case testEntry => exact .next h.testEntry
  case tileSwi => exact .out h.noted.reserved.tileSwi
  case stnRunStart => exact .next (h.reacting (·.stnRunStart))
  case stationStartEnd => exact .out h.noted.hallStartEnd
  case stnRunStop => exact .next (h.reacting (·.stnRunStop))
  case stationStopEnd => exact .out h.noted.hallStopEnd
  case stnRunFail => exact .next (h.reacting (·.stnRunFail))
  case stnRepairGo => exact .out h.noted.reserved.stnRepairGo
  case columnRepair => exact .next (h.reacting (·.columnRepair))
  case stnTworldWrite => exact .out h.noted.reserved.twWrite
  case linkWordHop => exact .next h.linkWordHop
  case channelInject => exact .next h.channelInject
  case channelDataDeliver => exact .next h.channelDataDeliver
  case creditInject => exact .next h.creditInject
  case creditDeliver => exact .next h.creditDeliver
  case mailboxDeliver => exact .next h.mailboxDeliver
  case frameBoundary => exact .next h.frameBoundary
  case freezeEnd => exact .next h.freezeEnd
  case slotTableScrub => exact .next h.slotTableScrub
  case netFixGo => exact .out h.noted.reserved.netFixGo
  case netHalt => exact .next h.netHalt
  case hallMailboxSend => exact .out h.noted.reserved.hallMailboxSend
  case hallMailboxPop => exact .next h.hallTake
  case bankPowerWrite => exact .out h.noted.reserved.bankPowerWrite
  case bankPowerChangeEnd => exact .next h.bankChangeEnd
  case zeroFillStart => exact .next h.zeroFillStart
  case zeroFillEnd => exact .next h.zeroFillEnd
  case memScrub => exact .next h.memScrub
  case readReissue => exact .next h.readReissue
  case lp5Init => exact .next h.lpInit
  case lp5TrainingEnd => exact .next h.lpTrainingEnd
  case lp5SelfRefresh => exact .next h.lpSelfRefresh
  case lp5Mr4Read => exact .next h.lpMr4
  case lp5Scrub => exact .next h.lpScrub
  case frameStart => exact .next h.frameStart
  case frameEnd => exact .next h.frameEnd
  case lineStart => exact .next h.lineStart
  case longPacket => exact .next h.longPacket
  case csiUlps => exact .next h.csiUlps
  case ingestWrite => exact .next h.ingestGranted
  case slotComplete => exact .next h.slotGranted
  case contextEnable => exact .out (h.noted.reservedIf.camWritten (·.contextEnable))
  case contextDisable => exact .out (h.noted.reservedIf.camWritten (·.contextDisable))
  case contextAbort => exact .out (h.noted.reservedIf.camWritten (·.contextAbort))
  case lcSample => exact .next h.lcDeliver
  case openWire => exact .next h.openWire
  case excitationFault => exact .next h.excitationFault
  case senseFault => exact .next h.senseFault
  case calsealChange => exact .next h.calsealChange
  case lcLoad => exact .next h.lcLoad
  case lcLoadEnd => exact .next h.lcLoadEnd
  case lcEnable => exact .next h.lcEnable
  case lcExcitation => exact .next h.lcExcitation
  case lcSettingsWrite => exact .out h.noted.reservedIf.lcSettingsWrite
  case armingExpiry | disarm =>
    exact .next h.disarm
  case pantryNotice => exact .out h.noted.pantryNotice
  case commit => exact .next h.commitGo
  case commitEnd => exact .next h.commitEnd
  case append => exact .next h.appendGo
  case appendEnd => exact .next h.appendEnd
  case matrixRequest => exact .next h.matrixRequest
  case matrixPiece => exact .out (h.noted.reacting (·.matrixPiece))
  case remap => exact .out h.noted.remap
  case timeBaseLatch => exact .next h.tbLatchRead
  case timerEnable => exact .out h.noted.reserved.timerEnable
  case timerStart => exact .next h.timerStart
  case timerEvent => exact .next h.timerEvent
  case dmaGo => exact .next (h.dmaGateOn (·.dmaGo))
  case dmaAbort => exact .next (h.dmaGateOn (·.dmaAbort))
  case dmaDisable => exact .next (h.dmaGateOn (·.dmaDisable))
  case dmaDescriptorFetch => exact .next h.dmaFetch
  case dmaTransferStart => exact .next h.dmaBegin
  case dmaBeatResponse => exact .out (h.noted.reacting (·.dmaResponse))
  case dmaWriteback => exact .out h.noted.dmaWriteback
  case dmaIdleHandover => exact .next (h.dmaGateOn (·.idleHandover))
  case dmaShadowWrite => exact .out h.noted.reservedIf.dmaShadowWrite
  case linkDataFrame => exact .out h.noted.linkDataFrame
  case linkAck => exact .next h.linkAck
  case linkNak => exact .next h.linkNak
  case linkRetryTimeout => exact .next h.linkRetryTimeout
  case linkDown => exact .next h.linkDown
  case linkUp => exact .next h.linkUp
  case wrapRemove => exact .next h.wrapRemove
  case probeSend => exact .next h.probeSend
  case probe => exact .next h.probeAnswer
  case probeReply => exact .next h.probeReply
  case ping | enumerate | regRead | chainReset | timeSync | imageLoad | stationStop | roleSet | roleGet | attest | pantryRead |
    mboxSend | logRead =>
    exact .next h.commandIn
  case regWrite | stationStart =>
    exact .out h.noted.commandIn
  case cmdTailWrite => exact .out h.noted.cmdTailWrite
  case rxTailWrite => exact .next h.rxTailWrite
  case rxPacketDiscard => exact .next h.rxDiscard
  case pcieWindowAccess => exact .out (h.noted.reacting (·.windowAccess))
  case legacyRead => exact .next h.legacyRead
  case legacyWrite => exact .next h.legacyWrite
  case lresetRise => exact .next h.lresetRise
  case lresetRecord => exact .next h.lresetRecord
  case mirrorWrite => exact .next h.mirrorWrite
  case setAliasWrite | clrAliasWrite =>
    exact .next h.aliasWrite
  case typeWrite => exact .out h.noted.reservedIf.typeWrite
  case fifoPush => exact .out h.noted.reservedIf.fifoPush
  case fifoClr => exact .next h.fifoClr
  case logPop => exact .next (h.clocked (·.logPop))
  case serialRxChar => exact .next h.serialRx
  case serialTxChar => exact .next h.serialTx
  case serDataRead => exact .next h.serDataRead
  case serDataWrite => exact .out h.noted.reservedIf.serDataWrite
  case rxTimeout => exact .next h.rxTimeout
  case modemChange => exact .next h.modemChange
  case deRelease => exact .next h.deRelease
  case usbPipeGo => exact .next (h.clocked (·.usbPipeGo))
  case usbPipeAbort => exact .next (h.clocked (·.usbPipeAbort))
  case usbIntervalPoll => exact .next (h.clocked (·.usbIntervalPoll))
  case usbTransferEnd => exact .next (h.clocked (·.usbTransferEnd))
  case usbPortReset => exact .next (h.clocked (·.usbPortReset))
  case usbPortResetEnd => exact .next (h.clocked (·.usbPortResetEnd))
  case usbSuspend => exact .next (h.clocked (·.usbSuspend))
  case usbResume => exact .next (h.clocked (·.usbResume))
  case usbConnectChange => exact .next (h.clocked (·.usbConnectChange))
  case usbOvercurrent => exact .next (h.clocked (·.usbOvercurrent))
  case fire => exact .next h.fire
  case pulseEnd => exact .next h.pulseEnd
  case drawerSenseChange => exact .next h.drawerSense
  case gpioEdge => exact .next h.gpioEdge
  case gioSet => exact .next h.gioSet
  case gioClr => exact .next h.gioClr
  case stnLioevWrite => exact .out h.noted.reserved.lioevWrite
  case chainBoot => exact .next h.chainBootIn
  case flashErase => exact .next h.bootErase
  case flashProgram => exact .next h.bootProgram
  case bootFlashOpEnd => exact .next h.bootOpEnd
  case hashInit | hashUpdate | hashFinal | verify | sign | auth | random =>
    exact .next h.vaultStart
  case gvAbort => exact .next (h.reacting (·.vaultAbort))
  case vaultCommandEnd => exact .next h.vaultDone
  case tileLostNotice => exact .out h.noted.tileLostNotice
  case tileRestartNotice => exact .out h.noted.tileRestartNotice
  case tileLfixGo => exact .out h.noted.reserved.lfixWrite
  case lineReloadEnd => exact .next h.lineReloadEnd
  case lineFaultNotice => exact .out h.noted.lineFaultNotice
  case memFaultNotice => exact .out h.noted.memFaultNotice
  case netFaultNotice => exact .out h.noted.netFaultNotice
  case lockstepDivergence => exact .next (h.clocked (·.divergence))
  case wrst => exact .next (h.clocked (·.warmRestart))
  case peerWatchArm => exact .next h.peerWatchArm
  case peerWatchPoll => exact .next h.peerWatchPoll
  case thermalSample => exact .next h.thermalSample
  case thermtrip => exact .next h.thermtrip
  case cprAvsWrite => exact .out h.noted.reservedIf.avsWrite
  case vidStep => exact .next h.vidStep
  case cprGateWrite => exact .out h.noted.reservedIf.gateWrite
  case powerOnReset => exact .next h.powerOn
  case sysrst | rstDev =>
    exact .next h.requestReset
  case rstChain => exact .next (h.clocked (·.chainPortReset))
  case clockLoss => exact .next h.clockLoss
  case deviceResetAssert => exact .next h.resetAssert
  case resetRelease => exact .next h.resetRelease
  case bypass => exact .next h.tapBypass
  case idcode => exact .next h.tapIdcode
  case samplePreload => exact .next h.tapSample
  case extest => exact .next h.tapExtest
  case tsel => exact .next h.tapSel
  case tread => exact .next h.tapRead
  case thalt => exact .next h.tapHalt
  case registerWrite => exact .out (h.noted.reacting (·.registerWrite))
  case startOfTransmission => exact .next h.startOfTx
  case packetHeaderError => exact .next h.headerError
  case vexcRangeChange => exact .next h.setFld
  case wireReconnect => exact .next h.wireReconnect
  case senseFaultEnd => exact .next h.senseFaultEnd
  case lresetFall => exact .next h.lresetFall
  case sfpModuleChange => exact .next h.sfpChange
  case pcieLinkChange => exact .next h.pcieLinkChange
  case memoryNodeBankAccess => exact .next h.nodeBankAccess

theorem step_canon {u : State} (h : s.Canon) (e : step s = .next u) : u.Canon := by
  unfold step at e
  split at e
  · cases e
    exact h.tick
  next c rest _ =>
    have k := exec_canon (s := { s with pending := rest }) (h.frame rfl rfl rfl) c
    rw [e] at k
    exact k

end Sys2Proof.Machine
end

section
open Sys2Proof Sys2Proof.Machine

/-- Settles O58: after reset nothing is listed in memory, registers or flash. -/
theorem canonicalFormAtReset : Obligations.CanonicalFormAtReset := State.reset_canon

/-- Settles O59: a step changes memory, registers and flash by updates of sparse maps alone, each of which keeps the form. -/
theorem canonicalFormKept : Obligations.CanonicalFormKept := by
  unfold Obligations.CanonicalFormKept
  intro s u hmem hreg hflash e
  exact step_canon ⟨hmem, hreg, hflash⟩ e
end

/-! SUPPORT. Fields of a word: what bits, numbers and further fields read after one is written; and registers whose fields are written. -/

section
namespace Sys2Proof.Machine

/-! ### Fields of a word -/

section
variable {n : Nat} (x : BitVec n) (lo w v : Nat)

theorem getLsbD_put (i : Nat) :
    (put x lo w v).getLsbD i = if lo ≤ i ∧ i < lo + w then decide (i < n) && v.testBit (i - lo) else x.getLsbD i := by
  have inside : ((2 ^ w - 1) * 2 ^ lo).testBit i = decide (lo ≤ i ∧ i < lo + w) := by
    rw [Nat.testBit_mul_two_pow, Nat.testBit_two_pow_sub_one]
    by_cases h : lo ≤ i
    · simp [h, show i - lo < w ↔ i < lo + w by omega]
    · simp [h]
  have value : (v % 2 ^ w * 2 ^ lo).testBit i = (decide (lo ≤ i ∧ i < lo + w) && v.testBit (i - lo)) := by
    rw [Nat.testBit_mul_two_pow, Nat.testBit_mod_two_pow]
    by_cases h : lo ≤ i
    · simp [h, show i - lo < w ↔ i < lo + w by omega]
    · simp [h]
  simp only [put, ones, BitVec.getLsbD_or, BitVec.getLsbD_and, BitVec.getLsbD_not, BitVec.getLsbD_ofNat, inside, value]
  by_cases hi : i < n
  · split
    next h => simp [h, hi]
    next h => simp [h, hi]
  · simp [hi, BitVec.getLsbD_of_ge x i (by omega)]

theorem nat_eq_toNat : nat x lo w = x.toNat / 2 ^ lo % 2 ^ w := by
  rw [nat, BitVec.extractLsb'_toNat, Nat.shiftRight_eq_div_pow]

/-- A field reads the low bits of what was written to it. -/
theorem nat_put_same (h : lo + w ≤ n) : nat (put x lo w v) lo w = v % 2 ^ w := by
  refine Nat.eq_of_testBit_eq fun i => ?_
  rw [nat, BitVec.testBit_toNat, BitVec.getLsbD_extractLsb', getLsbD_put, Nat.testBit_mod_two_pow]
  by_cases hi : i < w
  · simp [hi, show lo + i < n by omega]
  · simp [hi]

/-- A field reads the same after a write to another. -/
theorem nat_put_of_disjoint {lo' w' : Nat} (h : lo + w ≤ lo' ∨ lo' + w' ≤ lo) : nat (put x lo w v) lo' w' = nat x lo' w' := by
  refine congrArg BitVec.toNat (BitVec.eq_of_getLsbD_eq fun i hi => ?_)
  rw [BitVec.getLsbD_extractLsb', BitVec.getLsbD_extractLsb', getLsbD_put, if_neg (by omega)]

/-- Two fields can be written in either order. -/
theorem put_comm {lo' w' : Nat} (v' : Nat) (h : lo + w ≤ lo') : put (put x lo w v) lo' w' v' = put (put x lo' w' v') lo w v := by
  refine BitVec.eq_of_getLsbD_eq fun i _ => ?_
  rw [getLsbD_put, getLsbD_put, getLsbD_put, getLsbD_put]
  split
  · rw [if_neg (by omega)]
  · rfl

/-- A write to a field that lies in one written later leaves nothing. -/
theorem put_put_of_within {lo' w' : Nat} (v' : Nat) (h : lo' ≤ lo) (h' : lo + w ≤ lo' + w') :
    put (put x lo w v) lo' w' v' = put x lo' w' v' := by
  refine BitVec.eq_of_getLsbD_eq fun i _ => ?_
  rw [getLsbD_put, getLsbD_put, getLsbD_put]
  split
  · rfl
  · rw [if_neg (by omega)]

end

/-! ### Registers whose fields are written -/

section
variable {s : State}

theorem State.reg_setFld_same (h : Registers.wf s = true) (a lo w v : Nat) : (s.setFld a lo w v).reg a = put (s.reg a) lo w v :=
  s.reg_setReg_same a _ h

theorem State.reg_bump_same (h : Registers.wf s = true) (a n : Nat) : (s.bump a n).reg a = s.reg a + BitVec.ofNat 32 n :=
  s.reg_setReg_same a _ h

end

end Sys2Proof.Machine
end

/-! SUPPORT. A station's tiles taken together, its divisor, and how a frozen or stopping network lets go (01 R33; 07 R213; 16 R441). -/

section
namespace Sys2Proof.Machine

variable {s : State} {st : Stn}

/-! ### Addresses of a station's registers -/

@[simp] theorem stnReg_inj {a b : Nat} : stnReg st a = stnReg st b ↔ a = b := by
  unfold stnReg
  omega

/-- The divisor's settings are no register of a station. -/
theorem thsReg_ne_stnReg {o : Nat} (h : o < 0x1000000) : thsReg st ≠ stnReg st o := by
  unfold thsReg cpr devReg stnReg stnBase
  omega

/-! ### The same change of all tiles -/

@[simp] theorem State.modTile_id (t : TileNo) : s.modTile st t (fun T => T) = s := by
  simp [State.modTile, State.setTile, State.tile]

/-- A change made to several tiles leaves all but the tiles. -/
theorem State.foldl_modTile_eq (g : Tile → Tile) (l : List TileNo) :
    l.foldl (fun s t => s.modTile st t g) s = { s with tiles := (l.foldl (fun s t => s.modTile st t g) s).tiles } := by
  induction l generalizing s with
  | nil => rfl
  | cons t l ih =>
    rw [List.foldl_cons, ih]
    rfl

/-- Each of the tiles is changed once, and no other. -/
theorem State.tile_foldl_modTile (g : Tile → Tile) {l : List TileNo} (h : l.Nodup) (y : TileNo) :
    (l.foldl (fun s t => s.modTile st t g) s).tile st y = if y ∈ l then g (s.tile st y) else s.tile st y := by
  induction l generalizing s with
  | nil => simp
  | cons t l ih =>
    obtain ⟨fresh, h⟩ := List.nodup_cons.1 h
    rw [List.foldl_cons, ih h]
    by_cases e : y = t
    · subst e
      simp [fresh]
    · have : (s.modTile st t g).tile st y = s.tile st y := s.tile_setTile_of_ne st st t y _ (by simp [e])
      simp [e, this]

theorem State.tile_foldl_modTile_of_ne (g : Tile → Tile) (l : List TileNo) {x : Stn} (h : x ≠ st) (y : TileNo) :
    (l.foldl (fun s t => s.modTile st t g) s).tile x y = s.tile x y := by
  induction l generalizing s with
  | nil => rfl
  | cons t l ih =>
    rw [List.foldl_cons, ih]
    exact s.tile_setTile_of_ne st x t y _ (by simp [h])

/-! ### Tiles that are asked to stop (05 R168) -/

/-- A tile once its stop is requested: a self-test is abandoned, a running tile stops at its next boundary. -/
def Tile.asked (T : Tile) : Tile :=
  match T.run with
  | .running => { T with stopReq := true }
  | .selfTest => { T with run := .stopped }
  | _ => T

theorem Tile.asked_of_still {T : Tile} (h : T.run ≠ .running) (k : T.run ≠ .selfTest) : T.asked = T := by
  unfold Tile.asked
  split
  next e => exact absurd e h
  next e => exact absurd e k
  next => rfl

theorem State.tileStopRequest_eq (s : State) (st : Stn) (t : TileNo) : s.tileStopRequest st t = s.modTile st t Tile.asked := by
  unfold State.tileStopRequest
  split
  next h => simp [State.modTile, Tile.asked, h]
  next h => simp [State.modTile, Tile.asked, h]
  next h k =>
    rw [State.modTile, Tile.asked_of_still h k]
    exact (modTile_id t).symm

/-- Every tile of the station is asked, and nothing else changes. -/
theorem State.stopTiles_spec (s : State) (st : Stn) :
    (∀ t, (s.stopTiles st).tile st t = (s.tile st t).asked) ∧ s.stopTiles st = { s with tiles := (s.stopTiles st).tiles } ∧
      ∀ x, x ≠ st → ∀ t, (s.stopTiles st).tile x t = s.tile x t := by
  have e : s.stopTiles st = (List.finRange 40).foldl (fun s t => s.modTile st t Tile.asked) s :=
    congrArg (fun f => (List.finRange 40).foldl f s) (funext₂ fun s t => s.tileStopRequest_eq st t)
  rw [e]
  refine ⟨fun t => ?_, foldl_modTile_eq Tile.asked _, fun x hx => tile_foldl_modTile_of_ne Tile.asked _ hx⟩
  rw [tile_foldl_modTile _ (List.nodup_finRange 40), if_pos (List.mem_finRange t)]

/-! ### The divisor, and the network let go (07 R213; 16 R441) -/

theorem State.minDiv_eq (s : State) (st : Stn) : s.minDiv st = min 2 ((s.reg (devReg 1 (0x20 + 4 * st.val))).toNat / 16 % 4) :=
  congrArg (min 2) (nat_eq_toNat _ 4 2)

/-- The minimum comes from the divisor's settings alone. -/
theorem State.minDiv_congr {u : State} (h : u.reg (thsReg st) = s.reg (thsReg st)) : u.minDiv st = s.minDiv st :=
  congrArg (fun r => min 2 (nat r 4 2)) h

theorem State.minDiv_setFld {o : Nat} (h : o < 0x1000000) (lo w v : Nat) : (s.setFld (stnReg st o) lo w v).minDiv st = s.minDiv st :=
  minDiv_congr (s.reg_setFld_of_ne _ _ _ _ _ (thsReg_ne_stnReg h))

theorem put_why (r : W32) : put r 27 5 0 = r &&& 0x07FFFFFF := by
  simp [put, ones]

theorem put_divisor (r : W32) {d : Nat} (h : d < 4) :
    put (r &&& 0x07FFFFFF) 25 2 d = (r &&& (0x01FFFFFF : W32)) ||| (BitVec.ofNat 32 d <<< 25) := by
  have mask : (0x07FFFFFF : W32) &&& ~~~(ones 25 2) = 0x01FFFFFF := by decide
  have value : BitVec.ofNat 32 (d % 2 ^ 2 * 2 ^ 25) = BitVec.ofNat 32 d <<< 25 := by interval_cases d <;> rfl
  rw [put, BitVec.and_assoc, mask, value]

theorem put_fixPending (r : W32) : put r 30 1 0 = r &&& 0xBFFFFFFF := by
  simp [put, ones]

/-- STN_NET_STAT of a network that is no longer frozen: WHY is clear, and the divisor is the one that was due, if one was. -/
def netStatFreed (r : W32) (due : Option (BitVec 2)) (least : Nat) : W32 :=
  match due with
  | none => r &&& 0x07FFFFFF
  | some d => (r &&& (0x01FFFFFF : W32)) ||| (BitVec.ofNat 32 (max least d.toNat) <<< 25)

theorem max_divisor_lt {least : Nat} (h : least ≤ 2) (d : BitVec 2) : max least d.toNat < 4 := by
  have := d.isLt
  omega

theorem State.minDiv_le (s : State) (st : Stn) : s.minDiv st ≤ 2 := Nat.min_le_left ..

/-- Two changes of registers alone are one. -/
theorem onlyRegs_trans {s v u : State} (h : u = { v with regs := u.regs }) (k : v = { s with regs := v.regs }) :
    u = { s with regs := u.regs } := by
  rw [h, k]

theorem State.setFld_onlyRegs (s : State) (a lo w v : Nat) : s.setFld a lo w v = { s with regs := (s.setFld a lo w v).regs } := rfl

theorem State.takeDivisor_onlyRegs (s : State) (st : Stn) : s.takeDivisor st = { s with regs := (s.takeDivisor st).regs } := by
  obtain ⟨r, e⟩ := s.takeDivisor_eq st
  rw [e]

/-- The divisor that is due, taken once WHY is clear. -/
theorem State.reg_takeDivisor_freed {r : W32} (hw : Registers.wf s = true) (h : s.reg (aNetStat st) = r &&& 0x07FFFFFF) :
    (s.takeDivisor st).reg (aNetStat st) = netStatFreed r (s.stn st).dueDiv (s.minDiv st) := by
  cases due : (s.stn st).dueDiv with
  | none => simp [State.takeDivisor, due, netStatFreed, h]
  | some d => rw [takeDivisor_due due, reg_setFld_same hw, h, put_divisor r (max_divisor_lt (s.minDiv_le st) d), netStatFreed]

end Sys2Proof.Machine
end

/-! SUPPORT. Stopping and failing of a station, and the end of a stop (01 R33). -/

section
namespace Sys2Proof.Machine

variable {s : State} {st : Stn}

theorem Station.applyFixes_none {S : Station} (h : S.fixes = []) (k : S.fix = none) : S.applyFixes = S := by
  unfold Station.applyFixes
  cases S
  cases h
  cases k
  rfl

/-- A stop ends where the requests are answered, no repair is due and no tile's stop is left: the network lets go, and with it a divisor
that is due takes effect. -/
theorem State.stationStopEnd_done {fails : Bool} (phase : (s.stn st).phase = .stopping fails) (answered : s.answered st = true)
    (repairs : (s.stn st).repairs = []) (now : (s.stn st).repairNow = none) (stops : ∀ t, (s.tile st t).stopReq = false) :
    s.stationStopEnd st = (((s.setFld (stnReg st 0x418) 30 1 0).setFld (aNetStat st) 27 5 0).takeDivisor st).modStn st fun S =>
      { S.applyFixes with
        phase := .none, frozen := false, halted := false, dueDiv := none, run := if fails then .failed else .stopped } := by
  have none_stops : (List.finRange 40).foldl (fun s t => if (s.tile st t).stopReq then s.takeStop st t else s) s = s :=
    List.foldl_fixed' (by simp [stops]) _
  unfold State.stationStopEnd
  simp only [phase, answered, repairs, now, none_stops]
  rfl

theorem State.stationStopEnd_waits {fails : Bool} (phase : (s.stn st).phase = .stopping fails) (answered : s.answered st = false) :
    s.stationStopEnd st = s := by
  unfold State.stationStopEnd
  simp [phase, answered]

theorem State.hallStopEnd_quiet (h : (s.stationStopEnd st).hall.run ≠ .firmware) : s.hallStopEnd st = s.stationStopEnd st := by
  simp [State.hallStopEnd, h]

/-- The registers of a network that lets go as a stop ends. -/
theorem State.networkFreed (s : State) (st : Stn) (hw : Registers.wf s = true) :
    let u := ((s.setFld (stnReg st 0x418) 30 1 0).setFld (aNetStat st) 27 5 0).takeDivisor st
    u.reg (aNetStat st) = netStatFreed (s.reg (aNetStat st)) (s.stn st).dueDiv (s.minDiv st) ∧
      u.reg (stnReg st 0x418) = s.reg (stnReg st 0x418) &&& 0xBFFFFFFF ∧
      (∀ a, a ≠ aNetStat st → a ≠ stnReg st 0x418 → u.reg a = s.reg a) ∧ u = { s with regs := u.regs } := by
  have fix_ne : stnReg st 0x418 ≠ aNetStat st := by simp [aNetStat]
  have stat_ne : aNetStat st ≠ stnReg st 0x418 := fix_ne.symm
  have pend_wf := setFld_wf s (stnReg st 0x418) 30 1 0 hw
  have wf := setFld_wf _ (aNetStat st) 27 5 0 pend_wf
  have stat : ((s.setFld (stnReg st 0x418) 30 1 0).setFld (aNetStat st) 27 5 0).reg (aNetStat st) =
      s.reg (aNetStat st) &&& 0x07FFFFFF := by
    rw [reg_setFld_same pend_wf, reg_setFld_of_ne _ _ _ _ _ _ stat_ne, put_why]
  have least : ((s.setFld (stnReg st 0x418) 30 1 0).setFld (aNetStat st) 27 5 0).minDiv st = s.minDiv st := by
    rw [aNetStat, minDiv_setFld (by decide), minDiv_setFld (by decide)]
  refine ⟨?_, ?_, fun a ha hb => ?_, ?_⟩
  · rw [reg_takeDivisor_freed wf stat, least, setFld_stn, setFld_stn]
  · rw [reg_takeDivisor_of_ne _ _ fix_ne, reg_setFld_of_ne _ _ _ _ _ _ fix_ne, reg_setFld_same hw, put_fixPending]
  · rw [reg_takeDivisor_of_ne _ _ ha, reg_setFld_of_ne _ _ _ _ _ _ ha, reg_setFld_of_ne _ _ _ _ _ _ hb]
  · exact onlyRegs_trans (takeDivisor_onlyRegs _ st) (onlyRegs_trans (setFld_onlyRegs ..) (setFld_onlyRegs ..))

/-- The state in which a stop ends. -/
theorem State.stationStopEnd_spec {fails : Bool} (phase : (s.stn st).phase = .stopping fails) (answered : s.answered st = true)
    (repairs : (s.stn st).repairs = []) (now : (s.stn st).repairNow = none) (stops : ∀ t, (s.tile st t).stopReq = false)
    (fixes : (s.stn st).fixes = []) (fix : (s.stn st).fix = none) (hw : Registers.wf s = true) :
    let u := s.stationStopEnd st
    u.stn st = { s.stn st with
        phase := .none, frozen := false, halted := false, dueDiv := none, run := if fails then .failed else .stopped } ∧
      u.reg (aNetStat st) = netStatFreed (s.reg (aNetStat st)) (s.stn st).dueDiv (s.minDiv st) ∧
      u.reg (stnReg st 0x418) = s.reg (stnReg st 0x418) &&& 0xBFFFFFFF ∧
      (∀ a, a ≠ aNetStat st → a ≠ stnReg st 0x418 → u.reg a = s.reg a) ∧ u = { s with regs := u.regs, stns := u.stns } ∧
      ∀ x, x ≠ st → u.stn x = s.stn x := by
  obtain ⟨stat, pending, others, only⟩ := s.networkFreed st hw
  have stn : (((s.setFld (stnReg st 0x418) 30 1 0).setFld (aNetStat st) 27 5 0).takeDivisor st).stns = s.stns := by rw [only]
  rw [stationStopEnd_done phase answered repairs now stops]
  refine ⟨?_, stat, pending, others, ?_, fun x hx => ?_⟩
  · rw [stn_modStn, State.stn, stn]
    exact congrArg (fun S : Station => { S with
      phase := .none, frozen := false, halted := false, dueDiv := none, run := if fails then .failed else .stopped })
      (Station.applyFixes_none fixes fix)
  · rw [only]
    rfl
  · rw [State.modStn, stn_setStn_of_ne _ _ _ _ hx, State.stn, stn]
    rfl

/-- The Hall has no part in the end of a stop while its firmware does not run. -/
theorem exec_stationStopEnd {u : State} (h : s.noted.stationStopEnd st = u) (hall : u.hall.run ≠ .firmware) (undef : u.undef = false) :
    exec (.stationStopEnd st) s = .next u := by
  subst h
  show (s.noted.hallStopEnd st).out = _
  rw [State.hallStopEnd_quiet hall, State.out, undef]
  rfl

/-! ### STOP and FAIL -/

theorem exec_stnRunStop (s : State) (st : Stn) : exec (.stnRunStop st) s = .next (((s.stnRunStop st).hallReact s).pcieResume) := rfl
theorem exec_stnRunFail (s : State) (st : Stn) : exec (.stnRunFail st) s = .next (((s.stnRunFail st).hallReact s).pcieResume) := rfl

theorem State.stnRunStop_failed (run : (s.stn st).run = .failed) : s.stnRunStop st = s.setStn st { s.stn st with run := .stopped } := by
  simp [State.stnRunStop, run]
theorem State.stnRunStop_running (run : (s.stn st).run = .running) (phase : (s.stn st).phase = .none) :
    s.stnRunStop st = (s.stopTiles st).modStn st fun S => { S with phase := .stopping false } := by
  simp [State.stnRunStop, run, phase]
theorem State.stnRunStop_stopped (run : (s.stn st).run = .stopped) : s.stnRunStop st = s := by
  simp [State.stnRunStop, run]
theorem State.stnRunStop_busy (run : (s.stn st).run ≠ .failed) (phase : (s.stn st).phase ≠ .none) : s.stnRunStop st = s := by
  unfold State.stnRunStop
  dsimp only
  split
  next h => exact absurd h run
  next h => exact absurd h phase
  next => rfl

theorem State.stnRunFail_stopping {fails : Bool} (phase : (s.stn st).phase = .stopping fails) :
    s.stnRunFail st = s.setStn st { s.stn st with phase := .stopping true } := by
  simp [State.stnRunFail, phase]
theorem State.stnRunFail_starting (phase : (s.stn st).phase = .starting) : s.stnRunFail st = s := by
  simp [State.stnRunFail, phase]
theorem State.stnRunFail_running (run : (s.stn st).run = .running) (phase : (s.stn st).phase = .none) :
    s.stnRunFail st = (s.stopTiles st).modStn st fun S => { S with phase := .stopping true } := by
  simp [State.stnRunFail, run, phase]
theorem State.stnRunFail_failed (run : (s.stn st).run = .failed) (phase : (s.stn st).phase = .none) : s.stnRunFail st = s := by
  simp [State.stnRunFail, run, phase]
theorem State.stnRunFail_stopped (run : (s.stn st).run = .stopped) (phase : (s.stn st).phase = .none) :
    s.stnRunFail st = if s.fitted st then s.setStn st { s.stn st with run := .failed } else s := by
  simp [State.stnRunFail, run, phase]

/-- STOP of a running station asks its tiles to stop, as does FAIL. -/
theorem State.stopTiles_asked (s : State) (st : Stn) (fails : Bool) :
    let u := (s.stopTiles st).modStn st fun S => { S with phase := .stopping fails }
    u.stn st = { s.stn st with phase := .stopping fails } ∧ (∀ t, u.tile st t = (s.tile st t).asked) ∧
      u = { s with tiles := u.tiles, stns := u.stns } ∧ ∀ x, x ≠ st → u.stn x = s.stn x ∧ ∀ t, u.tile x t = s.tile x t := by
  obtain ⟨tiles, only, others⟩ := s.stopTiles_spec st
  have stns : (s.stopTiles st).stns = s.stns := by rw [only]
  generalize s.stopTiles st = v at tiles only others stns
  refine ⟨?_, tiles, ?_, fun x hx => ⟨?_, others x hx⟩⟩
  · rw [stn_modStn, State.stn, stns]
    rfl
  · rw [only]
    rfl
  · rw [State.modStn, stn_setStn_of_ne _ _ _ _ hx, State.stn, stns]
    rfl

end Sys2Proof.Machine
end

section
open Sys2Proof Sys2Proof.Machine

/-- Settles O25, from what STOP and FAIL do in each state of the station and what the end of a stop leaves. -/
theorem stationStops : Obligations.StationStops := by
  unfold Obligations.StationStops
  intro s st S asked sets same
  have asks (fails : Bool) :
      asked fails (.next ((((s.stopTiles st).modStn st fun S => { S with phase := .stopping fails }).hallReact s).pcieResume)) :=
    ⟨_, rfl, s.stopTiles_asked st fails⟩
  refine ⟨fun run => ?_, fun phase => ⟨fun run => ⟨?_, ?_⟩, fun run => ?_, fun run => ⟨?_, ?_⟩⟩, fun phase => ?_,
    fun f phase => ⟨?_, ?_, ?_⟩, fun phase run => ?_⟩
  · rw [exec_stnRunStop, State.stnRunStop_failed run]
  · rw [exec_stnRunStop, State.stnRunStop_running run phase]
    exact asks false
  · rw [exec_stnRunFail, State.stnRunFail_running run phase]
    exact asks true
  · rw [exec_stnRunFail, State.stnRunFail_failed run phase]
  · rw [exec_stnRunStop, State.stnRunStop_stopped run]
  · rw [exec_stnRunFail, State.stnRunFail_stopped run phase]
    split <;> rfl
  · rw [exec_stnRunFail, State.stnRunFail_starting phase]
  · rw [exec_stnRunFail, State.stnRunFail_stopping phase]
  · intro repairs now fixes fix answered hall stops hw least
    obtain ⟨stn, stat, pending, others, only, rest⟩ :=
      State.stationStopEnd_spec (s := s.noted) phase answered repairs now stops fixes fix hw
    refine ⟨_, exec_stationStopEnd rfl ?_ ?_, stn, ?_, pending, others, only, rest⟩
    · rw [only]
      exact hall
    · rw [only]
      rfl
    · rw [State.minDiv_eq] at stat
      exact stat
  · exact fun answered hall => exec_stationStopEnd (State.stationStopEnd_waits phase answered) hall rfl
  · rw [exec_stnRunStop, State.stnRunStop_busy run phase]
end

/-! SUPPORT. A frozen network: no word moves in it, and under a debug halt no tile of its station goes on (07 R213). -/

section
namespace Sys2Proof.Machine

variable {s : State} {st : Stn} {t : TileNo}

/-! ### Words of a frozen network -/

section
variable (frozen : (s.stn st).frozen = true)
include frozen

theorem State.netLive_frozen : s.netLive st = false := by
  simp [State.netLive, frozen]

theorem State.slotCycle_frozen (slot : Nat) : s.slotCycle st slot = none := by
  simp [State.slotCycle, netLive_frozen frozen]

theorem State.arrivingWord_frozen (n slot : Nat) : s.arrivingWord st n slot = none := by
  simp [State.arrivingWord, netLive_frozen frozen]

theorem State.channelInject_frozen (c : Fin 8) (slot : Nat) : s.channelInject st t c slot = s := by
  simp [State.channelInject, slotCycle_frozen frozen]

theorem State.creditInject_frozen (c : Fin 8) (slot : Nat) : s.creditInject st t c slot = s := by
  simp [State.creditInject, slotCycle_frozen frozen]

theorem State.linkWordHop_frozen (sel slot : Nat) (found : LinkUpset) : s.linkWordHop st sel slot found = s := by
  unfold State.linkWordHop
  dsimp only
  split
  · simp [slotCycle_frozen frozen]
  · simp [netLive_frozen frozen]

theorem State.channelDataDeliver_frozen (slot : Nat) : s.channelDataDeliver st t slot = s := by
  simp [State.channelDataDeliver, arrivingWord_frozen frozen]

theorem State.creditDeliver_frozen (slot : Nat) : s.creditDeliver st t slot = s := by
  simp [State.creditDeliver, arrivingWord_frozen frozen]

theorem State.mailboxDeliver_frozen (n slot : Nat) : s.mailboxDeliver st n slot = s := by
  simp [State.mailboxDeliver, arrivingWord_frozen frozen]

theorem State.queueWordIn_frozen (n m slot : Nat) : s.queueWordIn st n m slot = (s, none) := by
  simp [State.queueWordIn, arrivingWord_frozen frozen]

theorem State.queueArrival_frozen (node : Fin 9) (slot : Nat) : s.queueArrival st t node slot = s := by
  simp [State.queueArrival, queueWordIn_frozen frozen]

theorem State.queueResponse_frozen (node : Fin 9) (slot : Nat) : s.queueResponse st t node slot = s := by
  simp [State.queueResponse, queueWordIn_frozen frozen]

end

/-! ### Tiles under a debug halt -/

theorem State.haltFrozen_of_halted (frozen : (s.stn st).frozen = true) (halted : (s.stn st).halted = true) : s.haltFrozen st = true := by
  simp [State.haltFrozen, frozen, halted]

section
variable (held : s.haltFrozen st = true)
include held

theorem State.operationComplete_held (u : UnitId) : s.operationComplete st t u = s := by
  simp [State.operationComplete, held]

theorem State.trigger_held (seg : Option (Fin 8)) (x : Trig) (b : W64) : s.trigger st t seg x b = s := by
  simp [State.trigger, held]

/-- A transfer that is not triggered leaves the tile no pending transfer it had not. -/
theorem State.transfer_held (x : Trig) (b : W64) : s.transfer st t x b = s := by
  rw [State.transfer, trigger_held held, State.modTile, if_neg (fun h => h.2.1 h.2.2)]
  exact modTile_id t

theorem State.windowEnd_held : s.windowEnd st t = s := by
  simp [State.windowEnd, held]

theorem State.walkSample_held (meet : Meet) : s.walkSample st t meet = s := by
  simp [State.walkSample, held]

theorem State.elementIssue_held (k : Fin 4) : s.elementIssue st t k = s := by
  unfold State.elementIssue
  dsimp only
  split
  · rfl
  · simp [held]

theorem State.storeElementSend_held (k : Fin 4) : s.storeElementSend st t k = s := by
  unfold State.storeElementSend
  dsimp only
  split
  · rfl
  · simp [held]

theorem State.blockIssue_held (k : Fin 4) (out : Bool) (meet : Meet) : s.blockIssue st t k out meet = s := by
  unfold State.blockIssue
  dsimp only
  split
  · rfl
  · simp [held]

theorem State.blockDone_held (k : Fin 4) (out : Bool) (meet : Meet) : s.blockDone st t k out meet = s := by
  unfold State.blockDone
  dsimp only
  split
  · rfl
  · split
    · rfl
    · simp [held]

theorem State.lineFill_held : s.lineFill st t = s := by
  unfold State.lineFill
  dsimp only
  split
  · rfl
  · simp [held]

theorem State.takeComplete_held : s.takeComplete st t = s := by
  simp [State.takeComplete, held]

end

end Sys2Proof.Machine
end

/-! SUPPORT. Frame boundaries, frozen frames, the scrubber of the slot tables and their rewrites (07 R195, R212 to R214, R218). -/

section
namespace Sys2Proof.Machine

variable {s : State} {st : Stn}

theorem setStn_wf (S : Station) (h : Registers.wf s = true) : Registers.wf (s.setStn st S) = true := h
theorem modStn_wf (f : Station → Station) (h : Registers.wf s = true) : Registers.wf (s.modStn st f) = true := h

/-! ### STN_NET_STAT -/

theorem regReset_netStat : ∀ st : Stn, regReset (aNetStat st) = 0 := by decide
theorem rsv_netFix : ∀ st : Stn, ((regInfo (stnReg st 0x418)).map RegInfo.rsv).getD 0 = 0x3800FC00 := by decide

/-- A write that a register does not hold at reset is read back, whatever the form of the map. -/
theorem State.reg_setReg_listed {a : Nat} {v : W32} (h : v ≠ regReset a) : (s.setReg a v).reg a = v := by
  rw [State.reg, State.setReg_regs, smSet, if_neg h, smGet_insert, if_pos rfl]

theorem put_frozen_ne_zero (r : W32) : put r 31 1 1 ≠ 0 := by
  have set : (put r 31 1 1).getLsbD 31 = true := by
    rw [getLsbD_put]
    rfl
  intro h
  rw [h] at set
  exact absurd set (by decide)

/-- Writing a field the value it has changes nothing. -/
theorem put_nat_self {n : Nat} (x : BitVec n) (lo w : Nat) : put x lo w (nat x lo w) = x := by
  refine BitVec.eq_of_getLsbD_eq fun i hi => ?_
  rw [getLsbD_put]
  split
  next h =>
    rw [nat, BitVec.testBit_toNat, BitVec.getLsbD_extractLsb']
    simp [hi, show i - lo < w by omega, show lo + (i - lo) = i by omega]
  next => rfl

theorem put_frozen_repair (r : W32) : put (put r 31 1 1) 29 1 1 = r ||| 0xA0000000 := by
  refine BitVec.eq_of_getLsbD_eq fun i hi => ?_
  rw [getLsbD_put, getLsbD_put, BitVec.getLsbD_or]
  interval_cases i <;> simp

/-! ### A frame boundary (07 R195, R212) -/

/-- The station as the next frame begins. -/
def State.nextFrame (s : State) (st : Stn) : Station :=
  let base := (s.stn st).frameBase + s.netLen st
  { s.stn st with frameBase := base, cycle := max (s.stn st).cycle base }

/-- The station with its network frozen. -/
def Station.freeze (S : Station) (halt : Bool) : Station := { S with frozen := true, halted := halt }

/-- The state as a frame begins frozen, before what is due is carried out. -/
def State.frozenFrame (s : State) (st : Stn) (halt : Bool) : State :=
  ((s.bump (stnReg st 0x408) 1).setStn st ((s.nextFrame st).freeze halt)).setFld (aNetStat st) 31 1 1

section
variable (run : (s.stn st).run = .running) (unfrozen : (s.stn st).frozen = false)
  (settled : (s.stn st).settled ((s.stn st).frameBase + s.netLen st) = true)
include run unfrozen settled

/-- The next frame is frozen if anything is due. -/
theorem State.frameBoundary_live :
    s.frameBoundary st =
      if (s.stn st).fixDue || (s.stn st).dueDiv.isSome || !(s.stn st).repairs.isEmpty || s.rbit (aNetCtrl st) 31 then
        (s.frozenFrame st (s.rbit (aNetCtrl st) 31)).freezeWork st
      else (s.bump (stnReg st 0x408) 1).setStn st (s.nextFrame st) := by
  have live : s.netLive st = true := by simp [State.netLive, run, unfrozen]
  unfold State.frameBoundary
  dsimp only
  rw [if_neg (by simp [live, settled])]
  rfl

theorem State.frameBoundary_begins (halt : s.rbit (aNetCtrl st) 31 = false) (fixes : (s.stn st).fixes = []) (fix : (s.stn st).fix = none)
    (due : (s.stn st).dueDiv = none) (repairs : (s.stn st).repairs = []) :
    s.frameBoundary st = (s.bump (stnReg st 0x408) 1).setStn st (s.nextFrame st) := by
  rw [frameBoundary_live run unfrozen settled]
  simp [Station.fixDue, halt, fixes, fix, due, repairs]

theorem State.frameBoundary_freezes (halt : s.rbit (aNetCtrl st) 31 = false) (due : (s.stn st).fixes ≠ [] ∨ (s.stn st).repairs ≠ []) :
    s.frameBoundary st = (s.frozenFrame st false).freezeWork st := by
  rw [frameBoundary_live run unfrozen settled, halt, if_pos]
  rcases due with due | due <;> simp [Station.fixDue, due]

end

/-- With no repair due, none begins. -/
theorem State.beginRepair_none (h : (s.stn st).repairs = []) : s.beginRepair st = s := by
  simp [State.beginRepair, h]

/-- A freeze begins one repair. -/
theorem State.beginRepair_begun (h : s.rbit (aNetStat st) 29 = true) : s.beginRepair st = s := by
  simp [State.beginRepair, h]

theorem State.beginRepair_first {r : Fin 8 × Fin 6} {rest : List (Fin 8 × Fin 6)} (frozen : (s.stn st).frozen = true)
    (unbegun : s.rbit (aNetStat st) 29 = false) (h : (s.stn st).repairs = r :: rest) :
    s.beginRepair st = (s.setStn st { s.stn st with
      repairNow := some r, repairs := rest, closed := r.1 :: (s.stn st).closed }).setFlag (aNetStat st) 29 := by
  simp [State.beginRepair, frozen, unbegun, h]

/-! ### A correction due at the boundary -/

theorem Station.setEntry_fix (S : Station) (k : Nat) (v : BitVec 11) : (S.setEntry k v).fix = S.fix := by
  unfold Station.setEntry
  split <;> rfl

theorem Station.applyFixes_one {S : Station} {x : Nat × BitVec 11} (h : S.fixes = [x]) (k : S.fix = none) :
    S.applyFixes = { S.setEntry x.1 x.2 with fixes := [], fix := none } := by
  simp [Station.applyFixes, h, k, Station.setEntry_fix]

/-- WHY as a frame begins frozen is as it was. -/
theorem State.frozenFrame_why (s : State) (st : Stn) (halt : Bool) :
    (s.frozenFrame st halt).fld (aNetStat st) 27 4 = (s.reg (aNetStat st)).toNat / 2 ^ 27 % 16 := by
  have listed : put (((s.bump (stnReg st 0x408) 1).setStn st ((s.nextFrame st).freeze halt)).reg (aNetStat st)) 31 1 1 ≠
      regReset (aNetStat st) := by
    rw [regReset_netStat]
    exact put_frozen_ne_zero _
  rw [State.fld, State.frozenFrame, State.setFld, State.reg_setReg_listed listed, State.setStn_reg,
    State.reg_bump_of_ne _ _ _ _ (by simp [aNetStat]), nat_put_of_disjoint _ _ _ _ (by decide), nat_eq_toNat]
  rfl

theorem Station.setEntry_repairs (S : Station) (k : Nat) (v : BitVec 11) : (S.setEntry k v).repairs = S.repairs := by
  unfold Station.setEntry
  split <;> rfl

theorem Station.setEntry_freeze (S : Station) (halt : Bool) (k : Nat) (v : BitVec 11) :
    (S.freeze halt).setEntry k v = (S.setEntry k v).freeze halt := by
  unfold Station.setEntry
  split <;> rfl

theorem State.setStn_setStn (s : State) (st : Stn) (S U : Station) : (s.setStn st S).setStn st U = s.setStn st U := by
  simp [State.setStn]

theorem State.setFld_setStn (s : State) (st : Stn) (S : Station) (a lo w v : Nat) :
    (s.setFld a lo w v).setStn st S = (s.setStn st S).setFld a lo w v := rfl

/-- With one correction due, and no repair, the freeze carries the correction out and WHY names it. -/
theorem State.freezeWork_corrects {x : Nat × BitVec 11} (fixes : (s.stn st).fixes = [x]) (fix : (s.stn st).fix = none)
    (due : (s.stn st).dueDiv = none) (repairs : (s.stn st).repairs = []) :
    (s.frozenFrame st false).freezeWork st =
      ((((s.bump (stnReg st 0x408) 1).setStn st { ((s.nextFrame st).setEntry x.1 x.2).freeze false with
        fixes := [], fix := none }).setFld (aNetStat st) 31 1 1).setFld (aNetStat st) 27 4
          ((s.reg (aNetStat st)).toNat / 2 ^ 27 % 16 ||| 1)).setFld (stnReg st 0x418) 30 1 0 := by
  have stn : (s.frozenFrame st false).stn st = (s.nextFrame st).freeze false := by
    rw [State.frozenFrame, setFld_stn, stn_setStn]
  have applied : ((s.nextFrame st).freeze false).applyFixes =
      { ((s.nextFrame st).setEntry x.1 x.2).freeze false with fixes := [], fix := none } := by
    rw [Station.applyFixes_one (S := (s.nextFrame st).freeze false) fixes fix, Station.setEntry_freeze]
  have still : ((s.nextFrame st).setEntry x.1 x.2).repairs = [] := by rw [Station.setEntry_repairs]; exact repairs
  have why : whyBits ((s.nextFrame st).freeze false).fixDue ((s.nextFrame st).freeze false).dueDiv.isSome
      ((s.nextFrame st).freeze false).halted = 1 := by
    simp [whyBits, Station.fixDue, Station.freeze, State.nextFrame, fixes, due]
  rw [State.freezeWork, stn, applied, frozenFrame_why]
  dsimp only
  rw [why, beginRepair_none, State.frozenFrame, setFld_setStn, setStn_setStn]
  rw [setFld_stn, setFld_stn, stn_setStn]
  exact still

/-! ### What every frozen frame writes -/

/-- WHY is written, and the correction asked for is no longer pending. -/
def State.whyWritten (s : State) (st : Stn) (why : Nat) : State := (s.setFld (aNetStat st) 27 4 why).setFld (stnReg st 0x418) 30 1 0

theorem netFix_ne_netStat : stnReg st 0x418 ≠ aNetStat st := by simp [aNetStat]

section
variable (why : Nat)

theorem State.whyWritten_stn (x : Stn) : (s.whyWritten st why).stn x = s.stn x := by
  rw [State.whyWritten, setFld_stn, setFld_stn]

theorem State.whyWritten_onlyRegs : s.whyWritten st why = { s with regs := (s.whyWritten st why).regs } :=
  onlyRegs_trans (setFld_onlyRegs ..) (setFld_onlyRegs ..)

theorem State.whyWritten_wf (hw : Registers.wf s = true) : Registers.wf (s.whyWritten st why) = true :=
  setFld_wf _ _ _ _ _ (setFld_wf _ _ _ _ _ hw)

theorem State.whyWritten_netStat (hw : Registers.wf s = true) :
    (s.whyWritten st why).reg (aNetStat st) = put (s.reg (aNetStat st)) 27 4 why := by
  rw [State.whyWritten, reg_setFld_of_ne _ _ _ _ _ _ netFix_ne_netStat.symm, reg_setFld_same hw]

theorem State.whyWritten_netFix (hw : Registers.wf s = true) :
    (s.whyWritten st why).reg (stnReg st 0x418) = s.reg (stnReg st 0x418) &&& 0xBFFFFFFF := by
  rw [State.whyWritten, reg_setFld_same (setFld_wf _ _ _ _ _ hw), reg_setFld_of_ne _ _ _ _ _ _ netFix_ne_netStat, put_fixPending]

theorem State.whyWritten_of_ne {a : Nat} (h : a ≠ aNetStat st) (k : a ≠ stnReg st 0x418) : (s.whyWritten st why).reg a = s.reg a := by
  rw [State.whyWritten, reg_setFld_of_ne _ _ _ _ _ _ k, reg_setFld_of_ne _ _ _ _ _ _ h]

end

theorem State.setStn_stn (s : State) (st : Stn) : s.setStn st (s.stn st) = s := by
  simp [State.setStn, State.stn]

/-- With no correction due a frozen frame writes WHY, and may begin a repair. -/
theorem State.freezeWork_plain (fixes : (s.stn st).fixes = []) (fix : (s.stn st).fix = none) :
    s.freezeWork st = (s.whyWritten st
      (s.fld (aNetStat st) 27 4 ||| whyBits false (s.stn st).dueDiv.isSome (s.stn st).halted)).beginRepair st := by
  have due : (s.stn st).fixDue = false := by simp [Station.fixDue, fixes, fix]
  rw [State.freezeWork, due, Station.applyFixes_none fixes fix, setStn_stn]
  rfl

/-! ### A repair due at the boundary -/

/-- Two changes of registers and stations alone are one. -/
theorem onlyNet_trans {s v u : State} (h : u = { v with regs := u.regs, stns := u.stns })
    (k : v = { s with regs := v.regs, stns := v.stns }) : u = { s with regs := u.regs, stns := u.stns } := by
  rw [h, k]

theorem onlyNet_of_onlyRegs {s u : State} (h : u = { s with regs := u.regs }) : u = { s with regs := u.regs, stns := u.stns } := by
  rw [h]

theorem State.setStn_onlyNet (s : State) (st : Stn) (S : Station) :
    s.setStn st S = { s with regs := (s.setStn st S).regs, stns := (s.setStn st S).stns } := rfl

theorem State.setReg_onlyNet (s : State) (a : Nat) (v : W32) :
    s.setReg a v = { s with regs := (s.setReg a v).regs, stns := (s.setReg a v).stns } := rfl

theorem State.bump_onlyRegs (s : State) (a n : Nat) : s.bump a n = { s with regs := (s.bump a n).regs } := rfl

/-- A repair begins in a frozen network whose WHY names none. -/
theorem State.repairBegins {r : Fin 8 × Fin 6} {rest : List (Fin 8 × Fin 6)} (frozen : (s.stn st).frozen = true)
    (unbegun : s.rbit (aNetStat st) 29 = false) (repairs : (s.stn st).repairs = r :: rest) (hw : Registers.wf s = true) :
    let u := s.beginRepair st
    u.stn st = { s.stn st with repairNow := some r, repairs := rest, closed := r.1 :: (s.stn st).closed } ∧
      u.reg (aNetStat st) = put (s.reg (aNetStat st)) 29 1 1 ∧ (∀ a, a ≠ aNetStat st → u.reg a = s.reg a) ∧
      u = { s with regs := u.regs, stns := u.stns } ∧ ∀ x, x ≠ st → u.stn x = s.stn x := by
  rw [beginRepair_first frozen unbegun repairs, State.setFlag]
  refine ⟨?_, ?_, fun a ha => ?_, ?_, fun x hx => ?_⟩
  · rw [setFld_stn, stn_setStn]
  · rw [reg_setFld_same (setStn_wf _ hw), setStn_reg]
  · rw [reg_setFld_of_ne _ _ _ _ _ _ ha, setStn_reg]
  · exact onlyNet_trans (onlyNet_of_onlyRegs (setFld_onlyRegs ..)) (setStn_onlyNet ..)
  · rw [setFld_stn, stn_setStn_of_ne _ _ _ _ hx]

theorem State.frozenFrame_onlyNet (s : State) (st : Stn) (halt : Bool) :
    s.frozenFrame st halt = { s with regs := (s.frozenFrame st halt).regs, stns := (s.frozenFrame st halt).stns } :=
  onlyNet_trans (onlyNet_of_onlyRegs (setFld_onlyRegs ..))
    (onlyNet_trans (setStn_onlyNet ..) (onlyNet_of_onlyRegs (bump_onlyRegs ..)))

theorem State.frozenFrame_stn (s : State) (st : Stn) (halt : Bool) : (s.frozenFrame st halt).stn st = (s.nextFrame st).freeze halt := by
  rw [State.frozenFrame, setFld_stn, stn_setStn]

theorem State.frozenFrame_stn_of_ne (s : State) {st x : Stn} (h : x ≠ st) (halt : Bool) : (s.frozenFrame st halt).stn x = s.stn x := by
  rw [State.frozenFrame, setFld_stn, stn_setStn_of_ne _ _ _ _ h, bump_stn]

theorem State.frozenFrame_of_ne (s : State) {a : Nat} (h : a ≠ aNetStat st) (halt : Bool) :
    (s.frozenFrame st halt).reg a = (s.bump (stnReg st 0x408) 1).reg a := by
  rw [State.frozenFrame, reg_setFld_of_ne _ _ _ _ _ _ h, setStn_reg]

theorem State.frozenFrame_wf (hw : Registers.wf s = true) (halt : Bool) : Registers.wf (s.frozenFrame st halt) = true :=
  setFld_wf _ _ _ _ _ (setStn_wf _ (bump_wf s _ _ hw))

theorem State.frozenFrame_netStat (hw : Registers.wf s = true) (halt : Bool) :
    (s.frozenFrame st halt).reg (aNetStat st) = put (s.reg (aNetStat st)) 31 1 1 := by
  rw [State.frozenFrame, reg_setFld_same (setStn_wf _ (bump_wf s _ _ hw)), setStn_reg, reg_bump_of_ne _ _ _ _ (by simp [aNetStat])]

/-- With a repair due and nothing else, the freeze begins it. -/
theorem State.freezeWork_repairs {r : Fin 8 × Fin 6} {rest : List (Fin 8 × Fin 6)} (fixes : (s.stn st).fixes = [])
    (fix : (s.stn st).fix = none) (due : (s.stn st).dueDiv = none) (repairs : (s.stn st).repairs = r :: rest)
    (unbegun : s.rbit (aNetStat st) 29 = false) (hw : Registers.wf s = true) :
    let u := (s.frozenFrame st false).freezeWork st
    u.stn st = { s.nextFrame st with
        frozen := true, halted := false, repairNow := some r, repairs := rest, closed := r.1 :: (s.stn st).closed } ∧
      u.reg (aNetStat st) = s.reg (aNetStat st) ||| 0xA0000000 ∧ u.reg (stnReg st 0x408) = s.reg (stnReg st 0x408) + 1 ∧
      u.reg (stnReg st 0x418) = s.reg (stnReg st 0x418) &&& 0xBFFFFFFF ∧
      (∀ a, a ≠ aNetStat st → a ≠ stnReg st 0x408 → a ≠ stnReg st 0x418 → u.reg a = s.reg a) ∧
      u = { s with regs := u.regs, stns := u.stns } ∧ ∀ x, x ≠ st → u.stn x = s.stn x := by
  have count_ne : stnReg st 0x408 ≠ aNetStat st := by simp [aNetStat]
  let F := s.frozenFrame st false
  have stn : F.stn st = (s.nextFrame st).freeze false := frozenFrame_stn ..
  have fwf : Registers.wf F = true := frozenFrame_wf hw false
  have plain : F.freezeWork st = (F.whyWritten st (F.fld (aNetStat st) 27 4)).beginRepair st := by
    rw [freezeWork_plain (by rw [stn]; exact fixes) (by rw [stn]; exact fix), stn]
    simp [whyBits, Station.freeze, State.nextFrame, due]
  let W := F.whyWritten st (F.fld (aNetStat st) 27 4)
  have wstn (x : Stn) : W.stn x = F.stn x := whyWritten_stn _ x
  have stat : W.reg (aNetStat st) = put (s.reg (aNetStat st)) 31 1 1 := by
    rw [whyWritten_netStat _ fwf, State.fld, put_nat_self, frozenFrame_netStat hw]
  have wunbegun : W.rbit (aNetStat st) 29 = false := by
    rw [State.rbit, stat, bit, getLsbD_put]
    exact unbegun
  obtain ⟨ustn, ustat, ureg, only, rest⟩ := repairBegins (s := W) (by rw [wstn, stn]; rfl) wunbegun
    (show (W.stn st).repairs = r :: rest by rw [wstn, stn]; exact repairs) (whyWritten_wf _ fwf)
  show let u := F.freezeWork st; _
  rw [plain]
  refine ⟨?_, ?_, ?_, ?_, fun a ha hb hc => ?_, ?_, fun x hx => ?_⟩
  · rw [ustn, wstn, stn]
    rfl
  · rw [ustat, stat, put_frozen_repair]
  · rw [ureg _ count_ne, whyWritten_of_ne _ count_ne (by simp), frozenFrame_of_ne _ count_ne, reg_bump_same hw]
    rfl
  · rw [ureg _ netFix_ne_netStat, whyWritten_netFix _ fwf, frozenFrame_of_ne _ netFix_ne_netStat, reg_bump_of_ne _ _ _ _ (by simp)]
  · rw [ureg _ ha, whyWritten_of_ne _ ha hc, frozenFrame_of_ne _ ha, reg_bump_of_ne _ _ _ _ hb]
  · exact onlyNet_trans only (onlyNet_trans (onlyNet_of_onlyRegs (whyWritten_onlyRegs _)) (frozenFrame_onlyNet ..))
  · rw [rest x hx, wstn, frozenFrame_stn_of_ne _ hx]

end Sys2Proof.Machine
end

/-! SUPPORT. The end of a frozen frame, and commands on the slot tables (07 R213, R214, R218). -/

section
namespace Sys2Proof.Machine

variable {s : State} {st : Stn}

/-! ### The end of a frozen frame -/

theorem State.takeDivisor_wf (hw : Registers.wf s = true) : Registers.wf (s.takeDivisor st) = true := by
  unfold State.takeDivisor
  split
  · exact hw
  · exact setFld_wf _ _ _ _ _ hw

@[simp] theorem State.takeDivisor_stn (s : State) (st x : Stn) : (s.takeDivisor st).stn x = s.stn x := by
  unfold State.takeDivisor
  split
  · rfl
  · exact setFld_stn ..

/-- The divisor that is due, taken before WHY is cleared. -/
theorem State.put_takeDivisor {r : W32} (hw : Registers.wf s = true) (h : put (s.reg (aNetStat st)) 27 5 0 = r &&& 0x07FFFFFF) :
    put ((s.takeDivisor st).reg (aNetStat st)) 27 5 0 = netStatFreed r (s.stn st).dueDiv (s.minDiv st) := by
  cases due : (s.stn st).dueDiv with
  | none => simp [State.takeDivisor, due, netStatFreed, h]
  | some d =>
    rw [takeDivisor_due due, reg_setFld_same hw, put_comm _ _ _ _ _ (by decide), h, put_divisor r (max_divisor_lt (s.minDiv_le st) d),
      netStatFreed]

/-- The station with its network let go. -/
def Station.unfrozen (S : Station) : Station := { S with frozen := false, halted := false, dueDiv := none }

/-- The state at the end of a frozen frame under no halt, before what has become due is carried out. -/
def State.frozenEnd (s : State) (st : Stn) : State := (s.bump (stnReg st 0x40C) 1).setStn st { s.stn st with halted := false }

theorem State.frozenEnd_stn (s : State) (st : Stn) : (s.frozenEnd st).stn st = { s.stn st with halted := false } := by
  rw [State.frozenEnd, stn_setStn]

theorem State.frozenEnd_stn_of_ne (s : State) {st x : Stn} (h : x ≠ st) : (s.frozenEnd st).stn x = s.stn x := by
  rw [State.frozenEnd, stn_setStn_of_ne _ _ _ _ h, bump_stn]

theorem State.frozenEnd_reg (s : State) (st : Stn) (a : Nat) : (s.frozenEnd st).reg a = (s.bump (stnReg st 0x40C) 1).reg a := by
  rw [State.frozenEnd, setStn_reg]

theorem State.frozenEnd_wf (hw : Registers.wf s = true) : Registers.wf (s.frozenEnd st) = true := setStn_wf _ (bump_wf s _ _ hw)

theorem State.frozenEnd_onlyNet (s : State) (st : Stn) :
    s.frozenEnd st = { s with regs := (s.frozenEnd st).regs, stns := (s.frozenEnd st).stns } :=
  onlyNet_trans (setStn_onlyNet ..) (onlyNet_of_onlyRegs (bump_onlyRegs ..))

section
variable (run : (s.stn st).run = .running) (frozen : (s.stn st).frozen = true) (halt : s.rbit (aNetCtrl st) 31 = false)
include run frozen halt

/-- A frozen frame ends the freeze unless a repair has begun. -/
theorem State.freezeEnd_frees (now : (((s.frozenEnd st).freezeWork st).stn st).repairNow = none) :
    s.freezeEnd st = ((((s.frozenEnd st).freezeWork st).takeDivisor st).modStn st Station.unfrozen).setFld (aNetStat st) 27 5 0 := by
  unfold State.freezeEnd
  dsimp only
  rw [if_neg (by simp [run, frozen]), halt]
  show (if ((((s.frozenEnd st).freezeWork st).stn st).repairNow.isSome || false) = true then _ else _) = _
  rw [now]
  rfl

/-- The state in which a freeze ends. -/
theorem State.freezeEnd_spec (fixes : (s.stn st).fixes = []) (fix : (s.stn st).fix = none)
    (repairs : (s.stn st).repairs = [] ∨ s.rbit (aNetStat st) 29 = true) (now : (s.stn st).repairNow = none)
    (hw : Registers.wf s = true) :
    let u := s.freezeEnd st
    u.stn st = (s.stn st).unfrozen ∧ u.reg (aNetStat st) = netStatFreed (s.reg (aNetStat st)) (s.stn st).dueDiv (s.minDiv st) ∧
      u.reg (stnReg st 0x40C) = s.reg (stnReg st 0x40C) + 1 ∧ u.reg (stnReg st 0x418) = s.reg (stnReg st 0x418) &&& 0xBFFFFFFF ∧
      (∀ a, a ≠ aNetStat st → a ≠ stnReg st 0x40C → a ≠ stnReg st 0x418 → u.reg a = s.reg a) ∧
      u = { s with regs := u.regs, stns := u.stns } ∧ ∀ x, x ≠ st → u.stn x = s.stn x := by
  have count_ne : stnReg st 0x40C ≠ aNetStat st := by simp [aNetStat]
  let B := s.frozenEnd st
  have bstn : B.stn st = { s.stn st with halted := false } := frozenEnd_stn ..
  have bwf : Registers.wf B = true := frozenEnd_wf hw
  have bstat : B.reg (aNetStat st) = s.reg (aNetStat st) := by rw [frozenEnd_reg, reg_bump_of_ne _ _ _ _ count_ne.symm]
  let why := B.fld (aNetStat st) 27 4 ||| whyBits false (B.stn st).dueDiv.isSome (B.stn st).halted
  let W := B.whyWritten st why
  have wstn (x : Stn) : W.stn x = B.stn x := whyWritten_stn _ x
  have wwf : Registers.wf W = true := whyWritten_wf _ bwf
  have wstat : W.reg (aNetStat st) = put (s.reg (aNetStat st)) 27 4 why := by rw [whyWritten_netStat _ bwf, bstat]
  have still : W.beginRepair st = W := by
    rcases repairs with none | begun
    · exact beginRepair_none (by rw [wstn, bstn]; exact none)
    · have named : why.testBit 2 = true := by
        rw [State.rbit, bit] at begun
        rw [Nat.testBit_or, State.fld, bstat, nat, BitVec.testBit_toNat, BitVec.getLsbD_extractLsb', begun]
        rfl
      refine beginRepair_begun ?_
      rw [State.rbit, wstat, bit, getLsbD_put, if_pos (by decide), named]
      rfl
  have work : B.freezeWork st = W := by
    rw [freezeWork_plain (by rw [bstn]; exact fixes) (by rw [bstn]; exact fix)]
    exact still
  have least : W.minDiv st = s.minDiv st := minDiv_congr <| by
    have (o : Nat) (h : o < 0x1000000) : thsReg st ≠ stnReg st o := thsReg_ne_stnReg h
    rw [whyWritten_of_ne _ (this _ (by decide)) (this _ (by decide)), frozenEnd_reg, reg_bump_of_ne _ _ _ _ (this _ (by decide))]
  have wnow : (W.stn st).repairNow = none := by
    rw [wstn, bstn]
    exact now
  have free := freezeEnd_frees run frozen halt (by rw [work]; exact wnow)
  rw [work] at free
  rw [free]
  have dwf : Registers.wf (W.takeDivisor st) = true := takeDivisor_wf wwf
  refine ⟨?_, ?_, ?_, ?_, fun a ha hb hc => ?_, ?_, fun x hx => ?_⟩
  · rw [setFld_stn, stn_modStn, takeDivisor_stn, wstn, bstn]
    rfl
  · have cleared : put (W.reg (aNetStat st)) 27 5 0 = s.reg (aNetStat st) &&& 0x07FFFFFF := by
      rw [wstat, put_put_of_within _ _ _ _ _ (by decide) (by decide), put_why]
    rw [reg_setFld_same (modStn_wf _ dwf), modStn_reg, put_takeDivisor wwf cleared, least, wstn, bstn]
  · rw [reg_setFld_of_ne _ _ _ _ _ _ count_ne, modStn_reg, reg_takeDivisor_of_ne _ _ count_ne, whyWritten_of_ne _ count_ne (by simp),
      frozenEnd_reg, reg_bump_same hw]
    rfl
  · rw [reg_setFld_of_ne _ _ _ _ _ _ netFix_ne_netStat, modStn_reg, reg_takeDivisor_of_ne _ _ netFix_ne_netStat, whyWritten_netFix _ bwf,
      frozenEnd_reg, reg_bump_of_ne _ _ _ _ (by simp)]
  · rw [reg_setFld_of_ne _ _ _ _ _ _ ha, modStn_reg, reg_takeDivisor_of_ne _ _ ha, whyWritten_of_ne _ ha hc, frozenEnd_reg,
      reg_bump_of_ne _ _ _ _ hb]
  · refine onlyNet_trans (onlyNet_of_onlyRegs (setFld_onlyRegs ..)) (onlyNet_trans (setStn_onlyNet ..) ?_)
    refine onlyNet_trans (onlyNet_of_onlyRegs (takeDivisor_onlyRegs ..)) ?_
    exact onlyNet_trans (onlyNet_of_onlyRegs (whyWritten_onlyRegs _)) (frozenEnd_onlyNet ..)
  · rw [setFld_stn, State.modStn, stn_setStn_of_ne _ _ _ _ hx, takeDivisor_stn, wstn, frozenEnd_stn_of_ne _ hx]

end

/-! ### The slot tables -/

theorem State.slotTableScrub_stopped (run : (s.stn st).run ≠ .running) (sel i : Nat) (found : Upset) :
    s.slotTableScrub st sel i found = s := by
  simp [State.slotTableScrub, run]

theorem State.slotTableScrub_none (sel i : Nat) : s.slotTableScrub st sel i .none = s := by
  simp [State.slotTableScrub]

section
variable (run : (s.stn st).run = .running) {sel : Nat} (i : Nat) (table : hasTable sel = true)
include run table

theorem State.slotTableScrub_single :
    s.slotTableScrub st sel i .single = (s.setStn st { s.stn st with
      fixes := (s.stn st).fixes ++ [(sel * 1024 + i, smGet (fun _ => 0) (s.stn st).tables (sel * 1024 + i))] }).netFlag st 3 := by
  simp [State.slotTableScrub, State.modStn, run, table]

theorem State.slotTableScrub_double :
    s.slotTableScrub st sel i .double = (s.setStn st { s.stn st with
      tableBad := smInsert (s.stn st).tableBad (sel * 1024 + i) true }).netFlag st 4 := by
  simp [State.slotTableScrub, State.modStn, run, table]

end

/-- A write of STN_NET_FIX that sets no reserved bit is noted nowhere. -/
theorem State.reserved_netFix {v : W32} (clear : v &&& 0x3800FC00 = 0) : s.reserved (stnReg st 0x418) v = s := by
  rw [State.reserved, rsv_netFix, clear]
  simp

/-- A rewrite asked for while none is pending waits for a freeze. -/
theorem State.netFixGo_waits {v : W32} (fitted : s.fitted st = true) (go : v.getLsbD 31 = true)
    (idle : s.rbit (stnReg st 0x418) 30 = false) (run : (s.stn st).run = .running) :
    let u := s.netFixGo st v
    u.stn st = { s.stn st with
        fix := some ((s.reg (stnReg st 0x414)).toNat % 512 * 1024 + v.toNat % 1024, v.extractLsb' 16 11) } ∧
      (∀ a, a ≠ stnReg st 0x418 → u.reg a = s.reg a) ∧ u = { s with regs := u.regs, stns := u.stns } := by
  have key : s.fld (stnReg st 0x414) 0 9 * 1024 + nat v 0 10 = (s.reg (stnReg st 0x414)).toNat % 512 * 1024 + v.toNat % 1024 := by
    rw [State.fld, nat_eq_toNat, nat_eq_toNat]
    simp
  have wanted : s.netFixGo st v =
      ((s.setReg (stnReg st 0x418) ((v &&& 0x07FF03FF) ||| (s.reg (stnReg st 0x418) &&& 0x40000000))).modStn st fun S =>
        { S with fix := some ((s.reg (stnReg st 0x414)).toNat % 512 * 1024 + v.toNat % 1024, v.extractLsb' 16 11) }).setFld
          (stnReg st 0x418) 30 1 1 := by
    unfold State.netFixGo
    dsimp only
    rw [if_neg (by simp [fitted]), idle, if_neg (by simp [bit, go]), setReg_stn, if_pos run, key]
    rfl
  rw [wanted]
  refine ⟨?_, fun a ha => ?_, ?_⟩
  · rw [setFld_stn, stn_modStn, setReg_stn]
  · rw [reg_setFld_of_ne _ _ _ _ _ _ ha, modStn_reg, reg_setReg_of_ne _ _ _ _ ha]
  · exact onlyNet_trans (onlyNet_of_onlyRegs (setFld_onlyRegs ..)) (onlyNet_trans (setStn_onlyNet ..) (setReg_onlyNet ..))

end Sys2Proof.Machine
end

section
open Sys2Proof Sys2Proof.Machine

/-- Settles O20, from what a frozen network and a held tile do, and from the boundaries, freezes and rewrites of the network. -/
theorem framesAndFreezes : Obligations.FramesAndFreezes := by
  unfold Obligations.FramesAndFreezes
  intro s st S stat base begun why
  refine ⟨fun stopped sel entry found => ?_, fun frozen t c sel slot found node => ?_, fun frozen halted t n k b o u meet => ?_,
    fun run => ⟨fun unfrozen due repairs now settled halt => ⟨fun fixes fix => ?_, fun x fixes fix => ?_⟩, ?_, ?_,
      fun sel entry table => ⟨?_, ?_, ?_⟩, fun v clear go idle fitted => ?_⟩, fun halt => rfl⟩
  · exact congrArg Host.Outcome.next (State.slotTableScrub_stopped stopped _ _ _)
  · simp only [List.forall_mem_cons, List.not_mem_nil, false_implies, implies_true, and_true]
    exact ⟨congrArg Host.Outcome.next (State.channelInject_frozen frozen _ _),
      congrArg Host.Outcome.next (State.creditInject_frozen frozen _ _),
      congrArg Host.Outcome.next (State.linkWordHop_frozen frozen _ _ _),
      congrArg Host.Outcome.next (State.channelDataDeliver_frozen frozen _),
      congrArg Host.Outcome.next (State.creditDeliver_frozen frozen _),
      congrArg Host.Outcome.next (State.mailboxDeliver_frozen frozen _ _),
      congrArg Host.Outcome.next (State.queueArrival_frozen frozen _ _),
      congrArg Host.Outcome.next (State.queueResponse_frozen frozen _ _)⟩
  · have held := State.haltFrozen_of_halted frozen halted
    simp only [List.forall_mem_cons, List.not_mem_nil, false_implies, implies_true, and_true]
    exact ⟨congrArg Host.Outcome.next (State.operationComplete_held held _), congrArg Host.Outcome.next (State.trigger_held held _ _ _),
      congrArg Host.Outcome.next (State.transfer_held held _ _), congrArg Host.Outcome.next (State.windowEnd_held held),
      congrArg Host.Outcome.next (State.walkSample_held held _), congrArg Host.Outcome.next (State.elementIssue_held held _),
      congrArg Host.Outcome.next (State.storeElementSend_held held _), congrArg Host.Outcome.next (State.blockIssue_held held _ _ _),
      congrArg Host.Outcome.next (State.blockDone_held held _ _ _), congrArg Host.Outcome.next (State.lineFill_held held),
      congrArg Host.Outcome.next (State.takeComplete_held held)⟩
  · exact congrArg Host.Outcome.next (State.frameBoundary_begins run unfrozen settled halt fixes fix due repairs)
  · have freezes := State.frameBoundary_freezes run unfrozen settled halt (.inl (ne_of_eq_of_ne fixes (List.cons_ne_nil _ _)))
    exact congrArg Host.Outcome.next (freezes.trans (State.freezeWork_corrects fixes fix due repairs))
  · intro r rest unfrozen due fixes fix repairs now settled halt unbegun hw
    have freezes := State.frameBoundary_freezes run unfrozen settled halt (.inr (ne_of_eq_of_ne repairs (List.cons_ne_nil _ _)))
    exact ⟨_, congrArg Host.Outcome.next freezes, State.freezeWork_repairs fixes fix due repairs unbegun hw⟩
  · intro frozen fixes fix repairs now halt hw least
    obtain ⟨stn, netStat, count, pending, others, only, rest⟩ := State.freezeEnd_spec run frozen halt fixes fix repairs now hw
    rw [State.minDiv_eq] at netStat
    exact ⟨_, rfl, stn, netStat, count, pending, others, only, rest⟩
  · exact congrArg Host.Outcome.next (State.slotTableScrub_none _ _)
  · exact congrArg Host.Outcome.next (State.slotTableScrub_single run _ table)
  · exact congrArg Host.Outcome.next (State.slotTableScrub_double run _ table)
  · obtain ⟨stn, others, only⟩ := State.netFixGo_waits (s := s.noted) fitted go idle run
    have undef : (s.noted.netFixGo st v).undef = false := by
      rw [only]
      rfl
    refine ⟨_, ?_, stn, others, only⟩
    show ((s.noted.reserved (stnReg st 0x418) v).netFixGo st v).out = _
    rw [State.reserved_netFix clear, State.out, undef]
    rfl
end

/-! SUPPORT. Column maps: what retirements and self-tests leave of a column's word and of everything else (01 R15, R16, R31). -/

section
namespace Sys2Proof.Machine

variable {s u v : State} {st : Stn} {c : Nat}

/-! ### A word of a column map -/

theorem State.reg_setFld_listed {a lo w v : Nat} (h : put (s.reg a) lo w v ≠ regReset a) :
    (s.setFld a lo w v).reg a = put (s.reg a) lo w v :=
  reg_setReg_listed h

/-- A column that is shifted or exhausted is listed, so a write to its word is read back. -/
theorem State.reg_setFld_col {lo w v : Nat} (hc : c < 8) (h : nat (put (s.reg (aCol st c)) lo w v) 26 2 ≠ 0) :
    (s.setFld (aCol st c) lo w v).reg (aCol st c) = put (s.reg (aCol st c)) lo w v := by
  refine reg_setFld_listed fun zero => h ?_
  rw [zero, aCol, regReset_colMap st c hc]
  rfl

theorem State.colState_setFld {lo w v : Nat} (hc : c < 8) (h : s.colState st c ≠ 0) (apart : lo + w ≤ 26 ∨ 28 ≤ lo) :
    (s.setFld (aCol st c) lo w v).colState st c = s.colState st c := by
  have same : nat (put (s.reg (aCol st c)) lo w v) 26 2 = s.colState st c := nat_put_of_disjoint _ _ _ _ apart
  rw [State.colState, State.fld, reg_setFld_col hc (by rwa [same]), same]

/-! ### What else a column's retirement and self-test leave -/

/-- An address that is in no tile of the station. -/
def OutsideTiles (st : Stn) (a : Nat) : Prop := a < stnBase st + 0x8000000 ∨ stnBase st + 0x8A00000 ≤ a

theorem outsideTiles_stnReg (st : Stn) (o : Nat) : OutsideTiles st (stnReg st o) := by
  unfold OutsideTiles stnReg
  omega

theorem aCol_inj {i j : Nat} : aCol st i = aCol st j ↔ i = j := by
  unfold aCol stnReg
  omega

/-- A state that differs in tiles and in the map of one column. -/
structure ColumnChange (st : Stn) (c : Nat) (s u : State) : Prop where
  stns : u.stns = s.stns
  hall : u.hall = s.hall
  undef : u.undef = s.undef
  reg : ∀ a, a ≠ aCol st c → OutsideTiles st a → u.reg a = s.reg a

namespace ColumnChange

theorem refl (s : State) : ColumnChange st c s s := ⟨rfl, rfl, rfl, fun _ _ _ => rfl⟩

theorem trans (h : ColumnChange st c s u) (k : ColumnChange st c u v) : ColumnChange st c s v where
  stns := k.stns.trans h.stns
  hall := k.hall.trans h.hall
  undef := k.undef.trans h.undef
  reg a ha out := (k.reg a ha out).trans (h.reg a ha out)

theorem setFld (h : ColumnChange st c s u) (lo w v : Nat) : ColumnChange st c s (u.setFld (aCol st c) lo w v) :=
  h.trans ⟨State.setFld_stns .., State.setFld_hall .., State.setFld_undef .., fun _ ha _ => u.reg_setFld_of_ne _ _ _ _ _ ha⟩

theorem setTile (h : ColumnChange st c s u) (t : TileNo) (T : Tile) : ColumnChange st c s (u.setTile st t T) :=
  h.trans ⟨rfl, rfl, rfl, fun _ _ _ => rfl⟩

theorem ite {p : Prop} [Decidable p] (h : ColumnChange st c s u) (k : ColumnChange st c s v) :
    ColumnChange st c s (if p then u else v) := by
  split
  · exact h
  · exact k

theorem foldl {α : Type} {f : State → α → State} (h : ColumnChange st c s u) (l : List α)
    (hf : ∀ {u} a, ColumnChange st c s u → ColumnChange st c s (f u a)) : ColumnChange st c s (l.foldl f u) :=
  List.foldlRecOn l f h fun _ k a _ => hf a k

end ColumnChange

/-- Entries outside the range that moves stay where they are. -/
theorem smGet_shiftDown {α : Type} (d : Nat → α) (m : List (Nat × α)) {lo hi span k : Nat} (h : k < lo ∨ hi ≤ k) :
    smGet d (shiftDown m lo hi span) k = smGet d m k := by
  induction m with
  | nil => rfl
  | cons e m ih =>
    obtain ⟨j, w⟩ := e
    by_cases out : j < lo ∨ hi ≤ j
    · have : shiftDown ((j, w) :: m) lo hi span = (j, w) :: shiftDown m lo hi span := by simp [shiftDown, out]
      rw [this, smGet, smGet, ih]
    · have ne : j ≠ k := by omega
      rw [smGet, if_neg ne, ← ih]
      by_cases low : j < lo + span
      · have : shiftDown ((j, w) :: m) lo hi span = shiftDown m lo hi span := by simp [shiftDown, out, low]
        rw [this]
      · have : shiftDown ((j, w) :: m) lo hi span = (j - span, w) :: shiftDown m lo hi span := by simp [shiftDown, out, low]
        rw [this, smGet, if_neg (by omega)]

/-- The tiles of a column lie among the tiles of the station. -/
theorem OutsideTiles.column {a : Nat} (out : OutsideTiles st a) (c x : Nat) :
    a < tileBase st (Fin.ofNat 40 (5 * c + x)) ∨ tileBase st (Fin.ofNat 40 (5 * c)) + 5 * 0x40000 ≤ a := by
  unfold OutsideTiles at out
  unfold tileBase
  rw [Fin.val_ofNat, Fin.val_ofNat]
  omega

/-- Registers outside the tiles do not move. -/
theorem State.reg_shiftColumn (s : State) (c x : Nat) {a : Nat} (out : OutsideTiles st a) : (s.shiftColumn st c x).reg a = s.reg a := by
  unfold State.shiftColumn
  split
  · rfl
  · refine List.foldlRecOn (motive := fun u => State.reg u a = s.reg a) _ _ (smGet_shiftDown _ _ (out.column c x)) fun u h j _ => ?_
    dsimp only
    split
    · exact h
    · exact h

theorem State.shiftColumn_change (s : State) (st : Stn) (c x : Nat) : ColumnChange st c s (s.shiftColumn st c x) := by
  unfold State.shiftColumn
  split
  · exact .refl s
  · refine .foldl ?_ _ fun j h => .ite h (h.setTile _ _)
    exact ⟨rfl, rfl, rfl, fun a _ out => smGet_shiftDown _ _ (out.column c x)⟩

theorem State.retire_change (s : State) (st : Stn) (c x : Nat) : ColumnChange st c s (s.retire st c x) :=
  .ite (((ColumnChange.refl s).setFld ..).setFld .. |>.setFld ..) (((ColumnChange.refl s).setFld ..).setFld ..)

theorem State.forceRetire_change (s : State) (st : Stn) (c : Nat) : ColumnChange st c s (s.forceRetire st c) :=
  .ite (.refl s) (.setFld (.ite ((s.retire_change ..).trans (State.shiftColumn_change ..)) (.refl s)) ..)

theorem State.recordTest_change (s : State) (st : Stn) (c k : Nat) (serves : Bool) : ColumnChange st c s (s.recordTest st c k serves) :=
  (((ColumnChange.refl s).setFld ..).setFld ..).setFld ..

theorem State.startTestColumn_change (s : State) (st : Stn) (c : Nat) : ColumnChange st c s (s.startTestColumn st c) :=
  .foldl (.foldl (.refl s) _ fun _ h =>
    .ite (h.trans ((State.retire_change ..).trans (State.shiftColumn_change ..))) (h.trans (State.retire_change ..)))
    _ fun _ h => h.trans (State.recordTest_change ..)

end Sys2Proof.Machine
end

/-! SUPPORT. A station's start: forced retirements, the self-test of the columns, and the reset of the network (01 R13, R20, R22, R33). -/

section
namespace Sys2Proof.Machine

variable {s : State} {st : Stn} {c : Nat}

/-! ### Forced retirements (01 R22) -/

/-- A field written to a word of which some bits are known. -/
theorem put_masked (r m v : W32) (lo w n : Nat) : put ((r &&& m) ||| v) lo w n = (r &&& (m &&& ~~~(ones lo w))) ||| put v lo w n := by
  refine BitVec.eq_of_getLsbD_eq fun i hi => ?_
  simp only [put, BitVec.getLsbD_or, BitVec.getLsbD_and]
  cases r.getLsbD i <;> simp [Bool.or_assoc, Bool.and_or_distrib_right]

/-- The word of a column whose position p is retired by force. -/
theorem put_retired (r : W32) {p : Nat} (h : p ≤ 5) :
    put (put (put (put r 26 2 1) 23 3 p) p 1 0) 31 1 0 =
      (r &&& (0x707FFFFF &&& ~~~((1 : W32) <<< p))) ||| 0x04000000 ||| (BitVec.ofNat 32 p <<< 23) := by
  have whole : r = (r &&& BitVec.allOnes 32) ||| 0#32 := by rw [BitVec.and_allOnes, BitVec.or_zero]
  rw [BitVec.or_assoc]
  conv_lhs => rw [whole, put_masked, put_masked, put_masked, put_masked]
  interval_cases p <;> rfl

theorem State.reg_retire_first (hc : c < 8) (whole : s.colState st c = 0) {x : Nat} (hx : x ≤ 5) :
    (s.retire st c x).reg (aCol st c) = put (put (put (s.reg (aCol st c)) 26 2 1) 23 3 x) x 1 0 := by
  have shifted : nat (put (s.reg (aCol st c)) 26 2 1) 26 2 = 1 := nat_put_same _ _ _ _ (by decide)
  have first := reg_setFld_col (lo := 26) (w := 2) (v := 1) hc (by rw [shifted]; decide)
  have named : nat (put (put (s.reg (aCol st c)) 26 2 1) 23 3 x) 26 2 = 1 := by
    rw [nat_put_of_disjoint _ _ _ _ (by decide), shifted]
  have second : ((s.setFld (aCol st c) 26 2 1).setFld (aCol st c) 23 3 x).reg (aCol st c) =
      put (put (s.reg (aCol st c)) 26 2 1) 23 3 x := by
    rw [reg_setFld_col hc (by rw [first, named]; decide), first]
  have retired : nat (put (put (put (s.reg (aCol st c)) 26 2 1) 23 3 x) x 1 0) 26 2 = 1 := by
    rw [nat_put_of_disjoint _ _ _ _ (by omega), named]
  rw [State.retire, if_pos whole, reg_setFld_col hc (by rw [second, retired]; decide), second]

/-- FRC_EN goes, whatever else a column that is shifted or exhausted holds. -/
theorem State.reg_setFld_frc (hc : c < 8) (h : s.colState st c ≠ 0) :
    (s.setFld (aCol st c) 31 1 0).reg (aCol st c) = put (s.reg (aCol st c)) 31 1 0 :=
  reg_setFld_col hc (by rwa [nat_put_of_disjoint _ _ _ _ (by decide)])

/-- What a start makes of the word of a column: a forced retirement takes effect where no position is retired, and FRC_EN goes. -/
def Forced (r r' : W32) : Prop :=
  let pos := r.toNat / 2 ^ 28 % 8
  (r.getLsbD 31 = false → r' = r) ∧
  (r.getLsbD 31 = true → r.toNat / 2 ^ 26 % 4 = 0 → pos ≤ 5 →
    r' = (r &&& (0x707FFFFF &&& ~~~((1 : W32) <<< pos))) ||| 0x04000000 ||| (BitVec.ofNat 32 pos <<< 23)) ∧
  (r.getLsbD 31 = true → r.toNat / 2 ^ 26 % 4 ≠ 0 → r' = r &&& 0x7FFFFFFF)

theorem State.forceRetire_off (h : s.rbit (aCol st c) 31 = false) : s.forceRetire st c = s := by
  simp [State.forceRetire, h]

theorem State.reg_forceRetire (s : State) (st : Stn) (hc : c < 8) : Forced (s.reg (aCol st c)) ((s.forceRetire st c).reg (aCol st c)) := by
  have state : s.colState st c = (s.reg (aCol st c)).toNat / 2 ^ 26 % 4 := nat_eq_toNat ..
  have pos : s.fld (aCol st c) 28 3 = (s.reg (aCol st c)).toNat / 2 ^ 28 % 8 := nat_eq_toNat ..
  have on (h : (s.reg (aCol st c)).getLsbD 31 = true) : ¬(!s.rbit (aCol st c) 31) = true := by simp [State.rbit, bit, h]
  refine ⟨fun off => by rw [forceRetire_off off], fun frc whole hx => ?_, fun frc part => ?_⟩
  · rw [← pos] at hx ⊢
    rw [← state] at whole
    have moved := reg_retire_first hc whole hx
    have word : ((s.retire st c (s.fld (aCol st c) 28 3)).shiftColumn st c (s.fld (aCol st c) 28 3)).reg (aCol st c) = _ :=
      (State.reg_shiftColumn _ c _ (outsideTiles_stnReg st _)).trans moved
    have shifted : ((s.retire st c (s.fld (aCol st c) 28 3)).shiftColumn st c (s.fld (aCol st c) 28 3)).colState st c = 1 := by
      rw [State.colState, State.fld, word, nat_put_of_disjoint _ _ _ _ (by omega), nat_put_of_disjoint _ _ _ _ (by decide),
        nat_put_same _ _ _ _ (by decide)]
      rfl
    rw [State.forceRetire, if_neg (on frc)]
    dsimp only
    rw [if_pos ⟨whole, hx⟩, reg_setFld_frc hc (by rw [shifted]; decide), word, put_retired _ hx]
  · rw [← state] at part
    rw [State.forceRetire, if_neg (on frc)]
    dsimp only
    rw [if_neg (fun h => part h.1), reg_setFld_frc hc part]
    simp [put, ones]

/-! ### All columns of a station -/

/-- A state that differs in tiles and in the column maps, where each of the first n words is related to what it was. -/
structure ColumnsChange (st : Stn) (R : W32 → W32 → Prop) (n : Nat) (s u : State) : Prop where
  stns : u.stns = s.stns
  hall : u.hall = s.hall
  undef : u.undef = s.undef
  col : ∀ c < n, R (s.reg (aCol st c)) (u.reg (aCol st c))
  reg : ∀ a, (∀ c < n, a ≠ aCol st c) → OutsideTiles st a → u.reg a = s.reg a

theorem ColumnsChange.succ {R : W32 → W32 → Prop} {n : Nat} {u v : State} (h : ColumnsChange st R n s u) (k : ColumnChange st n u v)
    (r : R (u.reg (aCol st n)) (v.reg (aCol st n))) : ColumnsChange st R (n + 1) s v where
  stns := k.stns.trans h.stns
  hall := k.hall.trans h.hall
  undef := k.undef.trans h.undef
  col c hc := by
    rcases Nat.lt_succ_iff_lt_or_eq.1 hc with hc | rfl
    · rw [k.reg _ (fun e => hc.ne (aCol_inj.1 e)) (outsideTiles_stnReg ..)]
      exact h.col c hc
    · rwa [h.reg _ (fun c' hc' e => hc'.ne' (aCol_inj.1 e)) (outsideTiles_stnReg ..)] at r
  reg a ha out := by
    rw [k.reg a (ha n (by omega)) out, h.reg a (fun c hc => ha c (by omega)) out]

/-- What is done to each column in turn is done to all. -/
theorem ColumnsChange.foldl {f : State → Nat → State} {R : W32 → W32 → Prop} {I : State → Prop} (start : I s)
    (hf : ∀ u, I u → ∀ c < 8, I (f u c) ∧ ColumnChange st c u (f u c) ∧ R (u.reg (aCol st c)) ((f u c).reg (aCol st c))) :
    ∀ n ≤ 8, I ((List.range n).foldl f s) ∧ ColumnsChange st R n s ((List.range n).foldl f s)
  | 0, _ => ⟨start, rfl, rfl, rfl, fun _ h => absurd h (Nat.not_lt_zero _), fun _ _ _ => rfl⟩
  | n + 1, hn => by
    obtain ⟨hI, h⟩ := ColumnsChange.foldl start hf n (by omega)
    obtain ⟨hI', k, r⟩ := hf _ hI n (by omega)
    rw [List.range_succ, List.foldl_append]
    exact ⟨hI', h.succ k r⟩

/-! ### The beginning of a start (01 R33) -/

theorem exec_stnRunStart (s : State) (st : Stn) : exec (.stnRunStart st) s = .next (((s.stnRunStart st).hallReact s).pcieResume) := rfl

theorem State.stnRunStart_ignored (h : (s.stn st).run = .running ∨ (s.stn st).phase ≠ .none ∨ s.fitted st = false) :
    s.stnRunStart st = s := by
  rw [State.stnRunStart, if_pos (by simpa using h)]

section
variable (run : (s.stn st).run ≠ .running) (phase : (s.stn st).phase = .none) (fitted : s.fitted st = true)
include run phase fitted

theorem State.stnRunStart_accepted :
    s.stnRunStart st = ((List.range 8).foldl (fun s c => s.forceRetire st c) s).modStn st fun S => { S with phase := .starting } := by
  rw [State.stnRunStart, if_neg (by simp [run, phase, fitted])]

/-- A start with no retirement forced. -/
theorem State.stnRunStart_unforced (off : ∀ c < 8, s.rbit (aCol st c) 31 = false) :
    s.stnRunStart st = s.setStn st { s.stn st with phase := .starting } := by
  have still : (List.range 8).foldl (fun s c => s.forceRetire st c) s = s :=
    List.foldlRecOn (motive := fun u => u = s) _ _ rfl fun u e c hc => by
      rw [e]
      exact forceRetire_off (off c (List.mem_range.1 hc))
  rw [stnRunStart_accepted run phase fitted, still, State.modStn]

/-- What a start makes of the column map. -/
theorem State.stnRunStart_spec :
    let u := s.stnRunStart st
    u.stn st = { s.stn st with phase := .starting } ∧ u.hall = s.hall ∧
      (∀ c < 8, Forced (s.reg (aCol st c)) (u.reg (aCol st c))) ∧
      ∀ a, (∀ c < 8, a ≠ aCol st c) → OutsideTiles st a → u.reg a = s.reg a := by
  obtain ⟨-, h⟩ := ColumnsChange.foldl (I := fun _ => True) (s := s) (st := st) (f := fun s c => s.forceRetire st c) (R := Forced)
    trivial (fun u _ c hc => ⟨trivial, u.forceRetire_change st c, u.reg_forceRetire st hc⟩) 8 le_rfl
  rw [stnRunStart_accepted run phase fitted]
  refine ⟨?_, h.hall, h.col, h.reg⟩
  rw [stn_modStn, State.stn, h.stns]
  rfl

end

end Sys2Proof.Machine
end

/-! SUPPORT. The self-test of a station's columns and the end of its start (01 R13, R20, R33). -/

section
namespace Sys2Proof.Machine

variable {s : State} {st : Stn} {c : Nat}

/-! ### A column that is exhausted stays so (01 R20) -/

theorem State.colState_retire_exhausted (hc : c < 8) (h : s.colState st c = 2) {x : Nat} (hx : x ≤ 5) :
    (s.retire st c x).colState st c = 2 := by
  have two : nat (put (s.reg (aCol st c)) 26 2 2) 26 2 = 2 := nat_put_same _ _ _ _ (by decide)
  have again : (s.setFld (aCol st c) 26 2 2).colState st c = 2 := by
    rw [State.colState, State.fld, reg_setFld_col hc (by rw [two]; decide), two]
  rw [State.retire, if_neg (by rw [h]; decide), colState_setFld hc (by rw [again]; decide) (.inl (by omega)), again]

theorem State.colState_recordTest (hc : c < 8) (h : s.colState st c ≠ 0) {k : Nat} (hk : k ≤ 5) (serves : Bool) :
    (s.recordTest st c k serves).colState st c = s.colState st c := by
  have first := colState_setFld (v := ((s.physAt st c k).passes && serves).toNat) hc h (lo := k) (w := 1) (.inl (by omega))
  have second := colState_setFld (v := (decide ((s.physAt st c k).alu = 1)).toNat) hc (first.trans_ne h) (lo := 12 + k) (w := 1)
    (.inl (by omega))
  rw [State.recordTest, colState_setFld hc ((second.trans first).trans_ne h) (.inl (by omega)), second, first]

theorem State.colState_startTestColumn_exhausted (hc : c < 8) (h : s.colState st c = 2) : (s.startTestColumn st c).colState st c = 2 := by
  have position {k : Nat} {p : Nat → Bool} (hk : k ∈ (List.range 6).filter p) : k ≤ 5 := by
    have := List.mem_range.1 (List.mem_of_mem_filter hk)
    omega
  have retired := List.foldlRecOn (motive := fun u => State.colState u st c = 2)
    (((List.range 6).filter fun k => s.colState st c = 0 || k != s.colRet st c).filter fun k => !(s.physAt st c k).passes)
    (fun s k => if s.colState st c = 0 then (s.retire st c k).shiftColumn st c k else s.retire st c k) h fun u e k hk => by
      rw [if_neg (by rw [e]; decide)]
      exact colState_retire_exhausted hc e (position (List.mem_of_mem_filter hk))
  refine List.foldlRecOn (motive := fun u => State.colState u st c = 2) _ _ retired fun u e k hk => ?_
  rw [colState_recordTest hc (by rw [e]; decide) (position hk), e]

/-! ### A column whose tiles all pass (01 R13) -/

theorem State.physAt_of_onlyRegs {s u : State} (h : u = { s with regs := u.regs }) (c k : Nat) : u.physAt st c k = s.physAt st c k := by
  rw [h]
  rfl

/-- The word of a column once position k has passed, with no pipe spared. -/
def testRecorded (r : W32) (k : Nat) : W32 := put (put (put r k 1 (decide (k < 5)).toNat) (12 + k) 1 0) (6 + k) 1 0

theorem foldl_testRecorded (r : W32) : (List.range 6).foldl testRecorded r = (r &&& 0xFFFC0000) ||| 0x1F := by
  have whole : r = (r &&& BitVec.allOnes 32) ||| 0#32 := by rw [BitVec.and_allOnes, BitVec.or_zero]
  conv_lhs => rw [whole]
  simp only [List.range_succ, List.range_zero, List.nil_append, List.cons_append, List.foldl_cons, List.foldl_nil, testRecorded, put_masked]
  rfl

theorem nat_testRecorded (r : W32) {k : Nat} (hk : k < 6) : nat (testRecorded r k) 26 2 = nat r 26 2 := by
  rw [testRecorded, nat_put_of_disjoint _ _ _ _ (by omega), nat_put_of_disjoint _ _ _ _ (by omega), nat_put_of_disjoint _ _ _ _ (by omega)]

/-- The word of a column once the test of position k is recorded. -/
def PhysTile.recorded (p : PhysTile) (serves : Bool) (r : W32) (k : Nat) : W32 :=
  put (put (put r k 1 (p.passes && serves).toNat) (12 + k) 1 (decide (p.alu = 1)).toNat) (6 + k) 1 (decide (p.mac = 1)).toNat

theorem PhysTile.recorded_whole (r : W32) (k : Nat) : ({} : PhysTile).recorded (decide (k < 5)) r k = testRecorded r k := by
  simp [PhysTile.recorded, PhysTile.passes, testRecorded]

theorem State.recordTest_spec (hw : Registers.wf s = true) (k : Nat) (serves : Bool) :
    let u := s.recordTest st c k serves
    u = { s with regs := u.regs } ∧ Registers.wf u = true ∧
      u.reg (aCol st c) = (s.physAt st c k).recorded serves (s.reg (aCol st c)) k := by
  have first := setFld_wf s (aCol st c) k 1 ((s.physAt st c k).passes && serves).toNat hw
  have second := setFld_wf _ (aCol st c) (12 + k) 1 (decide ((s.physAt st c k).alu = 1)).toNat first
  refine ⟨?_, setFld_wf _ _ _ _ _ second, ?_⟩
  · exact onlyRegs_trans (setFld_onlyRegs ..) (onlyRegs_trans (setFld_onlyRegs ..) (setFld_onlyRegs ..))
  · rw [State.recordTest, reg_setFld_same second, reg_setFld_same first, reg_setFld_same hw, PhysTile.recorded]

theorem State.recordTest_passed {k : Nat} (phys : s.physAt st c k = {}) (hw : Registers.wf s = true) :
    let u := s.recordTest st c k (decide (k < 5))
    u = { s with regs := u.regs } ∧ Registers.wf u = true ∧ u.reg (aCol st c) = testRecorded (s.reg (aCol st c)) k := by
  obtain ⟨only, wf, reg⟩ := recordTest_spec (st := st) (c := c) hw k (decide (k < 5))
  exact ⟨only, wf, reg.trans (by rw [phys, PhysTile.recorded_whole])⟩

/-- The tests of some positions of a column, in turn. -/
theorem State.recordTests_passed (phys : ∀ k, s.physAt st c k = {}) (whole : s.colState st c = 0) (hw : Registers.wf s = true)
    (l : List Nat) (hl : ∀ k ∈ l, k < 6) :
    let u := l.foldl (fun s k => s.recordTest st c k (if s.colState st c = 0 then decide (k < 5) else k != s.colRet st c)) s
    u = { s with regs := u.regs } ∧ Registers.wf u = true ∧ u.reg (aCol st c) = l.foldl testRecorded (s.reg (aCol st c)) := by
  induction l generalizing s with
  | nil => exact ⟨rfl, hw, rfl⟩
  | cons k l ih =>
    obtain ⟨only, wf, reg⟩ := recordTest_passed (phys k) hw
    simp only [List.foldl_cons, whole, if_true]
    have phys' (j : Nat) : (s.recordTest st c k (decide (k < 5))).physAt st c j = {} := (physAt_of_onlyRegs only c j).trans (phys j)
    have whole' : (s.recordTest st c k (decide (k < 5))).colState st c = 0 := by
      rw [State.colState, State.fld, reg, nat_testRecorded _ (hl k (by simp))]
      exact whole
    obtain ⟨only', wf', reg'⟩ := ih phys' whole' wf fun j hj => hl j (by simp [hj])
    refine ⟨onlyRegs_trans only' only, wf', ?_⟩
    rw [reg', reg]

theorem State.startTestColumn_passed (phys : ∀ k, s.physAt st c k = {}) (whole : s.colState st c = 0) (hw : Registers.wf s = true) :
    let u := s.startTestColumn st c
    u = { s with regs := u.regs } ∧ Registers.wf u = true ∧ u.reg (aCol st c) = (s.reg (aCol st c) &&& 0xFFFC0000) ||| 0x1F := by
  have tested : ((List.range 6).filter fun k => s.colState st c = 0 || k != s.colRet st c) = List.range 6 := by simp [whole]
  have passing : ((List.range 6).filter fun k => !(s.physAt st c k).passes) = [] := by simp [phys, PhysTile.passes]
  obtain ⟨only, wf, reg⟩ := recordTests_passed phys whole hw (List.range 6) fun k hk => List.mem_range.1 hk
  rw [State.startTestColumn, tested, passing]
  exact ⟨only, wf, reg.trans (foldl_testRecorded _)⟩

end Sys2Proof.Machine
end

/-! SUPPORT. The reset of the station network, and the two ends of a start (01 R33). -/

section
namespace Sys2Proof.Machine

variable {s : State} {st : Stn}

/-! ### The reset of the network -/

/-- The network of a station after its reset. -/
def Station.netReset (S : Station) : Station :=
  { S with
    dueDiv := none, frameBase := 0, cycle := 0, frozen := false, halted := false
    outs := [], lastOut := [], hold := [], be := [], rr := [], resps := [], parts := []
    fixes := [], fix := none, hallSend := [], repairs := [], repairNow := none }

/-- The tile with its network unit reset. -/
def Tile.netReset (T : Tile) : Tile := { T with nu := T.nu.reset }

/-- The state once the network's registers and queues are reset, its tiles aside. -/
def State.netCleared (s : State) (st : Stn) : State :=
  ((((s.setReg (stnReg st 0x408) 0).setReg (stnReg st 0x40C) 0).setReg (stnReg st 0x410) 0).setFld (aNetStat st) 27 5 0).setStn st
    (s.stn st).netReset

theorem State.netReset_eq (s : State) (st : Stn) :
    s.netReset st = (List.finRange 40).foldl (fun s t => s.modTile st t Tile.netReset) (s.netCleared st) := rfl

theorem State.stn_foldl_modTile (g : Tile → Tile) (l : List TileNo) (x : Stn) :
    (l.foldl (fun s t => s.modTile st t g) s).stn x = s.stn x := by
  rw [foldl_modTile_eq]
  rfl

theorem State.reg_foldl_modTile (g : Tile → Tile) (l : List TileNo) (a : Nat) :
    (l.foldl (fun s t => s.modTile st t g) s).reg a = s.reg a := by
  rw [foldl_modTile_eq]
  rfl

/-- A state that differs in registers, stations and tiles. -/
def OnlyStations (s u : State) : Prop := u = { s with regs := u.regs, stns := u.stns, tiles := u.tiles }

theorem OnlyStations.trans {s v u : State} (h : OnlyStations v u) (k : OnlyStations s v) : OnlyStations s u := by
  unfold OnlyStations at *
  rw [h, k]

theorem onlyStations_of_onlyNet {s u : State} (h : u = { s with regs := u.regs, stns := u.stns }) : OnlyStations s u := by
  unfold OnlyStations
  rw [h]

theorem onlyStations_foldl_modTile (s : State) (st : Stn) (g : Tile → Tile) (l : List TileNo) :
    OnlyStations s (l.foldl (fun s t => s.modTile st t g) s) := by
  unfold OnlyStations
  rw [State.foldl_modTile_eq]

theorem OnlyStations.fields {s u : State} (h : OnlyStations s u) : u.hall = s.hall ∧ u.undef = s.undef ∧ u.mem = s.mem := by
  rw [h]
  exact ⟨rfl, rfl, rfl⟩

theorem State.netCleared_only (s : State) (st : Stn) : OnlyStations s (s.netCleared st) :=
  onlyStations_of_onlyNet <| onlyNet_trans (setStn_onlyNet ..) <| onlyNet_trans (onlyNet_of_onlyRegs (setFld_onlyRegs ..)) <|
    onlyNet_trans (setReg_onlyNet ..) <| onlyNet_trans (setReg_onlyNet ..) (setReg_onlyNet ..)

theorem State.netReset_only (s : State) (st : Stn) : OnlyStations s (s.netReset st) := by
  rw [netReset_eq]
  exact (onlyStations_foldl_modTile ..).trans (s.netCleared_only st)

theorem State.netReset_stn (s : State) (st : Stn) : (s.netReset st).stn st = (s.stn st).netReset := by
  rw [netReset_eq, stn_foldl_modTile, State.netCleared, stn_setStn]

theorem State.netReset_stn_of_ne (s : State) {st x : Stn} (h : x ≠ st) : (s.netReset st).stn x = s.stn x := by
  rw [netReset_eq, stn_foldl_modTile, State.netCleared, stn_setStn_of_ne _ _ _ _ h, setFld_stn, setReg_stn, setReg_stn, setReg_stn]

theorem State.netCleared_tile (s : State) (st x : Stn) (t : TileNo) : (s.netCleared st).tile x t = s.tile x t := by
  rw [State.netCleared, setStn_tile, setFld_tile, setReg_tile, setReg_tile, setReg_tile]

theorem State.netReset_tile (s : State) (st : Stn) (t : TileNo) : (s.netReset st).tile st t = (s.tile st t).netReset := by
  rw [netReset_eq, tile_foldl_modTile _ (List.nodup_finRange 40), if_pos (List.mem_finRange t), netCleared_tile]

theorem State.netReset_tile_of_ne (s : State) {st x : Stn} (h : x ≠ st) (t : TileNo) : (s.netReset st).tile x t = s.tile x t := by
  rw [netReset_eq, tile_foldl_modTile_of_ne _ _ h, netCleared_tile]

/-- The counters of the network restart. -/
theorem State.netReset_counters (hw : Registers.wf s = true) : ∀ o ∈ [0x408, 0x40C, 0x410], (s.netReset st).reg (stnReg st o) = 0 := by
  have first := setReg_wf s (stnReg st 0x408) 0 hw
  have second := setReg_wf _ (stnReg st 0x40C) 0 first
  intro o ho
  have stat : stnReg st o ≠ aNetStat st := by
    simp only [List.mem_cons, List.not_mem_nil, or_false] at ho
    rcases ho with rfl | rfl | rfl <;> simp [aNetStat]
  rw [netReset_eq, reg_foldl_modTile, State.netCleared, setStn_reg, reg_setFld_of_ne _ _ _ _ _ _ stat]
  simp only [List.mem_cons, List.not_mem_nil, or_false] at ho
  rcases ho with rfl | rfl | rfl
  · rw [reg_setReg_of_ne _ _ _ _ (by simp), reg_setReg_of_ne _ _ _ _ (by simp), reg_setReg_same _ _ _ hw]
  · rw [reg_setReg_of_ne _ _ _ _ (by simp), reg_setReg_same _ _ _ first]
  · rw [reg_setReg_same _ _ _ second]

/-- The column map stays. -/
theorem State.netReset_col (s : State) (st : Stn) {c : Nat} (hc : c < 8) : (s.netReset st).reg (aCol st c) = s.reg (aCol st c) := by
  have apart (o : Nat) (h : 0x200 ≤ o) : aCol st c ≠ stnReg st o := by
    rw [aCol, Ne, stnReg_inj]
    omega
  have stat : aCol st c ≠ aNetStat st := apart _ (by decide)
  rw [netReset_eq, reg_foldl_modTile, State.netCleared, setStn_reg, reg_setFld_of_ne _ _ _ _ _ _ stat,
    reg_setReg_of_ne _ _ _ _ (apart _ (by decide)), reg_setReg_of_ne _ _ _ _ (apart _ (by decide)),
    reg_setReg_of_ne _ _ _ _ (apart _ (by decide))]

/-! ### The end of a start (01 R33) -/

/-- The state once every column is tested. -/
def State.columnsTested (s : State) (st : Stn) : State := (List.range 8).foldl (fun s c => s.startTestColumn st c) s

section
variable (phase : (s.stn st).phase = .starting)
include phase

theorem State.stationStartEnd_failed {c : Nat} (hc : c < 8) (h : (s.columnsTested st).colState st c = 2) :
    s.stationStartEnd st = (s.columnsTested st).modStn st fun S => { S with phase := .none, run := .failed } := by
  have exhausted : ((List.range 8).any fun c => (s.columnsTested st).colState st c = 2) = true :=
    List.any_eq_true.2 ⟨c, List.mem_range.2 hc, by simp [h]⟩
  unfold State.stationStartEnd
  rw [if_neg (by simp [phase])]
  exact if_pos exhausted

theorem State.stationStartEnd_runs (h : ∀ c < 8, (s.columnsTested st).colState st c = 0) :
    s.stationStartEnd st = ((s.columnsTested st).netReset st).modStn st fun S => { S with phase := .none, run := .running } := by
  have sound : ((List.range 8).any fun c => (s.columnsTested st).colState st c = 2) = false :=
    List.any_eq_false.2 fun c hc => by simp [h c (List.mem_range.1 hc)]
  unfold State.stationStartEnd
  rw [if_neg (by simp [phase])]
  exact if_neg (Bool.eq_false_iff.1 sound)

end

/-- A column that is exhausted is so after the tests, which leave stations alone. -/
theorem State.columnsTested_exhausted {c : Nat} (hc : c < 8) (h : s.colState st c = 2) :
    (s.columnsTested st).colState st c = 2 ∧ (s.columnsTested st).stns = s.stns ∧ (s.columnsTested st).hall = s.hall ∧
      (s.columnsTested st).undef = s.undef := by
  obtain ⟨-, k⟩ := ColumnsChange.foldl (I := fun _ => True) (s := s) (st := st) (f := fun s c => s.startTestColumn st c)
    (R := fun r r' => nat r 26 2 = 2 → nat r' 26 2 = 2) trivial
    (fun u _ c hc => ⟨trivial, u.startTestColumn_change st c, colState_startTestColumn_exhausted hc⟩) 8 le_rfl
  exact ⟨k.col c hc h, k.stns, k.hall, k.undef⟩

theorem nat_tested (r : W32) : nat ((r &&& 0xFFFC0000) ||| 0x1F) 26 2 = nat r 26 2 := by
  refine congrArg BitVec.toNat (BitVec.eq_of_getLsbD_eq fun i hi => ?_)
  rw [BitVec.getLsbD_extractLsb', BitVec.getLsbD_extractLsb', BitVec.getLsbD_or, BitVec.getLsbD_and]
  interval_cases i <;> simp

/-- With every tile passing and no column shifted, the tests change the column map alone. -/
theorem State.columnsTested_passed (phys : ∀ c k, s.physAt st c k = {}) (whole : ∀ c < 8, s.colState st c = 0)
    (hw : Registers.wf s = true) :
    let u := s.columnsTested st
    u = { s with regs := u.regs } ∧ Registers.wf u = true ∧ (∀ c < 8, u.colState st c = 0) ∧
      ∀ c < 8, u.reg (aCol st c) = (s.reg (aCol st c) &&& 0xFFFC0000) ||| 0x1F := by
  obtain ⟨⟨only, wf, col⟩, k⟩ := ColumnsChange.foldl (s := s) (st := st) (f := fun s c => s.startTestColumn st c)
    (I := fun u => u = { s with regs := u.regs } ∧ Registers.wf u = true ∧ ∀ c < 8, u.colState st c = 0)
    (R := fun r r' => r' = (r &&& 0xFFFC0000) ||| 0x1F) ⟨rfl, hw, whole⟩
    (fun u ⟨only, wf, col⟩ c hc => by
      have passed (k : Nat) : u.physAt st c k = {} := (physAt_of_onlyRegs only c k).trans (phys c k)
      obtain ⟨only', wf', reg⟩ := startTestColumn_passed passed (col c hc) wf
      have change := u.startTestColumn_change st c
      refine ⟨⟨onlyRegs_trans only' only, wf', fun j hj => ?_⟩, change, reg⟩
      by_cases e : j = c
      · subst e
        rw [State.colState, State.fld, reg, nat_tested]
        exact col j hj
      · rw [State.colState, State.fld, change.reg _ (fun h => e (aCol_inj.1 h)) (outsideTiles_stnReg ..)]
        exact col j hj) 8 le_rfl
  exact ⟨only, wf, col, k.col⟩

theorem toNat_tested (r : W32) : ((r &&& 0xFFFC0000) ||| 0x1F).toNat % 2 ^ 18 = 0x1F := by
  have mask : (0xFFFC0000 : W32).toNat % 2 ^ 18 = 0 := by decide
  rw [BitVec.toNat_or, BitVec.toNat_and, Nat.or_mod_two_pow, Nat.and_mod_two_pow, mask, Nat.and_zero]
  rfl

/-- A station all of whose physical tiles are sound. -/
theorem State.physAt_sound (h : ∀ k : Fin 48, (s.stn st).phys[k] = {}) (c k : Nat) : s.physAt st c k = {} := by
  unfold State.physAt
  by_cases inside : 6 * c + k < 48
  · rw [List.getD_eq_getElem _ _ (by simpa using inside)]
    exact h ⟨6 * c + k, inside⟩
  · rw [List.getD_eq_default _ _ (by simpa using inside)]

/-- The state in which a start of a sound station ends. -/
theorem State.stationStartEnd_sound (phase : (s.stn st).phase = .starting) (phys : ∀ k : Fin 48, (s.stn st).phys[k] = {})
    (whole : ∀ c < 8, s.colState st c = 0) (hw : Registers.wf s = true) :
    let u := s.stationStartEnd st
    u.stn st = { (s.stn st).netReset with phase := .none, run := .running } ∧ (∀ t, u.tile st t = (s.tile st t).netReset) ∧
      (∀ o ∈ [0x408, 0x40C, 0x410], u.reg (stnReg st o) = 0) ∧
      (∀ c < 8, (u.reg (aCol st c)).toNat % 2 ^ 18 = 0x1F ∧ u.colState st c = 0) ∧ OnlyStations s u ∧
      ∀ x, x ≠ st → u.stn x = s.stn x ∧ ∀ t, u.tile x t = s.tile x t := by
  obtain ⟨only, wf, col, words⟩ := columnsTested_passed (physAt_sound phys) whole hw
  have same : OnlyStations s (s.columnsTested st) := onlyStations_of_onlyNet (onlyNet_of_onlyRegs only)
  rw [stationStartEnd_runs phase col]
  generalize s.columnsTested st = v at only wf col words same
  have stn (x : Stn) : v.stn x = s.stn x := by
    rw [only]
    rfl
  have tile (x : Stn) (t : TileNo) : v.tile x t = s.tile x t := by
    rw [only]
    rfl
  refine ⟨?_, fun t => ?_, fun o ho => ?_, fun c hc => ⟨?_, ?_⟩, ?_, fun x hx => ⟨?_, fun t => ?_⟩⟩
  · rw [stn_modStn, netReset_stn, stn]
  · rw [modStn_tile, netReset_tile, tile]
  · rw [modStn_reg, netReset_counters wf o ho]
  · rw [modStn_reg, netReset_col _ _ hc, words c hc, toNat_tested]
  · rw [State.colState, State.fld, modStn_reg, netReset_col _ _ hc]
    exact col c hc
  · exact (onlyStations_of_onlyNet (setStn_onlyNet ..)).trans ((v.netReset_only st).trans same)
  · rw [State.modStn, stn_setStn_of_ne _ _ _ _ hx, netReset_stn_of_ne _ hx, stn]
  · rw [modStn_tile, netReset_tile_of_ne _ hx, tile]

/-- The state in which a start ends where a column is exhausted. -/
theorem State.stationStartEnd_exhausted (phase : (s.stn st).phase = .starting) {c : Nat} (hc : c < 8) (h : s.colState st c = 2) :
    let u := s.stationStartEnd st
    u.stn st = { s.stn st with phase := .none, run := .failed } ∧ u.hall = s.hall ∧ u.undef = s.undef ∧
      ∀ x, x ≠ st → u.stn x = s.stn x := by
  obtain ⟨still, stns, hall, undef⟩ := columnsTested_exhausted hc h
  rw [stationStartEnd_failed phase hc still]
  generalize s.columnsTested st = v at stns hall undef
  refine ⟨?_, hall, undef, fun x hx => ?_⟩
  · rw [stn_modStn, State.stn, stns]
    rfl
  · rw [State.modStn, stn_setStn_of_ne _ _ _ _ hx, State.stn, stns]
    rfl

end Sys2Proof.Machine
end

/-! SUPPORT. Commands of a station's start while the Hall's firmware does not run (01 R33). -/

section
namespace Sys2Proof.Machine

variable {s : State} {st : Stn}

theorem State.hallReact_quiet (old : State) (h : s.hall.run ≠ .firmware) : s.hallReact old = s := by
  simp [State.hallReact, h]

theorem State.pcieResume_off (h : s.headMode = false) : s.pcieResume = s := by
  simp [State.pcieResume, State.pcieOn, h]

/-- The mode of the device is in no station. -/
theorem headMode_outside (st : Stn) : (∀ c < 8, chReg 0 ≠ aCol st c) ∧ OutsideTiles st (chReg 0) := by
  unfold OutsideTiles chReg devReg aCol stnReg stnBase
  constructor
  · intro c hc
    omega
  · omega

theorem exec_stnRunStart_quiet (run : (s.stn st).run ≠ .running) (phase : (s.stn st).phase = .none) (fitted : s.fitted st = true)
    (hall : s.hall.run ≠ .firmware) (head : s.headMode = false) : exec (.stnRunStart st) s = .next (s.stnRunStart st) := by
  obtain ⟨-, same, -, reg⟩ := State.stnRunStart_spec run phase fitted
  obtain ⟨cols, tiles⟩ := headMode_outside st
  have mode : (s.stnRunStart st).headMode = false := by
    rw [State.headMode, State.rbit, reg _ cols tiles]
    exact head
  rw [exec_stnRunStart, State.hallReact_quiet _ (by rw [same]; exact hall), State.pcieResume_off mode]

/-- The Hall has no part in the end of a start while its firmware does not run. -/
theorem exec_stationStartEnd {u : State} (h : s.noted.stationStartEnd st = u) (hall : u.hall.run ≠ .firmware) (undef : u.undef = false) :
    exec (.stationStartEnd st) s = .next u := by
  subst h
  have quiet : s.noted.hallStartEnd st = s.noted.stationStartEnd st := by simp [State.hallStartEnd, hall]
  show (s.noted.hallStartEnd st).out = _
  rw [quiet, State.out, undef]
  rfl

end Sys2Proof.Machine
end

section
open Sys2Proof Sys2Proof.Machine

/-- Settles O24, from what a start makes of each column and what the reset of the network leaves. -/
theorem stationStarts : Obligations.StationStarts := by
  unfold Obligations.StationStarts
  refine ⟨fun s st => ⟨fun run phase fitted off => ?_, fun run phase fitted hall head hw => ?_, fun ignored => ?_⟩,
    fun s st => ?_⟩
  · rw [exec_stnRunStart, State.stnRunStart_unforced run phase fitted off]
  · obtain ⟨stn, -, forced, -⟩ := State.stnRunStart_spec run phase fitted
    refine ⟨_, exec_stnRunStart_quiet run phase fitted hall head, by rw [stn], by rw [stn], fun c hc => ?_⟩
    exact forced c hc
  · rw [exec_stnRunStart, State.stnRunStart_ignored ignored]
  · intro S phase hall
    refine ⟨fun phys whole hw => ?_, fun ⟨c, hc, exhausted⟩ => ?_⟩
    · obtain ⟨stn, tiles, counters, cols, only, rest⟩ := State.stationStartEnd_sound (s := s.noted) phase phys whole hw
      obtain ⟨hallSame, undef, mem⟩ := only.fields
      refine ⟨_, exec_stationStartEnd rfl (by rw [hallSame]; exact hall) undef, ?_⟩
      rw [stn]
      exact ⟨rfl, rfl, rfl, rfl, rfl, rfl, rfl, rfl, rfl, rfl, rfl, rfl, rfl, rfl, rfl, rfl, tiles, counters, cols, mem, rest⟩
    · obtain ⟨stn, hallSame, undef, rest⟩ := State.stationStartEnd_exhausted (s := s.noted) phase hc exhausted
      refine ⟨_, exec_stationStartEnd rfl (by rw [hallSame]; exact hall) undef, ?_⟩
      rw [stn]
      exact ⟨rfl, rfl, rfl, rfl, rest⟩
end

/-! SUPPORT. Line fills, and the reload of a line from the tile's line buffer (02 R61, R62; 03 R92, R93; 15 R425, R426). -/

section
namespace Sys2Proof.Machine

variable {s : State} {st : Stn} {t : TileNo} {l : Byte} {rest : List Byte}

/-! ### Addresses of a tile's registers -/

@[simp] theorem tileReg_inj {a b : Nat} : tileReg st t a = tileReg st t b ↔ a = b := by
  unfold tileReg
  omega

theorem rsv_tileLfix : ∀ (st : Stn) (t : TileNo), ((regInfo (aLfix st t)).map RegInfo.rsv).getD 0 = 0x0FFE0000 := by
  decide

/-! ### The end of a line fill -/

/-- The tile with the line in front of its buffer, its fill over. -/
def Tile.lineHeld (T : Tile) (l : Byte) (bad : Bool) (rest : List Byte) : Tile :=
  { T with fills := rest, fillFirst := false, buf := (⟨l, bad⟩ :: T.buf.filter fun e => e.line != l).take 4 }

/-- The state with that line held, the lines that the tile waits for next to be filled. -/
def State.lineFilled (s : State) (st : Stn) (t : TileNo) (l : Byte) (bad : Bool) (rest : List Byte) : State :=
  let held := (s.tile st t).lineHeld l bad rest
  s.setTile st t (held.demand ((s.setTile st t held).neededLines st t))

/-- A reload of the line that is under way holds back a fill that had not begun. -/
theorem State.lineFill_heldBack (fills : (s.tile st t).fills = l :: rest) (pending : s.rbit (aLfix st t) 30 = true)
    (line : s.fld (aLfix st t) 0 8 = l.toNat) (late : (s.tile st t).fillFirst = false) : s.lineFill st t = s := by
  unfold State.lineFill
  simp only [fills]
  exact if_pos (.inr (.inr ⟨pending, line, by rw [late]; rfl⟩))

section
variable (run : (s.tile st t).run = .running) (unfrozen : s.haltFrozen st = false)
  (free : s.rbit (aLfix st t) 30 = true → s.fld (aLfix st t) 0 8 = l.toNat → (s.tile st t).fillFirst = true)
include run unfrozen free

/-- A fill that nothing holds back. -/
theorem lineFill_due : ¬((s.tile st t).run ≠ .running ∨ s.haltFrozen st ∨
    (s.rbit (aLfix st t) 30 ∧ s.fld (aLfix st t) 0 8 = l.toNat ∧ !(s.tile st t).fillFirst)) := by
  rintro (h | h | ⟨pending, line, late⟩)
  · exact h run
  · simp [unfrozen] at h
  · simp [free pending line] at late

variable (fills : (s.tile st t).fills = l :: rest)
include fills

theorem State.lineFill_good (good : s.lineCrc st t l = s.storedCrc st t l) : s.lineFill st t = s.lineFilled st t l false rest := by
  have due := lineFill_due run unfrozen free
  have passes : (s.lineCrc st t l != s.storedCrc st t l) = false := by simp [good]
  unfold State.lineFill
  simp only [fills, passes]
  rw [if_neg due]
  simp [State.lineFilled, Tile.lineHeld, State.modTile]

theorem State.lineFill_bad (bad : s.lineCrc st t l ≠ s.storedCrc st t l) (clear : s.rbit (aLfix st t) 16 = false) :
    s.lineFill st t =
      (((s.lineFilled st t l true rest).setFld (aLfix st t) 8 8 l.toNat).setFld (aLfix st t) 16 1 1).notify (.lineFault st t) := by
  have due := lineFill_due run unfrozen free
  have fails : (s.lineCrc st t l != s.storedCrc st t l) = true := by simpa using bad
  unfold State.lineFill
  simp only [fills, fails]
  rw [if_neg due]
  simp [clear, State.lineFilled, Tile.lineHeld, State.modTile, State.setFlag]

end

/-! ### A write of TILE_LFIX -/

theorem exec_tileLfixGo {v : W32} (v0 : v &&& 0x0FFE0000 = 0) : exec (.tileLfixGo st t v) s = (s.noted.lfixWrite st t v).1.out := by
  have clean : s.noted.reserved (aLfix st t) v = s.noted := by
    rw [State.reserved, rsv_tileLfix, v0]
    rfl
  show ((s.noted.reserved (aLfix st t) v).lfixWrite st t v).1.out = _
  rw [clean]

theorem State.lfixWrite_unfitted (h : s.fitted st = false) (v : W32) : (s.lfixWrite st t v).1 = s := by
  simp [State.lfixWrite, h]

/-- TILE_LFIX once a write with GO set is taken. -/
def lfixTaken (r v : W32) : W32 :=
  let r := (r &&& 0xCFFFFF00) ||| (v &&& 0x300000FF)
  put (if v.getLsbD 16 then put r 16 1 0 else r) 30 1 1

theorem lfixTaken_eq (r v : W32) :
    lfixTaken r v = (r &&& (if v.getLsbD 16 then 0x8FFEFF00 else 0x8FFFFF00)) ||| (v &&& 0x300000FF) ||| 0x40000000 := by
  refine BitVec.eq_of_getLsbD_eq fun i hi => ?_
  unfold lfixTaken
  split
  · simp only [getLsbD_put, BitVec.getLsbD_or, BitVec.getLsbD_and]
    interval_cases i <;> simp
  · simp only [getLsbD_put, BitVec.getLsbD_or, BitVec.getLsbD_and]
    interval_cases i <;> simp

/-- The registers as such a write leaves them. -/
def State.lfixTake (s : State) (st : Stn) (t : TileNo) (v : W32) : State :=
  let u := s.setReg (aLfix st t) ((s.reg (aLfix st t) &&& 0xCFFFFF00) ||| (v &&& 0x300000FF))
  (if v.getLsbD 16 then u.setFld (aLfix st t) 16 1 0 else u).setFld (aLfix st t) 30 1 1

theorem State.setReg_onlyRegs (s : State) (a : Nat) (v : W32) : s.setReg a v = { s with regs := (s.setReg a v).regs } := rfl

theorem State.lfixTake_spec (v : W32) (hw : Registers.wf s = true) :
    let u := s.lfixTake st t v
    u = { s with regs := u.regs } ∧ u.reg (aLfix st t) = lfixTaken (s.reg (aLfix st t)) v ∧
      ∀ x, x ≠ aLfix st t → u.reg x = s.reg x := by
  have wf := setReg_wf s (aLfix st t) ((s.reg (aLfix st t) &&& 0xCFFFFF00) ||| (v &&& 0x300000FF)) hw
  unfold State.lfixTake lfixTaken
  split
  · refine ⟨?_, ?_, fun x hx => ?_⟩
    · exact onlyRegs_trans (State.setFld_onlyRegs ..) (onlyRegs_trans (State.setFld_onlyRegs ..) (State.setReg_onlyRegs ..))
    · rw [reg_setFld_same (setFld_wf _ _ _ _ _ wf), reg_setFld_same wf, reg_setReg_same _ _ _ hw]
    · rw [reg_setFld_of_ne _ _ _ _ _ _ hx, reg_setFld_of_ne _ _ _ _ _ _ hx, reg_setReg_of_ne _ _ _ _ hx]
  · refine ⟨?_, ?_, fun x hx => ?_⟩
    · exact onlyRegs_trans (State.setFld_onlyRegs ..) (State.setReg_onlyRegs ..)
    · rw [reg_setFld_same wf, reg_setReg_same _ _ _ hw]
    · rw [reg_setFld_of_ne _ _ _ _ _ _ hx, reg_setReg_of_ne _ _ _ _ hx]

/-- GO asks for the reload of the line that is written with it, after the fill that is in progress. -/
theorem State.lfixWrite_go {v : W32} (go : v.getLsbD 31 = true) (idle : s.rbit (aLfix st t) 30 = false) (fitted : s.fitted st = true) :
    (s.lfixWrite st t v).1 = (s.lfixTake st t v).modTile st t fun T => { T with fillFirst := !T.fills.isEmpty } := by
  simp only [State.lfixWrite, State.lfixTake, fitted, idle, bit, go]
  rfl

theorem exec_tileLfixGo_unfitted {v : W32} (v0 : v &&& 0x0FFE0000 = 0) (h : s.fitted st = false) :
    exec (.tileLfixGo st t v) s = .next s.noted := by
  have same : (s.noted.lfixWrite st t v).1 = s.noted := State.lfixWrite_unfitted (s := s.noted) h v
  rw [exec_tileLfixGo v0, same]
  rfl

theorem exec_tileLfixGo_taken {v : W32} {w : State} (v0 : v &&& 0x0FFE0000 = 0) (only : w = { s.noted with regs := w.regs })
    (taken : (s.noted.lfixWrite st t v).1 = w.modTile st t fun T => { T with fillFirst := !T.fills.isEmpty }) :
    exec (.tileLfixGo st t v) s = .next (w.modTile st t fun T => { T with fillFirst := !T.fills.isEmpty }) := by
  rw [exec_tileLfixGo v0, taken, only]
  rfl

theorem exec_tileLfixGo_go {v : W32} (v0 : v &&& 0x0FFE0000 = 0) (go : v.getLsbD 31 = true) (idle : s.rbit (aLfix st t) 30 = false)
    (fitted : s.fitted st = true) (hw : Registers.wf s = true) : ∃ u, exec (.tileLfixGo st t v) s = .next u ∧
      u = { s.noted.setTile st t { s.tile st t with fillFirst := !(s.tile st t).fills.isEmpty } with regs := u.regs } ∧
      u.reg (aLfix st t) = lfixTaken (s.reg (aLfix st t)) v ∧ ∀ x, x ≠ aLfix st t → u.reg x = s.reg x := by
  have taken := State.lfixWrite_go (s := s.noted) go idle fitted
  obtain ⟨only, lfix, others⟩ := State.lfixTake_spec (s := s.noted) (st := st) (t := t) v hw
  refine ⟨_, exec_tileLfixGo_taken v0 only taken, ?_, ?_, fun x hx => ?_⟩
  · rw [only]
    rfl
  · rw [State.modTile_reg, lfix, State.noted_reg]
  · rw [State.modTile_reg, others x hx, State.noted_reg]

/-! ### Words as bytes -/

theorem getElem_leBytes : ∀ {n v j : Nat} (h : j < (leBytes n v).length), (leBytes n v)[j] = BitVec.ofNat 8 (v / 256 ^ j)
  | 0, _, _, h => absurd h (by simp)
  | n + 1, v, 0, h => by simp [leBytes]
  | n + 1, v, j + 1, h => by
    have rest : j < (leBytes n (v / 256)).length := by simpa [leBytes] using h
    simp only [leBytes, List.getElem_cons_succ]
    rw [getElem_leBytes rest, Nat.div_div_eq_div_mul, Nat.pow_succ']

theorem getElem_leBytes_word (r : W32) {j : Nat} (h : j < (leBytes 4 r.toNat).length) :
    (leBytes 4 r.toNat)[j] = r.extractLsb' (8 * j) 8 := by
  rw [getElem_leBytes, BitVec.extractLsb', Nat.shiftRight_eq_div_pow, Nat.pow_mul]

/-- The bytes of n words, in ascending order. -/
def wordBytes (f : Nat → W32) (n : Nat) : List Byte := (List.range n).flatMap fun i => leBytes 4 (f i).toNat

theorem wordBytes_succ (f : Nat → W32) (n : Nat) : wordBytes f (n + 1) = wordBytes f n ++ leBytes 4 (f n).toNat := by
  simp [wordBytes, List.range_succ]

@[simp] theorem wordBytes_length (f : Nat → W32) (n : Nat) : (wordBytes f n).length = 4 * n := by
  induction n with
  | zero => rfl
  | succ n ih =>
    rw [wordBytes_succ, List.length_append, ih, leBytes_length]
    omega

theorem getElem_wordBytes {f : Nat → W32} {n i j : Nat} (hi : i < n) (hj : j < 4) (h : 4 * i + j < (wordBytes f n).length) :
    (wordBytes f n)[4 * i + j] = (f i).extractLsb' (8 * j) 8 := by
  induction n with
  | zero => omega
  | succ n ih =>
    simp only [wordBytes_succ]
    by_cases last : i < n
    · rw [List.getElem_append_left (by rw [wordBytes_length]; omega)]
      exact ih last _
    · obtain rfl : i = n := by omega
      rw [List.getElem_append_right (by rw [wordBytes_length]; omega)]
      simp only [wordBytes_length, Nat.add_sub_cancel_left, getElem_leBytes_word]

/-! ### The end of a reload -/

/-- The bytes that a reload writes. -/
def State.lineBuffer (s : State) (st : Stn) (t : TileNo) : List Byte := wordBytes (fun i => s.reg (tileReg st t (0x400 + 4 * i))) 64

/-- The state once the line's bytes and its CRC are written. -/
def State.lineWritten (s : State) (st : Stn) (t : TileNo) (l : Byte) : State :=
  let u := s.setBytes (tileInsn st t (256 * l.toNat)) (s.lineBuffer st t)
  if s.rbit (aLfix st t) 29 then u.setReg (tileReg st t (0x1000 + 4 * l.toNat)) (s.reg (tileReg st t 0x224)) else u

/-- The tile without the buffered copy of the line, its interrupt line 7 set where the reload asks for it. -/
def Tile.lineDropped (T : Tile) (l : Byte) (swi : Bool) : Tile :=
  { T with buf := T.buf.filter fun e => e.line != l, ipend := if swi then T.ipend ||| 0x80 else T.ipend }

theorem State.reg_setBytes (s : State) (a : Nat) (bs : List Byte) (x : Nat) : (s.setBytes a bs).reg x = s.reg x := by
  simp [State.reg]

theorem State.tile_setBytes (s : State) (a : Nat) (bs : List Byte) (x : Stn) (y : TileNo) : (s.setBytes a bs).tile x y = s.tile x y := by
  simp [State.tile]

theorem putBit_swi (p : W16) : putBit p 7 true = p ||| 0x80 := by
  refine BitVec.eq_of_getLsbD_eq fun i hi => ?_
  rw [putBit, getLsbD_put, BitVec.getLsbD_or]
  interval_cases i <;> simp

/-- No CRC of a line lies in TILE_LFIX. -/
theorem lcrc_ne_lfix (l : Byte) : tileReg st t (0x1000 + 4 * l.toNat) ≠ aLfix st t := by
  rw [aLfix, Ne, tileReg_inj]
  omega

theorem State.lineWritten_byte (s : State) (st : Stn) (t : TileNo) (l : Byte) (x : Nat) :
    (s.lineWritten st t l).byte x = (s.setBytes (tileInsn st t (256 * l.toNat)) (s.lineBuffer st t)).byte x := by
  unfold State.lineWritten
  split
  · exact setReg_byte ..
  · rfl

theorem State.lineWritten_tile (s : State) (st : Stn) (t : TileNo) (l : Byte) (x : Stn) (y : TileNo) :
    (s.lineWritten st t l).tile x y = s.tile x y := by
  unfold State.lineWritten
  split
  · rw [setReg_tile, tile_setBytes]
  · exact tile_setBytes ..

theorem State.lineWritten_reg_of_ne (s : State) (st : Stn) (t : TileNo) (l : Byte) {x : Nat}
    (h : x ≠ tileReg st t (0x1000 + 4 * l.toNat)) : (s.lineWritten st t l).reg x = s.reg x := by
  unfold State.lineWritten
  split
  · rw [reg_setReg_of_ne _ _ _ _ h, reg_setBytes]
  · exact reg_setBytes ..

theorem State.lineWritten_lcrc (hw : Registers.wf s = true) : (s.lineWritten st t l).reg (tileReg st t (0x1000 + 4 * l.toNat)) =
    if s.rbit (aLfix st t) 29 then s.reg (tileReg st t 0x224) else s.reg (tileReg st t (0x1000 + 4 * l.toNat)) := by
  unfold State.lineWritten
  split
  · exact reg_setReg_same _ _ _ (by rw [Registers.wf, setBytes_regs]; exact hw)
  · exact reg_setBytes ..

theorem lineWritten_wf (hw : Registers.wf s = true) : Registers.wf (s.lineWritten st t l) = true := by
  have bytes : Registers.wf (s.setBytes (tileInsn st t (256 * l.toNat)) (s.lineBuffer st t)) = true := by
    rw [Registers.wf, State.setBytes_regs]
    exact hw
  unfold State.lineWritten
  split
  · exact setReg_wf _ _ _ bytes
  · exact bytes

theorem State.lineReloadEnd_eq (pending : s.rbit (aLfix st t) 30 = true) (line : s.fld (aLfix st t) 0 8 = l.toNat)
    (first : (s.tile st t).fillFirst = false) :
    s.lineReloadEnd st t =
      ((s.lineWritten st t l).modTile st t fun T => T.lineDropped l (s.rbit (aLfix st t) 28)).setFld (aLfix st t) 30 1 0 := by
  have swi : (s.lineWritten st t l).rbit (aLfix st t) 28 = s.rbit (aLfix st t) 28 := by
    rw [State.rbit, lineWritten_reg_of_ne _ _ _ _ (lcrc_ne_lfix l).symm, State.rbit]
  have same (a : Nat) (bs : List Byte) (i : Nat) : (s.setBytes a bs).rbit (aLfix st t) i = s.rbit (aLfix st t) i := by
    rw [State.rbit, reg_setBytes, State.rbit]
  have go : ¬(!s.rbit (aLfix st t) 30 || ((s.tile st t).run == .running && (s.tile st t).fillFirst)) = true := by simp [pending, first]
  unfold State.lineReloadEnd
  simp only [line, same, reg_setBytes, putBit_swi, BitVec.ofNat_toNat, BitVec.setWidth_eq]
  rw [if_neg go, ← swi]
  rfl

/-- What a reload that nothing holds back leaves. -/
theorem State.lineReloadEnd_spec (pending : s.rbit (aLfix st t) 30 = true) (line : s.fld (aLfix st t) 0 8 = l.toNat)
    (first : (s.tile st t).fillFirst = false) (hm : Memory.wf s = true) (hw : Registers.wf s = true) :
    let u := s.lineReloadEnd st t
    (∀ i < 64, ∀ j < 4, u.byte (tileInsn st t (256 * l.toNat + 4 * i + j)) =
        (s.reg (tileReg st t (0x400 + 4 * i))).extractLsb' (8 * j) 8) ∧
      (∀ x, x < tileInsn st t (256 * l.toNat) ∨ tileInsn st t (256 * l.toNat) + 256 ≤ x → u.byte x = s.byte x) ∧
      u.reg (aLfix st t) = s.reg (aLfix st t) &&& 0xBFFFFFFF ∧
      u.reg (tileReg st t (0x1000 + 4 * l.toNat)) =
        (if s.rbit (aLfix st t) 29 then s.reg (tileReg st t 0x224) else s.reg (tileReg st t (0x1000 + 4 * l.toNat))) ∧
      (∀ x, x ≠ aLfix st t → x ≠ tileReg st t (0x1000 + 4 * l.toNat) → u.reg x = s.reg x) ∧
      u.tile st t = (s.tile st t).lineDropped l (s.rbit (aLfix st t) 28) ∧ ∀ x y, (x, y) ≠ (st, t) → u.tile x y = s.tile x y := by
  rw [lineReloadEnd_eq pending line first]
  refine ⟨fun i hi j hj => ?_, fun x hx => ?_, ?_, ?_, fun x hx hc => ?_, ?_, fun x y h => ?_⟩
  · have at_ : tileInsn st t (256 * l.toNat + 4 * i + j) = tileInsn st t (256 * l.toNat) + (4 * i + j) := by
      unfold tileInsn
      omega
    rw [setFld_byte, modTile_byte, lineWritten_byte, at_,
      byte_setBytes_inside _ _ _ _ hm (by rw [State.lineBuffer, wordBytes_length]; omega)]
    exact getElem_wordBytes hi hj _
  · rw [setFld_byte, modTile_byte, lineWritten_byte, byte_setBytes_outside _ _ _ _ (by rw [State.lineBuffer, wordBytes_length]; omega)]
  · have wf : Registers.wf ((s.lineWritten st t l).modTile st t fun T => T.lineDropped l (s.rbit (aLfix st t) 28)) = true :=
      lineWritten_wf hw
    rw [reg_setFld_same wf, modTile_reg, lineWritten_reg_of_ne _ _ _ _ (lcrc_ne_lfix l).symm, put_fixPending]
  · rw [reg_setFld_of_ne _ _ _ _ _ _ (lcrc_ne_lfix l), modTile_reg, lineWritten_lcrc hw]
  · rw [reg_setFld_of_ne _ _ _ _ _ _ hx, modTile_reg, lineWritten_reg_of_ne _ _ _ _ hc]
  · rw [setFld_tile, tile_modTile, lineWritten_tile]
  · rw [setFld_tile, State.modTile, tile_setTile_of_ne _ _ _ _ _ _ (by simpa using h), lineWritten_tile]

end Sys2Proof.Machine
end

section
open Sys2Proof Sys2Proof.Machine

/-- Settles O23, from what the end of a fill, a write of GO and the end of a reload leave. -/
theorem lineFillsAndReloads : Obligations.LineFillsAndReloads := by
  unfold Obligations.LineFillsAndReloads
  intro s st t l rest T a r good held needed filled
  have low : s.fld a 0 8 = r.toNat % 256 := by
    rw [State.fld, nat_eq_toNat]
    simp [r]
  refine ⟨fun _ _ fills pending line late => ?_, fun run unfrozen fills free => ⟨fun passes => ?_, fun fails clear => ?_⟩,
    fun v v0 unfitted => ?_, fun v v0 go idle fitted hw => ?_, fun pending line first hm hw => ?_⟩
  · exact congrArg Host.Outcome.next (State.lineFill_heldBack fills pending (low.trans line) late)
  · have clean : decide good = true := decide_eq_true passes
    have ends := State.lineFill_good run unfrozen (fun p c => free p (low.symm.trans c)) fills passes
    have same : filled = s.lineFilled st t l false rest := by simp only [filled, needed, held, clean]; rfl
    rw [same]
    exact congrArg Host.Outcome.next ends
  · have flagged : decide good = false := decide_eq_false fails
    have ends := State.lineFill_bad run unfrozen (fun p c => free p (low.symm.trans c)) fills fails clear
    have same : filled = s.lineFilled st t l true rest := by simp only [filled, needed, held, flagged]; rfl
    rw [same]
    exact congrArg Host.Outcome.next ends
  · exact exec_tileLfixGo_unfitted v0 unfitted
  · rw [← lfixTaken_eq]
    exact exec_tileLfixGo_go v0 go idle fitted hw
  · exact ⟨_, rfl, State.lineReloadEnd_spec pending (low.trans line) first hm hw⟩
end

/-! SUPPORT. The repeat that begins a decoded instruction (03 R73 to R76; 05 R141). -/

section
namespace Sys2Proof.Machine

variable {fetch : Nat → DRes Byte}

/-- How prefixes go on from a byte: it is the head byte, or one before it of a higher rank than the one before (03 R73, R76). -/
theorem decPrefixes_step {fuel rank : Nat} {pre : Prefixes} {p : Nat} {r : Prefixes × Nat × Byte}
    (h : decPrefixes fetch (fuel + 1) rank pre p = .ok r) : ∃ b, fetch p = .ok b ∧
      ((b.toNat < 0xE0 ∧ r.1 = pre) ∨
      (0xE0 ≤ b.toNat ∧ b.toNat < 0xF0 ∧ rank < 1 ∧ ∃ c, decPrefixes fetch fuel 1 { pre with cond := c } (p + 1) = .ok r) ∨
      (0xF0 ≤ b.toNat ∧ rank < 2 ∧ ∃ q, repAt fetch p = some q ∧ decPrefixes fetch fuel 2 { pre with rep := some q } (p + 2) = .ok r) ∨
      (0xF4 ≤ b.toNat ∧ ∃ k ≥ 3, ∃ x y q, decPrefixes fetch fuel k { pre with prec := x, seg := y } q = .ok r)) := by
  rw [decPrefixes] at h
  obtain ⟨b, hb, h⟩ := DRes.bind_ok h
  refine ⟨b, hb, ?_⟩
  dsimp only at h
  by_cases head : b.toNat < 0xE0
  · rw [if_pos head] at h
    cases h
    exact .inl ⟨head, rfl⟩
  by_cases none : 0xF6 ≤ b.toNat
  · rw [if_neg head, if_pos none] at h
    cases h
  rw [if_neg head, if_neg none] at h
  by_cases cond : b.toNat < 0xF0
  · simp only [cond, if_true] at h
    split at h
    · cases h
    · exact .inr (.inl ⟨by omega, cond, by omega, _, h⟩)
  by_cases rep : b.toNat < 0xF4
  · simp only [cond, rep, if_true, if_false] at h
    split at h
    · cases h
    obtain ⟨f, hf, h⟩ := DRes.bind_ok h
    have outside : ¬(b.toNat < 0xF0 ∨ 0xF4 ≤ b.toNat) := by omega
    refine .inr (.inr (.inl ⟨by omega, by omega, ?_⟩))
    rw [repAt, hb, hf]
    simp only [if_neg outside]
    split at h
    next count => exact ⟨_, if_pos count, h⟩
    next named =>
      rw [if_neg named]
      split at h
      · cases h
      · exact ⟨_, if_pos (by omega), h⟩
  · simp only [cond, rep, if_false] at h
    refine .inr (.inr (.inr ⟨by omega, ?_⟩))
    by_cases prec : b.toNat = 0xF4
    · simp only [prec, if_true] at h
      split at h
      · cases h
      · exact ⟨3, le_rfl, _, _, _, h⟩
    · simp only [prec, if_false] at h
      split at h
      · cases h
      obtain ⟨f, -, h⟩ := DRes.bind_ok h
      simp only [show ¬b.toNat < 0xF2 by omega, if_false] at h
      split at h
      · cases h
      · exact ⟨4, by decide, _, _, _, h⟩

/-- Behind a repeat no other begins. -/
theorem decPrefixes_rep_kept : ∀ {fuel rank : Nat} {pre : Prefixes} {p : Nat} {r : Prefixes × Nat × Byte}, 2 ≤ rank →
    decPrefixes fetch fuel rank pre p = .ok r → r.1.rep = pre.rep
  | 0, _, _, _, _, _, h => nomatch h
  | fuel + 1, rank, pre, p, r, high, h => by
    obtain ⟨b, -, ⟨-, e⟩ | ⟨-, -, low, -⟩ | ⟨-, low, -⟩ | ⟨-, k, hk, x, y, q, h⟩⟩ := decPrefixes_step h
    · rw [e]
    · omega
    · omega
    · have kept := decPrefixes_rep_kept (by omega) h
      exact kept

theorem repAt_none {p : Nat} {b : Byte} (hb : fetch p = .ok b) (h : b.toNat < 0xF0 ∨ 0xF4 ≤ b.toNat) : repAt fetch p = none := by
  rw [repAt, hb]
  split
  next e _ =>
    cases e
    rw [if_pos h]
  next => rfl

/-- The prefixes that begin at a byte which is no condition have the repeat that stands there. -/
theorem decPrefixes_rep {fuel rank : Nat} {pre : Prefixes} {p : Nat} {r : Prefixes × Nat × Byte} (fresh : pre.rep = none)
    (first : ∀ b, fetch p = .ok b → rank < 1 → ¬(0xE0 ≤ b.toNat ∧ b.toNat < 0xF0))
    (h : decPrefixes fetch (fuel + 1) rank pre p = .ok r) : r.1.rep = repAt fetch p := by
  obtain ⟨b, hb, ⟨low, e⟩ | ⟨lo, hi, rank, -⟩ | ⟨-, -, q, hq, h⟩ | ⟨high, k, hk, x, y, q, h⟩⟩ := decPrefixes_step h
  · rw [e, fresh, repAt_none hb (.inl (by omega))]
  · exact absurd ⟨lo, hi⟩ (first b hb rank)
  · rw [decPrefixes_rep_kept (by decide) h, hq]
  · rw [decPrefixes_rep_kept (by omega) h, fresh, repAt_none hb (.inr high)]

theorem decodeInsn_prefixes {a : Nat} {i : Insn} (h : decodeInsn fetch a = .ok i) :
    ∃ r, decPrefixes fetch 5 0 {} a = .ok r ∧ i.pre = r.1 := by
  rw [decodeInsn] at h
  obtain ⟨r, hr, h⟩ := DRes.bind_ok h
  refine ⟨r, hr, ?_⟩
  dsimp only at h
  split at h
  · cases h
  split at h
  · obtain ⟨mask, -, h⟩ := DRes.bind_ok h
    split at h
    · cases h
    · obtain ⟨moves, -, h⟩ := DRes.bind_ok h
      cases h
      rfl
  · obtain ⟨moves, -, h⟩ := DRes.bind_ok h
    cases h
    rfl

/-- The repeat that is decoded whole is that of the instruction. -/
theorem decodedRep_of_ok {a : Nat} {i : Insn} (h : decodeInsn fetch a = .ok i) : decodedRep fetch a = i.pre.rep := by
  obtain ⟨r, hr, e⟩ : ∃ r, decPrefixes fetch 5 0 {} a = .ok r ∧ i.pre = r.1 := decodeInsn_prefixes h
  obtain ⟨b, hb, cases⟩ := decPrefixes_step hr
  rw [e, decodedRep, hb]
  by_cases cond : 0xE0 ≤ b.toNat ∧ b.toNat < 0xF0
  · simp only [if_pos cond]
    obtain ⟨low, -⟩ | ⟨-, -, -, c, h⟩ | ⟨high, -⟩ | ⟨high, -⟩ := cases
    · omega
    · exact (decPrefixes_rep rfl (fun _ _ h => absurd h (by decide)) h).symm
    · omega
    · omega
  · simp only [if_neg cond]
    refine (decPrefixes_rep rfl (fun c hc _ => ?_) hr).symm
    rw [hb] at hc
    cases hc
    exact cond

theorem repAt_count {p : Nat} {q : Rep} (h : repAt fetch p = some q) : q.count ≤ 256 := by
  unfold repAt at h
  split at h
  next b f _ _ =>
    have := f.isLt
    split at h
    · cases h
    split at h
    · cases h
      dsimp only
      split <;> omega
    split at h
    · cases h
      exact Nat.zero_le _
    · cases h
  next => cases h

theorem decodedRep_count {a : Nat} {q : Rep} (h : decodedRep fetch a = some q) : q.count ≤ 256 := by
  unfold decodedRep at h
  split at h
  · exact repAt_count h
  · cases h

end Sys2Proof.Machine
end

/-! SUPPORT. Moves between general registers, predicates, operand ports and results: which are enabled, what they read, what they write
(02 R36 to R39, R45, R49, R50). -/

section
namespace Sys2Proof.Machine

variable {s : State} {st : Stn} {t : TileNo} {T U V : Tile} {vs : List (Byte × W64)} {ms : List Move}

/-! ### Which moves are enabled (02 R36, R38) -/

/-- The condition and the guard let the move go. -/
def Tile.lets (T : Tile) (i : Insn) (m : Move) : Bool :=
  (match i.pre.cond with
    | none => true
    | some k => T.pred k) && m.enabled T

theorem Insn.enabled_eq (i : Insn) (T : Tile) : i.enabled T = i.moves.filter (T.lets i) := by
  unfold Insn.enabled Tile.lets
  cases i.pre.cond with
  | none => simp
  | some k => cases h : T.pred k <;> simp [h]

/-- Moves of which none conflicts with one before it have no duplicate. -/
theorem duplicate_none (h : ms.Pairwise fun m n => movesConflict n m = false) : duplicate ms = none := by
  have free : ∀ i ∈ List.range ms.length, (ms[i]?.bind fun m => if (ms.take i).any (movesConflict m) then some m.dpos else none) = none := by
    intro i hi
    have hi := List.mem_range.1 hi
    have quiet : (ms.take i).any (movesConflict ms[i]) = false := by
      rw [List.any_eq_false]
      intro n hn
      obtain ⟨j, hj, rfl⟩ := List.mem_take_iff_getElem.1 hn
      simp [List.pairwise_iff_getElem.1 h j i (by omega) hi (by omega)]
    rw [List.getElem?_eq_getElem hi, Option.bind_some, quiet]
    rfl
  rw [duplicate, List.filterMap_eq_nil_iff.2 free]
  rfl

/-- A destination that is a register, a predicate or an operand port. -/
def Dest.plain : Dest → Bool
  | .reg _ | .pred _ | .opnd _ => true
  | _ => false

/-- Two destinations of which one is plain conflict only where they are one. -/
theorem movesConflict_false {m n : Move} (hm : destOf m.dstByte = some m.dst) (hn : destOf n.dstByte = some n.dst)
    (plain : n.dst.plain = true) (h : m.dst ≠ n.dst) : movesConflict m n = false := by
  have byte : m.dstByte ≠ n.dstByte := fun e => h (Option.some.inj (by rw [← hm, ← hn, e]))
  unfold movesConflict
  split
  next x y _ e => simp [Dest.plain, e] at plain
  next => simp [byte]

/-! ### What is read (02 R39, R45) -/

/-- A source that is an immediate, a register, a predicate or a result that is shown at once. -/
def Source.plain : Source → Bool
  | .imm | .reg _ | .pred _ | .aluR _ | .shfR | .lsuR | .cuR => true
  | _ => false

/-- What a plain source other than an immediate shows. -/
def Tile.shows (T : Tile) : Source → W64
  | .reg k => T.q[k]
  | .pred k => if T.pred k then 1 else 0
  | .aluR n => T.aluR[n]
  | .shfR => T.shfR
  | .lsuR => T.ld3.getD T.lsuR
  | .cuR => T.cuR
  | _ => 0

/-- The value of a move of a plain source. -/
def Tile.carried (T : Tile) (m : Move) : W64 := if m.src = .imm then m.imm else T.shows m.src

theorem readSource_plain (m : Move) (u : State) (plain : m.src.plain = true) (idle : (s.tile st t).flights = []) :
    readSource s st t m u = .val ((s.tile st t).carried m) u := by
  have free (x : UnitId) : (s.tile st t).busy x = false := by simp [Tile.busy, idle]
  cases e : m.src with
  | imm => simp [readSource, Tile.carried, e]
  | reg k => simp [readSource, Tile.carried, Tile.shows, e]
  | pred k =>
    have shown : flag ((s.tile st t).pred k) = (if (s.tile st t).pred k then 1 else 0 : W64) := by
      cases (s.tile st t).pred k <;> rfl
    simp [readSource, Tile.carried, Tile.shows, e, shown]
  | aluR n => simp [readSource, Tile.carried, Tile.shows, e, free]
  | shfR => simp [readSource, Tile.carried, Tile.shows, e, free]
  | lsuR => simp [readSource, Tile.carried, Tile.shows, e]
  | cuR => simp [readSource, Tile.carried, Tile.shows, e]
  | _ => simp [Source.plain, e] at plain

/-- Every value read so far is what the source of its byte shows. -/
def ReadsShown (T : Tile) (vs : List (Byte × W64)) : Prop :=
  ∀ b v, vs.lookup b = some v → ∃ x, sourceOf b = some x ∧ v = T.shows x

theorem ReadsShown.cons {b : Byte} {x : Source} (h : ReadsShown T vs) (hb : sourceOf b = some x) :
    ReadsShown T ((b, T.shows x) :: vs) := by
  intro c v hv
  rw [List.lookup_cons] at hv
  split at hv
  next e =>
    cases hv
    exact ⟨x, by rw [eq_of_beq e, hb], rfl⟩
  next => exact h c v hv

/-- Plain sources are all read at once, each as the tile shows it; the state stays. -/
theorem readMoves_plain (u : State) (idle : (s.tile st t).flights = []) (plain : ∀ m ∈ ms, m.src.plain = true)
    (named : ∀ m ∈ ms, sourceOf m.srcByte = some m.src) (h : ReadsShown (s.tile st t) vs) :
    ∃ ws, readMoves s st t ms vs u = .vals ws u ∧ ReadsShown (s.tile st t) ws ∧
      (∀ b, (vs.lookup b).isSome → (ws.lookup b).isSome) ∧ ∀ m ∈ ms, m.src ≠ .imm → (ws.lookup m.srcByte).isSome := by
  induction ms generalizing vs with
  | nil => exact ⟨vs, rfl, h, fun _ => id, by simp⟩
  | cons m ms ih =>
    simp only [List.mem_cons, forall_eq_or_imp] at plain named
    rw [readMoves]
    split
    next known =>
      obtain ⟨ws, e, shown, kept, all⟩ := ih plain.2 named.2 h
      refine ⟨ws, e, shown, kept, ?_⟩
      rw [List.forall_mem_cons]
      exact ⟨fun other => kept _ (known.resolve_left other), all⟩
    next fresh =>
      have other : m.src ≠ .imm := fun e => fresh (.inl e)
      rw [readSource_plain m u plain.1 idle, Tile.carried, if_neg other]
      obtain ⟨ws, e, shown, kept, all⟩ := ih plain.2 named.2 (h.cons named.1)
      refine ⟨ws, e, shown, fun b hb => kept b ?_, ?_⟩
      · rw [List.lookup_cons]
        split
        · rfl
        · exact hb
      · rw [List.forall_mem_cons]
        exact ⟨fun _ => kept _ (by simp), all⟩

theorem ReadsShown.value {m : Move} (h : ReadsShown T vs) (named : sourceOf m.srcByte = some m.src)
    (read : m.src ≠ .imm → (vs.lookup m.srcByte).isSome) : m.value vs = T.carried m := by
  unfold Move.value Tile.carried
  split
  · rfl
  next other =>
    obtain ⟨v, hv⟩ := Option.isSome_iff_exists.1 (read other)
    obtain ⟨x, hx, e⟩ := h _ _ hv
    rw [hv, Option.getD_some, e, Option.some.inj (hx.symm.trans named)]

/-- The reads of an instruction of plain sources. -/
theorem readMoves_carried (idle : (s.tile st t).flights = []) (plain : ∀ m ∈ ms, m.src.plain = true)
    (named : ∀ m ∈ ms, sourceOf m.srcByte = some m.src) :
    ∃ vs, readMoves s st t ms [] s = .vals vs s ∧ ∀ m ∈ ms, m.value vs = (s.tile st t).carried m := by
  obtain ⟨vs, e, shown, -, all⟩ := readMoves_plain s idle plain named (vs := []) (fun _ _ h => by simp at h)
  exact ⟨vs, e, fun m hm => shown.value (named m hm) (all m hm)⟩

/-! ### What is written (02 R36, R43, R49) -/

/-- Nothing but registers, predicates and operand ports changes. -/
def OnlyPorts (T U : Tile) : Prop := U = { T with q := U.q, preds := U.preds, opnd := U.opnd }

theorem Tile.write_onlyPorts (T : Tile) {d : Dest} (v : W64) (plain : d.plain = true) : OnlyPorts T (T.write d v) := by
  unfold Tile.write
  split
  · rfl
  · split <;> rfl
  · rfl
  · simp [Dest.plain] at plain
  · rfl

theorem OnlyPorts.trans (h : OnlyPorts U V) (k : OnlyPorts T U) : OnlyPorts T V := by
  unfold OnlyPorts at *
  rw [h, k]

theorem Tile.writeAll_onlyPorts (T : Tile) (vs : List (Byte × W64)) (plain : ∀ m ∈ ms, m.dst.plain = true) :
    OnlyPorts T (T.writeAll vs ms) := by
  induction ms generalizing T with
  | nil => rfl
  | cons m ms ih =>
    rw [List.forall_mem_cons] at plain
    exact (ih (T.write m.dst (m.value vs)) plain.2).trans (T.write_onlyPorts _ plain.1)

/-- What stands at a plain destination. -/
def Tile.at (T : Tile) : Dest → W64
  | .reg k => T.q[k]
  | .pred k => if T.preds.getLsbD k.val then 1 else 0
  | .opnd k => T.opnd[k]
  | _ => 0

/-- What a destination keeps of a value: a predicate its bit 0 (02 R49). -/
def Dest.keeps : Dest → W64 → W64
  | .pred _, v => if v.getLsbD 0 then 1 else 0
  | _, v => v

theorem getLsbD_putBit {n : Nat} (x : BitVec n) (i j : Nat) (b : Bool) :
    (putBit x i b).getLsbD j = if j = i then decide (j < n) && b else x.getLsbD j := by
  rw [putBit, getLsbD_put]
  by_cases h : j = i
  · subst h
    cases b <;> simp
  · rw [if_neg h, if_neg (by omega)]

theorem Tile.write_p0 (T : Tile) (v : W64) : T.write (.pred 0) v = T := rfl

theorem Tile.write_pred (T : Tile) {k : Fin 16} (v : W64) (h : k ≠ 0) :
    T.write (.pred k) v = { T with preds := putBit T.preds k.val (v.getLsbD 0) } := if_neg h

theorem Tile.at_write_same (T : Tile) {d : Dest} (v : W64) (plain : d.plain = true) (h : d ≠ .pred 0) :
    (T.write d v).at d = d.keeps v := by
  cases d with
  | reg k => simp [Tile.write, Tile.at, Dest.keeps]
  | opnd k => simp [Tile.write, Tile.at, Dest.keeps]
  | pred k =>
    have other : k ≠ 0 := fun e => h (by rw [e])
    rw [T.write_pred v other]
    simp only [Tile.at, Dest.keeps, getLsbD_putBit, if_true, k.isLt, decide_true, Bool.true_and]
  | _ => simp [Dest.plain] at plain

theorem Tile.at_write_of_ne (T : Tile) {d e : Dest} (v : W64) (plain : d.plain = true) (h : d ≠ e) : (T.write d v).at e = T.at e := by
  cases d with
  | reg k =>
    cases e with
    | reg j =>
      have apart : k.val ≠ j.val := fun x => h (by rw [Fin.ext x])
      simp [Tile.write, Tile.at, apart]
    | _ => rfl
  | opnd k =>
    cases e with
    | opnd j =>
      have apart : k.val ≠ j.val := fun x => h (by rw [Fin.ext x])
      simp [Tile.write, Tile.at, apart]
    | _ => rfl
  | pred k =>
    by_cases zero : k = 0
    · rw [zero, T.write_p0]
    · rw [T.write_pred v zero]
      cases e with
      | pred j =>
        have apart : j.val ≠ k.val := fun x => h (by rw [Fin.ext x])
        simp only [Tile.at, getLsbD_putBit, if_neg apart]
      | _ => rfl
  | _ => simp [Dest.plain] at plain

/-- What a destination is written, if it is. -/
def written (ms : List Move) (value : Move → W64) (d : Dest) (old : W64) : W64 :=
  match ms.find? fun m => m.dst == d with
  | none => old
  | some m => value m

theorem written_cons_same {m : Move} {value : Move → W64} {d : Dest} (h : m.dst = d) (old : W64) :
    written (m :: ms) value d old = value m := by
  simp [written, h]

theorem written_cons_of_ne {m : Move} {value : Move → W64} {d : Dest} (h : m.dst ≠ d) (old : W64) :
    written (m :: ms) value d old = written ms value d old := by
  simp [written, h]

theorem written_absent {value : Move → W64} {d : Dest} (h : ∀ m ∈ ms, m.dst ≠ d) (old : W64) : written ms value d old = old := by
  have none : (ms.find? fun m => m.dst == d) = none := List.find?_eq_none.2 fun m hm => by simpa using h m hm
  rw [written, none]

theorem written_congr {f g : Move → W64} (h : ∀ m ∈ ms, f m = g m) (d : Dest) (old : W64) : written ms f d old = written ms g d old := by
  unfold written
  split
  next => rfl
  next m e => exact h m (List.mem_of_find?_eq_some e)

theorem Dest.keeps_at (T : Tile) (d : Dest) : d.keeps (T.at d) = T.at d := by
  cases d with
  | pred k => cases h : T.preds.getLsbD k.val <;> simp only [Tile.at, Dest.keeps, h] <;> rfl
  | _ => rfl

theorem Dest.keeps_keeps (d : Dest) (v : W64) : d.keeps (d.keeps v) = d.keeps v := by
  cases d with
  | pred k => cases h : v.getLsbD 0 <;> simp only [Dest.keeps, h] <;> rfl
  | _ => rfl

/-- Moves to destinations of their own: each destination holds what its move carries. -/
theorem Tile.at_writeAll (T : Tile) (plain : ∀ m ∈ ms, m.dst.plain = true) (apart : ms.Pairwise fun m n => m.dst ≠ n.dst) {d : Dest}
    (hd : d ≠ .pred 0) : (T.writeAll vs ms).at d = d.keeps (written ms (Move.value vs) d (T.at d)) := by
  induction ms generalizing T with
  | nil => exact (Dest.keeps_at T d).symm
  | cons m ms ih =>
    rw [List.forall_mem_cons] at plain
    obtain ⟨first, rest⟩ := List.pairwise_cons.1 apart
    refine (ih (T.write m.dst (m.value vs)) plain.2 rest).trans ?_
    by_cases h : m.dst = d
    · subst h
      rw [written_cons_same rfl, written_absent fun n hn => (first n hn).symm, T.at_write_same _ plain.1 hd, Dest.keeps_keeps]
    · rw [written_cons_of_ne h, T.at_write_of_ne _ plain.1 h]

/-- Predicate 0 stays (02 R49). -/
theorem Tile.writeAll_p0 (T : Tile) (plain : ∀ m ∈ ms, m.dst.plain = true) :
    (T.writeAll vs ms).preds.getLsbD 0 = T.preds.getLsbD 0 := by
  induction ms generalizing T with
  | nil => rfl
  | cons m ms ih =>
    rw [List.forall_mem_cons] at plain
    refine (ih (T.write m.dst (m.value vs)) plain.2).trans ?_
    cases h : m.dst with
    | pred k =>
      by_cases zero : k = 0
      · rw [zero, T.write_p0]
      · have apart : 0 ≠ k.val := fun x => zero (Fin.ext x.symm)
        rw [T.write_pred _ zero, getLsbD_putBit, if_neg apart]
    | tail k => simp [Dest.plain, h] at plain
    | _ => rfl

end Sys2Proof.Machine
end

/-! SUPPORT. What completing an instruction or an iteration does besides its moves: the load line, the counts, the lines wanted, and where
the offset goes (02 R54 to R56, R68; 05 R135 to R143). -/

section
namespace Sys2Proof.Machine

variable {s : State} {st : Stn} {t : TileNo} {T U V old : Tile} {i : Insn}

/-! ### What completing changes of a tile -/

/-- Nothing but the instruction buffer, the repeat, the deferral window and the operations in flight changes. -/
def OnlyCounts (T U : Tile) : Prop :=
  U = { T with
    buf := U.buf, fills := U.fills, prevLine := U.prevLine, rc := U.rc, rip := U.rip, repu := U.repu, window := U.window
    flights := U.flights }

/-- Nothing but these, the offset, the pending transfer and the return stack changes. -/
def OnlySequence (T U : Tile) : Prop :=
  U = { T with
    buf := U.buf, fills := U.fills, prevLine := U.prevLine, rc := U.rc, rip := U.rip, repu := U.repu, window := U.window
    flights := U.flights, pc := U.pc, slot := U.slot, pkind := U.pkind, pendVal := U.pendVal, rs := U.rs, rspPtr := U.rspPtr
    rspCnt := U.rspCnt }

theorem OnlyCounts.refl (T : Tile) : OnlyCounts T T := rfl

theorem OnlyCounts.trans (h : OnlyCounts U V) (k : OnlyCounts T U) : OnlyCounts T V := by
  unfold OnlyCounts at *
  rw [h, k]

theorem OnlySequence.trans (h : OnlySequence U V) (k : OnlySequence T U) : OnlySequence T V := by
  unfold OnlySequence at *
  rw [h, k]

theorem OnlyCounts.sequence (h : OnlyCounts T U) : OnlySequence T U := by
  unfold OnlyCounts OnlySequence at *
  rw [h]

theorem OnlyCounts.turn (h : OnlyCounts T U) (n : Nat) : OnlyCounts (T.turn n) (U.turn n) := by
  unfold OnlyCounts at *
  rw [h]
  rfl

theorem OnlyCounts.write (h : OnlyCounts T U) {d : Dest} (v : W64) (plain : d.plain = true) : OnlyCounts (T.write d v) (U.write d v) := by
  unfold OnlyCounts at *
  rw [h]
  cases d with
  | reg k => rfl
  | opnd k => rfl
  | pred k =>
    by_cases zero : k = 0
    · subst zero
      rfl
    · rw [Tile.write_pred _ _ zero, Tile.write_pred _ _ zero]
  | _ => simp [Dest.plain] at plain

theorem OnlyCounts.writeAll {ms : List Move} (h : OnlyCounts T U) (vs : List (Byte × W64)) (plain : ∀ m ∈ ms, m.dst.plain = true) :
    OnlyCounts (T.writeAll vs ms) (U.writeAll vs ms) := by
  induction ms generalizing T U with
  | nil => exact h
  | cons m ms ih =>
    rw [List.forall_mem_cons] at plain
    exact ih (h.write _ plain.1) plain.2

/-! ### Lines wanted (02 R61; 03 R92, R93) -/

/-- Nothing but the lines of the instruction buffer and the fills changes. -/
def OnlyLines (T U : Tile) : Prop := U = { T with buf := U.buf, fills := U.fills }

theorem OnlyLines.trans (h : OnlyLines U V) (k : OnlyLines T U) : OnlyLines T V := by
  unfold OnlyLines at *
  rw [h, k]

theorem Tile.wantLine_lines (T : Tile) (l : Byte) (needed : Bool) : OnlyLines T (T.wantLine l needed) := by
  unfold Tile.wantLine
  split
  · rfl
  split
  · rfl
  split
  · rfl
  split
  · rfl
  split <;> rfl

theorem Tile.wantTarget_lines (T : Tile) : OnlyLines T T.wantTarget := by
  unfold Tile.wantTarget
  split
  · exact T.wantLine_lines ..
  · rfl

theorem Tile.touchLines_lines (T : Tile) (first : Bool) (a len : Nat) : OnlyLines T (T.touchLines first a len) := by
  unfold Tile.touchLines
  dsimp only
  split
  · exact (Tile.wantLine_lines ..).trans rfl
  · rfl

/-! ### The instruction completed (02 R54; 05 R141, R159) -/

/-- The operations in flight once the instruction has completed: those it made hold the next one back where it is precise (05 R159). -/
def Tile.flightsAfter (T old : Tile) (i : Insn) : List Flight :=
  if i.pre.prec || pswPrec old.psw then T.holdNew.flights else T.flights

/-- The tile once an instruction's lines are the last used and the lines it wants are asked for. -/
def Tile.ended (T old : Tile) (i : Insn) (first : Bool) : Tile :=
  let T := (if old.pkind = .none then T.wantTarget else T).touchLines first old.pc.toNat i.len
  if i.pre.prec || pswPrec old.psw then T.holdNew else T

theorem Tile.ended_eq (T old : Tile) (i : Insn) (first : Bool) :
    T.ended old i first = { T with
      buf := (T.ended old i first).buf, fills := (T.ended old i first).fills, flights := T.flightsAfter old i } := by
  have wanted : OnlyLines T (if old.pkind = .none then T.wantTarget else T) := by
    split
    · exact T.wantTarget_lines
    · rfl
  have lines := (Tile.touchLines_lines _ first old.pc.toNat i.len).trans wanted
  unfold Tile.ended Tile.flightsAfter
  dsimp only
  generalize Tile.touchLines _ first old.pc.toNat i.len = W at lines
  unfold OnlyLines at lines
  split
  · rw [lines]
    rfl
  · exact lines

/-- The counters of instructions and of split issues as an instruction completes (02 R52, R68). -/
def State.counted (s : State) (st : Stn) (t : TileNo) (i : Insn) : State :=
  let s := s.bump (tileReg st t 0x200) 1
  if i.cycles = 2 then s.bump (tileReg st t 0x208) 1 else s

@[simp] theorem State.counted_tile (s : State) (st : Stn) (t : TileNo) (i : Insn) (x : Stn) (y : TileNo) :
    (s.counted st t i).tile x y = s.tile x y := by
  unfold State.counted
  split
  · rw [bump_tile, bump_tile]
  · rw [bump_tile]

@[simp] theorem State.counted_byte (s : State) (st : Stn) (t : TileNo) (i : Insn) (a : Nat) : (s.counted st t i).byte a = s.byte a := by
  unfold State.counted
  split
  · rw [bump_byte, bump_byte]
  · rw [bump_byte]

@[simp] theorem State.counted_undef (s : State) (st : Stn) (t : TileNo) (i : Insn) : (s.counted st t i).undef = s.undef := by
  unfold State.counted
  split
  · rw [bump_undef, bump_undef]
  · rw [bump_undef]

@[simp] theorem State.counted_stns (s : State) (st : Stn) (t : TileNo) (i : Insn) : (s.counted st t i).stns = s.stns := by
  unfold State.counted
  split
  · rw [bump_stns, bump_stns]
  · rw [bump_stns]

@[simp] theorem State.counted_core (s : State) (st : Stn) (t : TileNo) (i : Insn) : (s.counted st t i).core = s.core := by
  unfold State.counted
  split
  · rw [bump_core, bump_core]
  · rw [bump_core]

theorem counted_wf (hw : Registers.wf s = true) : Registers.wf (s.counted st t i) = true := by
  unfold State.counted
  split
  · exact bump_wf _ _ _ (bump_wf _ _ _ hw)
  · exact bump_wf _ _ _ hw

theorem State.counted_reg (hw : Registers.wf s = true) :
    (s.counted st t i).reg (tileReg st t 0x200) = s.reg (tileReg st t 0x200) + 1 ∧
      (s.counted st t i).reg (tileReg st t 0x208) = s.reg (tileReg st t 0x208) + (if i.overPort = none then 0 else 1) ∧
      ∀ a, a ≠ tileReg st t 0x200 → a ≠ tileReg st t 0x208 → (s.counted st t i).reg a = s.reg a := by
  have apart : tileReg st t 0x208 ≠ tileReg st t 0x200 := by simp
  have wf := bump_wf s (tileReg st t 0x200) 1 hw
  unfold State.counted Insn.cycles
  cases h : i.overPort with
  | none =>
    simp only [Option.isSome_none, Bool.false_eq_true, if_false, if_true, OfNat.one_ne_ofNat]
    exact ⟨reg_bump_same hw _ _, (reg_bump_of_ne _ _ _ _ apart).trans (BitVec.add_zero _).symm, fun a ha _ => reg_bump_of_ne _ _ _ _ ha⟩
  | some e =>
    simp only [Option.isSome_some, if_true, reduceCtorEq, if_false]
    refine ⟨?_, ?_, fun a ha hb => ?_⟩
    · rw [reg_bump_of_ne _ _ _ _ apart.symm, reg_bump_same hw]
      rfl
    · rw [reg_bump_same wf, reg_bump_of_ne _ _ _ _ apart]
      rfl
    · rw [reg_bump_of_ne _ _ _ _ hb, reg_bump_of_ne _ _ _ _ ha]

/-- The tile of a state whose instruction completes, with its lines and its operations in flight as they then are. -/
def State.ended (s : State) (st : Stn) (t : TileNo) (old : Tile) (i : Insn) : Tile :=
  let u := s.counted st t i
  (u.tile st t).ended old i (u.firstInLine st t (u.tile st t) old.pc.toNat)

theorem State.ended_eq (s : State) (st : Stn) (t : TileNo) (old : Tile) (i : Insn) :
    s.ended st t old i = { s.tile st t with
      buf := (s.ended st t old i).buf, fills := (s.ended st t old i).fills, flights := (s.tile st t).flightsAfter old i } := by
  have e := Tile.ended_eq ((s.counted st t i).tile st t) old i
    ((s.counted st t i).firstInLine st t ((s.counted st t i).tile st t) old.pc.toNat)
  rw [State.ended, e, counted_tile]

/-- An iteration that is not the last stays at its instruction (05 R141). -/
theorem State.finish_repeats (s : State) (st : Stn) (t : TileNo) (old : Tile) (i : Insn) (n : Nat) :
    ∃ U, s.finish st t old i (some (n + 2)) = (s.counted st t i).setTile st t U ∧ OnlyCounts (s.tile st t) U ∧
      U.flights = (s.tile st t).flightsAfter old i ∧ U.rc = BitVec.ofNat 16 (n + 1) ∧ U.rip = true ∧ U.window = (s.tile st t).window := by
  refine ⟨{ s.ended st t old i with rc := BitVec.ofNat 16 (n + 1), rip := true }, rfl, ?_⟩
  rw [s.ended_eq]
  exact ⟨rfl, rfl, rfl, rfl, rfl⟩

/-! ### Where the offset goes (05 R135, R136, R138) -/

theorem Tile.advance_sequence (T old : Tile) (next : W16) : OnlySequence T (T.advance old next) := by
  unfold Tile.advance
  split
  · rfl
  split
  · rfl
  split <;> rfl

/-- Neither the operations in flight nor the repeat depend on where the offset goes. -/
theorem Tile.advance_kept (T old : Tile) (next : W16) :
    (T.advance old next).flights = T.flights ∧ (T.advance old next).rc = T.rc ∧ (T.advance old next).rip = T.rip := by
  unfold Tile.advance
  split
  · exact ⟨rfl, rfl, rfl⟩
  split
  · exact ⟨rfl, rfl, rfl⟩
  split <;> exact ⟨rfl, rfl, rfl⟩

theorem OnlyCounts.advance (h : OnlyCounts T U) (next : W16) : OnlyCounts (T.advance old next) (U.advance old next) := by
  unfold OnlyCounts at *
  rw [h]
  unfold Tile.advance
  dsimp only
  split
  · rfl
  split
  · rfl
  split <;> rfl

/-- The tile of which the repeat is over; `none` is an instruction without one. -/
def Tile.repeatOver (T old : Tile) (rep : Option Nat) : Tile :=
  if rep.isSome then
    { T with rc := 0, rip := false, repu := false
             window := match T.window with
               | some w => if w.byRepu && old.repu then none else some w
               | none => none }
  else T

theorem Tile.repeatOver_counts (T old : Tile) (rep : Option Nat) : OnlyCounts T (T.repeatOver old rep) := by
  unfold Tile.repeatOver
  split <;> rfl

/-- The tile at the next instruction. -/
def State.nextTile (s : State) (st : Stn) (t : TileNo) (old : Tile) (i : Insn) (rep : Option Nat) : Tile :=
  let T := (s.ended st t old i).repeatOver old rep
  { T.advance old (old.pc + BitVec.ofNat 16 i.len) with
    prevLine := if old.slot = 2 ∧ T.pkind ≠ .none then none else some (bits old.pc 8 8) }

theorem State.finish_last (s : State) (st : Stn) (t : TileNo) (old : Tile) (i : Insn) {rep : Option Nat} (last : ∀ n, rep ≠ some (n + 2)) :
    s.finish st t old i rep =
      let T := (s.ended st t old i).repeatOver old rep
      if decide (old.slot = 2) && T.pkind == .eret then
        ((s.counted st t i).setTile st t { s.nextTile st t old i rep with pendVal := T.pendVal }).eretReturn st t old.pc
      else (s.counted st t i).setTile st t (s.nextTile st t old i rep) := by
  match rep with
  | none => rfl
  | some 0 => rfl
  | some 1 => rfl
  | some (n + 2) => exact absurd rfl (last n)

/-- An instruction or a last iteration without the return of an `eret` moves the offset on (05 R135, R141). -/
theorem State.finish_moves_on (s : State) (st : Stn) (t : TileNo) {old : Tile} (i : Insn) {rep : Option Nat}
    (last : ∀ n, rep ≠ some (n + 2)) (stays : ¬(old.slot = 2 ∧ (s.tile st t).pkind = .eret)) :
    ∃ U, s.finish st t old i rep = (s.counted st t i).setTile st t U ∧
      OnlyCounts ((s.tile st t).advance old (old.pc + BitVec.ofNat 16 i.len)) U ∧
      U.flights = (s.tile st t).flightsAfter old i ∧ (rep = none → U.rc = (s.tile st t).rc ∧ U.rip = (s.tile st t).rip) ∧
      (rep ≠ none → U.rc = 0 ∧ U.rip = false) := by
  have counts : OnlyCounts (s.tile st t) ((s.ended st t old i).repeatOver old rep) := by
    refine (Tile.repeatOver_counts ..).trans ?_
    rw [s.ended_eq]
    rfl
  have pkind : ((s.ended st t old i).repeatOver old rep).pkind = (s.tile st t).pkind :=
    (congrArg Tile.pkind counts).trans rfl
  have moved := counts.advance (old := old) (old.pc + BitVec.ofNat 16 i.len)
  obtain ⟨flights, rc, rip⟩ := ((s.ended st t old i).repeatOver old rep).advance_kept old (old.pc + BitVec.ofNat 16 i.len)
  refine ⟨s.nextTile st t old i rep, ?_, OnlyCounts.trans rfl moved, flights.trans ?_, fun h => ⟨rc.trans ?_, rip.trans ?_⟩,
    fun h => ⟨rc.trans ?_, rip.trans ?_⟩⟩
  · rw [s.finish_last st t old i last]
    refine if_neg ?_
    simpa [pkind] using stays
  · rw [Tile.repeatOver, s.ended_eq]
    split <;> rfl
  · rw [h, Tile.repeatOver, s.ended_eq]
    rfl
  · rw [h, Tile.repeatOver, s.ended_eq]
    rfl
  · rw [Tile.repeatOver, if_pos (Option.isSome_iff_ne_none.2 h)]
  · rw [Tile.repeatOver, if_pos (Option.isSome_iff_ne_none.2 h)]

/-! ### What the next offset and the pending transfer are (05 R135, R136, R138) -/

theorem Tile.advance_slot0 {next : W16} (h : old.slot = 0) (kind : T.pkind = .none) :
    T.advance old next = { T with pc := next, slot := 0 } := by
  simp [Tile.advance, h, kind]

theorem Tile.advance_slot1 {next : W16} (h : old.slot = 1) : T.advance old next = { T with pc := next, slot := 2 } := by
  simp [Tile.advance, h]

theorem Tile.advance_slot2 {next : W16} (h : old.slot = 2) (kind : T.pkind ≠ .eret) :
    let U := T.advance old next
    U.slot = 0 ∧ U.pc = (if T.pkind = .none ∨ T.pkind = .sys then next else T.pendVal.extractLsb' 0 16) ∧
      U.pkind = (if T.pkind = .sys then .sys else .none) ∧ (T.pkind = .sys → U.pendVal = T.pendVal) := by
  have outside : ¬old.slot = 0 ∧ ¬old.slot = 1 := by simp [h]
  unfold Tile.advance
  rw [if_neg outside.1, if_neg outside.2]
  cases e : T.pkind with
  | eret => exact absurd e kind
  | _ => simp [bits]

/-- A `call` pushes the offset that follows as it takes effect. -/
theorem Tile.advance_call {next : W16} (h : old.slot = 2) (kind : T.pkind = .call) :
    let U := T.advance old next
    U.rs = T.rs.set T.rspPtr.toNat next ∧ U.rspPtr = T.rspPtr + 1 ∧ U.rspCnt.toNat = min 16 (T.rspCnt.toNat + 1) := by
  have outside : ¬old.slot = 0 ∧ ¬old.slot = 1 := by simp [h]
  unfold Tile.advance
  rw [if_neg outside.1, if_neg outside.2, kind]
  refine ⟨rfl, rfl, ?_⟩
  simp only [Tile.pushReturn]
  split
  · simp
    omega
  · bv_omega

theorem Tile.advance_rs {next : W16} (h : ¬(old.slot = 2 ∧ T.pkind = .call)) :
    (T.advance old next).rs = T.rs ∧ (T.advance old next).rspPtr = T.rspPtr ∧ (T.advance old next).rspCnt = T.rspCnt := by
  unfold Tile.advance
  split
  · exact ⟨rfl, rfl, rfl⟩
  split
  · exact ⟨rfl, rfl, rfl⟩
  next a b =>
    cases e : T.pkind with
    | call => exact absurd ⟨by omega, e⟩ h
    | _ => exact ⟨rfl, rfl, rfl⟩

end Sys2Proof.Machine
end

/-! SUPPORT. An instruction of plain moves, from its boundary to its end (02 R36, R38; 05 R141 to R143, R148). -/

section
namespace Sys2Proof.Machine

variable {s u : State} {st : Stn} {t : TileNo} {i : Insn} {ms : List Move} {vs : List (Byte × W64)}

/-! ### The phases of an instruction (02 R36) -/

theorem tailWaits_none (T : Tile) (h : ∀ m ∈ ms, ∀ k, m.dst ≠ .tail k) : tailWaits T ms = false := by
  refine List.any_eq_false.2 fun m hm => ?_
  cases e : m.dst with
  | tail k => exact absurd e (h m hm k)
  | _ => simp

/-- Where no trigger is late, the triggers go in bus order. -/
theorem fireAll_early (c : Ctx) (h : ∀ m ∈ ms, m.late = false) : fireAll c vs ms u = fireMoves c vs ms u := by
  have none : ms.any Move.late = false := List.any_eq_false.2 fun m hm => by simp [h m hm]
  rw [fireAll, none]
  rfl

theorem Dest.plain_trig {d : Dest} (h : d.plain = true) (x : Trig) : d ≠ .trig x := by
  rintro rfl
  cases h

theorem fireMoves_plain (c : Ctx) (plain : ∀ m ∈ ms, m.dst.plain = true) : fireMoves c vs ms u = .done u := by
  induction ms with
  | nil => rfl
  | cons m ms ih =>
    rw [List.forall_mem_cons] at plain
    unfold fireMoves
    split
    next x e => exact absurd e (Dest.plain_trig plain.1 x)
    next => exact ih plain.2

theorem Move.late_of_plain {m : Move} (h : m.dst.plain = true) : m.late = false := by
  unfold Move.late
  cases e : m.dst with
  | trig x => exact absurd e (Dest.plain_trig h x)
  | _ => rfl

/-- Phases 3 and 4, once the sources are read: writes, then triggers. -/
theorem State.runMoves_read (read : readMoves s st t ms [] s = .vals vs s) (noTail : ∀ m ∈ ms, ∀ k, m.dst ≠ .tail k) :
    ∃ c : Ctx, c.st = st ∧ c.t = t ∧
      s.runMoves st t i ms = fireAll c vs ms (s.setTile st t (((s.tile st t).turn i.cycles).writeAll vs ms)) := by
  unfold State.runMoves
  simp only [read, tailWaits_none _ noTail]
  exact ⟨_, rfl, rfl, rfl⟩

theorem State.runMoves_plain (idle : (s.tile st t).flights = []) (src : ∀ m ∈ ms, m.src.plain = true)
    (dst : ∀ m ∈ ms, m.dst.plain = true) (named : ∀ m ∈ ms, sourceOf m.srcByte = some m.src) :
    ∃ vs, s.runMoves st t i ms = .done (s.setTile st t (((s.tile st t).turn i.cycles).writeAll vs ms)) ∧
      ∀ m ∈ ms, m.value vs = (s.tile st t).carried m := by
  obtain ⟨vs, read, carried⟩ := readMoves_carried idle src named
  have noTail : ∀ m ∈ ms, ∀ k, m.dst ≠ .tail k := fun m hm k e => by
    have := dst m hm
    simp [e, Dest.plain] at this
  obtain ⟨c, -, -, e⟩ := State.runMoves_read (i := i) read noTail
  exact ⟨vs, by rw [e, fireAll_early c fun m hm => Move.late_of_plain (dst m hm), fireMoves_plain c dst], carried⟩

/-- Nothing is due that an instruction finds before its reads (02 R53; 06 R179; 07 R210; 08 R245). -/
theorem State.execFault_none
    (fetch : s.segCheck st (s.tile st t) 6 .fetch false false true anyAlign [((0x20000 + (s.tile st t).pc.toNat : Int), i.len)] = none)
    (conflict : (s.tile st t).conflict = none) (ports : s.strict st t = false ∨ i.overPort = none)
    (noQu : ∀ m ∈ ms, m.usesQu = false) : s.execFault st t i ms = none := by
  have quiet : ms.any Move.usesQu = false := List.any_eq_false.2 fun m hm => by simp [noQu m hm]
  have free : (if s.strict st t then i.overPort else none) = none := by
    obtain h | h := ports
    · rw [h]
      rfl
    · rw [h]
      exact ite_self _
  unfold State.execFault
  simp only [fetch, ite_self, conflict, free, quiet]
  cases (s.tile st t).qu.atomicFail <;> rfl

theorem Move.usesQu_of_plain {m : Move} (src : m.src.plain = true) (dst : m.dst.plain = true) : m.usesQu = false := by
  have shown : (m.src == .quR) = false := by
    cases e : m.src with
    | quR => simp [e, Source.plain] at src
    | _ => rfl
  unfold Move.usesQu
  rw [shown]
  cases e : m.dst with
  | trig x => exact absurd e (Dest.plain_trig dst x)
  | _ => rfl

/-! ### Execution (05 R141 to R143) -/

theorem Tile.repeating_none {T : Tile} (h : T.repeating i = none) : T.rip = false ∧ i.pre.rep = none := by
  unfold Tile.repeating at h
  split at h
  · cases h
  next rip => exact ⟨by simpa using rip, Option.map_eq_none_iff.1 h⟩

theorem Tile.repeating_fresh {T : Tile} {n : Nat} {unint : Bool} {r : Rep} (rip : T.rip = false) (rep : i.pre.rep = some r)
    (h : T.repeating i = some (n, unint)) : unint = r.unint := by
  simp only [Tile.repeating, rip, rep, Bool.false_eq_true, if_false, Option.map_some, Option.some.injEq, Prod.mk.injEq] at h
  exact h.2.symm

theorem State.execute_once (rep : (s.tile st t).repeating i = none) (dup : duplicate (i.enabled (s.tile st t)) = none)
    (due : s.execFault st t i (i.enabled (s.tile st t)) = none) (runs : s.runMoves st t i (i.enabled (s.tile st t)) = .done u) :
    s.execute st t i = .done (u.finish st t (s.tile st t) i none) := by
  unfold State.execute
  simp only [rep, dup, due, runs, TOut.bind]

/-- A repeat with no iteration to run passes its tests and goes on (05 R142). -/
theorem State.execute_skips {unint : Bool} (rep : (s.tile st t).repeating i = some (0, unint)) (due : s.execFault st t i [] = none) :
    s.execute st t i = .done
      ((s.modTile st t fun T => { T.turn i.cycles with rc := 0, rip := false, repu := false }).finish st t (s.tile st t) i none) := by
  unfold State.execute
  simp only [rep, due, if_true]

/-- The tile in an iteration of a repeat, with its count. -/
def Tile.iterating (T : Tile) (n : Nat) (unint : Bool) : Tile := { T with rc := BitVec.ofNat 16 n, rip := true, repu := unint }

/-- The tile whose deferral window a `repu` opens, where none is open (05 R147). -/
def Tile.windowOpened (T : Tile) (cap : Nat) : Tile := if T.window.isNone then { T with window := Window.start cap cap true } else T

theorem Tile.windowOpened_counts (T : Tile) (cap : Nat) : OnlyCounts T (T.windowOpened cap) := by
  unfold Tile.windowOpened
  split <;> rfl

theorem Tile.windowOpened_flights (T : Tile) (cap : Nat) : (T.windowOpened cap).flights = T.flights := by
  unfold Tile.windowOpened
  split <;> rfl

theorem Tile.windowOpened_window {T : Tile} {cap : Nat} (closed : T.window = none) (h : 0 < cap) :
    (T.windowOpened cap).window = some ⟨cap, cap, true⟩ := by
  have positive : cap ≠ 0 := by omega
  simp [Tile.windowOpened, closed, Window.start, positive]

theorem State.execute_iterates {n : Nat} {unint : Bool} (rep : (s.tile st t).repeating i = some (n + 1, unint))
    (dup : duplicate (i.enabled (s.tile st t)) = none) (due : s.execFault st t i (i.enabled (s.tile st t)) = none)
    (runs : (s.setTile st t ((s.tile st t).iterating (n + 1) unint)).runMoves st t i (i.enabled (s.tile st t)) = .done u) :
    s.execute st t i = .done ((if !(s.tile st t).rip && unint && (s.tile st t).window.isNone
      then u.modTile st t fun T => T.windowOpened (s.shcap st t) else u).finish st t ((s.tile st t).iterating (n + 1) unint) i
        (some (n + 1))) := by
  unfold State.execute
  simp only [rep, dup, due, Nat.add_one_ne_zero, if_false]
  rw [Tile.iterating] at runs
  simp only [runs]
  rfl

/-! ### Plain instructions -/

/-- An instruction of plain moves to destinations of their own, of which nothing is due before its reads, with no operation in flight. -/
structure State.Plain (s : State) (st : Stn) (t : TileNo) (i : Insn) : Prop where
  idle : (s.tile st t).flights = []
  conflict : (s.tile st t).conflict = none
  ports : s.strict st t = false ∨ i.overPort = none
  fetch : s.segCheck st (s.tile st t) 6 .fetch false false true anyAlign [((0x20000 + (s.tile st t).pc.toNat : Int), i.len)] = none
  src : ∀ m ∈ i.moves, m.src.plain = true
  dst : ∀ m ∈ i.moves, m.dst.plain = true
  named : ∀ m ∈ i.moves, sourceOf m.srcByte = some m.src ∧ destOf m.dstByte = some m.dst
  apart : (i.enabled (s.tile st t)).Pairwise fun m n => m.dst ≠ n.dst

theorem Insn.mem_of_enabled {T : Tile} {m : Move} (h : m ∈ i.enabled T) : m ∈ i.moves := by
  rw [Insn.enabled_eq] at h
  exact List.mem_of_mem_filter h

section
variable (plain : s.Plain st t i)
include plain

theorem State.Plain.duplicate : duplicate (i.enabled (s.tile st t)) = none := by
  refine duplicate_none (plain.apart.imp_of_mem fun {m n} hm hn h => ?_)
  have hm := Insn.mem_of_enabled hm
  have hn := Insn.mem_of_enabled hn
  exact movesConflict_false (plain.named n hn).2 (plain.named m hm).2 (plain.dst m hm) h.symm

theorem State.Plain.due (sub : ∀ m ∈ ms, m ∈ i.moves) : s.execFault st t i ms = none :=
  State.execFault_none plain.fetch plain.conflict plain.ports fun m hm => Move.usesQu_of_plain (plain.src m (sub m hm)) (plain.dst m (sub m hm))

/-- The moves of an iteration, whatever its count. -/
theorem State.Plain.runs {n : W16} {rip repu : Bool} :
    let T := { s.tile st t with rc := n, rip := rip, repu := repu }
    ∃ vs, (s.setTile st t T).runMoves st t i (i.enabled (s.tile st t)) =
        .done (s.setTile st t ((T.turn i.cycles).writeAll vs (i.enabled (s.tile st t)))) ∧
      ∀ m ∈ i.enabled (s.tile st t), m.value vs = (s.tile st t).carried m := by
  intro T
  have tile : (s.setTile st t T).tile st t = T := s.tile_setTile st t T
  obtain ⟨vs, runs, carried⟩ := State.runMoves_plain (s := s.setTile st t T) (i := i) (by rw [tile]; exact plain.idle)
    (fun m hm => plain.src m (Insn.mem_of_enabled hm)) (fun m hm => plain.dst m (Insn.mem_of_enabled hm))
    (fun m hm => (plain.named m (Insn.mem_of_enabled hm)).1)
  rw [tile] at runs carried
  exact ⟨vs, by rw [runs, setTile_setTile], carried⟩

end

theorem State.Plain.of_rc (plain : s.Plain st t i) (c : W16) : (s.setTile st t { s.tile st t with rc := c }).Plain st t i := by
  have tile := s.tile_setTile st t { s.tile st t with rc := c }
  obtain ⟨idle, conflict, ports, fetch, src, dst, named, apart⟩ := plain
  refine ⟨?_, ?_, ports, ?_, src, dst, named, ?_⟩
  · rw [tile]
    exact idle
  · rw [tile]
    exact conflict
  · rw [tile]
    exact fetch
  · rw [tile]
    exact apart

/-- The tile once moves have read and written, its load line moved on and its waiting psw applied. -/
def Tile.moved (T : Tile) (i : Insn) (vs : List (Byte × W64)) (ms : List Move) : Tile := (T.turn i.cycles).writeAll vs ms

theorem OnlyCounts.moved {T U : Tile} (h : OnlyCounts T U) (dst : ∀ m ∈ ms, m.dst.plain = true) :
    OnlyCounts (T.moved i vs ms) (U.moved i vs ms) :=
  (h.turn i.cycles).writeAll vs dst

theorem Tile.moved_eq (T : Tile) (dst : ∀ m ∈ ms, m.dst.plain = true) :
    T.moved i vs ms = { T.turn i.cycles with q := (T.moved i vs ms).q, preds := (T.moved i vs ms).preds, opnd := (T.moved i vs ms).opnd } :=
  Tile.writeAll_onlyPorts _ vs dst

theorem Tile.flightsAfter_idle {T old : Tile} (h : T.flights = []) : T.flightsAfter old i = [] := by
  simp [Tile.flightsAfter, Tile.holdNew, h]

theorem State.bump_setTile (s : State) (st : Stn) (t : TileNo) (T : Tile) (a n : Nat) :
    (s.setTile st t T).bump a n = (s.bump a n).setTile st t T := rfl

theorem Tile.moved_flights {T : Tile} (idle : T.flights = []) (dst : ∀ m ∈ ms, m.dst.plain = true) : (T.moved i vs ms).flights = [] := by
  rw [T.moved_eq dst]
  simp [Tile.turn, idle]

/-- The counters do not depend on the tile. -/
theorem State.counted_setTile (s : State) (st : Stn) (t : TileNo) (i : Insn) (T : Tile) :
    (s.setTile st t T).counted st t i = (s.counted st t i).setTile st t T := by
  unfold State.counted
  split
  · rw [bump_setTile, bump_setTile]
  · rw [bump_setTile]

/-- Where the offset goes depends on the slot and the transfer that the instruction began with. -/
theorem Tile.advance_congr {T old old' : Tile} {next : W16} (slot : old.slot = old'.slot) (pkind : old.pkind = old'.pkind) :
    T.advance old next = T.advance old' next := by
  simp only [Tile.advance, slot, pkind]

/-- The end of a plain instruction or of its last iteration. -/
theorem State.finish_moved {T old X : Tile} {rep : Option Nat} (dst : ∀ m ∈ ms, m.dst.plain = true)
    (counts : OnlyCounts (T.moved i vs ms) X) (flights : X.flights = []) (slot : old.slot = T.slot) (pkind : old.pkind = T.pkind)
    (pc : old.pc = T.pc) (last : ∀ n, rep ≠ some (n + 2)) (stays : ¬(T.slot = 2 ∧ T.pkind = .eret)) :
    ∃ U, (s.setTile st t X).finish st t old i rep = (s.counted st t i).setTile st t U ∧
      OnlyCounts ((T.moved i vs ms).advance T (T.pc + BitVec.ofNat 16 i.len)) U ∧ U.flights = [] ∧
      (rep = none → U.rc = X.rc ∧ U.rip = X.rip) ∧ (rep ≠ none → U.rc = 0 ∧ U.rip = false) := by
  have tile := s.tile_setTile st t X
  have kind : X.pkind = T.pkind := by
    refine (congrArg Tile.pkind counts).trans ?_
    rw [T.moved_eq dst]
    rfl
  obtain ⟨U, e, only, after, without, repeated⟩ := (s.setTile st t X).finish_moves_on st t (old := old) i last
    (by rw [tile, kind, slot]; exact stays)
  rw [tile] at only after without
  refine ⟨U, ?_, only.trans ?_, after.trans (Tile.flightsAfter_idle flights), without, repeated⟩
  · rw [e, counted_setTile, setTile_setTile]
  · rw [pc, ← Tile.advance_congr slot pkind]
    exact counts.advance _

section
variable (plain : s.Plain st t i)
include plain

theorem State.Plain.enabled_dst : ∀ m ∈ i.enabled (s.tile st t), m.dst.plain = true :=
  fun m hm => plain.dst m (Insn.mem_of_enabled hm)

theorem State.Plain.iterated_dst {count : Option Nat} :
    ∀ m ∈ (if count = some 0 then [] else i.enabled (s.tile st t)), m.dst.plain = true := by
  split
  · simp
  · exact plain.enabled_dst

/-- An iteration with its moves made, before it is finished: the deferral window is open where a `repu` opens it. -/
theorem State.Plain.iterates {n : Nat} {unint : Bool} (rep : (s.tile st t).repeating i = some (n + 1, unint)) :
    ∃ vs X, s.execute st t i =
        .done ((s.setTile st t X).finish st t ((s.tile st t).iterating (n + 1) unint) i (some (n + 1))) ∧
      (∀ m ∈ i.enabled (s.tile st t), m.value vs = (s.tile st t).carried m) ∧
      OnlyCounts ((s.tile st t).moved i vs (i.enabled (s.tile st t))) X ∧ X.flights = [] ∧
      ((s.tile st t).rip = false → unint = true → (s.tile st t).window = none → 0 < s.shcap st t →
        X.window = some ⟨s.shcap st t, s.shcap st t, true⟩) := by
  obtain ⟨vs, runs, carried⟩ := plain.runs (n := BitVec.ofNat 16 (n + 1)) (rip := true) (repu := unint)
  have exec := State.execute_iterates rep plain.duplicate (plain.due fun m => Insn.mem_of_enabled) runs
  have counts : OnlyCounts ((s.tile st t).moved i vs (i.enabled (s.tile st t)))
      (((s.tile st t).iterating (n + 1) unint).moved i vs (i.enabled (s.tile st t))) := OnlyCounts.moved rfl plain.enabled_dst
  have flights := ((s.tile st t).iterating (n + 1) unint).moved_flights (i := i) (vs := vs) plain.idle plain.enabled_dst
  have window : (((s.tile st t).iterating (n + 1) unint).moved i vs (i.enabled (s.tile st t))).window =
      windowTick (s.tile st t).window i.cycles := by
    rw [Tile.moved_eq _ plain.enabled_dst]
    rfl
  change _ = TOut.done ((if _ then (s.setTile st t (((s.tile st t).iterating (n + 1) unint).moved i vs _)).modTile st t _ else
    s.setTile st t (((s.tile st t).iterating (n + 1) unint).moved i vs _)).finish ..) at exec
  generalize ((s.tile st t).iterating (n + 1) unint).moved i vs (i.enabled (s.tile st t)) = V at exec counts flights window
  by_cases opens : (!(s.tile st t).rip && unint && (s.tile st t).window.isNone) = true
  · rw [if_pos opens, modTile_def, tile_setTile, setTile_setTile] at exec
    refine ⟨vs, V.windowOpened (s.shcap st t), exec, carried, (V.windowOpened_counts _).trans counts, ?_, fun _ _ closed cap => ?_⟩
    · rw [V.windowOpened_flights, flights]
    · rw [V.windowOpened_window (window.trans (by rw [closed]; rfl)) cap]
  · rw [if_neg opens] at exec
    refine ⟨vs, V, exec, carried, counts, flights, fun rip repu closed _ => absurd ?_ opens⟩
    rw [rip, repu, closed]
    rfl

/-- An iteration that is not the last (05 R141, R143). -/
theorem State.Plain.repeats {n : Nat} {unint : Bool} (rep : (s.tile st t).repeating i = some (n + 2, unint)) (small : n + 2 < 65536) :
    ∃ vs U, s.execute st t i = .done ((s.counted st t i).setTile st t U) ∧
      (∀ m ∈ i.enabled (s.tile st t), m.value vs = (s.tile st t).carried m) ∧
      OnlyCounts ((s.tile st t).moved i vs (i.enabled (s.tile st t))) U ∧ U.flights = [] ∧ U.rip = true ∧ U.rc.toNat = n + 1 ∧
      ((s.tile st t).rip = false → unint = true → (s.tile st t).window = none → 0 < s.shcap st t →
        U.window = some ⟨s.shcap st t, s.shcap st t, true⟩) := by
  obtain ⟨vs, X, exec, carried, counts, flights, window⟩ := plain.iterates rep
  obtain ⟨U, finish, only, after, rc, rip, same⟩ :=
    (s.setTile st t X).finish_repeats st t ((s.tile st t).iterating (n + 2) unint) i n
  rw [tile_setTile] at only after same
  refine ⟨vs, U, ?_, carried, only.trans counts, after.trans (Tile.flightsAfter_idle flights), rip, ?_, ?_⟩
  · rw [exec, finish, counted_setTile, setTile_setTile]
  · rw [rc, BitVec.toNat_ofNat]
    omega
  · rw [same]
    exact window

/-- An instruction without a repeat, one with none to run, or the last iteration (05 R141, R142). -/
theorem State.Plain.movesOn {count : Option Nat} (rep : ((s.tile st t).repeating i).map Prod.fst = count)
    (last : ∀ n, count ≠ some (n + 2)) (stays : ¬((s.tile st t).slot = 2 ∧ (s.tile st t).pkind = .eret)) :
    let T := s.tile st t
    let ms := if count = some 0 then [] else i.enabled T
    ∃ vs U, s.execute st t i = .done ((s.counted st t i).setTile st t U) ∧ (∀ m ∈ ms, m.value vs = T.carried m) ∧
      OnlyCounts ((T.moved i vs ms).advance T (T.pc + BitVec.ofNat 16 i.len)) U ∧ U.flights = [] ∧ U.rip = false ∧
      U.rc = if count = none then T.rc else 0 := by
  intro T ms
  match h : T.repeating i with
  | none =>
    obtain rfl : none = count := by rw [← rep, h]; rfl
    obtain ⟨rip, -⟩ := Tile.repeating_none h
    have same : s.setTile st t T = s := modTile_id t
    obtain ⟨vs, runs, carried⟩ := plain.runs (n := T.rc) (rip := T.rip) (repu := T.repu)
    have runs : s.runMoves st t i (i.enabled T) = .done (s.setTile st t (T.moved i vs (i.enabled T))) := by rwa [same] at runs
    have exec := execute_once h plain.duplicate (plain.due fun m => Insn.mem_of_enabled) runs
    obtain ⟨U, finish, only, flights, without, -⟩ := s.finish_moved (old := T) (rep := none) plain.enabled_dst (OnlyCounts.refl _)
      (T.moved_flights plain.idle plain.enabled_dst) rfl rfl rfl (by simp) stays
    obtain ⟨rcSame, ripSame⟩ := without rfl
    refine ⟨vs, U, by rw [exec, finish], carried, only, flights, ripSame.trans ?_, rcSame.trans ?_⟩
    · rw [T.moved_eq plain.enabled_dst]
      exact rip
    · rw [T.moved_eq plain.enabled_dst]
      rfl
  | some (0, unint) =>
    obtain rfl : some 0 = count := by rw [← rep, h]; rfl
    have exec := execute_skips h (plain.due (ms := []) (by simp))
    obtain ⟨U, finish, only, flights, without, -⟩ := s.finish_moved (i := i) (vs := []) (ms := []) (T := T) (old := T) (rep := none)
      (X := { T.turn i.cycles with rc := 0, rip := false, repu := false }) (by simp) rfl
      (by simp [Tile.turn, show T.flights = [] from plain.idle]) rfl rfl rfl (by simp) stays
    obtain ⟨rcSame, ripSame⟩ := without rfl
    exact ⟨[], U, exec.trans (congrArg TOut.done finish), by simp [ms], only, flights, ripSame, rcSame⟩
  | some (1, unint) =>
    obtain rfl : some 1 = count := by rw [← rep, h]; rfl
    obtain ⟨vs, X, exec, carried, counts, idle, -⟩ := plain.iterates h
    obtain ⟨U, finish, only, flights, -, ended⟩ := s.finish_moved (old := T.iterating 1 unint) (rep := some 1) plain.enabled_dst counts idle
      rfl rfl rfl last stays
    obtain ⟨rc, rip⟩ := ended (by simp)
    exact ⟨vs, U, exec.trans (congrArg TOut.done finish), carried, only, flights, rip, rc⟩
  | some (n + 2, unint) =>
    rw [h] at rep
    exact absurd rep.symm (last n)

end

/-! ### The boundary (05 R148) -/

/-- A running tile at a boundary with nothing due but its instruction. -/
structure State.Ready (s : State) (st : Stn) (t : TileNo) (i : Insn) : Prop where
  run : (s.tile st t).run = .running
  unfrozen : s.haltFrozen st = false
  idle : (s.tile st t).flights = []
  stopReq : (s.tile st t).stopReq = false
  testReq : (s.tile st t).testReq = false
  report : (s.tile st t).report = none
  sys : ¬((s.tile st t).slot = 0 ∧ (s.tile st t).pkind = .sys)
  irq : (s.tile st t).irq = none
  decoded : decodeInsn (s.fetchByte st t) (s.tile st t).pc.toNat = .ok i

/-- Operations that may still be reported later stay in flight. -/
theorem State.forceOld_young (h : ∀ f ∈ (s.tile st t).flights, f.age < 16) : s.forceOld st t = s := by
  have young : ((s.tile st t).flights.any fun f => decide (16 ≤ f.age)) = false :=
    List.any_eq_false.2 fun f hf => by simpa using h f hf
  rw [State.forceOld, State.modTile, young]
  exact modTile_id t

/-- The instruction completes, and no interrupt takes its place. -/
theorem State.Ready.boundary (ready : s.Ready st t i) (hazard : (s.tile st t).rip = true ∨ i.hazard = none)
    (exec : (s.loadCount st t).execute st t i = .done u) : s.boundary st t = u := by
  obtain ⟨run, unfrozen, idle, stopReq, testReq, report, sys, irq, decoded⟩ := ready
  have going : ¬((s.tile st t).run ≠ .running ∨ s.haltFrozen st = true) := by simp [run, unfrozen]
  have held : (s.tile st t).held = false := by simp [Tile.held, idle]
  have safe : (if (s.tile st t).rip then none else i.hazard) = none := by
    obtain h | h := hazard
    · simp [h]
    · simp [h]
  have young : s.forceOld st t = s := forceOld_young (by simp [idle])
  unfold State.boundary
  rw [if_neg going]
  simp only [young, stopReq, testReq, report, held, if_neg sys, decoded, irq, ite_self, exec, safe]
  rfl

/-- Where no move of the instruction reaches data memory, the outside port meets none (08 R231). -/
theorem State.issue_unmet (meet : Meet) (decoded : decodeInsn (s.fetchByte st t) (s.tile st t).pc.toNat = .ok i)
    (quiet : ∀ m ∈ i.moves, m.loads = false ∧ m.scans = false ∧ m.stores = false) : s.issue st t meet = s.boundary st t := by
  have none {p : Move → Bool} (h : ∀ m ∈ i.moves, p m = false) : (i.enabled (s.tile st t)).any p = false :=
    List.any_eq_false.2 fun m hm => by simp [h m (Insn.mem_of_enabled hm)]
  unfold State.issue
  simp only [decoded, none fun m hm => (quiet m hm).1, none fun m hm => (quiet m hm).2.1, none fun m hm => (quiet m hm).2.2]
  split
  · cases meet <;> rfl
  · rfl

theorem exec_instruction_done {meet : Meet} (ready : s.Ready st t i) (hazard : (s.tile st t).rip = true ∨ i.hazard = none)
    (quiet : ∀ m ∈ i.moves, m.loads = false ∧ m.scans = false ∧ m.stores = false)
    (exec : (s.noted.loadCount st t).execute st t i = .done u) (undef : u.undef = false) :
    Sys2Proof.Machine.exec (.instruction st t meet) s = .next u := by
  have noted : s.noted.Ready st t i := ⟨ready.run, ready.unfrozen, ready.idle, ready.stopReq, ready.testReq, ready.report, ready.sys,
    ready.irq, ready.decoded⟩
  show (s.noted.issue st t meet).out = _
  rw [State.issue_unmet meet noted.decoded quiet, noted.boundary hazard exec, State.out, undef]
  rfl

theorem Insn.hazard_of_plain (dst : ∀ m ∈ i.moves, m.dst.plain = true) : i.hazard = none := by
  unfold Insn.hazard
  split
  · rfl
  · rw [List.find?_eq_none.2, Option.map_none]
    intro m hm
    cases e : m.dst with
    | trig x => exact absurd e (Dest.plain_trig (dst m hm) x)
    | _ => simp

theorem Move.quiet_of_plain {m : Move} (h : m.dst.plain = true) : m.loads = false ∧ m.scans = false ∧ m.stores = false := by
  unfold Move.loads Move.scans Move.stores
  cases e : m.dst with
  | trig x => exact absurd e (Dest.plain_trig h x)
  | _ => exact ⟨rfl, rfl, rfl⟩

/-! ### The count that a repeat loads (05 R141, R143) -/

/-- Only a repeat that is decoded anew changes the count. -/
theorem State.loadCount_decoded (decoded : decodeInsn (s.fetchByte st t) (s.tile st t).pc.toNat = .ok i) :
    ∃ c, s.loadCount st t = s.setTile st t { s.tile st t with rc := c } ∧
      ((s.tile st t).rip = true ∨ i.pre.rep = none → c = (s.tile st t).rc) := by
  by_cases kept : (s.tile st t).rip = true ∨ i.pre.rep = none
  · have none : (if (s.tile st t).rip then none else decodedRep (s.fetchByte st t) (s.tile st t).pc.toNat) = none := by
      rw [decodedRep_of_ok decoded]
      obtain h | h := kept
      · rw [if_pos h]
      · rw [h, ite_self]
    refine ⟨(s.tile st t).rc, ?_, fun _ => rfl⟩
    unfold State.loadCount
    simp only [none]
    exact (modTile_id t).symm
  · obtain ⟨fresh, rep⟩ := not_or.1 kept
    obtain ⟨r, rep⟩ := Option.ne_none_iff_exists'.1 rep
    refine ⟨BitVec.ofNat 16 (repCount (s.tile st t) r), ?_, fun h => absurd h kept⟩
    unfold State.loadCount
    simp only [if_neg fresh, decodedRep_of_ok decoded, rep]

theorem Tile.repeating_of_rc (T : Tile) {c : W16} (h : T.rip = true ∨ i.pre.rep = none → c = T.rc) :
    ({ T with rc := c } : Tile).repeating i = T.repeating i := by
  unfold Tile.repeating
  cases rip : T.rip with
  | true =>
    rw [h (.inl rip)]
    rfl
  | false => rfl

/-- A count fits in `rc`. -/
theorem Tile.repeating_lt {T : Tile} {fetch : Nat → DRes Byte} {a n : Nat} {unint : Bool} (decoded : decodeInsn fetch a = .ok i)
    (h : T.repeating i = some (n, unint)) : n < 65536 := by
  unfold Tile.repeating at h
  split at h
  · cases h
    exact T.rc.isLt
  · cases rep : i.pre.rep with
    | none => simp [rep] at h
    | some r =>
      have small := decodedRep_count (fetch := fetch) (a := a) (by rw [decodedRep_of_ok decoded, rep])
      rw [rep] at h
      cases h
      unfold repCount
      split
      · omega
      · exact BitVec.isLt _

/-! ### A plain instruction as a command -/

/-- The offset, the delay slot, the pending transfer and the return stack are those of T. -/
structure SameSequence (T U : Tile) : Prop where
  pc : U.pc = T.pc
  slot : U.slot = T.slot
  pkind : U.pkind = T.pkind
  pendVal : U.pendVal = T.pendVal
  rs : U.rs = T.rs
  rspPtr : U.rspPtr = T.rspPtr
  rspCnt : U.rspCnt = T.rspCnt

theorem SameSequence.trans {T V U : Tile} (h : SameSequence V U) (k : SameSequence T V) : SameSequence T U :=
  ⟨h.pc.trans k.pc, h.slot.trans k.slot, h.pkind.trans k.pkind, h.pendVal.trans k.pendVal, h.rs.trans k.rs, h.rspPtr.trans k.rspPtr,
    h.rspCnt.trans k.rspCnt⟩

theorem Tile.moved_sequence (T : Tile) (dst : ∀ m ∈ ms, m.dst.plain = true) : SameSequence T (T.moved i vs ms) := by
  rw [T.moved_eq dst]
  exact ⟨rfl, rfl, rfl, rfl, rfl, rfl, rfl⟩

theorem OnlyCounts.same_sequence {V U : Tile} (h : OnlyCounts V U) : SameSequence V U := by
  unfold OnlyCounts at h
  rw [h]
  exact ⟨rfl, rfl, rfl, rfl, rfl, rfl, rfl⟩

theorem Tile.moved_of_rc {T : Tile} (c : W16) (dst : ∀ m ∈ ms, m.dst.plain = true) :
    OnlyCounts (T.moved i vs ms) (({ T with rc := c } : Tile).moved i vs ms) := OnlyCounts.moved rfl dst

section
variable {meet : Meet} (ready : s.Ready st t i) (plain : s.Plain st t i)
include ready plain

/-- A plain instruction as the boundary finds it: its repeat decoded, the write of reserved bits not noted. -/
theorem State.Plain.loaded : ∃ c, s.noted.loadCount st t = s.noted.setTile st t { s.tile st t with rc := c } ∧
    (s.noted.setTile st t { s.tile st t with rc := c }).Plain st t i ∧
    ({ s.tile st t with rc := c } : Tile).repeating i = (s.tile st t).repeating i ∧
    (i.pre.rep = none → (s.tile st t).rip = false → c = (s.tile st t).rc) := by
  obtain ⟨c, load, same⟩ := State.loadCount_decoded (s := s.noted) ready.decoded
  have noted : s.noted.Plain st t i :=
    ⟨plain.idle, plain.conflict, plain.ports, plain.fetch, plain.src, plain.dst, plain.named, plain.apart⟩
  exact ⟨c, load, noted.of_rc c, (s.tile st t).repeating_of_rc same, fun rep _ => same (.inr rep)⟩

theorem exec_plain (exec : (s.noted.loadCount st t).execute st t i = .done u) (undef : u.undef = false) :
    Sys2Proof.Machine.exec (.instruction st t meet) s = .next u :=
  exec_instruction_done ready (.inr (Insn.hazard_of_plain plain.dst)) (fun m hm => Move.quiet_of_plain (plain.dst m hm)) exec undef

theorem exec_plain_repeats {n : Nat} {unint : Bool} (rep : (s.tile st t).repeating i = some (n + 2, unint)) :
    let T := s.tile st t
    ∃ vs U, exec (.instruction st t meet) s = .next ((s.noted.counted st t i).setTile st t U) ∧
      (∀ m ∈ i.enabled T, m.value vs = T.carried m) ∧ OnlyCounts (T.moved i vs (i.enabled T)) U ∧ U.flights = [] ∧ U.rip = true ∧
      U.rc.toNat = n + 1 ∧
      (T.rip = false → unint = true → T.window = none → 0 < s.shcap st t → U.window = some ⟨s.shcap st t, s.shcap st t, true⟩) := by
  intro T
  have small := Tile.repeating_lt ready.decoded rep
  obtain ⟨c, load, loaded, same, -⟩ := plain.loaded ready
  have tile := s.noted.tile_setTile st t { T with rc := c }
  obtain ⟨vs, U, run, carried, counts, rest⟩ := loaded.repeats (by rw [tile, same, rep]) small
  rw [tile] at carried counts rest
  refine ⟨vs, U, exec_plain ready plain ?_ ?_, carried, counts.trans (Tile.moved_of_rc c plain.enabled_dst), rest⟩
  · rw [load, run, State.counted_setTile, State.setTile_setTile]
  · rw [State.setTile_undef, State.counted_undef]
    rfl

theorem exec_plain_movesOn {count : Option Nat} (rep : ((s.tile st t).repeating i).map Prod.fst = count)
    (last : ∀ n, count ≠ some (n + 2)) (stays : ¬((s.tile st t).slot = 2 ∧ (s.tile st t).pkind = .eret)) :
    let T := s.tile st t
    let ms := if count = some 0 then [] else i.enabled T
    ∃ vs U, exec (.instruction st t meet) s = .next ((s.noted.counted st t i).setTile st t U) ∧
      (∀ m ∈ ms, m.value vs = T.carried m) ∧ OnlyCounts ((T.moved i vs ms).advance T (T.pc + BitVec.ofNat 16 i.len)) U ∧
      U.flights = [] ∧ U.rip = false ∧ U.rc = if count = none then T.rc else 0 := by
  intro T ms
  obtain ⟨c, load, loaded, same, kept⟩ := plain.loaded ready
  have tile := s.noted.tile_setTile st t { T with rc := c }
  obtain ⟨vs, U, run, carried, counts, flights, rip, rc⟩ := loaded.movesOn (by rw [tile, same, rep]) last (by rw [tile]; exact stays)
  rw [tile] at carried counts rc
  have dst : ∀ m ∈ ms, m.dst.plain = true := plain.iterated_dst
  refine ⟨vs, U, exec_plain ready plain ?_ ?_, carried, counts.trans ((Tile.moved_of_rc c dst).advance _), flights, rip, rc.trans ?_⟩
  · rw [load, run, State.counted_setTile, State.setTile_setTile]
  · rw [State.setTile_undef, State.counted_undef]
    rfl
  · by_cases none : count = none
    · subst none
      obtain ⟨rip, without⟩ := Tile.repeating_none (Option.map_eq_none_iff.1 rep)
      exact kept without rip
    · rw [if_neg none, if_neg none]

end

end Sys2Proof.Machine
end

/-! SUPPORT. What a plain instruction leaves: its ports, its load line, its repeat and its next offset (02 R36, R49 to R56; 05 R135 to R143). -/

section
namespace Sys2Proof.Machine

variable {s : State} {st : Stn} {t : TileNo} {i : Insn} {ms : List Move} {vs : List (Byte × W64)} {T U : Tile}

/-! ### The ports -/

theorem Tile.moved_at (T : Tile) (dst : ∀ m ∈ ms, m.dst.plain = true) (apart : ms.Pairwise fun m n => m.dst ≠ n.dst)
    (carried : ∀ m ∈ ms, m.value vs = T.carried m) {d : Dest} (hd : d ≠ .pred 0) :
    (T.moved i vs ms).at d = d.keeps (written ms T.carried d ((T.turn i.cycles).at d)) := by
  rw [Tile.moved, Tile.at_writeAll _ dst apart hd, written_congr carried]

section
variable (dst : ∀ m ∈ ms, m.dst.plain = true) (apart : ms.Pairwise fun m n => m.dst ≠ n.dst)
  (carried : ∀ m ∈ ms, m.value vs = T.carried m) (seq : OnlySequence (T.moved i vs ms) U)
include dst apart carried seq

theorem OnlySequence.reg (k : Fin 64) : U.q[k] = written ms T.carried (.reg k) T.q[k] := by
  have q : U.q = (T.moved i vs ms).q := (congrArg Tile.q seq).trans rfl
  rw [q]
  exact T.moved_at dst apart carried (d := .reg k) nofun

theorem OnlySequence.opnd (k : Fin 8) : U.opnd[k] = written ms T.carried (.opnd k) T.opnd[k] := by
  have opnd : U.opnd = (T.moved i vs ms).opnd := (congrArg Tile.opnd seq).trans rfl
  rw [opnd]
  exact T.moved_at dst apart carried (d := .opnd k) nofun

theorem OnlySequence.pred {k : Fin 16} (h : k ≠ 0) :
    U.preds.getLsbD k.val = (written ms T.carried (.pred k) (if T.preds.getLsbD k.val then 1 else 0)).getLsbD 0 := by
  have preds : U.preds = (T.moved i vs ms).preds := (congrArg Tile.preds seq).trans rfl
  have e := T.moved_at (i := i) dst apart carried (d := .pred k) (by simpa using h)
  have low (b : Bool) : ((if b then 1 else 0 : W64)).getLsbD 0 = b := by cases b <;> rfl
  rw [preds, ← low ((T.moved i vs ms).preds.getLsbD k.val)]
  refine (congrArg (BitVec.getLsbD · 0) e).trans ?_
  exact low _

end

theorem OnlySequence.p0 (dst : ∀ m ∈ ms, m.dst.plain = true) (seq : OnlySequence (T.moved i vs ms) U) :
    U.preds.getLsbD 0 = T.preds.getLsbD 0 := by
  have preds : U.preds = (T.moved i vs ms).preds := (congrArg Tile.preds seq).trans rfl
  rw [preds, Tile.moved, Tile.writeAll_p0 _ dst]
  rfl

/-- What is beside the ports: the load line moves on, the psw that waited applies, and the rest stays. -/
theorem OnlySequence.rest (dst : ∀ m ∈ ms, m.dst.plain = true) (seq : OnlySequence (T.moved i vs ms) U) :
    U.lsuR = T.ld3.getD T.lsuR ∧ U.ld3 = T.ld2 ∧ U.ld2 = T.ld1 ∧ U.ld1 = none ∧ U.psw = T.pswNext.getD T.psw ∧ U.pswNext = none ∧
      U.aluR = T.aluR ∧ U.shfR = T.shfR ∧ U.cuR = T.cuR ∧ U.acc = T.acc ∧ U.fxm = T.fxm ∧ U.ipend = T.ipend ∧ U.tsbp = T.tsbp ∧
      U.report = T.report := by
  unfold OnlySequence at seq
  rw [seq, T.moved_eq dst]
  exact ⟨rfl, rfl, rfl, rfl, rfl, rfl, rfl, rfl, rfl, rfl, rfl, rfl, rfl, rfl⟩

/-! ### The offset -/

/-- The tile goes on to the next instruction: from slot 0 and 1 in sequence, after slot 2 where the transfer leads. -/
structure MovesOn (T U : Tile) (next : W16) : Prop where
  slot0 : T.slot = 0 → U.pc = next ∧ U.slot = 0 ∧ U.pkind = .none
  slot1 : T.slot = 1 → U.pc = next ∧ U.slot = 2 ∧ U.pkind = T.pkind ∧ U.pendVal = T.pendVal
  slot2 : T.slot = 2 → U.slot = 0 ∧ U.pc = (if T.pkind = .none ∨ T.pkind = .sys then next else T.pendVal.extractLsb' 0 16) ∧
    U.pkind = (if T.pkind = .sys then .sys else .none) ∧ (T.pkind = .sys → U.pendVal = T.pendVal)
  call : T.slot = 2 ∧ T.pkind = .call → U.rs = T.rs.set T.rspPtr.toNat next ∧ U.rspPtr = T.rspPtr + 1 ∧
    U.rspCnt.toNat = min 16 (T.rspCnt.toNat + 1)
  others : ¬(T.slot = 2 ∧ T.pkind = .call) → U.rs = T.rs ∧ U.rspPtr = T.rspPtr ∧ U.rspCnt = T.rspCnt

theorem MovesOn.of_advance {next : W16} (dst : ∀ m ∈ ms, m.dst.plain = true) (first : T.slot = 0 → T.pkind = .none)
    (stays : ¬(T.slot = 2 ∧ T.pkind = .eret)) (h : OnlyCounts ((T.moved i vs ms).advance T next) U) : MovesOn T U next := by
  obtain ⟨pc, slot, pkind, pendVal, rs, rspPtr, rspCnt⟩ := h.same_sequence
  obtain ⟨-, -, kind, pend, stack, ptr, cnt⟩ := T.moved_sequence (i := i) (vs := vs) dst
  generalize T.moved i vs ms = V at *
  refine ⟨fun e => ?_, fun e => ?_, fun e => ?_, fun e => ?_, fun e => ?_⟩
  · rw [pc, slot, pkind, Tile.advance_slot0 e (kind.trans (first e))]
    exact ⟨rfl, rfl, kind.trans (first e)⟩
  · rw [pc, slot, pkind, pendVal, Tile.advance_slot1 e]
    exact ⟨rfl, rfl, kind, pend⟩
  · rw [pc, slot, pkind, pendVal, ← kind, ← pend]
    exact V.advance_slot2 e (by rw [kind]; exact fun k => stays ⟨e, k⟩)
  · have pushed := Tile.advance_call (T := V) (next := next) e.1 (kind.trans e.2)
    simp only [stack, ptr, cnt] at pushed
    rw [rs, rspPtr, rspCnt]
    exact pushed
  · rw [rs, rspPtr, rspCnt, ← stack, ← ptr, ← cnt]
    exact Tile.advance_rs (by rw [kind]; exact e)

/-! ### The instruction as a command -/

/-- The tile stays at its instruction, with n iterations left. -/
structure Stays (T U : Tile) (n : Nat) : Prop where
  sequence : SameSequence T U
  rip : U.rip = true
  rc : U.rc.toNat = n

theorem exec_plain_outcome {meet : Meet} (ready : s.Ready st t i) (plain : s.Plain st t i)
    (first : (s.tile st t).slot = 0 → (s.tile st t).pkind = .none)
    (stays : ¬((s.tile st t).slot = 2 ∧ (s.tile st t).pkind = .eret)) {count : Option Nat}
    (rep : ((s.tile st t).repeating i).map Prod.fst = count) :
    let T := s.tile st t
    let ms := if count = some 0 then [] else i.enabled T
    ∃ vs U, exec (.instruction st t meet) s = .next ((s.noted.counted st t i).setTile st t U) ∧
      (∀ m ∈ ms, m.value vs = T.carried m) ∧ OnlySequence (T.moved i vs ms) U ∧ U.flights = [] ∧
      (∀ n, count = some (n + 2) → Stays T U (n + 1) ∧
        (T.rip = false → T.window = none → 0 < s.shcap st t → ∀ r, i.pre.rep = some r → r.unint = true →
          U.window = some ⟨s.shcap st t, s.shcap st t, true⟩)) ∧
      ((∀ n, count ≠ some (n + 2)) → U.rip = false ∧ U.rc = (if count = none then T.rc else 0) ∧
        MovesOn T U (T.pc + BitVec.ofNat 16 i.len)) := by
  intro T ms
  by_cases last : ∀ n, count ≠ some (n + 2)
  · obtain ⟨vs, U, run, carried, counts, flights, rip, rc⟩ := exec_plain_movesOn (meet := meet) ready plain rep last stays
    exact ⟨vs, U, run, carried, counts.sequence.trans (Tile.advance_sequence ..), flights, fun n e => absurd e (last n),
      fun _ => ⟨rip, rc, MovesOn.of_advance plain.iterated_dst first stays counts⟩⟩
  · obtain ⟨n, e⟩ := not_forall.1 last
    obtain ⟨⟨_, unint⟩, repeating, rfl⟩ := Option.map_eq_some_iff.1 (rep.trans (not_not.1 e))
    obtain rfl : count = some (n + 2) := not_not.1 e
    obtain ⟨vs, U, run, carried, counts, flights, rip, rc, window⟩ := exec_plain_repeats (meet := meet) ready plain repeating
    have all : ms = i.enabled T := if_neg (by simp)
    rw [all]
    refine ⟨vs, U, run, carried, counts.sequence, flights, fun k hk => ⟨⟨?_, rip, ?_⟩, fun fresh closed cap r hr repu => ?_⟩,
      fun others => absurd rfl (others n)⟩
    · exact counts.same_sequence.trans (T.moved_sequence plain.enabled_dst)
    · cases hk
      exact rc
    · exact window fresh ((Tile.repeating_fresh fresh hr repeating).trans repu) closed cap

end Sys2Proof.Machine
end

/-! SUPPORT. Plain instructions in the terms of the spec: values, counts and what lies outside the tile (02 R36 to R39, R49 to R56; 05 R135 to
R143, R147). -/

section
namespace Sys2Proof.Machine

variable {s : State} {st : Stn} {t : TileNo} {i : Insn} {T : Tile}

/-- A move from an immediate, a register, a predicate or a result shown at once, to a register, a predicate or an operand port. -/
def Move.plain (m : Move) : Prop :=
  (match m.src with
    | .imm | .reg _ | .pred _ | .aluR _ | .shfR | .lsuR | .cuR => true
    | _ => false) = true ∧
  (match m.dst with
    | .reg _ | .pred _ | .opnd _ => true
    | _ => false) = true

theorem Move.plain_iff {m : Move} : m.plain ↔ m.src.plain = true ∧ m.dst.plain = true := Iff.rfl

/-- The value that a move carries, by its source. -/
theorem Tile.carried_eq (T : Tile) (m : Move) : T.carried m = match m.src with
    | .imm => m.imm | .reg k => T.q[k] | .pred k => if T.pred k then 1 else 0 | .aluR n => T.aluR[n] | .shfR => T.shfR
    | .lsuR => T.ld3.getD T.lsuR | .cuR => T.cuR | _ => 0 := by
  unfold Tile.carried
  cases m.src <;> rfl

theorem nat_low {n : Nat} (x : BitVec n) (w : Nat) : nat x 0 w = x.toNat % 2 ^ w := by
  rw [nat_eq_toNat, pow_zero, Nat.div_one]

theorem repCount_eq (T : Tile) (r : Rep) : repCount T r = match r.reg with
    | none => r.count
    | some k => T.q[k].toNat % 65536 := by
  unfold repCount
  cases r.reg with
  | none => rfl
  | some k => exact nat_low T.q[k] 16

/-- The count of the repeat in force: what is left of the one in progress, else the count of the one that begins. -/
theorem Tile.repeating_count (T : Tile) (i : Insn) : (T.repeating i).map Prod.fst =
    if T.rip then some T.rc.toNat
    else i.pre.rep.map fun r => match r.reg with
      | none => r.count
      | some k => T.q[k].toNat % 65536 := by
  unfold Tile.repeating
  split
  · rfl
  · rw [Option.map_map]
    exact congrArg (Option.map · i.pre.rep) (funext (repCount_eq T))

theorem State.Plain.of_moves (idle : (s.tile st t).flights = []) (conflict : (s.tile st t).conflict = none)
    (ports : s.strict st t = false ∨ i.overPort = none)
    (fetch : s.segCheck st (s.tile st t) 6 .fetch false false true anyAlign [((0x20000 + (s.tile st t).pc.toNat : Int), i.len)] = none)
    (decoded : decodeInsn (s.fetchByte st t) (s.tile st t).pc.toNat = .ok i) (plain : ∀ m ∈ i.moves, m.plain)
    (apart : (i.moves.filter ((s.tile st t).lets i)).Pairwise fun m n => m.dst ≠ n.dst) : s.Plain st t i where
  idle := idle
  conflict := conflict
  ports := ports
  fetch := fetch
  src m hm := (Move.plain_iff.1 (plain m hm)).1
  dst m hm := (Move.plain_iff.1 (plain m hm)).2
  named := (decodeInsn_ok decoded).2
  apart := by rwa [Insn.enabled_eq]

theorem State.shcap_eq (s : State) (st : Stn) (t : TileNo) : s.shcap st t = (s.reg (tileReg st t 0x14)).toNat % 2 ^ 13 :=
  nat_low _ 13

/-- What is not of the tile changes in nothing but the two counters (02 R52, R68). -/
theorem State.counted_outside (hw : Registers.wf s = true) (U : Tile) :
    let u := (s.noted.counted st t i).setTile st t U
    u.reg (tileReg st t 0x200) = s.reg (tileReg st t 0x200) + 1 ∧
      u.reg (tileReg st t 0x208) = s.reg (tileReg st t 0x208) + (if i.overPort = none then 0 else 1) ∧
      (∀ a, a ≠ tileReg st t 0x200 → a ≠ tileReg st t 0x208 → u.reg a = s.reg a) ∧ (∀ a, u.byte a = s.byte a) ∧
      ∀ x y, (x, y) ≠ (st, t) → u.tile x y = s.tile x y := by
  intro u
  obtain ⟨instructions, splits, others⟩ := State.counted_reg (s := s.noted) (st := st) (t := t) (i := i) hw
  refine ⟨?_, ?_, fun a ha hb => ?_, fun a => ?_, fun x y h => ?_⟩
  · rw [State.setTile_reg, instructions, State.noted_reg]
  · rw [State.setTile_reg, splits, State.noted_reg]
  · rw [State.setTile_reg, others a ha hb, State.noted_reg]
  · rw [State.setTile_byte, State.counted_byte, State.noted_byte]
  · have apart : ¬(x = st ∧ y = t) := fun e => h (Prod.ext e.1 e.2)
    rw [State.tile_setTile_of_ne _ _ _ _ _ _ apart, State.counted_tile, State.noted_tile]

end Sys2Proof.Machine
end

/-! SUPPORT. An instruction that writes the operand port of an ALU and triggers it, the completion of the operation, and the wait for its
check (02 R46; 04 R101, R102; 05 R158, R159). -/

section
namespace Sys2Proof.Machine

variable {s u : State} {st : Stn} {t : TileNo} {i : Insn} {T : Tile}

/-! ### Ports of a short instruction (02 R52) -/

theorem length_eraseDups_le {α : Type} [BEq α] (l : List α) : l.eraseDups.length ≤ l.length := by
  match l with
  | [] => rfl
  | a :: l =>
    rw [List.eraseDups_cons]
    exact Nat.succ_le_succ ((length_eraseDups_le _).trans (List.length_filter_le ..))
termination_by l.length
decreasing_by exact Nat.lt_succ_of_le (List.length_filter_le ..)

theorem Insn.overPort_none (h : i.moves.length ≤ 4) : i.overPort = none := by
  have reads (f : Bool) : ¬4 < i.reads f :=
    Nat.not_lt.2 (((length_eraseDups_le _).trans (List.length_filterMap_le ..)).trans h)
  have writes (f : Bool) : ¬4 < i.writes f := Nat.not_lt.2 ((List.length_filterMap_le ..).trans h)
  rw [Insn.overPort, if_neg (reads _), if_neg (writes _), if_neg (reads _), if_neg (writes _)]

/-! ### Sums and differences (04 R101, R102) -/

/-- The exact result of an addition or a subtraction. -/
def AluOp.exact (op : AluOp) (x y : Int) : Int :=
  match op with
  | .sub | .subt => x - y
  | _ => x + y

theorem aluResult_exact {op : AluOp} (h : op ∈ [AluOp.add, .addt, .sub, .subt]) (a b : W64) :
    aluResult op a b = BitVec.ofInt 64 (op.exact a.toInt b.toInt) := by
  have sum : a + b = BitVec.ofInt 64 (a.toInt + b.toInt) :=
    BitVec.eq_of_toInt_eq (by rw [BitVec.toInt_add, BitVec.toInt_ofInt])
  have difference : a - b = BitVec.ofInt 64 (a.toInt - b.toInt) :=
    BitVec.eq_of_toInt_eq (by rw [BitVec.toInt_sub, BitVec.toInt_ofInt])
  simp only [List.mem_cons, List.not_mem_nil, or_false] at h
  obtain rfl | rfl | rfl | rfl := h
  · exact sum
  · exact sum
  · exact difference
  · exact difference

/-- Only `addt` and `subt` report, where the exact result lies outside 64 bits. -/
theorem aluOverflow_iff (op : AluOp) (a b : W64) : aluOverflow op a b = true ↔
    (op = .addt ∨ op = .subt) ∧ ¬(-2 ^ 63 ≤ op.exact a.toInt b.toInt ∧ op.exact a.toInt b.toInt < 2 ^ 63) := by
  have outside (r : Int) : (decide (r < -2 ^ 63) || decide (2 ^ 63 ≤ r)) = true ↔ ¬(-2 ^ 63 ≤ r ∧ r < 2 ^ 63) := by
    rw [Bool.or_eq_true, decide_eq_true_iff, decide_eq_true_iff]
    omega
  cases op with
  | addt => simpa [aluOverflow, addOverflows, AluOp.exact] using outside (a.toInt + b.toInt)
  | subt => simpa [aluOverflow, subOverflows, AluOp.exact] using outside (a.toInt - b.toInt)
  | _ => simp [aluOverflow]

/-! ### The instruction -/

/-- An instruction of two moves: one to the operand port of ALU n, one to its trigger, both from general registers. -/
structure Insn.Launches (i : Insn) (m b : Move) (n : Fin 2) (j k : Fin 64) (op : AluOp) : Prop where
  moves : i.moves = [m, b]
  src : m.src = .reg j
  dst : m.dst = .opnd ⟨n.val, by omega⟩
  operand : b.src = .reg k
  trigger : b.dst = .trig (.alu n op)
  guards : m.guard = none ∧ b.guard = none
  cond : i.pre.cond = none
  rep : i.pre.rep = none
  named : ∀ x ∈ i.moves, sourceOf x.srcByte = some x.src ∧ destOf x.dstByte = some x.dst

/-- The operation that an instruction at pc puts in flight. -/
def aluFlight (n : Fin 2) (op : AluOp) (a b : W64) (pc : W16) (hold : Bool) : Flight :=
  ⟨.alu n, .value (aluResult op a b) (aluOverflow op a b), pc, 0, hold⟩

/-- The tile with the operand port written and the operation in flight. -/
def Tile.launched (T : Tile) (n : Fin 2) (op : AluOp) (a b : W64) : Tile :=
  { T.turn 1 with opnd := T.opnd.set n.val a, flights := [aluFlight n op a b T.pc false] }

section
variable {m b : Move} {n : Fin 2} {j k : Fin 64} {op : AluOp} (launch : i.Launches m b n j k op)
include launch

theorem Insn.Launches.enabled (T : Tile) : i.enabled T = [m, b] := by
  simp [Insn.enabled, launch.cond, launch.moves, Move.enabled, launch.guards]

theorem Insn.Launches.overPort : i.overPort = none := Insn.overPort_none (by simp [launch.moves])

theorem Insn.Launches.duplicate : duplicate [m, b] = none := by
  have named := launch.named
  simp only [launch.moves, List.forall_mem_cons] at named
  obtain ⟨⟨-, first⟩, ⟨-, second⟩, -⟩ := named
  have port : m.dst.plain = true := by rw [launch.dst]; rfl
  have apart : b.dst ≠ m.dst := by rw [launch.dst, launch.trigger]; nofun
  exact duplicate_none (by simpa using movesConflict_false second first port apart)

theorem Insn.Launches.quiet : ∀ x ∈ i.moves, x.loads = false ∧ x.scans = false ∧ x.stores = false := by
  simp [launch.moves, Move.loads, Move.scans, Move.stores, launch.dst, launch.trigger]

theorem Insn.Launches.usesQu : ∀ x ∈ [m, b], x.usesQu = false := by
  have unit : ¬n.val = 7 := by omega
  simp [Move.usesQu, launch.src, launch.dst, launch.operand, launch.trigger, Trig.unit, unit]

theorem Insn.Launches.runMoves (idle : (s.tile st t).flights = []) :
    s.runMoves st t i [m, b] = .done (s.setTile st t ((s.tile st t).launched n op (s.tile st t).q[j] (s.tile st t).q[k])) := by
  have named := launch.named
  rw [launch.moves] at named
  obtain ⟨vs, read, carried⟩ := readMoves_carried (s := s) (st := st) (t := t) idle (ms := [m, b])
    (by simp [Source.plain, launch.src, launch.operand]) (fun x hx => (named x hx).1)
  obtain ⟨c, hst, ht, run⟩ := State.runMoves_read (i := i) read (by simp [launch.dst, launch.trigger])
  have first : m.value vs = (s.tile st t).q[j] := by
    rw [carried m (by simp), Tile.carried, launch.src]
    rfl
  have second : b.value vs = (s.tile st t).q[k] := by
    rw [carried b (by simp), Tile.carried, launch.operand]
    rfl
  have cycles : i.cycles = 1 := by rw [Insn.cycles, launch.overPort]; rfl
  have noneLate : ∀ x ∈ [m, b], x.late = false := by simp [Move.late, launch.dst, launch.trigger]
  rw [run, fireAll_early c noneLate, cycles]
  simp only [fireMoves, launch.dst, launch.trigger, fireTrig, fireAlu, TOut.bind, Tile.writeAll, List.foldl_cons, List.foldl_nil,
    Tile.write, first, second, hst, ht, State.modTile_def, State.tile_setTile, State.setTile_setTile]
  simp [Tile.launched, Tile.launch, Tile.turn, idle, aluFlight]

end

end Sys2Proof.Machine
end

/-! SUPPORT. The commands: the instruction that puts an ALU operation in flight, OPERATION_COMPLETE, and the instruction held back (02 R46;
05 R158, R159). -/

section
namespace Sys2Proof.Machine

variable {s u : State} {st : Stn} {t : TileNo} {i : Insn} {meet : Meet}

/-! ### The operation in flight -/

theorem State.counted_haltFrozen (s : State) (U : Tile) : ((s.noted.counted st t i).setTile st t U).haltFrozen st = s.haltFrozen st := by
  unfold State.haltFrozen State.inReset State.stn
  rw [State.setTile_core, State.setTile_stns, State.counted_core, State.counted_stns]
  rfl

section
variable {m b : Move} {n : Fin 2} {j k : Fin 64} {op : AluOp} (launch : i.Launches m b n j k op)
  (idle : (s.tile st t).flights = []) (slot : (s.tile st t).slot = 0) (pkind : (s.tile st t).pkind = .none)
  (rip : (s.tile st t).rip = false) (conflict : (s.tile st t).conflict = none)
  (fetch : s.segCheck st (s.tile st t) 6 .fetch false false true anyAlign [((0x20000 + (s.tile st t).pc.toNat : Int), i.len)] = none)
include launch idle slot pkind rip conflict fetch

/-- The instruction completes with its operation in flight; the next one is to wait for an overflow that is precise (05 R159). -/
theorem Insn.Launches.execute :
    let T := s.tile st t
    let a := T.q[j]
    let b := T.q[k]
    ∃ U, s.execute st t i = .done ((s.counted st t i).setTile st t U) ∧
      OnlyCounts { T.launched n op a b with pc := T.pc + BitVec.ofNat 16 i.len } U ∧
      U.flights = [aluFlight n op a b T.pc ((i.pre.prec || T.psw.getLsbD 6) && aluOverflow op a b)] := by
  intro T a b
  have once : T.repeating i = none := by simp [Tile.repeating, T, rip, launch.rep]
  have runs := launch.runMoves (s := s) idle
  have due : s.execFault st t i [m, _] = none :=
    State.execFault_none fetch conflict (.inr launch.overPort) launch.usesQu
  have tile := s.tile_setTile st t (T.launched n op a b)
  obtain ⟨U, finish, only, flights, -, -⟩ := (s.setTile st t (T.launched n op a b)).finish_moves_on st t (old := T) (rep := none) i
    (by simp) (by simp [T, slot])
  rw [tile] at only flights
  rw [Tile.advance_slot0 (T := T.launched n op a b) (old := T) slot pkind] at only
  refine ⟨U, ?_, only.trans ?_, flights.trans ?_⟩
  · rw [State.execute_once once (by rw [launch.enabled]; exact launch.duplicate) (by rw [launch.enabled]; exact due)
      (by rw [launch.enabled]; exact runs), finish, State.counted_setTile, State.setTile_setTile]
  · unfold OnlyCounts
    rw [← slot]
    rfl
  · show (if i.pre.prec || T.psw.getLsbD 6 then _ else _) = _
    cases i.pre.prec || T.psw.getLsbD 6 <;> rfl

theorem exec_launches (ready : s.Ready st t i) (hw : Registers.wf s = true) :
    let T := s.tile st t
    let a := T.q[j]
    let b := T.q[k]
    ∃ u, exec (.instruction st t meet) s = .next u ∧
      OnlyCounts { T.launched n op a b with pc := T.pc + BitVec.ofNat 16 i.len } (u.tile st t) ∧
      (u.tile st t).flights = [aluFlight n op a b T.pc ((i.pre.prec || T.psw.getLsbD 6) && aluOverflow op a b)] ∧
      u.haltFrozen st = s.haltFrozen st ∧ Registers.wf u = true ∧ ∀ x, u.byte x = s.byte x := by
  intro T a b
  obtain ⟨c, load, same⟩ := State.loadCount_decoded (s := s.noted) ready.decoded
  have loaded : s.noted.loadCount st t = s.noted := by
    rw [load, same (.inr launch.rep)]
    exact State.modTile_id t
  obtain ⟨U, run, only, flights⟩ := launch.execute (s := s.noted) idle slot pkind rip conflict fetch
  refine ⟨_, exec_instruction_done ready (.inr ?_) launch.quiet (by rw [loaded, run]) ?_, ?_, ?_, s.counted_haltFrozen U,
    counted_wf (s := s.noted) hw, fun x => ?_⟩
  · rw [Insn.hazard, launch.rep]
  · rw [State.setTile_undef, State.counted_undef]
    rfl
  · rw [State.tile_setTile]
    exact only
  · rw [State.tile_setTile]
    exact flights
  · rw [State.setTile_byte, State.counted_byte, State.noted_byte]

end

/-- What the instruction leaves of the tile. -/
theorem OnlyCounts.launched {T U : Tile} {n : Fin 2} {op : AluOp} {a b : W64} {next : W16}
    (h : OnlyCounts { T.launched n op a b with pc := next } U) :
    U.opnd = T.opnd.set n.val a ∧ U.aluR = T.aluR ∧ U.q = T.q ∧ U.pc = next ∧ U.run = T.run ∧ U.stopReq = T.stopReq ∧
      U.testReq = T.testReq ∧ U.report = T.report := by
  unfold OnlyCounts at h
  rw [h]
  exact ⟨rfl, rfl, rfl, rfl, rfl, rfl, rfl, rfl⟩

/-! ### Completion (04 R101; 05 R158) -/

/-- A completed operation shows its result and leaves its report. -/
theorem exec_operationComplete_aluFlight {n : Fin 2} {op : AluOp} {a b : W64} {pc : W16} {hold : Bool} (unfrozen : s.haltFrozen st = false)
    (flights : (s.tile st t).flights = [aluFlight n op a b pc hold]) (report : (s.tile st t).report = none) :
    exec (.operationComplete st t (.alu n)) s = .next (s.setTile st t { s.tile st t with
      flights := [], aluR := (s.tile st t).aluR.set n (aluResult op a b)
      report := if aluOverflow op a b then some ⟨BitVec.ofNat 4 n.val, pc, 0, 0, false, !hold⟩ else none }) := by
  have delivered : (s.tile st t).completeOldest (.alu n) = { s.tile st t with
      flights := [], aluR := (s.tile st t).aluR.set n (aluResult op a b)
      report := if aluOverflow op a b then some ⟨BitVec.ofNat 4 n.val, pc, 0, 0, false, !hold⟩ else none } := by
    unfold Tile.completeOldest
    simp only [flights, aluFlight, List.find?_cons, beq_self_eq_true, List.eraseP_cons, cond_true]
    cases aluOverflow op a b with
    | true => simp [Tile.deliver, Tile.raiseReport, report, unitIdentity]
    | false => simp [Tile.deliver, ← report]
  show Host.Outcome.next (s.operationComplete st t (.alu n)) = _
  rw [State.operationComplete, unfrozen, State.modTile_def, delivered]
  rfl

/-! ### The wait for a check (05 R159) -/

theorem State.stalled_reg (hw : Registers.wf s = true) :
    (s.stalled st t).reg (tileReg st t 0x204) = s.reg (tileReg st t 0x204) + 1 ∧
      ∀ a, a ≠ tileReg st t 0x204 → (s.stalled st t).reg a = s.reg a := by
  refine ⟨?_, fun a h => ?_⟩
  · rw [State.stalled, State.modTile_reg, State.reg_bump_same hw]
    rfl
  · rw [State.stalled, State.modTile_reg, State.reg_bump_of_ne _ _ _ _ h]

theorem State.stalled_tile (s : State) (st : Stn) (t : TileNo) :
    (s.stalled st t).tile st t = { s.tile st t with window := windowTick (s.tile st t).window 1 } := by
  rw [State.stalled, State.modTile_def, State.tile_setTile, State.bump_tile]

theorem State.boundary_held (run : (s.tile st t).run = .running) (unfrozen : s.haltFrozen st = false)
    (stopReq : (s.tile st t).stopReq = false) (testReq : (s.tile st t).testReq = false) (report : (s.tile st t).report = none)
    (young : ∀ f ∈ (s.tile st t).flights, f.age < 16) (held : (s.tile st t).held = true) : s.boundary st t = s.stalled st t := by
  have going : ¬((s.tile st t).run ≠ .running ∨ s.haltFrozen st = true) := by simp [run, unfrozen]
  unfold State.boundary
  rw [if_neg going]
  simp only [State.forceOld_young young, stopReq, testReq, report, held]
  rfl

/-- No instruction is counted, so the outside port meets none of it. -/
theorem State.issue_uncounted (same : (s.boundary st t).reg (tileReg st t 0x200) = s.reg (tileReg st t 0x200)) :
    s.issue st t meet = s.boundary st t := by
  unfold State.issue
  exact if_neg (by simp [same])

theorem exec_instruction_held (hw : Registers.wf s = true) (run : (s.tile st t).run = .running) (unfrozen : s.haltFrozen st = false)
    (stopReq : (s.tile st t).stopReq = false) (testReq : (s.tile st t).testReq = false) (report : (s.tile st t).report = none)
    (young : ∀ f ∈ (s.tile st t).flights, f.age < 16) (held : (s.tile st t).held = true) :
    exec (.instruction st t meet) s = .next (s.noted.stalled st t) := by
  have stall : s.noted.boundary st t = s.noted.stalled st t := State.boundary_held run unfrozen stopReq testReq report young held
  obtain ⟨-, others⟩ := State.stalled_reg (s := s.noted) (st := st) (t := t) hw
  show (s.noted.issue st t meet).out = _
  rw [State.issue_uncounted (by rw [stall]; exact others _ (by simp)), stall, State.out, State.stalled, State.modTile_undef, State.bump_undef]
  rfl

end Sys2Proof.Machine
end

section
open Sys2Proof Sys2Proof.Machine

/-- Settles O15. A plain instruction by what its moves carry and where its repeat and its offset go; an ALU operation by the tile it is in
flight in, by what its completion delivers, and by the wait for its check. -/
theorem immediateMove : Obligations.ImmediateMove := by
  unfold Obligations.ImmediateMove
  constructor
  · intro s st t meet i T p on value plain count moves wrote next cap run unfrozen idle stopReq testReq report first stays conflict irq decoded
      plainMoves apart ports fetch hw
    have hplain := State.Plain.of_moves idle conflict ports fetch decoded plainMoves apart
    have ready : s.Ready st t i :=
      ⟨run, unfrozen, idle, stopReq, testReq, report, fun due => PKind.noConfusion ((first due.1).symm.trans due.2), irq, decoded⟩
    obtain ⟨vs, U, exec, carried, seq, flights, again, onward⟩ :=
      exec_plain_outcome (meet := meet) ready hplain first stays (T.repeating_count i)
    have dst := hplain.iterated_dst (count := count)
    have distinct : (if count = some 0 then [] else i.enabled T).Pairwise fun m n => m.dst ≠ n.dst := by
      split
      · exact .nil
      · exact hplain.apart
    have writes : wrote = written (if count = some 0 then [] else i.enabled T) T.carried := by
      have carries : value = T.carried := funext fun m => (T.carried_eq m).symm
      rw [Insn.enabled_eq, ← carries]
      rfl
    obtain ⟨lsuR, ld3, ld2, ld1, psw, pswNext, aluR, shfR, cuR, acc, fxm, ipend, tsbp, noReport⟩ := seq.rest dst
    have cap_eq : s.shcap st t = cap := s.shcap_eq st t
    refine ⟨_, exec, ?_⟩
    rw [writes, State.tile_setTile]
    refine ⟨seq.reg dst distinct carried, seq.opnd dst distinct carried, fun k hk => seq.pred dst distinct carried hk, seq.p0 dst,
      lsuR, ld3, ld2, ld1, psw, pswNext, fun n hn => ?_, fun last => ?_, aluR, shfR, cuR, acc, fxm, ipend, tsbp, flights,
      noReport.trans report, State.counted_outside hw U⟩
    · obtain ⟨⟨⟨pc, slot, pkind, pendVal, rs, rspPtr, rspCnt⟩, rip, rc⟩, window⟩ := again n hn
      rw [cap_eq] at window
      exact ⟨pc, slot, pkind, pendVal, rs, rspPtr, rspCnt, rip, rc, window⟩
    · obtain ⟨rip, rc, slot0, slot1, slot2, call, others⟩ := onward last
      exact ⟨rip, rc, slot0, slot1, slot2, call, others⟩
  · intro s st t meet i m b n j k op T x y exact overflow precise sums run unfrozen idle stopReq testReq report slot pkind rip conflict irq
      decoded moves src dst operand trigger guardM guardB cond rep fetch hw
    have launch : i.Launches m b n j k op := ⟨moves, src, dst, operand, trigger, ⟨guardM, guardB⟩, cond, rep, (decodeInsn_ok decoded).2⟩
    have ready : s.Ready st t i :=
      ⟨run, unfrozen, idle, stopReq, testReq, report, fun due => PKind.noConfusion (pkind.symm.trans due.2), irq, decoded⟩
    have overflows : overflow ↔ aluOverflow op T.q[j] T.q[k] = true := (aluOverflow_iff op T.q[j] T.q[k]).symm
    obtain ⟨u, exec, only, flights, frozen, wf, byte⟩ := exec_launches (meet := meet) launch idle slot pkind rip conflict fetch ready hw
    obtain ⟨opnd, aluR, q, pc, run', stopReq', testReq', report'⟩ := only.launched
    have complete := exec_operationComplete_aluFlight (frozen.trans unfrozen) flights (report'.trans report)
    refine ⟨u, _, exec, complete, opnd, aluR, q, pc, byte, ?_, ?_, ?_, fun wraps precisely => ?_⟩
    · rw [State.tile_setTile, aluR, aluResult_exact sums]
      rfl
    · rw [State.tile_setTile]
      by_cases wraps : overflow
      · rw [if_pos wraps, if_pos (overflows.1 wraps), overflows.1 wraps, Bool.and_true]
      · rw [if_neg wraps, if_neg (mt overflows.2 wraps)]
    · rw [State.tile_setTile]
    · have held : (u.tile st t).held = true := by
        rw [Tile.held, flights, overflows.1 wraps, List.any_cons]
        show (precise && true || _) = true
        rw [precisely]
        rfl
      obtain ⟨stalls, others⟩ := State.stalled_reg (s := u.noted) (st := st) (t := t) wf
      refine ⟨_, exec_instruction_held wf (run'.trans run) (frozen.trans unfrozen) (stopReq'.trans stopReq) (testReq'.trans testReq)
        (report'.trans report) (by simp [flights, aluFlight]) held, stalls, others, ?_⟩
      rw [State.stalled_tile]
      exact ⟨rfl, q, rfl⟩

end

/-! SUPPORT. Numbers made of digits of w bits, lowest first, and the fields of a word made of them (00 R6; 04 R99, R105). -/

section
namespace Sys2Proof.Machine

theorem ofDigits_digit {b : Nat} {l : List Nat} (small : ∀ d ∈ l, d < b) (i : Nat) : Nat.ofDigits b l / b ^ i % b = l.getD i 0 := by
  induction l generalizing i with
  | nil => simp
  | cons d l ih =>
    have first : d < b := small d (by simp)
    cases i with
    | zero => simp [Nat.ofDigits_cons, Nat.mod_eq_of_lt first]
    | succ i =>
      have tail : (d + b * Nat.ofDigits b l) / b = Nat.ofDigits b l := by
        rw [Nat.add_mul_div_left _ _ (by omega), Nat.div_eq_of_lt first, Nat.zero_add]
      rw [Nat.ofDigits_cons, Nat.pow_succ', ← Nat.div_div_eq_div_mul, tail, ih (fun x hx => small x (by simp [hx]))]
      rfl

/-- A field of a word that is made of digits is the digit in its place. -/
theorem extractLsb'_ofDigits {m w i : Nat} {l : List Nat} (pos : 0 < w) (small : ∀ d ∈ l, d < 2 ^ w) (fit : w * l.length ≤ m) :
    ((BitVec.ofNat m (Nat.ofDigits (2 ^ w) l)).extractLsb' (w * i) w).toNat = l.getD i 0 := by
  have lt : Nat.ofDigits (2 ^ w) l < 2 ^ m :=
    calc Nat.ofDigits (2 ^ w) l < (2 ^ w) ^ l.length := Nat.ofDigits_lt_base_pow_length (Nat.one_lt_two_pow (by omega)) small
      _ ≤ 2 ^ m := by rw [← Nat.pow_mul]; exact Nat.pow_le_pow_right (by decide) fit
  rw [BitVec.extractLsb'_toNat, BitVec.toNat_ofNat, Nat.mod_eq_of_lt lt, Nat.shiftRight_eq_div_pow, Nat.pow_mul, ofDigits_digit small]

/-- A sum of digits, each times the power of its place. -/
theorem foldr_places_eq (w : Nat) (g : Nat → Nat) (n z : Nat) :
    (List.range n).foldr (fun i acc => acc + g i * 2 ^ (w * i)) z = Nat.ofDigits (2 ^ w) ((List.range n).map g) + z := by
  induction n generalizing z with
  | zero => simp
  | succ n ih =>
    rw [List.range_succ, List.foldr_append, List.foldr_cons, List.foldr_nil, ih, List.map_append, Nat.ofDigits_append, List.map_singleton,
      Nat.ofDigits_singleton, List.length_map, List.length_range, ← Nat.pow_mul]
    ring

/-- Digits put one above the other. -/
theorem foldr_shift_eq {α : Type} (b : Nat) (g : α → Nat) (l : List α) : l.foldr (fun x acc => g x + acc * b) 0 = Nat.ofDigits b (l.map g) := by
  induction l with
  | nil => rfl
  | cons x l ih => rw [List.foldr_cons, ih, List.map_cons, Nat.ofDigits_cons, Nat.mul_comm]

/-- Lane i of a word whose lanes are summed, each in its place. -/
theorem extractLsb'_places {m w n i : Nat} {g : Nat → Nat} (pos : 0 < w) (small : ∀ j, g j < 2 ^ w) (fit : w * n ≤ m) (hi : i < n) :
    ((BitVec.ofNat m ((List.range n).foldr (fun i acc => acc + g i * 2 ^ (w * i)) 0)).extractLsb' (w * i) w).toNat = g i := by
  rw [foldr_places_eq, Nat.add_zero, extractLsb'_ofDigits pos (by simp [small]) (by simpa using fit)]
  simp [hi]

/-- Lane i of a word whose lanes are put one above the other. -/
theorem extractLsb'_shifts {α : Type} {m w i : Nat} {l : List α} {g : α → Nat} (pos : 0 < w) (small : ∀ x, g x < 2 ^ w)
    (fit : w * l.length ≤ m) (hi : i < l.length) :
    ((BitVec.ofNat m (l.foldr (fun x acc => g x + acc * 2 ^ w) 0)).extractLsb' (w * i) w).toNat = g l[i] := by
  rw [foldr_shift_eq, extractLsb'_ofDigits pos (by simp [small]) (by simpa using fit)]
  simp [hi]

end Sys2Proof.Machine
end

/-! SUPPORT. A trigger that a command makes by itself, and the completion of the operation that it puts in flight (02 R43 to R47; 05 R158, R159). -/

section
namespace Sys2Proof.Machine

variable {s v : State} {st : Stn} {t : TileNo} {seg : Option (Fin 8)} {x : Trig} {b : W64} {T : Tile}

/-! ### States that differ in a tile -/

@[simp] theorem State.setTile_tile (s : State) (st : Stn) (t : TileNo) : s.setTile st t (s.tile st t) = s := State.modTile_id t

@[simp] theorem State.setTile_haltFrozen (s : State) (st x : Stn) (t : TileNo) (T : Tile) : (s.setTile st t T).haltFrozen x = s.haltFrozen x := rfl

/-! ### Operations put in flight -/

/-- The operation that a trigger puts in flight, as the next instruction finds it: it waits for an operation that may report when PREC is
set (05 R159). -/
def Tile.triggered (T : Tile) (u : UnitId) (op : FlightOp) : Flight :=
  ⟨u, op, T.pc, 0, pswPrec T.psw && Flight.mayReport ⟨u, op, T.pc, 0, false⟩⟩

theorem Tile.holdFrom_length (T : Tile) : T.holdFrom T.flights.length = T := by
  rw [Tile.holdFrom, List.take_length, List.drop_length, List.map_nil, List.append_nil]

theorem Tile.holdFrom_launch (T : Tile) (u : UnitId) (op : FlightOp) :
    (if pswPrec T.psw then (T.launch u op).holdFrom T.flights.length else T.launch u op) =
      { T with flights := T.flights ++ [T.triggered u op] } := by
  cases prec : pswPrec T.psw with
  | true => simp [Tile.holdFrom, Tile.launch, Tile.triggered, prec, Flight.mayReport]
  | false => simp [Tile.launch, Tile.triggered, prec]

/-- Of the operations of a unit that was idle, the one put in flight is the oldest. -/
theorem Tile.completeOldest_triggered {u : UnitId} (idle : T.busy u = false) (op : FlightOp) :
    { T with flights := T.flights ++ [T.triggered u op] }.completeOldest u = T.deliver (T.triggered u op) := by
  have others : ∀ f ∈ T.flights, (f.unit == u) = false := by simpa [Tile.busy] using idle
  have own : ((T.triggered u op).unit == u) = true := beq_self_eq_true u
  have found : (T.flights ++ [T.triggered u op]).find? (·.unit == u) = some (T.triggered u op) := by
    rw [List.find?_append, List.find?_eq_none.2 (by simpa using others), Option.none_or, List.find?_singleton, if_pos own]
  have left : (T.flights ++ [T.triggered u op]).eraseP (·.unit == u) = T.flights := by
    rw [List.eraseP_append_right _ (by simpa using others), List.eraseP_cons, own, cond_true, List.append_nil]
  simp only [Tile.completeOldest, found, left]

/-! ### The trigger -/

section
variable (run : (s.tile st t).run = .running) (unfrozen : s.haltFrozen st = false) (unit : x.unit ≠ 7)
  (fires : fireTrig (Ctx.alone s st t seg) x b s = .done v)
include run unfrozen unit fires

theorem State.trigger_done :
    s.trigger st t seg x b = if pswPrec (s.tile st t).psw then v.modTile st t fun U => U.holdFrom (s.tile st t).flights.length else v := by
  have going : ¬((s.tile st t).run ≠ .running ∨ s.haltFrozen st = true) := by simp [run, unfrozen]
  unfold State.trigger
  rw [if_neg going, if_neg unit]
  simp only [fires]

/-- A trigger that puts no operation in flight. -/
theorem State.trigger_quiet (flights : (v.tile st t).flights = (s.tile st t).flights) : s.trigger st t seg x b = v := by
  rw [State.trigger_done run unfrozen unit fires, State.modTile_def, ← flights, Tile.holdFrom_length, State.setTile_tile, ite_self]

/-- A trigger that puts an operation in flight on an idle unit, and the completion of that operation. -/
theorem State.trigger_complete {u : UnitId} {op : FlightOp} (launched : v.tile st t = T.launch u op)
    (flights : T.flights = (s.tile st t).flights) (psw : T.psw = (s.tile st t).psw) (going : v.haltFrozen st = false)
    (idle : T.busy u = false) :
    (s.trigger st t seg x b).operationComplete st t u = v.setTile st t (T.deliver (T.triggered u op)) := by
  have inFlight : s.trigger st t seg x b = v.setTile st t { T with flights := T.flights ++ [T.triggered u op] } := by
    rw [State.trigger_done run unfrozen unit fires, ← Tile.holdFrom_launch, State.modTile_def, launched, ← flights, ← psw]
    split
    · rfl
    · rw [← launched, State.setTile_tile]
  rw [inFlight, State.operationComplete, State.setTile_haltFrozen, going, State.modTile_def, State.tile_setTile,
    Tile.completeOldest_triggered idle, State.setTile_setTile]
  rfl

end

/-- A trigger that puts an operation in flight on an idle unit of its tile and changes nothing outside the tile. -/
theorem State.trigger_complete_tile {u : UnitId} {op : FlightOp} (run : (s.tile st t).run = .running) (unfrozen : s.haltFrozen st = false)
    (unit : x.unit ≠ 7) (fires : fireTrig (Ctx.alone s st t seg) x b s = .done (s.setTile st t (T.launch u op)))
    (flights : T.flights = (s.tile st t).flights) (psw : T.psw = (s.tile st t).psw) (idle : T.busy u = false) :
    (s.trigger st t seg x b).operationComplete st t u = s.setTile st t (T.deliver (T.triggered u op)) := by
  rw [State.trigger_complete run unfrozen unit fires (State.tile_setTile ..) flights psw unfrozen idle, State.setTile_setTile]

/-! ### What an operation delivers -/

theorem Tile.deliver_shf (r : W64) : T.deliver (T.triggered .shf (.value r false)) = { T with shfR := r } := rfl

theorem Tile.deliver_scu (r : W64) : T.deliver (T.triggered .scu (.value r false)) = { T with scuR := r } := rfl

/-- The arithmetic report of a result of ALU n that overflows: a report that is pending keeps its place (05 R158). -/
def Tile.aluReport (T : Tile) (n : Fin 2) : Option Report :=
  match T.report with
  | none => some ⟨BitVec.ofNat 4 n.val, T.pc, 0, 0, false, !pswPrec T.psw⟩
  | some r => some { r with ilost := true }

theorem Tile.deliver_alu (n : Fin 2) (r : W64) (overflow : Bool) :
    T.deliver (T.triggered (.alu n) (.value r overflow)) =
      { T with aluR := T.aluR.set n r, report := if overflow then T.aluReport n else T.report } := by
  cases overflow with
  | false => rfl
  | true =>
    simp only [Tile.deliver, Tile.triggered, Tile.raiseReport, Tile.aluReport, Flight.mayReport, Bool.and_true, if_true]
    cases T.report <;> rfl

/-- What a MAC operation delivers where no report is pending. -/
theorem Tile.deliver_mac {n : Fin 2} {mode : MacMode} {accum : Bool} {k : Fin 4} {a b fxm : W64} (quiet : T.report = none) :
    T.deliver (T.triggered (.mac n) (.mac mode accum k a b fxm)) =
      { T with
        acc := T.acc.set n (T.acc[n].set k (macRun mode accum k a b fxm T.acc[n][k]).acc)
        macLast := T.macLast.set n (some k)
        report := (macRun mode accum k a b fxm T.acc[n][k]).report.map
          fun idet => ⟨BitVec.ofNat 4 (2 + n.val), T.pc, idet, 0, false, !(pswPrec T.psw && accum)⟩ } := by
  simp only [Tile.deliver, Tile.triggered, Flight.mayReport]
  cases (macRun mode accum k a b fxm T.acc[n][k]).report with
  | none => rw [Option.map_none, ← quiet]
  | some idet => simp only [Tile.raiseReport, quiet]; rfl

end Sys2Proof.Machine
end

/-! SUPPORT. The results of the ALUs, and what an ALU command and the completion of its operation leave (04 R99, R101, R102; 05 R158). -/

section
namespace Sys2Proof.Machine

/-! ### Results -/

theorem aluOverflow_addt (a b : W64) : aluOverflow .addt a b = true ↔ ¬(-2 ^ 63 ≤ a.toInt + b.toInt ∧ a.toInt + b.toInt ≤ 2 ^ 63 - 1) := by
  rw [aluOverflow_iff]
  simp [AluOp.exact]
  omega

theorem aluOverflow_subt (a b : W64) : aluOverflow .subt a b = true ↔ ¬(-2 ^ 63 ≤ a.toInt - b.toInt ∧ a.toInt - b.toInt ≤ 2 ^ 63 - 1) := by
  rw [aluOverflow_iff]
  simp [AluOp.exact]
  omega

theorem flag_eq_ite {n : Nat} (p : Bool) : (flag p : BitVec n) = if p then 1 else 0 := by cases p <;> rfl

theorem slt_eq_decide {w : Nat} (a b : BitVec w) : a.slt b = decide (a.toInt < b.toInt) := rfl

theorem ult_eq_decide {w : Nat} (a b : BitVec w) : a.ult b = decide (a.toNat < b.toNat) := rfl

/-- Whether two keys may be equal does not matter where equal keys mean equal results. -/
theorem ite_lt_eq_ite_le {α β : Type} [LinearOrder β] {p q : β} {x y : α} (same : p = q → x = y) :
    (if p < q then x else y) = if p ≤ q then x else y := by
  rcases lt_trichotomy p q with h | h | h
  · rw [if_pos h, if_pos h.le]
  · rw [same h, ite_self, ite_self]
  · rw [if_neg (not_lt.2 h.le), if_neg (not_le.2 h)]

theorem aluResult_cmpeq (a b : W64) : aluResult .cmpeq a b = if a = b then 1 else 0 := by simp [aluResult, flag_eq_ite]

theorem aluResult_cmpne (a b : W64) : aluResult .cmpne a b = if a = b then 0 else 1 := by simp [aluResult, flag_eq_ite]

theorem aluResult_cmplt (a b : W64) : aluResult .cmplt a b = if a.toInt < b.toInt then 1 else 0 := by
  simp [aluResult, flag_eq_ite, slt_eq_decide]

theorem aluResult_cmpltu (a b : W64) : aluResult .cmpltu a b = if a.toNat < b.toNat then 1 else 0 := by
  simp [aluResult, flag_eq_ite, ult_eq_decide]

theorem aluResult_min (a b : W64) : aluResult .min a b = if a.toInt ≤ b.toInt then a else b := by
  rw [← ite_lt_eq_ite_le BitVec.eq_of_toInt_eq]
  simp [aluResult, slt_eq_decide]

theorem aluResult_max (a b : W64) : aluResult .max a b = if a.toInt ≤ b.toInt then b else a := by
  rw [← ite_lt_eq_ite_le fun h => (BitVec.eq_of_toInt_eq h).symm]
  simp [aluResult, slt_eq_decide]

theorem aluResult_minu (a b : W64) : aluResult .minu a b = if a.toNat ≤ b.toNat then a else b := by
  rw [← ite_lt_eq_ite_le BitVec.eq_of_toNat_eq]
  simp [aluResult, ult_eq_decide]

theorem aluResult_maxu (a b : W64) : aluResult .maxu a b = if a.toNat ≤ b.toNat then b else a := by
  rw [← ite_lt_eq_ite_le fun h => (BitVec.eq_of_toNat_eq h).symm]
  simp [aluResult, ult_eq_decide]

theorem laneMask_beq {w : Nat} : (fun x y : BitVec w => (laneMask (x == y) : BitVec w)) = fun x y => if x = y then BitVec.allOnes w else 0 := by
  simp [laneMask]

theorem laneMask_slt {w : Nat} :
    (fun x y : BitVec w => (laneMask (x.slt y) : BitVec w)) = fun x y => if x.toInt < y.toInt then BitVec.allOnes w else 0 := by
  simp [laneMask, slt_eq_decide]

theorem allOnes_word : BitVec.allOnes 32 = 0xFFFFFFFF := by decide

theorem allOnes_half : BitVec.allOnes 16 = 0xFFFF := by decide

theorem aluResult_cmpeqw : aluResult .cmpeqw = lanes 32 2 fun x y => if x = y then 0xFFFFFFFF else 0 := by
  rw [← allOnes_word, ← laneMask_beq]
  rfl

theorem aluResult_cmpltw : aluResult .cmpltw = lanes 32 2 fun x y => if x.toInt < y.toInt then 0xFFFFFFFF else 0 := by
  rw [← allOnes_word, ← laneMask_slt]
  rfl

theorem aluResult_cmpeqh : aluResult .cmpeqh = lanes 16 4 fun x y => if x = y then 0xFFFF else 0 := by
  rw [← allOnes_half, ← laneMask_beq]
  rfl

theorem aluResult_cmplth : aluResult .cmplth = lanes 16 4 fun x y => if x.toInt < y.toInt then 0xFFFF else 0 := by
  rw [← allOnes_half, ← laneMask_slt]
  rfl

/-- A lane of a SIMD result is the result of the lanes. -/
theorem lanes_extract {w n i : Nat} (f : BitVec w → BitVec w → BitVec w) (a b : W64) (pos : 0 < w) (fit : w * n ≤ 64) (hi : i < n) :
    (lanes w n f a b).extractLsb' (w * i) w = f (a.extractLsb' (w * i) w) (b.extractLsb' (w * i) w) :=
  BitVec.eq_of_toNat_eq (extractLsb'_places (g := fun i => (f (bits a (w * i) w) (bits b (w * i) w)).toNat) pos (fun _ => BitVec.isLt _) fit hi)

/-! ### Commands -/

theorem fireTrig_alu {s : State} {st : Stn} {t : TileNo} {n : Fin 2} {op : AluOp} {b : W64} : fireTrig (Ctx.alone s st t none) (.alu n op) b s =
    .done (s.setTile st t ((s.tile st t).launch (.alu n)
      (.value (aluResult op (s.tile st t).opnd[n.val] b) (aluOverflow op (s.tile st t).opnd[n.val] b)))) := rfl

section
variable {s : State} {st : Stn} {t : TileNo} {n : Fin 2} {b : W64} {c : Instr} {op : AluOp} (run : (s.tile st t).run = .running)
  (unfrozen : s.haltFrozen st = false) (idle : (s.tile st t).busy (.alu n) = false)
  (command : exec c s = .next (s.trigger st t none (.alu n op) b))
include run unfrozen idle command

theorem exec_alu {r : W64} {report : Option Report} (result : aluResult op (s.tile st t).opnd[n.val] b = r)
    (reports : (if aluOverflow op (s.tile st t).opnd[n.val] b then (s.tile st t).aluReport n else (s.tile st t).report) = report) :
    ∃ u, exec c s = .next u ∧ exec (.operationComplete st t (.alu n)) u =
      .next (s.setTile st t { s.tile st t with aluR := (s.tile st t).aluR.set n r, report := report }) := by
  have unit : (Trig.alu n op).unit ≠ 7 := by simp only [Trig.unit]; omega
  refine ⟨_, command, congrArg Host.Outcome.next ?_⟩
  rw [State.trigger_complete_tile run unfrozen unit fireTrig_alu rfl rfl idle, Tile.deliver_alu, result, reports]

/-- An operation that does not report leaves its result alone. -/
theorem exec_alu_quiet {r : W64} (quiet : aluOverflow op = fun _ _ => false) (result : aluResult op (s.tile st t).opnd[n.val] b = r) :
    ∃ u, exec c s = .next u ∧
      exec (.operationComplete st t (.alu n)) u = .next (s.setTile st t { s.tile st t with aluR := (s.tile st t).aluR.set n r }) :=
  exec_alu run unfrozen idle command result (by rw [quiet]; rfl)

/-- A SIMD operation leaves in each lane the result of that lane. -/
theorem exec_alu_lanes {w m : Nat} {f : BitVec w → BitVec w → BitVec w} (quiet : aluOverflow op = fun _ _ => false)
    (result : aluResult op = lanes w m f) (pos : 0 < w) (fit : w * m ≤ 64) :
    ∃ u r, exec c s = .next u ∧
      exec (.operationComplete st t (.alu n)) u = .next (s.setTile st t { s.tile st t with aluR := (s.tile st t).aluR.set n r }) ∧
      ∀ i < m, r.extractLsb' (w * i) w = f ((s.tile st t).opnd[n.val].extractLsb' (w * i) w) (b.extractLsb' (w * i) w) := by
  obtain ⟨u, first, complete⟩ := exec_alu_quiet run unfrozen idle command quiet rfl
  refine ⟨u, _, first, complete, fun i hi => ?_⟩
  rw [result, lanes_extract f _ _ pos fit hi]

end

end Sys2Proof.Machine
end

section
open Sys2Proof Sys2Proof.Machine

/-- Settles O1. An operation that does not report delivers its result alone, a SIMD operation the results of its lanes, and `addt` and `subt`
leave a report where the exact result lies outside 64 bits. -/
theorem aluOperations : Obligations.AluOperations := by
  unfold Obligations.AluOperations
  refine ⟨?_, ?_, ?_⟩
  · intro s st t n b T a run unfrozen idle
    have row {c : Instr} {op : AluOp} {r : W64} := exec_alu_quiet (s := s) (st := st) (t := t) (n := n) (b := b) (c := c) (op := op) (r := r)
      run unfrozen idle
    simp only [List.forall_mem_cons, List.not_mem_nil, false_imp_iff, implies_true, and_true]
    exact ⟨row rfl rfl rfl, row rfl rfl rfl, row rfl rfl rfl, row rfl rfl rfl, row rfl rfl rfl, row rfl rfl rfl,
      row rfl rfl (aluResult_cmpeq a b), row rfl rfl (aluResult_cmpne a b), row rfl rfl (aluResult_cmplt a b),
      row rfl rfl (aluResult_cmpltu a b), row rfl rfl (aluResult_min a b), row rfl rfl (aluResult_max a b),
      row rfl rfl (aluResult_minu a b), row rfl rfl (aluResult_maxu a b)⟩
  · intro s st t n b T a run unfrozen idle
    have row {c : Instr} {op : AluOp} {w m : Nat} {f : BitVec w → BitVec w → BitVec w} (pos : 0 < w) (fit : w * m ≤ 64) command quiet
      result := exec_alu_lanes (s := s) (st := st) (t := t) (n := n) (b := b) (c := c) (op := op) (f := f) run unfrozen idle command quiet
        result pos fit
    have word {c : Instr} {op : AluOp} {f : W32 → W32 → W32} := row (c := c) (op := op) (m := 2) (f := f) (by decide) (by decide)
    have half {c : Instr} {op : AluOp} {f : W16 → W16 → W16} := row (c := c) (op := op) (m := 4) (f := f) (by decide) (by decide)
    simp only [List.forall_mem_cons, List.not_mem_nil, false_imp_iff, implies_true, and_true]
    exact ⟨⟨word rfl rfl rfl, word rfl rfl rfl, word rfl rfl aluResult_cmpeqw, word rfl rfl aluResult_cmpltw⟩,
      half rfl rfl rfl, half rfl rfl rfl, half rfl rfl aluResult_cmpeqh, half rfl rfl aluResult_cmplth⟩
  · intro s st t n b T a run unfrozen idle
    have row {c : Instr} {op : AluOp} {r : W64} command (result : _ = r) := exec_alu (s := s) (st := st) (t := t) (n := n) (b := b) (c := c)
      (op := op) run unfrozen idle command result rfl
    have pending : T.aluReport n ≠ none := by unfold Tile.aluReport; split <;> nofun
    simp only [List.forall_mem_cons, List.not_mem_nil, false_imp_iff, implies_true, and_true]
    constructor
    · obtain ⟨u, first, complete⟩ := row (c := .addt st t n b) (op := .addt) rfl rfl
      exact ⟨u, _, first, complete, fun fits => if_neg (mt (aluOverflow_addt a b).1 (not_not_intro fits)),
        fun wraps => by rwa [if_pos ((aluOverflow_addt a b).2 wraps)]⟩
    · obtain ⟨u, first, complete⟩ := row (c := .subt st t n b) (op := .subt) rfl rfl
      exact ⟨u, _, first, complete, fun fits => if_neg (mt (aluOverflow_subt a b).1 (not_not_intro fits)),
        fun wraps => by rwa [if_pos ((aluOverflow_subt a b).2 wraps)]⟩

end

/-! SUPPORT. The results of the shift unit, and what one of its commands and the completion of its operation leave (04 R103). -/

section
namespace Sys2Proof.Machine

/-! ### Results -/

/-- A byte of a word made of bytes is the byte in its place. -/
theorem leBv_extract {n : Nat} {bs : List Byte} (fit : 8 * bs.length ≤ n) (i : Nat) : (leBv n bs).extractLsb' (8 * i) 8 = bs.getD i 0 := by
  have lt : leNat bs < 2 ^ n :=
    calc leNat bs < 256 ^ bs.length := leNat_lt bs
      _ = 2 ^ (8 * bs.length) := by rw [Nat.pow_mul]
      _ ≤ 2 ^ n := Nat.pow_le_pow_right (by decide) fit
  apply BitVec.eq_of_toNat_eq
  rw [BitVec.extractLsb'_toNat, leBv, BitVec.toNat_ofNat, Nat.mod_eq_of_lt lt, Nat.shiftRight_eq_div_pow, Nat.pow_mul,
    show (2 : Nat) ^ 8 = 256 by decide, leNat_byte]

section
variable (c a b : W64)

theorem shiftPosition : nat b 0 6 = b.toNat % 64 := nat_low b 6

theorem shiftWidth : nat b 8 6 = b.toNat / 256 % 64 := nat_eq_toNat b 8 6

theorem shfResult_shl : shfResult .shl c a b = BitVec.ofNat 64 (a.toNat * 2 ^ (b.toNat % 64)) := by
  apply BitVec.eq_of_toNat_eq
  rw [shfResult, shiftPosition, BitVec.toNat_shiftLeft, Nat.shiftLeft_eq, BitVec.toNat_ofNat]

theorem shfResult_shr : shfResult .shr c a b = BitVec.ofNat 64 (a.toNat / 2 ^ (b.toNat % 64)) := by
  apply BitVec.eq_of_toNat_eq
  rw [shfResult, shiftPosition, BitVec.toNat_ushiftRight, Nat.shiftRight_eq_div_pow, BitVec.toNat_ofNat,
    Nat.mod_eq_of_lt ((Nat.div_le_self _ _).trans_lt a.isLt)]

theorem shfResult_sar : shfResult .sar c a b = BitVec.ofInt 64 (a.toInt / 2 ^ (b.toNat % 64)) := by
  rw [shfResult, shiftPosition, BitVec.sshiftRight, Int.shiftRight_eq_div_pow, Nat.cast_pow]
  rfl

theorem shfResult_rol :
    shfResult .rol c a b = BitVec.ofNat 64 (a.toNat * 2 ^ (b.toNat % 64) + a.toNat / 2 ^ (64 - b.toNat % 64)) := by
  have low : a.toNat / 2 ^ (64 - b.toNat % 64) < 2 ^ (b.toNat % 64) := by
    rw [Nat.div_lt_iff_lt_mul (Nat.two_pow_pos _), ← Nat.pow_add, show b.toNat % 64 + (64 - b.toNat % 64) = 64 by omega]
    exact a.isLt
  refine BitVec.eq_of_getLsbD_eq fun i hi => ?_
  rw [shfResult, shiftPosition, BitVec.getLsbD_rotateLeft, BitVec.getLsbD_ofNat, Nat.mul_comm, Nat.testBit_two_pow_mul_add _ low,
    Nat.testBit_div_two_pow, Nat.mod_mod]
  by_cases wraps : i < b.toNat % 64
  · simp [hi, wraps, BitVec.testBit_toNat, Nat.add_comm]
  · simp [hi, wraps, BitVec.testBit_toNat]

theorem getLsbD_ones_low {n : Nat} (w i : Nat) : (ones 0 w : BitVec n).getLsbD i = (decide (i < n) && decide (i < w)) := by
  rw [ones, Nat.pow_zero, Nat.mul_one, BitVec.getLsbD_ofNat, Nat.testBit_two_pow_sub_one]

theorem getLsbD_shfField {i : Nat} (hi : i < 64) :
    (shfField a b).getLsbD i = (decide (i < b.toNat / 256 % 64 + 1) && a.getLsbD (b.toNat % 64 + i)) := by
  rw [shfField, shiftPosition, shiftWidth, BitVec.getLsbD_and, BitVec.getLsbD_ushiftRight, getLsbD_ones_low, decide_eq_true hi, Bool.true_and,
    Bool.and_comm]

/-- The field of w bits at the position, as a number. -/
theorem shfField_eq : shfField a b = BitVec.ofNat 64 (a.toNat / 2 ^ (b.toNat % 64) % 2 ^ (b.toNat / 256 % 64 + 1)) := by
  refine BitVec.eq_of_getLsbD_eq fun i hi => ?_
  rw [getLsbD_shfField a b hi, BitVec.getLsbD_ofNat, Nat.testBit_mod_two_pow, Nat.testBit_div_two_pow, BitVec.testBit_toNat, decide_eq_true hi,
    Bool.true_and, Nat.add_comm i]

theorem getLsbD_exts {i : Nat} (hi : i < 64) :
    (shfResult .exts c a b).getLsbD i = (shfField a b).getLsbD (min i (b.toNat / 256 % 64)) := by
  have extended : (shfField a b ||| ~~~ones 0 (b.toNat / 256 % 64 + 1)).getLsbD i =
      ((shfField a b).getLsbD i || !decide (i < b.toNat / 256 % 64 + 1)) := by
    rw [BitVec.getLsbD_or, BitVec.getLsbD_not, getLsbD_ones_low, decide_eq_true hi, Bool.true_and, Bool.true_and]
  rw [shfResult, shiftWidth]
  rcases Nat.lt_or_ge (b.toNat / 256 % 64) i with above | below
  · have outside : (shfField a b).getLsbD i = false := by
      rw [getLsbD_shfField a b hi, decide_eq_false (by omega), Bool.false_and]
    rw [Nat.min_eq_right above.le]
    by_cases sign : bit (shfField a b) (b.toNat / 256 % 64) = true
    · rw [if_pos sign, extended, outside, decide_eq_false (by omega)]
      exact sign.symm
    · rw [if_neg sign, outside]
      exact (Bool.eq_false_of_not_eq_true sign).symm
  · rw [Nat.min_eq_left below]
    split
    · rw [extended, decide_eq_true (by omega), Bool.not_true, Bool.or_false]
    · rfl

theorem getLsbD_ins {i : Nat} (hi : i < 64) : (shfResult .ins c a b).getLsbD i =
    if b.toNat % 64 ≤ i ∧ i < b.toNat % 64 + (b.toNat / 256 % 64 + 1) then a.getLsbD (i - b.toNat % 64) else c.getLsbD i := by
  rw [shfResult, shiftPosition, shiftWidth, getLsbD_put, BitVec.testBit_toNat, decide_eq_true hi, Bool.true_and]
  exact if_congr (by omega) rfl rfl

theorem perm_extract {i : Nat} (hi : i < 8) : (shfResult .perm c a b).extractLsb' (8 * i) 8 =
    if b.getLsbD (4 * i + 3) then 0 else a.extractLsb' (8 * (b.toNat / 16 ^ i % 8)) 8 := by
  rw [shfResult, leBv_extract (by simp)]
  simp [hi, bit, bits, nat_eq_toNat, Nat.pow_mul]

end

/-! ### Commands -/

/-- With no shift in flight, `ins` works on what `shf.r` shows. -/
theorem Tile.shfLatest_idle {T : Tile} (idle : T.busy .shf = false) : T.shfLatest = T.shfR := by
  unfold Tile.busy at idle
  unfold Tile.shfLatest
  generalize T.flights = fs at idle
  induction fs with
  | nil => rfl
  | cons f fs ih =>
    rw [List.any_cons, Bool.or_eq_false_iff] at idle
    obtain ⟨other, idle⟩ := idle
    rw [List.foldl_cons]
    split
    next unit _ => simp [unit] at other
    next => exact ih idle

theorem fireTrig_shf {s : State} {st : Stn} {t : TileNo} {op : ShfOp} {b : W64} : fireTrig (Ctx.alone s st t none) (.shf op) b s =
    .done (s.setTile st t ((s.tile st t).launch .shf (.value (shfResult op (s.tile st t).shfLatest (s.tile st t).opnd[4] b) false))) := rfl

section
variable {s : State} {st : Stn} {t : TileNo} {b : W64} {c : Instr} {op : ShfOp} (run : (s.tile st t).run = .running)
  (unfrozen : s.haltFrozen st = false) (idle : (s.tile st t).busy .shf = false)
  (command : exec c s = .next (s.trigger st t none (.shf op) b))
include run unfrozen idle command

theorem exec_shf : ∃ u, exec c s = .next u ∧ exec (.operationComplete st t .shf) u =
    .next (s.setTile st t { s.tile st t with shfR := shfResult op (s.tile st t).shfR (s.tile st t).opnd[4] b }) := by
  refine ⟨_, command, congrArg Host.Outcome.next ?_⟩
  rw [State.trigger_complete_tile run unfrozen (by simp [Trig.unit]) fireTrig_shf rfl rfl idle, Tile.deliver_shf, Tile.shfLatest_idle idle]

theorem exec_shf_result {r : W64} (result : shfResult op (s.tile st t).shfR (s.tile st t).opnd[4] b = r) :
    ∃ u, exec c s = .next u ∧ exec (.operationComplete st t .shf) u = .next (s.setTile st t { s.tile st t with shfR := r }) :=
  result ▸ exec_shf run unfrozen idle command

end

end Sys2Proof.Machine
end

section
open Sys2Proof Sys2Proof.Machine

/-- Settles O2. Each shift delivers its result alone: the number that its row names, or the bits and bytes of it. -/
theorem shiftResults : Obligations.ShiftResults := by
  unfold Obligations.ShiftResults
  intro s st t b T a pos w field run unfrozen idle
  have row {c : Instr} {op : ShfOp} {r : W64} := exec_shf_result (s := s) (st := st) (t := t) (b := b) (c := c) (op := op) (r := r) run unfrozen
    idle
  have bitwise {c : Instr} {op : ShfOp} := exec_shf (s := s) (st := st) (t := t) (b := b) (c := c) (op := op) run unfrozen idle
  refine ⟨?_, ?_, ?_, ?_⟩
  · simp only [List.forall_mem_cons, List.not_mem_nil, false_imp_iff, implies_true, and_true]
    exact ⟨row rfl (shfResult_shl _ a b), row rfl (shfResult_shr _ a b), row rfl (shfResult_sar _ a b), row rfl (shfResult_rol _ a b),
      row rfl (shfField_eq a b)⟩
  · obtain ⟨u, first, complete⟩ := bitwise (c := .exts st t b) rfl
    exact ⟨u, _, first, complete, fun i hi => (getLsbD_exts _ a b hi).trans (by rw [shfField_eq]; rfl)⟩
  · obtain ⟨u, first, complete⟩ := bitwise (c := .ins st t b) rfl
    exact ⟨u, _, first, complete, fun i hi => getLsbD_ins _ a b hi⟩
  · obtain ⟨u, first, complete⟩ := bitwise (c := .perm st t b) rfl
    exact ⟨u, _, first, complete, fun i hi => perm_extract _ a b hi⟩

end

/-! SUPPORT. Lanes of accumulators: their range, how they are clamped and wrapped, and what a multiply-accumulate leaves in each (04 R105 to R109). -/

section
namespace Sys2Proof.Machine

/-! ### Signed values of w bits -/

theorem inRange_iff (w : Nat) (x : Int) : inRange w x = true ↔ -2 ^ (w - 1) ≤ x ∧ x < 2 ^ (w - 1) := by
  rw [inRange, Bool.and_eq_true, decide_eq_true_iff, decide_eq_true_iff]
  omega

theorem inRange_of_natAbs_lt {w : Nat} {x : Int} (h : x.natAbs < 2 ^ (w - 1)) : inRange w x = true := by
  have cast : (x.natAbs : Int) < 2 ^ (w - 1) := by exact_mod_cast h
  rw [inRange_iff]
  omega

theorem wrapInt_inRange (w : Nat) (x : Int) : inRange w (wrapInt w x) = true := (inRange_iff w _).2 ⟨BitVec.le_toInt _, BitVec.toInt_lt⟩

theorem wrapInt_of_inRange {w : Nat} {x : Int} (pos : 0 < w) (h : inRange w x = true) : wrapInt w x = x := by
  obtain ⟨lo, hi⟩ := (inRange_iff w x).1 h
  exact BitVec.toInt_ofInt_eq_self pos lo hi

theorem wrapInt_eq {w : Nat} (pos : 0 < w) (x : Int) : wrapInt w x = (x + 2 ^ (w - 1)) % 2 ^ w - 2 ^ (w - 1) := by
  obtain ⟨lo, hi⟩ := (inRange_iff w _).1 (wrapInt_inRange w x)
  have double : (2 : Int) ^ w = 2 ^ (w - 1) + 2 ^ (w - 1) := by
    rw [← mul_two, ← pow_succ, Nat.sub_add_cancel pos]
  have same : wrapInt w x % 2 ^ w = x % 2 ^ w := by
    rw [wrapInt, BitVec.toInt_ofInt]
    exact_mod_cast Int.bmod_emod (x := x) (m := 2 ^ w)
  rw [← Int.emod_add_emod, ← same, Int.emod_add_emod, Int.emod_eq_of_lt (by omega) (by omega)]
  omega

theorem clamp_of_not_inRange {w : Nat} {x : Int} (h : ¬inRange w x = true) : clamp w x = if x < 0 then -2 ^ (w - 1) else 2 ^ (w - 1) - 1 := by
  have pos : (0 : Int) < 2 ^ (w - 1) := by positivity
  rw [inRange_iff] at h
  unfold clamp
  split_ifs <;> omega

theorem clamp_inRange {w : Nat} {x : Int} (h : ¬inRange w x = true) : inRange w (clamp w x) = true := by
  have pos : (0 : Int) < 2 ^ (w - 1) := by positivity
  rw [clamp_of_not_inRange h, inRange_iff]
  split <;> omega

/-- What is kept of a lane fits the lane. -/
theorem narrow_inRange (fxm : W64) (w : Nat) (x : Int) : inRange w (narrow fxm w x) = true := by
  unfold narrow
  split
  next h => exact h
  next h =>
    split
    · exact clamp_inRange h
    · exact wrapInt_inRange w x

/-! ### Lanes -/

theorem accLane_accOf {w i : Nat} {l : List Int} (pos : 0 < w) (fit : w * l.length ≤ 192) (hi : i < l.length) :
    accLane (accOf w l) w i = wrapInt w l[i] :=
  congrArg BitVec.toInt (BitVec.eq_of_toNat_eq (extractLsb'_shifts (g := fun x => (BitVec.ofInt w x).toNat) pos (fun _ => BitVec.isLt _) fit hi))

theorem macWidth_pos (mode : MacMode) : 0 < macWidth mode := by cases mode <;> decide

theorem macWidth_fit (mode : MacMode) : macWidth mode * macLanes mode ≤ 192 := by cases mode <;> decide

/-- The exact sum of lane i (04 R106, R107). -/
def macSum (mode : MacMode) (accum : Bool) (a b fxm : W64) (old : Acc) (i : Nat) : Int :=
  (if accum && old.tag == macTag mode then accLane old.lanes (macWidth mode) i else 0) + macProduct fxm a b i mode

section
variable (mode : MacMode) (accum : Bool) (k : Fin 4) (a b fxm : W64) (old : Acc)

theorem macSum_eq : macSum mode accum a b fxm old =
    fun i => (if accum ∧ old.tag = macTag mode then accLane old.lanes (macWidth mode) i else 0) + macProduct fxm a b i mode := by
  funext i
  rw [macSum]
  simp

theorem macArith_lane {i : Nat} (hi : i < macLanes mode) : accLane (macArith mode accum k a b fxm old).acc.lanes (macWidth mode) i =
    narrow fxm (macWidth mode) (macSum mode accum a b fxm old i) := by
  rw [← wrapInt_of_inRange (macWidth_pos mode) (narrow_inRange fxm (macWidth mode) (macSum mode accum a b fxm old i))]
  unfold macArith
  dsimp only
  rw [accLane_accOf (macWidth_pos mode) (by simpa using macWidth_fit mode) (by simpa using hi), List.getElem_map, List.getElem_map,
    List.getElem_range]
  rfl

/-! ### Overflow -/

theorem natAbs_toInt_le {w : Nat} (x : BitVec w) : x.toInt.natAbs ≤ 2 ^ (w - 1) := by
  have lo := BitVec.le_toInt x
  have hi := BitVec.toInt_lt (x := x)
  zify
  rw [abs_le]
  omega

theorem natAbs_lane8_le (uns : Bool) (x : W64) (i : Nat) : (lane8 uns x i).natAbs ≤ 255 := by
  cases uns with
  | true => exact Nat.le_of_lt_succ (bits x (8 * i) 8).isLt
  | false => exact (natAbs_toInt_le (bits x (8 * i) 8)).trans (by decide)

/-- A product alone fits the lane. -/
theorem macProduct_inRange (i : Nat) : inRange (macWidth mode) (macProduct fxm a b i mode) = true := by
  apply inRange_of_natAbs_lt
  cases mode with
  | m8 =>
    calc (macProduct fxm a b i .m8).natAbs = _ * _ := Int.natAbs_mul ..
      _ ≤ 255 * 255 := Nat.mul_le_mul (natAbs_lane8_le ..) (natAbs_lane8_le ..)
      _ < _ := by decide
  | q15 =>
    calc (macProduct fxm a b i .q15).natAbs = _ * _ * 2 := by rw [macProduct, Int.natAbs_mul, Int.natAbs_mul]; rfl
      _ ≤ 2 ^ 15 * 2 ^ 15 * 2 := Nat.mul_le_mul_right 2 (Nat.mul_le_mul (natAbs_toInt_le _) (natAbs_toInt_le _))
      _ < _ := by decide
  | q31 =>
    calc (macProduct fxm a b i .q31).natAbs = _ * _ * 2 := by rw [macProduct, Int.natAbs_mul, Int.natAbs_mul]; rfl
      _ ≤ 2 ^ 31 * 2 ^ 31 * 2 := Nat.mul_le_mul_right 2 (Nat.mul_le_mul (natAbs_toInt_le _) (natAbs_toInt_le _))
      _ < _ := by decide

/-- OVS is set where a lane's sum leaves its range, which a product alone does not. -/
theorem macArith_ovs : (macArith mode accum k a b fxm old).ovs = true ↔
    ∃ i < macLanes mode, ¬inRange (macWidth mode) (macSum mode accum a b fxm old i) = true := by
  have sums : (macArith mode accum k a b fxm old).ovs =
      (accum && ((List.range (macLanes mode)).map (macSum mode accum a b fxm old)).any fun x => !inRange (macWidth mode) x) := rfl
  rw [sums]
  cases accum with
  | true => simp
  | false =>
    have alone (i : Nat) : macSum mode false a b fxm old i = macProduct fxm a b i mode := by simp [macSum]
    simp [alone, macProduct_inRange]

/-! ### The word that identifies lanes (05 R151) -/

/-- The lanes out of range as a number: lane i is bit i. -/
def macLanesOut : Nat :=
  (List.range (macLanes mode)).foldr (fun i acc => acc +
    if inRange (macWidth mode) (((List.range (macLanes mode)).map (macSum mode accum a b fxm old)).getD i 0) then 0 else 2 ^ i) 0

theorem macArith_report : (macArith mode accum k a b fxm old).report =
    if (macArith mode accum k a b fxm old).ovs && bit fxm 3 then
      some (BitVec.ofNat 64 (macLanesOut mode accum a b fxm old * 256 + k.val)) else none := rfl

theorem macLanesOut_eq : macLanesOut mode accum a b fxm old = Nat.ofDigits (2 ^ 1) ((List.range (macLanes mode)).map
    fun i => if inRange (macWidth mode) (((List.range (macLanes mode)).map (macSum mode accum a b fxm old)).getD i 0) then 0 else 1) := by
  rw [← Nat.add_zero (Nat.ofDigits ..), ← foldr_places_eq 1, macLanesOut]
  simp only [ite_mul, zero_mul, one_mul]

theorem macLanesOut_lt : macLanesOut mode accum a b fxm old < 256 := by
  rw [macLanesOut_eq]
  refine (Nat.ofDigits_lt_base_pow_length (by decide) fun d hd => ?_).trans_le (?_ : _ ≤ 2 ^ 8)
  · obtain ⟨i, -, rfl⟩ := List.mem_map.1 hd
    split <;> decide
  · rw [List.length_map, List.length_range]
    cases mode <;> decide

theorem testBit_macLanesOut (i : Nat) : (macLanesOut mode accum a b fxm old).testBit i = true ↔
    i < macLanes mode ∧ ¬inRange (macWidth mode) (macSum mode accum a b fxm old i) = true := by
  rw [Nat.testBit_eq_decide_div_mod_eq, decide_eq_true_iff, macLanesOut_eq, Nat.pow_one, ofDigits_digit fun d hd => ?_]
  · by_cases hi : i < macLanes mode
    · simp [hi]
    · simp [hi]
  · obtain ⟨j, -, rfl⟩ := List.mem_map.1 hd
    split <;> decide

end

end Sys2Proof.Machine
end

/-! SUPPORT. What a command of a MAC and the completion of its operation leave (04 R106 to R110; 05 R151, R158, R159). -/

section
namespace Sys2Proof.Machine

theorem putBit_true {n : Nat} (x : BitVec n) (i : Nat) : putBit x i true = x ||| BitVec.twoPow n i := by
  refine BitVec.eq_of_getLsbD_eq fun j hj => ?_
  rw [putBit, getLsbD_put, BitVec.getLsbD_or, BitVec.getLsbD_twoPow]
  by_cases same : i = j
  · simp [same, hj]
  · rw [if_neg (by omega), decide_eq_false same, Bool.and_false, Bool.or_false]

/-- With no operation in flight into it, an accumulator stands as it will. -/
theorem Tile.accLatest_idle {T : Tile} {n : Fin 2} (idle : T.busy (.mac n) = false) (k : Fin 4) : T.accLatest n k = T.acc[n][k] := by
  unfold Tile.busy at idle
  unfold Tile.accLatest
  generalize T.flights = fs at idle
  induction fs with
  | nil => rfl
  | cons f fs ih =>
    rw [List.any_cons, Bool.or_eq_false_iff] at idle
    obtain ⟨other, idle⟩ := idle
    rw [List.foldl_cons]
    split
    next m _ _ _ _ _ _ unit _ =>
      have apart : m ≠ n := by simpa [unit] using other
      rw [if_neg fun h => apart h.1]
      exact ih idle
    next => exact ih idle

/-- The tile with OVS set where an overflow is found. -/
def Tile.sticky (T : Tile) (ovs : Bool) : Tile := { T with fxm := if ovs then T.fxm ||| 0x10000 else T.fxm }

theorem fireTrig_mac {s : State} {st : Stn} {t : TileNo} {n : Fin 2} {mode : MacMode} {accum : Bool} {k : Fin 4} {b : W64} :
    let T := s.tile st t
    fireTrig (Ctx.alone s st t none) (.mac n mode accum k) b s =
      .done (s.setTile st t ((T.sticky (macRun mode accum k T.opnd[n.val + 2] b T.fxm (T.accLatest n k)).ovs).launch (.mac n)
        (.mac mode accum k T.opnd[n.val + 2] b T.fxm))) := by
  intro T
  have ovs : putBit T.fxm 16 true = T.fxm ||| 0x10000 := putBit_true _ 16
  rw [Tile.sticky, ← ovs]
  rfl

section
variable {s : State} {st : Stn} {t : TileNo} {n : Fin 2} {mode : MacMode} {accum : Bool} {k : Fin 4} {b : W64} {c : Instr}
  (run : (s.tile st t).run = .running) (unfrozen : s.haltFrozen st = false) (idle : (s.tile st t).busy (.mac n) = false)
  (quiet : (s.tile st t).report = none) (command : exec c s = .next (s.trigger st t none (.mac n mode accum k) b))
include run unfrozen idle quiet command

/-- The accumulator, the sticky OVS flag and the report of the operation, and nothing else. -/
theorem exec_mac {out : MacOut} {fxm : W64} {report : Option Report}
    (result : macRun mode accum k (s.tile st t).opnd[n.val + 2] b (s.tile st t).fxm (s.tile st t).acc[n][k] = out)
    (flagged : (if out.ovs then (s.tile st t).fxm ||| 0x10000 else (s.tile st t).fxm) = fxm)
    (reported : out.report.map (fun idet =>
      ⟨BitVec.ofNat 4 (2 + n.val), (s.tile st t).pc, idet, 0, false, !(pswPrec (s.tile st t).psw && accum)⟩) = report) :
    ∃ u, exec c s = .next u ∧ exec (.operationComplete st t (.mac n)) u = .next (s.setTile st t { s.tile st t with
      acc := (s.tile st t).acc.set n ((s.tile st t).acc[n].set k out.acc)
      macLast := (s.tile st t).macLast.set n (some k), fxm := fxm, report := report }) := by
  have unit : (Trig.mac n mode accum k).unit ≠ 7 := by simp only [Trig.unit]; omega
  refine ⟨_, command, congrArg Host.Outcome.next ?_⟩
  rw [State.trigger_complete_tile run unfrozen unit fireTrig_mac rfl rfl idle, Tile.accLatest_idle idle, result,
    Tile.deliver_mac (T := (s.tile st t).sticky out.ovs) quiet]
  simp only [Tile.sticky, result, flagged, reported]

/-- What `mulN` and `mlaN` leave in the lanes, of OVS and of a report. -/
theorem exec_macArith {sum : Nat → Int} (multiplies : (mode == .q15 && bit (s.tile st t).fxm 6) = false)
    (sums : macSum mode accum (s.tile st t).opnd[n.val + 2] b (s.tile st t).fxm (s.tile st t).acc[n][k] = sum) :
    let T := s.tile st t
    let fits := fun i => -2 ^ (macWidth mode - 1) ≤ sum i ∧ sum i < 2 ^ (macWidth mode - 1)
    let ovf := ∃ i < macLanes mode, ¬fits i
    ∃ u A fxm report, exec c s = .next u ∧
      exec (.operationComplete st t (.mac n)) u = .next (s.setTile st t
        { T with acc := T.acc.set n (T.acc[n].set k A), macLast := T.macLast.set n (some k), fxm := fxm, report := report }) ∧
      A.tag = macTag mode ∧
      (∀ i < macLanes mode, accLane A.lanes (macWidth mode) i =
        if fits i then sum i
        else if T.fxm.getLsbD 2 then (if sum i < 0 then -2 ^ (macWidth mode - 1) else 2 ^ (macWidth mode - 1) - 1)
        else (sum i + 2 ^ (macWidth mode - 1)) % 2 ^ macWidth mode - 2 ^ (macWidth mode - 1)) ∧
      (ovf → fxm = T.fxm ||| 0x10000) ∧ (¬ovf → fxm = T.fxm) ∧
      (ovf ∧ T.fxm.getLsbD 3 = true →
        ∃ idet, report = some ⟨BitVec.ofNat 4 (2 + n.val), T.pc, idet, 0, false, !(T.psw.getLsbD 6)⟩ ∧
          idet.toNat % 256 = k.val ∧ idet.toNat < 65536 ∧ ∀ i < 8, (idet.getLsbD (8 + i) = true ↔ i < macLanes mode ∧ ¬fits i)) ∧
      (¬(ovf ∧ T.fxm.getLsbD 3 = true) → report = none) := by
  subst sums
  intro T fits ovf
  have inRange (i : Nat) : inRange (macWidth mode) (macSum mode accum T.opnd[n.val + 2] b T.fxm T.acc[n][k] i) = true ↔ fits i :=
    inRange_iff ..
  let out := macArith mode accum k T.opnd[n.val + 2] b T.fxm T.acc[n][k]
  have runs : macRun mode accum k T.opnd[n.val + 2] b T.fxm T.acc[n][k] = out := if_neg (by rw [multiplies]; decide)
  have ovs : out.ovs = true ↔ ovf := by simp only [out, macArith_ovs, ovf, ← inRange]
  obtain ⟨u, first, complete⟩ := exec_mac run unfrozen idle quiet command runs rfl rfl
  refine ⟨u, out.acc, _, _, first, complete, rfl, fun i hi => ?_, fun h => if_pos (ovs.2 h), fun h => if_neg (mt ovs.1 h), ?_, ?_⟩
  · rw [macArith_lane _ _ _ _ _ _ _ hi, ← if_congr (inRange i) rfl rfl, narrow]
    refine if_ctx_congr Iff.rfl (fun _ => rfl) fun outside => ?_
    rw [← clamp_of_not_inRange outside, ← wrapInt_eq (macWidth_pos mode)]
    rfl
  · intro ⟨overflows, trap⟩
    have accumulates : accum = true := by
      have := ovs.2 overflows
      exact (Bool.and_eq_true_iff.1 this).1
    let lanesOut := macLanesOut mode accum T.opnd[n.val + 2] b T.fxm T.acc[n][k]
    have lt : lanesOut < 256 := macLanesOut_lt ..
    have report : out.report = some (BitVec.ofNat 64 (lanesOut * 256 + k.val)) :=
      (macArith_report ..).trans (if_pos (by rw [ovs.2 overflows]; exact trap))
    have value : (BitVec.ofNat 64 (lanesOut * 256 + k.val)).toNat = 2 ^ 8 * lanesOut + k.val := by
      rw [BitVec.toNat_ofNat]
      omega
    refine ⟨BitVec.ofNat 64 (lanesOut * 256 + k.val), ?_, ?_, ?_, fun i hi => ?_⟩
    · rw [report, Option.map_some, accumulates, Bool.and_true]
      rfl
    · rw [value]
      omega
    · rw [value]
      omega
    · rw [← BitVec.testBit_toNat, value, Nat.testBit_two_pow_mul_add _ (by omega), if_neg (by omega), Nat.add_sub_cancel_left,
        testBit_macLanesOut]
      exact and_congr_right fun _ => not_congr (inRange i)
  · intro silent
    have report : out.report = none := (macArith_report ..).trans (if_neg (by rwa [Bool.and_eq_true, ovs]))
    rw [report, Option.map_none]

end

end Sys2Proof.Machine
end

section
open Sys2Proof Sys2Proof.Machine

/-- Settles O3. A report of an ALU by its overflow, and each multiply-accumulate by its lanes, OVS and its report. -/
theorem macResults : Obligations.MacResults := by
  unfold Obligations.MacResults
  constructor
  · intro s st t n b T a run unfrozen idle
    have row {c : Instr} {op : AluOp} {x : Int} {r : W64} command (result : _ = r)
        (wraps : aluOverflow op a b = true ↔ ¬(-2 ^ 63 ≤ x ∧ x ≤ 2 ^ 63 - 1)) :=
      exec_alu (s := s) (st := st) (t := t) (n := n) (b := b) (c := c) (op := op) run unfrozen idle command result
        (report := if -2 ^ 63 ≤ x ∧ x ≤ 2 ^ 63 - 1 then T.report else T.aluReport n) ((if_congr wraps rfl rfl).trans (ite_not ..))
    simp only [List.forall_mem_cons, List.not_mem_nil, false_imp_iff, implies_true, and_true]
    exact ⟨row rfl rfl (aluOverflow_addt a b), row rfl rfl (aluOverflow_subt a b)⟩
  · intro s st t n k b T a old byte result run unfrozen idle quiet
    have row {c : Instr} (mode : MacMode) (accum : Bool) command multiplies := exec_macArith (s := s) (st := st) (t := t) (n := n) (b := b)
      (c := c) (mode := mode) (accum := accum) (k := k) run unfrozen idle quiet command multiplies (macSum_eq ..)
    exact ⟨row .m8 false rfl rfl, row .m8 true rfl rfl, fun multiplies => ⟨row .q15 false rfl multiplies, row .q15 true rfl multiplies⟩,
      row .q31 false rfl rfl, row .q31 true rfl rfl⟩

end

/-! SUPPORT. The divide steps of a MAC: remainder and quotient of each lane, and what the commands leave (04 R112, R113; 05 R151). -/

section
namespace Sys2Proof.Machine

/-! ### Remainder and quotient of a lane -/

theorem remainder_eq (x : BitVec 192) (i : Nat) : (x.extractLsb' (40 * i + 16) 24).toNat = (x.extractLsb' (40 * i) 40).toNat / 65536 := by
  rw [BitVec.extractLsb'_toNat, BitVec.extractLsb'_toNat, Nat.shiftRight_add, Nat.shiftRight_eq_div_pow _ 16]
  omega

theorem quotient_eq (x : BitVec 192) (i : Nat) : (x.extractLsb' (40 * i) 16).toNat = (x.extractLsb' (40 * i) 40).toNat % 65536 := by
  rw [BitVec.extractLsb'_toNat, BitVec.extractLsb'_toNat]
  omega

theorem acc40_extract (f : Nat → BitVec 40) {i : Nat} (hi : i < 4) : ((acc40 f).extractLsb' (40 * i) 40).toNat = (f i).toNat :=
  extractLsb'_places (g := fun i => (f i).toNat) (by decide) (fun _ => BitVec.isLt _) (by decide) hi

/-- One divide step: the remainder is doubled and the divisor taken from it where it fits; a divisor of zero leaves the lane. -/
theorem divLane_step (x : BitVec 40) (d : Nat) :
    let r0 := x.toNat / 65536
    let q0 := x.toNat % 65536
    let r2 := 2 * r0 % 2 ^ 24
    if d = 0 then (divLane x d).toNat / 65536 = r0 ∧ (divLane x d).toNat % 65536 = q0
    else if d ≤ r2 then (divLane x d).toNat / 65536 = r2 - d ∧ (divLane x d).toNat % 65536 = (2 * q0 + 1) % 2 ^ 16
    else (divLane x d).toNat / 65536 = r2 ∧ (divLane x d).toNat % 65536 = 2 * q0 % 2 ^ 16 := by
  intro r0 q0 r2
  have lt := x.isLt
  have remainder : nat x 16 24 * 2 % 2 ^ 24 = r2 := by
    rw [nat_eq_toNat]
    omega
  have quotient : nat x 0 16 * 2 = 2 * q0 := by
    rw [nat_low]
    omega
  have small : r2 < 2 ^ 24 := Nat.mod_lt _ (by decide)
  split
  next zero => rw [divLane, if_pos zero]; exact ⟨rfl, rfl⟩
  next nonzero =>
    simp only [divLane, if_neg nonzero, remainder, quotient]
    split
    · rw [BitVec.toNat_ofNat]
      omega
    · rw [BitVec.toNat_ofNat]
      omega

/-- The lane that a divide step works on: one of another tag counts as zero. -/
def divideLane (old : Acc) (i : Nat) : BitVec 40 := if old.tag == .divide then bits old.lanes (40 * i) 40 else 0

theorem divideLane_remainder (old : Acc) (i : Nat) :
    (divideLane old i).toNat / 65536 = if old.tag = .divide then (old.lanes.extractLsb' (40 * i + 16) 24).toNat else 0 := by
  rw [remainder_eq, divideLane]
  by_cases divide : old.tag = .divide
  · rw [if_pos divide, if_pos (beq_iff_eq.2 divide)]
    rfl
  · rw [if_neg divide, if_neg (mt beq_iff_eq.1 divide)]
    rfl

theorem divideLane_quotient (old : Acc) (i : Nat) :
    (divideLane old i).toNat % 65536 = if old.tag = .divide then (old.lanes.extractLsb' (40 * i) 16).toNat else 0 := by
  rw [quotient_eq, divideLane]
  by_cases divide : old.tag = .divide
  · rw [if_pos divide, if_pos (beq_iff_eq.2 divide)]
    rfl
  · rw [if_neg divide, if_neg (mt beq_iff_eq.1 divide)]
    rfl

section
variable (k : Fin 4) (a b : W64) (old : Acc)

theorem macDivide_start {i : Nat} (hi : i < 4) :
    ((macDivide false k a b old).acc.lanes.extractLsb' (40 * i) 40).toNat = (a.extractLsb' (16 * i) 16).toNat * 65536 := by
  have small := (a.extractLsb' (16 * i) 16).isLt
  refine (acc40_extract _ hi).trans (Nat.mod_eq_of_lt ?_)
  show (a.extractLsb' (16 * i) 16).toNat * 65536 < _
  omega

theorem macDivide_step {i : Nat} (hi : i < 4) : ((macDivide true k a b old).acc.lanes.extractLsb' (40 * i) 40).toNat =
    (divLane (divideLane old i) (b.extractLsb' (16 * i) 16).toNat).toNat :=
  acc40_extract (fun i => divLane (divideLane old i) (nat b (16 * i) 16)) hi

theorem macDivide_report : (macDivide true k a b old).report =
    if ∃ i < 4, (b.extractLsb' (16 * i) 16).toNat = 0 then some (BitVec.ofNat 64 (65536 + k.val)) else none := by
  have zeros : ((List.range 4).any fun i => bits b (16 * i) 16 == 0) = true ↔ ∃ i < 4, (b.extractLsb' (16 * i) 16).toNat = 0 := by
    simp only [List.any_eq_true, List.mem_range, beq_iff_eq, ← BitVec.toNat_inj]
    rfl
  exact if_congr zeros rfl rfl

end

end Sys2Proof.Machine
end

section
open Sys2Proof Sys2Proof.Machine

/-- Settles O4. `mul15` by the lanes it starts, `mla15` by the step of each lane and the report of a divisor of zero. -/
theorem macDivideSteps : Obligations.MacDivideSteps := by
  unfold Obligations.MacDivideSteps
  intro s st t n k b T a old r q lane run unfrozen idle quiet divides
  have result (accum : Bool) : macRun .q15 accum k a b T.fxm old = macDivide accum k a b old := if_pos divides
  constructor
  · obtain ⟨u, first, complete⟩ := exec_mac (c := .mul15 st t n k b) run unfrozen idle quiet rfl (result false) rfl quiet.symm
    refine ⟨u, _, first, complete, rfl, fun i hi => ?_⟩
    have started := macDivide_start k a b old hi
    constructor
    · exact (remainder_eq ..).trans (by rw [started]; exact Nat.mul_div_cancel _ (by decide))
    · exact (quotient_eq ..).trans (by rw [started]; exact Nat.mul_mod_left ..)
  · obtain ⟨u, first, complete⟩ := exec_mac (c := .mla15 st t n k b) run unfrozen idle quiet rfl (result true) rfl rfl
    refine ⟨u, _, _, first, complete, rfl, fun i hi => ?_, fun zero => ?_, fun nonzero => ?_⟩
    · have step := divLane_step (divideLane old i) (lane b i)
      have remainder : r (macDivide true k a b old).acc i = (divLane (divideLane old i) (lane b i)).toNat / 65536 :=
        (remainder_eq ..).trans (congrArg (· / 65536) (macDivide_step k a b old hi))
      have quotient : q (macDivide true k a b old).acc i = (divLane (divideLane old i) (lane b i)).toNat % 65536 :=
        (quotient_eq ..).trans (congrArg (· % 65536) (macDivide_step k a b old hi))
      simp only [divideLane_remainder, divideLane_quotient] at step
      rw [remainder, quotient]
      exact step
    · rw [macDivide_report, if_pos zero, Option.map_some, Bool.and_true]
      rfl
    · rw [macDivide_report, if_neg fun ⟨i, hi, zero⟩ => nonzero i hi zero, Option.map_none]

end

/-! SUPPORT. Writes to tile data memory: what they leave, and the bytes they write (02 R67); segment checks that pass (06 R183). -/

section
namespace Sys2Proof.Machine

variable {s : State} {st : Stn} {t : TileNo}

/-! ### What a write changes -/

theorem State.setBytes_only (s : State) (a : Nat) (bs : List Byte) : s.setBytes a bs = { s with mem := (s.setBytes a bs).mem } := by
  induction bs generalizing s a with
  | nil => rfl
  | cons b bs ih =>
    rw [State.setBytes, ih]
    rfl

theorem State.setUpset_only (s : State) (a : Nat) (u : Upset) : s.setUpset a u = { s with ecc := (s.setUpset a u).ecc } := by
  cases u <;> rfl

theorem State.foldl_setUpset_only (s : State) (f : Nat → Nat) (u : Upset) (ws : List Nat) :
    ws.foldl (fun s w => s.setUpset (f w) u) s = { s with ecc := (ws.foldl (fun s w => s.setUpset (f w) u) s).ecc } := by
  induction ws generalizing s with
  | nil => rfl
  | cons w ws ih =>
    rw [List.foldl_cons, ih, State.setUpset_only]

/-- A write to tile data memory changes memory and its check bits alone. -/
theorem State.writeData_only (s : State) (st : Stn) (t : TileNo) (off : Nat) (bs : List Byte) :
    s.writeData st t off bs = { s with mem := (s.writeData st t off bs).mem, ecc := (s.writeData st t off bs).ecc } := by
  unfold State.writeData
  rw [State.foldl_setUpset_only, State.setBytes_only]

@[simp] theorem State.writeData_tile (s : State) (st : Stn) (t : TileNo) (off : Nat) (bs : List Byte) (x : Stn) (y : TileNo) :
    (s.writeData st t off bs).tile x y = s.tile x y := by
  rw [State.writeData_only]
  rfl

@[simp] theorem State.writeData_reg (s : State) (st : Stn) (t : TileNo) (off : Nat) (bs : List Byte) (x : Nat) :
    (s.writeData st t off bs).reg x = s.reg x := by
  rw [State.writeData_only]
  rfl

@[simp] theorem State.writeData_haltFrozen (s : State) (st : Stn) (t : TileNo) (off : Nat) (bs : List Byte) (x : Stn) :
    (s.writeData st t off bs).haltFrozen x = s.haltFrozen x := by
  rw [State.writeData_only]
  rfl

/-! ### The bytes written -/

theorem ofNat_div_eq_byte {n : Nat} (x : BitVec n) (i : Nat) : BitVec.ofNat 8 (x.toNat / 256 ^ i) = x.extractLsb' (8 * i) 8 := by
  rw [BitVec.extractLsb', Nat.shiftRight_eq_div_pow, Nat.pow_mul]

theorem State.byte_writeData_inside {n v i : Nat} {off : Nat} (hw : Memory.wf s = true) (hi : i < n) :
    (s.writeData st t off (leBytes n v)).byte (tileData st t off + i) = BitVec.ofNat 8 (v / 256 ^ i) := by
  rw [State.byte_writeData, State.byte_setBytes_inside _ _ _ _ hw (by simpa using hi), getElem_leBytes]

theorem State.byte_writeData_outside {bs : List Byte} {off x : Nat} (h : x < tileData st t off ∨ tileData st t off + bs.length ≤ x) :
    (s.writeData st t off bs).byte x = s.byte x := by
  rw [State.byte_writeData, State.byte_setBytes_outside _ _ _ _ h]

end Sys2Proof.Machine
end

/-! SUPPORT. Loads and stores whose checks pass (04 R104). -/

section
namespace Sys2Proof.Machine

variable {s : State} {st : Stn} {t : TileNo} {sg : Fin 8} {b : W64} {op : LsuOp} {c : Instr}

/-! ### Corrections counted -/

@[simp] theorem State.countCe_tile (s : State) (st : Stn) (t : TileNo) (off n : Nat) (x : Stn) (y : TileNo) :
    (s.countCe st t off n).tile x y = s.tile x y := State.bump_tile ..

@[simp] theorem State.countCe_byte (s : State) (st : Stn) (t : TileNo) (off n a : Nat) : (s.countCe st t off n).byte a = s.byte a :=
  State.bump_byte ..

/-! ### Values loaded -/

theorem extractLsb'_ofNat_low {m n : Nat} (h : n ≤ m) (x : Nat) : (BitVec.ofNat m x).extractLsb' 0 n = BitVec.ofNat n x := by
  apply BitVec.eq_of_toNat_eq
  rw [BitVec.extractLsb'_toNat, BitVec.toNat_ofNat, BitVec.toNat_ofNat, Nat.shiftRight_zero, Nat.mod_mod_of_dvd _ (Nat.pow_dvd_pow 2 h)]

theorem lsuExtend_unsigned (h : lsuSigned op = false) (bs : List Byte) : lsuExtend op bs = BitVec.ofNat 64 (leNat bs) := by
  rw [lsuExtend, h]
  rfl

theorem lsuExtend_signed (h : lsuSigned op = true) (bs : List Byte) :
    lsuExtend op bs = (BitVec.ofNat (8 * lsuSize op) (leNat bs)).signExtend 64 := by
  have fit : 8 * lsuSize op ≤ 64 := by cases op <;> decide
  rw [lsuExtend, h, ← extractLsb'_ofNat_low fit]
  rfl

/-! ### Commands -/

section
variable (run : (s.tile st t).run = .running) (unfrozen : s.haltFrozen st = false)
  (command : exec c s = .next (s.trigger st t (some sg) (.lsu op) b))
  (check : s.segCheck st (s.tile st t) sg .data (!lsuStores op) (lsuStores op) false alignOk [((b.toNat : Int), lsuSize op)] = none)
  (walk : (s.tile st t).scu.walkHolds b.toNat (lsuSize op) = false) (xfer : (s.tile st t).xferHolds b.toNat (lsuSize op) (lsuStores op) = false)
  (ok : s.dataState st t b.toNat (lsuSize op) = .ok)
include run unfrozen command check walk xfer ok

theorem exec_load {v : W64} (loads : lsuStores op = false) (value : lsuExtend op (s.readData st t b.toNat (lsuSize op)) = v) :
    exec c s = .next ((s.countCe st t b.toNat (lsuSize op)).setTile st t { s.tile st t with ld1 := some v }) := by
  have fires : fireTrig (Ctx.alone s st t (some sg)) (.lsu op) b s =
      .done ((s.countCe st t b.toNat (lsuSize op)).setTile st t { s.tile st t with ld1 := some v }) := by
    rw [loads] at check xfer
    rw [← value]
    simp only [fireTrig, fireLsu, Ctx.alone, Ctx.T0, Option.getD_some, check, walk, xfer, ok, loads, State.modTile_def, State.countCe_tile]
    rfl
  rw [command, State.trigger_quiet run unfrozen (by simp [Trig.unit]) fires (by rw [State.tile_setTile])]

theorem exec_store (stores : lsuStores op = true) :
    exec c s = .next (s.writeData st t b.toNat (leBytes (lsuSize op) (s.tile st t).opnd[6].toNat)) := by
  have fires : fireTrig (Ctx.alone s st t (some sg)) (.lsu op) b s =
      .done (s.writeData st t b.toNat (leBytes (lsuSize op) (s.tile st t).opnd[6].toNat)) := by
    rw [stores] at check xfer
    simp only [fireTrig, fireLsu, Ctx.alone, Ctx.T0, Option.getD_some, check, walk, xfer, ok, stores]
    rfl
  rw [command, State.trigger_quiet run unfrozen (by simp [Trig.unit]) fires (by rw [State.writeData_tile])]

/-- The bytes that a store writes, and what it leaves. -/
theorem exec_store_bytes (stores : lsuStores op = true) (hw : Memory.wf s = true) : ∃ u, exec c s = .next u ∧
    (∀ i < lsuSize op, u.byte (tileData st t b.toNat + i) = (s.tile st t).opnd[6].extractLsb' (8 * i) 8) ∧
    (∀ x, x < tileData st t b.toNat ∨ tileData st t b.toNat + lsuSize op ≤ x → u.byte x = s.byte x) ∧
    u = { s with mem := u.mem, ecc := u.ecc } :=
  ⟨_, exec_store run unfrozen command check walk xfer ok stores, fun _ hi => (State.byte_writeData_inside hw hi).trans (ofNat_div_eq_byte ..),
    fun _ outside => State.byte_writeData_outside (by rwa [leBytes_length]), State.writeData_only ..⟩

end

end Sys2Proof.Machine
end

section
open Sys2Proof Sys2Proof.Machine

/-- Settles O7. A load by the value that enters the load line, a store by the bytes that it writes. -/
theorem loadsAndStores : Obligations.LoadsAndStores := by
  unfold Obligations.LoadsAndStores
  constructor
  · intro s st t sg b T zero sign run unfrozen
    have row {c : Instr} (op : LsuOp) {v : W64} command loads value check walk xfer ok := exec_load (s := s) (st := st) (t := t) (sg := sg)
      (b := b) (op := op) (c := c) (v := v) run unfrozen command check walk xfer ok loads value
    simp only [List.forall_mem_cons, List.not_mem_nil, false_imp_iff, implies_true, and_true]
    exact ⟨row .ld8 rfl rfl (lsuExtend_unsigned rfl _), row .ld8s rfl rfl (lsuExtend_signed rfl _),
      row .ld16 rfl rfl (lsuExtend_unsigned rfl _), row .ld16s rfl rfl (lsuExtend_signed rfl _),
      row .ld32 rfl rfl (lsuExtend_unsigned rfl _), row .ld32s rfl rfl (lsuExtend_signed rfl _),
      row .ld64 rfl rfl (lsuExtend_unsigned rfl _)⟩
  · intro s st t sg b T run unfrozen hw
    have row {c : Instr} (op : LsuOp) command stores check walk xfer ok := exec_store_bytes (s := s) (st := st) (t := t) (sg := sg) (b := b)
      (op := op) (c := c) run unfrozen command check walk xfer ok stores hw
    simp only [List.forall_mem_cons, List.not_mem_nil, false_imp_iff, implies_true, and_true]
    exact ⟨row .st8 rfl rfl, row .st16 rfl rfl, row .st32 rfl rfl, row .st64 rfl rfl⟩

end

/-! SUPPORT. Blocks of 32 bytes that can be read without a correction (04 R114; 06 R183; 08 R227). -/

section
namespace Sys2Proof.Machine

variable {s : State} {st : Stn} {t : TileNo}

/-- A segment check that passes has found the access aligned. -/
theorem State.segCheck_aligned {T : Tile} {k : Fin 8} {kind : SegKind} {r w x : Bool} {al : Bool → Int → Nat → Bool} {a : Int} {n : Nat}
    (h : s.segCheck st T k kind r w x al [(a, n)] = none) : al (segRot T.sgA[k]) a n = true := by
  by_contra misaligned
  have found : [(a, n)].find? (fun e => !al (segRot T.sgA[k]) e.1 e.2) = some (a, n) := by simpa using misaligned
  simp only [State.segCheck, found] at h
  split_ifs at h
  split at h <;> cases h

/-- Counting nothing changes nothing. -/
theorem State.bump_zero (hw : Registers.wf s = true) (a : Nat) : s.bump a 0 = s := by
  have same : smSet regReset s.regs a (s.reg a + BitVec.ofNat 32 0) = s.regs := by
    rw [show s.reg a + BitVec.ofNat 32 0 = s.reg a from BitVec.add_zero _]
    refine smExt regReset _ _ (smSet_wf regReset s.regs a _ hw) hw fun k => ?_
    by_cases own : k = a
    · rw [own, smGet_set_same regReset s.regs a _ hw]
      rfl
    · rw [smGet_set_of_ne regReset s.regs _ own]
  unfold State.bump State.setReg
  rw [same]

/-- Words without a single-bit error: a read of them corrects nothing. -/
theorem State.countCe_clean (hw : Registers.wf s = true) {off n : Nat} (clean : ∀ w ∈ wordsOf off n, s.upset (tileData st t w) = .none) :
    s.countCe st t off n = s := by
  have count : ((wordsOf off n).countP fun w => s.upset (tileData st t w) == .single) = 0 :=
    List.countP_eq_zero.2 fun w hw => by rw [clean w hw]; decide
  rw [State.countCe, count, State.bump_zero hw]

theorem State.recordUe_ok {off n : Nat} (ok : s.dataState st t off n = .ok) : s.recordUe st t off n = s := by
  have correctable : (wordsOf off n).find? (fun w => s.upset (tileData st t w) == .double) = none := by
    unfold State.dataState at ok
    split_ifs at ok with off bad
    simpa using bad
  rw [State.recordUe, correctable]

/-- The words of an aligned block. -/
theorem wordsOf_block {off : Nat} (aligned : off % 32 = 0) : wordsOf off 32 = (List.range 4).map fun j => off + 8 * j := by
  have four : (off + 32 - 1) / 8 + 1 - off / 8 = 4 := by omega
  rw [wordsOf, four]
  exact List.map_congr_left fun j _ => by omega

/-- A block of 32 bytes passes its checks, has no error, and no transfer holds it back. -/
structure State.BlockClear (s : State) (st : Stn) (t : TileNo) (sg : Fin 8) (off : Nat) (w : Bool) : Prop where
  check : s.segCheck st (s.tile st t) sg .data (!w) w false (multOf 32) [((off : Int), 32)] = none
  ok : s.dataState st t off 32 = .ok
  xfer : (s.tile st t).xferHolds off 32 w = false
  clean : ∀ j < 4, s.upset (tileData st t (off + 8 * j)) = .none

theorem State.BlockClear.on {sg : Fin 8} {off : Nat} {w : Bool} (h : s.BlockClear st t sg off w) : s.blockOff st t off = false := by
  rw [State.blockOff, h.ok]
  rfl

theorem State.BlockClear.correct {sg : Fin 8} {off : Nat} {w : Bool} (h : s.BlockClear st t sg off w) :
    (s.dataState st t off 32 == .bad) = false := by
  rw [h.ok]
  rfl

theorem State.BlockClear.countCe {sg : Fin 8} {off : Nat} {w : Bool} (h : s.BlockClear st t sg off w) (hw : Registers.wf s = true) :
    s.countCe st t off 32 = s := by
  have aligned : off % 32 = 0 := by
    have := of_decide_eq_true (State.segCheck_aligned h.check)
    omega
  refine State.countCe_clean hw ?_
  rw [wordsOf_block aligned]
  simpa using h.clean

end Sys2Proof.Machine
end

/-! SUPPORT. Rows of 32 pixels, and what `grad`, `thr`, `census` and `absd` compute of them (04 R114, R116). -/

section
namespace Sys2Proof.Machine

/-! ### Pixels -/

theorem pix_eq (r : BitVec 256) (i : Int) : pix r i = (((r.extractLsb' (8 * (max 0 (min 31 i)).toNat) 8).toNat : Nat) : Int) := by
  have place : (if i < 0 then 0 else if 31 < i then 31 else i.toNat) = (max 0 (min 31 i)).toNat := by split_ifs <;> omega
  rw [pix, place]
  rfl

theorem pix_bounds (r : BitVec 256) (i : Int) : 0 ≤ pix r i ∧ pix r i ≤ 255 := by
  have := (r.extractLsb' (8 * (max 0 (min 31 i)).toNat) 8).isLt
  rw [pix_eq]
  omega

/-- A pixel of a block read as a row is the byte in its place. -/
theorem pix_rowBytes {bs : List Byte} (h : bs.length = 32) {i : Nat} (hi : i < 32) : pix (rowBytes bs) i = ((bs.getD i 0).toNat : Int) := by
  have place : (max 0 (min 31 (i : Int))).toNat = i := by omega
  rw [pix_eq, place, rowBytes, leBv_extract (by rw [h])]

/-- The bytes of a row are its pixels. -/
theorem rowOf_byte {f : Nat → Nat} (small : ∀ i, f i < 256) {i : Nat} (hi : i < 32) :
    (BitVec.ofNat 8 ((rowOf f).toNat / 256 ^ i)).toNat = f i := by
  have digits : rowOf f = BitVec.ofNat 256 ((List.range 32).foldr (fun i acc => f i + acc * 2 ^ 8) 0) := by
    rw [rowOf]
    simp only [Nat.mod_eq_of_lt (small _), Nat.mul_comm 256, Nat.reducePow]
  rw [ofNat_div_eq_byte, digits, extractLsb'_shifts (by decide) small (by simp) (by simpa using hi), List.getElem_range]

/-! ### Output rows -/

section
variable (c : Byte) (u m d : BitVec 256) (i : Nat)

theorem gradPix_lt : gradPix u m d i < 256 := by
  have := pix_bounds m (i + 1)
  have := pix_bounds m (i - 1)
  have := pix_bounds d i
  have := pix_bounds u i
  rw [gradPix]
  omega

theorem thrPix_lt : thrPix c u m d i < 256 := by
  unfold thrPix
  dsimp only
  split <;> decide

/-- Each neighbour below the middle pixel is one bit. -/
theorem censusPix_eq :
    let less := fun (x : Int) (j : Nat) => if x < pix m i then 2 ^ j else 0
    censusPix u m d i = less (pix u (i - 1)) 0 + less (pix u i) 1 + less (pix u (i + 1)) 2 + less (pix m (i - 1)) 3 + less (pix m (i + 1)) 4 +
      less (pix d (i - 1)) 5 + less (pix d i) 6 + less (pix d (i + 1)) 7 := by
  intro less
  have bit (x : Int) (j : Nat) : less x j = 2 ^ j * if x < pix m i then 1 else 0 := by simp [less]
  simp only [censusPix, List.foldr_cons, List.foldr_nil, bit]
  ring

theorem censusPix_lt : censusPix u m d i < 256 := by
  have bits (v : Int) (l : List Int) : l.foldr (fun x acc => (if x < v then 1 else 0) + 2 * acc) 0 < 2 ^ l.length := by
    induction l with
    | nil => exact Nat.one_pos
    | cons x l ih =>
      have one : (if x < v then 1 else 0) ≤ 1 := by split <;> decide
      rw [List.foldr_cons, List.length_cons, Nat.pow_succ]
      omega
  have lt := bits (pix m i) [pix u (i - 1), pix u i, pix u (i + 1), pix m (i - 1), pix m (i + 1), pix d (i - 1), pix d i, pix d (i + 1)]
  simp only [List.length_cons, List.length_nil, Nat.reduceAdd, Nat.reducePow] at lt
  exact lt

end

/-! ### Summaries -/

theorem foldl_max_le {n : Nat} {l : List Nat} (h : ∀ x ∈ l, x ≤ n) {m : Nat} (hm : m ≤ n) : l.foldl max m ≤ n := by
  induction l generalizing m with
  | nil => exact hm
  | cons x l ih => exact ih (fun y hy => h y (by simp [hy])) (max_le hm (h x (by simp)))

theorem putBit_false {y : Nat} (small : y < 2 ^ 63) : putBit (BitVec.ofNat 64 y) 63 false = BitVec.ofNat 64 y := by
  refine BitVec.eq_of_getLsbD_eq fun i hi => ?_
  rw [putBit, getLsbD_put]
  split
  next top =>
    rw [BitVec.getLsbD_ofNat, show i = 63 by omega, Nat.testBit_lt_two_pow small]
    rfl
  next => rfl

theorem countP_range_le (n : Nat) (p : Nat → Bool) : (List.range n).countP p ≤ n :=
  List.countP_le_length.trans_eq List.length_range

theorem vectorResult_grad (x : Scu) : vectorResult .grad x = (rowOf (gradPix x.u x.m x.d), BitVec.ofNat 64
    (256 * ((List.range 32).map (gradPix x.u x.m x.d)).foldl max 0 + (List.range 32).countP fun i => decide (x.g.toNat ≤ gradPix x.u x.m x.d i))) := by
  rw [vectorResult, List.countP_map, Nat.mul_comm]
  rfl

theorem grad_sum_lt (x : Scu) : 256 * ((List.range 32).map (gradPix x.u x.m x.d)).foldl max 0 +
    (List.range 32).countP (fun i => decide (x.g.toNat ≤ gradPix x.u x.m x.d i)) < 2 ^ 63 := by
  have greatest : ((List.range 32).map (gradPix x.u x.m x.d)).foldl max 0 ≤ 255 :=
    foldl_max_le (fun p hp => by
      obtain ⟨i, -, rfl⟩ := List.mem_map.1 hp
      exact Nat.le_of_lt_succ (gradPix_lt ..)) (by decide)
  have count := countP_range_le 32 fun i => decide (x.g.toNat ≤ gradPix x.u x.m x.d i)
  omega

theorem vectorResult_thr (x : Scu) : vectorResult .thr x = (rowOf (thrPix x.c x.u x.m x.d), BitVec.ofNat 64
    ((List.range 32).countP fun i => decide (thrPix x.c x.u x.m x.d i = 255))) := by
  rw [vectorResult, List.countP_map]
  rfl

theorem vectorResult_census (x : Scu) : vectorResult .census x = (rowOf (censusPix x.u x.m x.d), BitVec.ofNat 64 0) := rfl

theorem absdResult_eq (p q : BitVec 256) :
    absdResult p q = BitVec.ofNat 64 ((List.range 32).map fun i : Nat => (pix p i - pix q i).natAbs).sum := by
  show BitVec.ofNat 64 (((List.range 32).flatMap (pure ∘ Nat.cast)).map fun i => (pix p i - pix q i).natAbs).sum = _
  rw [List.flatMap_pure_eq_map, List.map_map]
  rfl

/-- The differences of two rows add up to no more than 32 times 255. -/
theorem absd_sum_lt (p q : BitVec 256) : ((List.range 32).map fun i : Nat => (pix p i - pix q i).natAbs).sum < 2 ^ 63 := by
  have each : ∀ d ∈ (List.range 32).map (fun i : Nat => (pix p i - pix q i).natAbs), d ≤ 255 := fun d hd => by
    obtain ⟨i, -, rfl⟩ := List.mem_map.1 hd
    have := pix_bounds p i
    have := pix_bounds q i
    omega
  exact (List.sum_le_card_nsmul _ 255 each).trans_lt (by simp)

/-! ### Triggers -/

section
variable {s : State} {st : Stn} {t : TileNo} {sg : Fin 8} {b : W64} (hw : Registers.wf s = true) (walk : (s.tile st t).scu.walk = none)
include hw walk

/-- The scan unit with the block at b below the rows of its window (04 R114). -/
def State.shifted (s : State) (st : Stn) (t : TileNo) (b : Nat) : Scu :=
  let x := (s.tile st t).scu
  { x with u := x.m, m := x.d, d := rowBytes (s.readData st t b 32) }

theorem fireVector_row {op : ScuOp} (h : op ≠ .absd) (source : s.BlockClear st t sg b.toNat false)
    (target : s.BlockClear st t sg (s.tile st t).opnd[5].toNat true) :
    let x := s.shifted st t b.toNat
    fireVector (Ctx.alone s st t (some sg)) op b s =
      .done ((s.setTile st t ({ s.tile st t with scu := x }.launch .scu (.value (putBit (vectorResult op x).2 63 false) false))).writeData st t
        (s.tile st t).opnd[5].toNat (leBytes 32 (vectorResult op x).1.toNat)) := by
  intro x
  have writes : (op != .absd) = true := by simpa using h
  have idle : (s.tile st t).scu.walk.isSome = false := by rw [walk]; rfl
  simp only [fireVector, Ctx.alone, Ctx.T0, Option.getD_some, show s.segCheck st (s.tile st t) sg .data true false false (multOf 32) _ = none from
    source.check, target.check, source.on, target.on, writes, idle, source.xfer, target.xfer, source.countCe hw, State.recordUe_ok source.ok,
    source.correct, Bool.or_false, Bool.false_eq_true, if_false]
  cases op
  case absd => exact absurd rfl h
  all_goals rfl

theorem fireVector_absd (source : s.BlockClear st t sg b.toNat false) (other : s.BlockClear st t sg (s.tile st t).opnd[5].toNat false) :
    fireVector (Ctx.alone s st t (some sg)) .absd b s =
      .done (s.setTile st t ((s.tile st t).launch .scu (.value (putBit (absdResult (rowBytes (s.readData st t b.toNat 32))
        (rowBytes (s.readData st t (s.tile st t).opnd[5].toNat 32))) 63 false) false))) := by
  have idle : (s.tile st t).scu.walk.isSome = false := by rw [walk]; rfl
  simp only [fireVector, Ctx.alone, Ctx.T0, Option.getD_some, show s.segCheck st (s.tile st t) sg .data true false false (multOf 32) _ = none from
    source.check, show (ScuOp.absd != ScuOp.absd) = false from rfl, other.check, source.on, other.on, idle, source.xfer, other.xfer,
    source.countCe hw, other.countCe hw, State.recordUe_ok source.ok, State.recordUe_ok other.ok, source.correct, other.correct, Bool.or_false,
    Bool.false_eq_true, if_false]
  rfl

end

end Sys2Proof.Machine
end

/-! SUPPORT. What a vector operation and its completion leave (04 R114, R116). -/

section
namespace Sys2Proof.Machine

variable {s : State} {st : Stn} {t : TileNo} {sg : Fin 8} {b : W64} {c : Instr} (run : (s.tile st t).run = .running)
  (unfrozen : s.haltFrozen st = false) (idle : (s.tile st t).busy .scu = false) (walk : (s.tile st t).scu.walk = none)
  (regs : Registers.wf s = true) (source : s.BlockClear st t sg b.toNat false)
include run unfrozen idle walk regs source

theorem exec_vector {op : ScuOp} {f : Nat → Nat} {sum : Nat} (mem : Memory.wf s = true)
    (target : s.BlockClear st t sg (s.tile st t).opnd[5].toNat true) (writes : op ≠ .absd)
    (command : exec c s = .next (s.trigger st t (some sg) (.scu op) b))
    (vector : fireTrig (Ctx.alone s st t (some sg)) (.scu op) b s = fireVector (Ctx.alone s st t (some sg)) op b s)
    (result : vectorResult op (s.shifted st t b.toNat) = (rowOf f, BitVec.ofNat 64 sum)) (small : ∀ i, f i < 256) (lt : sum < 2 ^ 63) :
    let T := s.tile st t
    let a := T.opnd[5].toNat
    ∃ u v, exec c s = .next u ∧ exec (.operationComplete st t .scu) u = .next v ∧
      v.tile st t = { T with scu := s.shifted st t b.toNat, scuR := BitVec.ofNat 64 sum } ∧
      (∀ i < 32, (v.byte (tileData st t (a + i))).toNat = f i) ∧
      (∀ x, x < tileData st t a ∨ tileData st t a + 32 ≤ x → v.byte x = s.byte x) ∧
      (∀ r, v.reg r = s.reg r) ∧ (∀ x y, (x, y) ≠ (st, t) → v.tile x y = s.tile x y) ∧
      v = { s with tiles := v.tiles, regs := v.regs, mem := v.mem, ecc := v.ecc } := by
  intro T a
  let U : Tile := { T with scu := s.shifted st t b.toNat }
  let v := (s.setTile st t (U.launch .scu (.value (BitVec.ofNat 64 sum) false))).writeData st t a (leBytes 32 (rowOf f).toNat)
  have fires : fireTrig (Ctx.alone s st t (some sg)) (.scu op) b s = .done v := by
    rw [vector, fireVector_row regs walk writes source target, result, putBit_false lt]
  have complete := State.trigger_complete (T := U) run unfrozen (by simp [Trig.unit]) fires
    ((State.writeData_tile ..).trans (State.tile_setTile ..)) rfl rfl ((State.writeData_haltFrozen ..).trans unfrozen) idle
  refine ⟨_, _, command, congrArg Host.Outcome.next complete, ?_, fun i hi => ?_, fun x outside => ?_, fun r => ?_, fun x y other => ?_, ?_⟩
  · rw [State.tile_setTile, Tile.deliver_scu]
  · rw [State.setTile_byte, show tileData st t (a + i) = tileData st t a + i from (Nat.add_assoc ..).symm,
      State.byte_writeData_inside (by exact mem) hi, rowOf_byte small hi]
  · rw [State.setTile_byte, State.byte_writeData_outside (by rwa [leBytes_length]), State.setTile_byte]
  · rw [State.setTile_reg, State.writeData_reg, State.setTile_reg]
  · have apart : ¬(x = st ∧ y = t) := by simpa using other
    rw [State.tile_setTile_of_ne _ _ _ _ _ _ apart, State.writeData_tile, State.tile_setTile_of_ne _ _ _ _ _ _ apart]
  · simp only [v]
    rw [State.writeData_only]
    rfl

theorem exec_absd {sum : Nat} (other : s.BlockClear st t sg (s.tile st t).opnd[5].toNat false)
    (command : exec c s = .next (s.trigger st t (some sg) (.scu .absd) b))
    (result : absdResult (rowBytes (s.readData st t b.toNat 32)) (rowBytes (s.readData st t (s.tile st t).opnd[5].toNat 32)) =
      BitVec.ofNat 64 sum) (lt : sum < 2 ^ 63) :
    ∃ u, exec c s = .next u ∧ exec (.operationComplete st t .scu) u =
      .next (s.setTile st t { s.tile st t with scuR := BitVec.ofNat 64 sum }) := by
  have fires : fireTrig (Ctx.alone s st t (some sg)) (.scu .absd) b s = _ := fireVector_absd regs walk source other
  rw [result, putBit_false lt] at fires
  refine ⟨_, command, congrArg Host.Outcome.next ?_⟩
  rw [State.trigger_complete_tile run unfrozen (by simp [Trig.unit]) fires rfl rfl idle, Tile.deliver_scu]

end Sys2Proof.Machine
end

section
open Sys2Proof Sys2Proof.Machine

/-- Settles O5. Each row of pixels by its bytes, its summary and the window, and `absd` by its sum alone. -/
theorem vectorOperations : Obligations.VectorOperations := by
  unfold Obligations.VectorOperations
  intro s st t sg b T a px block readable run unfrozen idle walk regs mem source
  have clear {off : Nat} {w : Bool} (h : readable off w) : s.BlockClear st t sg off w :=
    have ⟨check, ok, xfer, clean⟩ := h
    ⟨check, ok, xfer, clean⟩
  have pixels : pix = px := funext₂ pix_eq
  have shown (off : Nat) {i : Nat} (hi : i < 32) : pix (rowBytes (s.readData st t off 32)) i = block off i := by
    rw [pix_rowBytes (by simp [State.readData, State.bytes]) hi]
    simp [State.readData, State.bytes, hi, block, tileData, Nat.add_assoc]
  rw [← pixels]
  constructor
  · intro target
    have row {c : Instr} (op : ScuOp) {f : Nat → Nat} {sum : Nat} command vector writes result small lt :=
      exec_vector (c := c) (op := op) (f := f) (sum := sum) run unfrozen idle walk regs (clear source) mem (clear target) writes
        command vector result small lt
    let X := rowBytes (s.readData st t b.toNat 32)
    let x := s.shifted st t b.toNat
    simp only [List.forall_mem_cons, List.not_mem_nil, false_imp_iff, implies_true, and_true]
    refine ⟨?_, ?_, ?_⟩
    · obtain ⟨u, v, first, complete, left⟩ := row (c := .grad st t sg b) .grad rfl rfl (by decide) (vectorResult_grad x) (gradPix_lt _ _ _)
        (grad_sum_lt x)
      exact ⟨u, v, X, first, complete, fun i hi => shown _ hi, left⟩
    · obtain ⟨u, v, first, complete, left⟩ := row (c := .thr st t sg b) .thr rfl rfl (by decide) (vectorResult_thr x) (thrPix_lt _ _ _ _)
        ((countP_range_le 32 _).trans_lt (by decide))
      exact ⟨u, v, X, first, complete, fun i hi => shown _ hi, left⟩
    · obtain ⟨u, v, first, complete, tile, bytes, left⟩ := row (c := .census st t sg b) .census rfl rfl (by decide) (vectorResult_census x)
        (censusPix_lt _ _ _) (by decide)
      exact ⟨u, v, X, first, complete, fun i hi => shown _ hi, tile, fun i hi => (bytes i hi).trans (censusPix_eq ..), left⟩
  · intro other
    have sum : ((List.range 32).map fun i : Nat => (pix (rowBytes (s.readData st t b.toNat 32)) i -
        pix (rowBytes (s.readData st t a.toNat 32)) i).natAbs) = (List.range 32).map fun i => (block b.toNat i - block a.toNat i).natAbs :=
      List.map_congr_left fun i hi => by rw [shown _ (List.mem_range.1 hi), shown _ (List.mem_range.1 hi)]
    have lt := absd_sum_lt (rowBytes (s.readData st t b.toNat 32)) (rowBytes (s.readData st t a.toNat 32))
    have result := absdResult_eq (rowBytes (s.readData st t b.toNat 32)) (rowBytes (s.readData st t a.toNat 32))
    rw [sum] at lt result
    obtain ⟨u, first, complete⟩ := exec_absd (c := .absd st t sg b) run unfrozen idle walk regs (clear source) (clear other) rfl result lt
    exact ⟨u, _, first, complete, State.tile_setTile .., fun _ => State.setTile_byte .., fun _ => State.setTile_reg .., fun x y apart =>
      State.tile_setTile_of_ne _ _ _ _ _ _ (by simpa using apart), rfl⟩

end

/-! SUPPORT. The commands that set up the scan unit, and the trigger of a walk (04 R115, R119 to R121, R125). -/

section
namespace Sys2Proof.Machine

variable {s : State} {st : Stn} {t : TileNo} {sg : Fin 8} {b : W64} (walk : (s.tile st t).scu.walk = none)
include walk

theorem fireVcfg_done : fireVcfg (Ctx.alone s st t none) b s =
    let T := s.tile st t
    .done (s.setTile st t ({ T with
      scu := { T.scu with c := b.extractLsb' 0 8, g := b.extractLsb' 8 8, u := 0, m := 0, d := 0 } }.launch .scu (.value 0 false))) := by
  have idle : ¬(s.tile st t).scu.walk.isSome = true := by simp [walk]
  exact if_neg idle

theorem fireWimg_done (span : nat b 20 12 = 0 ∨ nat b 32 12 = 0 ∨
    (s.segCheck st (s.tile st t) sg .data true false false anyAlign
        [((nat b 0 17 : Int), nat b 48 12 * (nat b 32 12 - 1) + nat b 20 12)] = none ∧
      ∀ w ∈ wordsOf (nat b 0 17) (nat b 48 12 * (nat b 32 12 - 1) + nat b 20 12), s.tileBankOn st t (bankOf w) = true)) :
    fireWimg (Ctx.alone s st t (some sg)) b s =
      let T := s.tile st t
      .done (s.setTile st t ({ T with scu := { T.scu with wimg := b } }.launch .scu (.value 0 false))) := by
  have idle : ¬(s.tile st t).scu.walk.isSome = true := by simp [walk]
  have passes : (if nat b 20 12 = 0 ∨ nat b 32 12 = 0 then none else s.segCheck st (s.tile st t) sg .data true false false anyAlign
      [((nat b 0 17 : Int), nat b 48 12 * (nat b 32 12 - 1) + nat b 20 12)]) = none := by
    rcases span with empty | empty | ⟨check, -⟩
    · exact if_pos (.inl empty)
    · exact if_pos (.inr empty)
    · rw [check, ite_self]
  have on : ¬(nat b 20 12 ≠ 0 ∧ nat b 32 12 ≠ 0 ∧
      (wordsOf (nat b 0 17) (nat b 48 12 * (nat b 32 12 - 1) + nat b 20 12)).any (fun w => !s.tileBankOn st t (bankOf w)) = true) := by
    rcases span with empty | empty | ⟨-, banks⟩
    · exact fun h => h.1 empty
    · exact fun h => h.2.1 empty
    · simpa using fun _ _ => banks
  simp only [fireWimg, Ctx.alone, Ctx.T0, Option.getD_some, passes]
  exact (if_neg on).trans (if_neg idle)

theorem fireWout_done (span : nat b 20 12 = 0 ∧ nat b 0 17 % 8 = 0 ∨ nat b 20 12 ≠ 0 ∧
    s.segCheck st (s.tile st t) sg .data false true false (multOf 8) [((nat b 0 17 : Int), 8 * nat b 20 12)] = none ∧
      ∀ w ∈ wordsOf (nat b 0 17) (8 * nat b 20 12), s.tileBankOn st t (bankOf w) = true) :
    fireWout (Ctx.alone s st t (some sg)) b s =
      let T := s.tile st t
      .done (s.setTile st t ({ T with scu := { T.scu with wout := b } }.launch .scu (.value 0 false))) := by
  have idle : ¬(s.tile st t).scu.walk.isSome = true := by simp [walk]
  have passes : (if nat b 20 12 = 0 then (if nat b 0 17 % 8 = 0 then none else some ((0x04 : Byte), BitVec.ofNat 64 (nat b 0 17)))
      else s.segCheck st (s.tile st t) sg .data false true false (multOf 8) [((nat b 0 17 : Int), 8 * nat b 20 12)]) = none := by
    rcases span with ⟨empty, aligned⟩ | ⟨room, check, -⟩
    · rw [if_pos empty, if_pos aligned]
    · rw [if_neg room, check]
  have on : ¬(nat b 20 12 ≠ 0 ∧ (wordsOf (nat b 0 17) (8 * nat b 20 12)).any (fun w => !s.tileBankOn st t (bankOf w)) = true) := by
    rcases span with ⟨empty, -⟩ | ⟨-, -, banks⟩
    · exact fun h => h.1 empty
    · simpa using fun _ => banks
  simp only [fireWout, Ctx.alone, Ctx.T0, Option.getD_some, passes]
  exact (if_neg on).trans (if_neg idle)

/-- The walk that a trigger begins. -/
def Tile.begun (T : Tile) (b : W64) : Walk := ⟨T.opnd[5].extractLsb' 0 32, T.opnd[5].extractLsb' 32 32, b, [], 0, 0, T.qu.next, []⟩

theorem fireWalk_done : fireWalk (Ctx.alone s st t none) b s =
    let T := s.tile st t
    .done (s.setTile st t (if walkInvalid T.scu (T.begun b) then T.launch .scu (.value 0x300000000 false)
      else { T with scu := { T.scu with walk := some (T.begun b) } })) := by
  have idle : ¬(s.tile st t).scu.walk.isSome = true := by simp [walk]
  have status : walkStatus false 3 0 0 = 0x300000000 := by decide
  rw [← status]
  exact if_neg idle

omit walk

/-- A set-up command and the completion of its operation. -/
theorem exec_scu {c : Instr} {seg : Option (Fin 8)} {op : ScuOp} {x : Scu} {r : W64} (run : (s.tile st t).run = .running)
    (unfrozen : s.haltFrozen st = false) (idle : (s.tile st t).busy .scu = false)
    (command : exec c s = .next (s.trigger st t seg (.scu op) b))
    (fires : fireTrig (Ctx.alone s st t seg) (.scu op) b s =
      .done (s.setTile st t ({ s.tile st t with scu := x }.launch .scu (.value r false)))) :
    ∃ u, exec c s = .next u ∧ exec (.operationComplete st t .scu) u = .next (s.setTile st t { s.tile st t with scu := x, scuR := r }) := by
  refine ⟨_, command, congrArg Host.Outcome.next ?_⟩
  rw [State.trigger_complete_tile run unfrozen (by simp [Trig.unit]) fires rfl rfl idle, Tile.deliver_scu]

end Sys2Proof.Machine
end

/-! SUPPORT. Positions of a walk: which are edges, and what evaluating one leaves (04 R123 to R125). -/

section
namespace Sys2Proof.Machine

/-! ### Differences and edges -/

/-- The difference whose later sample is j places before the latest. -/
def Walk.diff (w : Walk) (j : Nat) : Int := ((w.prof.getD j 0).toNat : Int) - ((w.prof.getD (j + 1) 0).toNat : Int)

/-- The contrast of a neighbouring difference x as d sees it: none against its own sign. -/
def alike (d x : Int) : Nat := if 0 ≤ d * x then x.natAbs else 0

/-- Contrast of the difference before position k, which lies at index i: there is none before position 1. -/
def Walk.contrastBefore (w : Walk) (k i : Nat) : Nat := if k ≤ 1 then 0 else alike (w.diff i) (w.diff (i + 1))

/-- Contrast of the difference after the position at index i, where there is one. -/
def Walk.contrastAfter (w : Walk) (i : Nat) (next : Option Int) : Nat := next.elim 0 (alike (w.diff i))

/-- Position k, at index i, is an edge: its contrast reaches MINC and is a peak. -/
def Walk.Peak (w : Walk) (minc k i : Nat) (next : Option Int) : Prop :=
  0 < (w.diff i).natAbs ∧ minc ≤ (w.diff i).natAbs ∧ w.contrastBefore k i ≤ (w.diff i).natAbs ∧ w.contrastAfter i next < (w.diff i).natAbs

theorem alike_eq (d x : Int) : (if (0 < d ∧ x < 0) ∨ (d < 0 ∧ 0 < x) then 0 else x.natAbs) = alike d x := by
  rw [alike, ← ite_not]
  exact if_congr (by rw [← mul_neg_iff, not_lt]) rfl rfl

theorem edgeAt_eq (minc : Nat) (previous next : Option Int) (d : Int) : edgeAt minc previous d next =
    if minc ≤ d.natAbs ∧ previous.elim 0 (alike d) ≤ d.natAbs ∧ next.elim 0 (alike d) < d.natAbs ∧ 0 < d.natAbs then
      some (previous.elim 0 (alike d), d.natAbs, next.elim 0 (alike d)) else none := by
  rcases previous with _ | p <;> rcases next with _ | n <;> simp only [edgeAt, alike_eq, Option.elim_none, Option.elim_some] <;> rfl

theorem Walk.elim_before (w : Walk) (k i : Nat) :
    (if k ≤ 1 then none else some (w.diff (i + 1)) : Option Int).elim 0 (alike (w.diff i)) = w.contrastBefore k i := by
  unfold Walk.contrastBefore
  split <;> rfl

/-! ### Evaluating a position -/

section
variable {s : State} {st : Stn} {t : TileNo} {meet : Meet} {w : Walk} {samples k i : Nat} {next : Option Int}

theorem State.walkEdge_flat (flat : ¬w.Peak (nat (s.tile st t).scu.wout 32 8) k i next) :
    s.walkEdge st t meet w samples k i next = (s, some w) := by
  have nothing : edgeAt (nat (s.tile st t).scu.wout 32 8) (if k ≤ 1 then none else some (w.diff (i + 1))) (w.diff i) next = none := by
    rw [edgeAt_eq, w.elim_before]
    exact if_neg fun ⟨minc, before, after, pos⟩ => flat ⟨pos, minc, before, after⟩
  unfold State.walkEdge
  simp only [Walk.diff] at nothing
  simp only [nothing]

section
variable (peak : w.Peak (nat (s.tile st t).scu.wout 32 8) k i next)
include peak

theorem edgeAt_peak : edgeAt (nat (s.tile st t).scu.wout 32 8) (if k ≤ 1 then none else some (w.diff (i + 1))) (w.diff i) next =
    some (w.contrastBefore k i, (w.diff i).natAbs, w.contrastAfter i next) := by
  obtain ⟨pos, minc, before, after⟩ := peak
  rw [edgeAt_eq, w.elim_before]
  exact if_pos ⟨minc, before, after, pos⟩

theorem State.walkEdge_full (full : nat (s.tile st t).scu.wout 20 12 ≤ w.edges) :
    s.walkEdge st t meet w samples k i next = (s.walkEnd st t false 2 samples w.edges, none) := by
  have found := edgeAt_peak peak
  unfold State.walkEdge
  simp only [Walk.diff] at found
  simp only [found, if_pos full]

section
variable (room : w.edges < nat (s.tile st t).scu.wout 20 12)
include room

theorem State.walkEdge_off (off : s.tileBankOn st t (bankOf (nat (s.tile st t).scu.wout 0 17 + 8 * w.edges)) = false) :
    s.walkEdge st t meet w samples k i next = (s.walkEnd st t true 4 samples w.edges, none) := by
  have found := edgeAt_peak peak
  unfold State.walkEdge
  simp only [Walk.diff] at found
  simp only [found, if_neg (not_le.2 room), off]
  rfl

theorem State.walkEdge_entry {off : Nat} {p : W32} (place : nat (s.tile st t).scu.wout 0 17 + 8 * w.edges = off)
    (position : edgePos k (w.contrastBefore k i) (w.diff i).natAbs (w.contrastAfter i next) = p)
    (on : s.tileBankOn st t (bankOf off) = true) :
    s.walkEdge st t .none w samples k i next =
      (s.writeData st t off (leBytes 8 (edgeEntry k (w.diff i) (w.diff i).natAbs (p - w.prevP))), some { w with
        edges := w.edges + 1, prevP := p, before := w.before.filter fun e => e.1 < off ∨ off + 8 ≤ e.1 }) := by
  have found := edgeAt_peak peak
  subst place position
  unfold State.walkEdge
  simp only [Walk.diff] at found
  simp only [found, if_neg (not_le.2 room), on]
  rfl

end
end
end

end Sys2Proof.Machine
end

/-! SUPPORT. One sample of a walk (04 R122 to R125). -/

section
namespace Sys2Proof.Machine

variable {s : State} {st : Stn} {t : TileNo} {meet : Meet} {w : Walk}

/-! ### How a walk ends -/

theorem Tile.drainIf_idle {T : Tile} {u : UnitId} (idle : T.busy u = false) : T.drainIf (·.unit == u) = T := by
  have others : ∀ f ∈ T.flights, (f.unit == u) = false := by simpa [Tile.busy] using idle
  have leaving : T.flights.filter (fun f => f.unit == u) = [] := List.filter_eq_nil_iff.2 (by simpa using others)
  have staying : T.flights.filter (fun f => !(f.unit == u)) = T.flights := List.filter_eq_self.2 (by simpa using others)
  rw [Tile.drainIf, leaving, staying]
  rfl

theorem State.walkEnd_idle (idle : (s.tile st t).busy .scu = false) (err : Bool) (ended samples edges : Nat) :
    s.walkEnd st t err ended samples edges = s.setTile st t { s.tile st t with
      scu := { (s.tile st t).scu with walk := none }, scuR := walkStatus err ended samples edges } := by
  unfold State.walkEnd
  rw [State.modTile_def, Tile.drainIf_idle idle]

theorem walkStatus_ended (ended samples edges : Nat) :
    walkStatus false ended samples edges = BitVec.ofNat 64 (ended * 2 ^ 32 + samples % 65536 * 65536 + edges % 65536) := by
  simp [walkStatus]

theorem walkStatus_failed (ended samples edges : Nat) :
    walkStatus true ended samples edges = BitVec.ofNat 64 (2 ^ 63 + (ended * 2 ^ 32 + samples % 65536 * 65536 + edges % 65536)) := by
  simp [walkStatus, Nat.add_assoc]

/-- The walk stops after l samples: the last position is evaluated, with no difference after it. -/
def State.walkStop (s : State) (st : Stn) (t : TileNo) (meet : Meet) (w : Walk) (ended l : Nat) : State :=
  if l < 2 then s.walkEnd st t false ended l w.edges
  else match s.walkEdge st t meet w l (l - 1) 0 none with
  | (s, none) => s
  | (s, some w) => s.walkEnd st t false ended l w.edges

/-- Where no position lies, or the last one is no edge, the walk just ends. -/
theorem State.walkStop_flat {ended l : Nat} (flat : 2 ≤ l → ¬w.Peak (nat (s.tile st t).scu.wout 32 8) (l - 1) 0 none) :
    s.walkStop st t meet w ended l = s.walkEnd st t false ended l w.edges := by
  unfold State.walkStop
  split
  · rfl
  next two => rw [State.walkEdge_flat (flat (not_lt.1 two))]

/-- The walk goes on from the evaluation of a position, with sample k in hand. -/
def State.walkOn (st : Stn) (t : TileNo) (meet : Meet) (k : Nat) : State × Option Walk → State
  | (s, none) => s
  | (s, some w) =>
    if k + 1 = walkLen w then s.walkStop st t meet w 0 (k + 1) else s.modTile st t fun T => { T with scu := { T.scu with walk := some w } }

theorem State.walkOn_next {k : Nat} (more : k + 1 ≠ walkLen w) :
    State.walkOn st t meet k (s, some w) = s.setTile st t { s.tile st t with scu := { (s.tile st t).scu with walk := some w } } := if_neg more

theorem State.walkOn_last {k : Nat} (last : k + 1 = walkLen w) :
    State.walkOn st t meet k (s, some w) = s.walkStop st t meet w 0 (k + 1) := if_pos last

/-! ### The sample -/

/-- A read that meets a write of the outside port is repeated and counted (08 R231). -/
theorem State.met_read (s : State) (st : Stn) (t : TileNo) (meet : Meet) :
    s.met st t meet true false = if meet = .write then s.bump (tileReg st t 0x214) 1 else s := by
  unfold State.met State.retried
  cases meet <;> simp

theorem State.met_read_tile (s : State) (st : Stn) (t : TileNo) (meet : Meet) (x : Stn) (y : TileNo) :
    (s.met st t meet true false).tile x y = s.tile x y := by
  rw [State.met_read]
  split
  · exact State.bump_tile ..
  · rfl

theorem State.met_read_byte (s : State) (st : Stn) (t : TileNo) (meet : Meet) (a : Nat) : (s.met st t meet true false).byte a = s.byte a := by
  rw [State.met_read]
  split
  · exact State.bump_byte ..
  · rfl

/-- The walk with sample x. -/
def Walk.sampled (w : Walk) (x : Byte) : Walk := { w with prof := x :: w.prof }

section
variable (walk : (s.tile st t).scu.walk = some w) (unfrozen : s.haltFrozen st = false)
  (free : (s.tile st t).walkWaits w (walkPixel w w.prof.length) = false)
include walk unfrozen free

theorem State.walkSample_outside (outside : walkInside (s.tile st t).scu (walkPixel w w.prof.length) = false)
    (idle : (s.tile st t).busy .scu = false)
    (flat : 2 ≤ w.prof.length → ¬w.Peak (nat (s.tile st t).scu.wout 32 8) (w.prof.length - 1) 0 none) :
    s.walkSample st t meet = s.setTile st t { s.tile st t with
      scu := { (s.tile st t).scu with walk := none }, scuR := walkStatus false 1 w.prof.length w.edges } := by
  rw [← State.walkEnd_idle idle, ← State.walkStop_flat (meet := meet) flat]
  unfold State.walkSample
  simp only [unfrozen, walk, free, outside, Bool.false_eq_true, if_false, Bool.not_false, if_true]
  rfl

section
variable (inside : walkInside (s.tile st t).scu (walkPixel w w.prof.length) = true)
include inside

theorem State.walkSample_off (idle : (s.tile st t).busy .scu = false)
    (off : s.dataState st t (walkOffset (s.tile st t).scu (walkPixel w w.prof.length)) 1 = .off) :
    s.walkSample st t meet = s.setTile st t { s.tile st t with
      scu := { (s.tile st t).scu with walk := none }, scuR := walkStatus true 4 w.prof.length w.edges } := by
  rw [← State.walkEnd_idle idle]
  unfold State.walkSample
  simp only [unfrozen, walk, free, inside, off, Bool.false_eq_true, if_false, Bool.not_true]

theorem State.walkSample_ok {off : Nat} (place : walkOffset (s.tile st t).scu (walkPixel w w.prof.length) = off)
    (ok : s.dataState st t off 1 = .ok) :
    let read := (s.countCe st t off 1).met st t meet true false
    let v := w.sampled (w.sample s st t off)
    s.walkSample st t meet = State.walkOn st t meet w.prof.length (if 2 ≤ w.prof.length then
      read.walkEdge st t meet v (w.prof.length + 1) (w.prof.length - 1) 1 (some (v.diff 0)) else (read, some v)) := by
  intro read v
  have byte : w.sample s st t off = w.sample read st t off := by
    rw [Walk.sample, Walk.sample, State.met_read_byte, State.countCe_byte]
  subst place
  unfold v State.walkSample
  simp only [unfrozen, walk, free, inside, ok, byte, Bool.false_eq_true, if_false, Bool.not_true]
  rfl

section
variable {off : Nat} (place : walkOffset (s.tile st t).scu (walkPixel w w.prof.length) = off) (ok : s.dataState st t off 1 = .ok)
include place ok

/-- Before the third sample there is no position to evaluate. -/
theorem State.walkSample_first (few : w.prof.length < 2) (more : w.prof.length + 1 ≠ walkLen w) :
    s.walkSample st t meet = ((s.countCe st t off 1).met st t meet true false).setTile st t { s.tile st t with
      scu := { (s.tile st t).scu with walk := some (w.sampled (w.sample s st t off)) } } := by
  rw [State.walkSample_ok walk unfrozen free inside place ok, if_neg (not_le.2 few), State.walkOn_next (by exact more),
    State.met_read_tile, State.countCe_tile]

/-! A later sample, which meets no access of the outside port, by what the position before it is. -/

section
variable (later : 2 ≤ w.prof.length) {x : Byte} (byte : w.sample s st t off = x)
include later byte

theorem State.walkSample_later :
    s.walkSample st t .none = State.walkOn st t .none w.prof.length ((s.countCe st t off 1).walkEdge st t .none (w.sampled x)
      (w.prof.length + 1) (w.prof.length - 1) 1 (some ((w.sampled x).diff 0))) := by
  rw [State.walkSample_ok walk unfrozen free inside place ok, if_pos later, byte]
  rfl

section
variable (flat : ¬(w.sampled x).Peak (nat (s.tile st t).scu.wout 32 8) (w.prof.length - 1) 1 (some ((w.sampled x).diff 0)))
include flat

theorem State.walkSample_flat (more : w.prof.length + 1 ≠ walkLen w) : s.walkSample st t .none = (s.countCe st t off 1).setTile st t
    { s.tile st t with scu := { (s.tile st t).scu with walk := some (w.sampled x) } } := by
  rw [State.walkSample_later walk unfrozen free inside place ok later byte, State.walkEdge_flat (by rwa [State.countCe_tile]),
    State.walkOn_next (by exact more), State.countCe_tile]

theorem State.walkSample_final (final : w.prof.length + 1 = walkLen w)
    (last : ¬(w.sampled x).Peak (nat (s.tile st t).scu.wout 32 8) w.prof.length 0 none) (idle : (s.tile st t).busy .scu = false) :
    s.walkSample st t .none = (s.countCe st t off 1).setTile st t { s.tile st t with
      scu := { (s.tile st t).scu with walk := none }, scuR := walkStatus false 0 (w.prof.length + 1) w.edges } := by
  rw [State.walkSample_later walk unfrozen free inside place ok later byte, State.walkEdge_flat (by rwa [State.countCe_tile]),
    State.walkOn_last (by exact final), State.walkStop_flat fun _ => by rwa [State.countCe_tile],
    State.walkEnd_idle (by rwa [State.countCe_tile]), State.countCe_tile]
  rfl

end

section
variable (peak : (w.sampled x).Peak (nat (s.tile st t).scu.wout 32 8) (w.prof.length - 1) 1 (some ((w.sampled x).diff 0)))
include peak

theorem State.walkSample_full (full : nat (s.tile st t).scu.wout 20 12 ≤ w.edges) (idle : (s.tile st t).busy .scu = false) :
    s.walkSample st t .none = (s.countCe st t off 1).setTile st t { s.tile st t with
      scu := { (s.tile st t).scu with walk := none }, scuR := walkStatus false 2 (w.prof.length + 1) w.edges } := by
  rw [State.walkSample_later walk unfrozen free inside place ok later byte,
    State.walkEdge_full (by rwa [State.countCe_tile]) (by rwa [State.countCe_tile]), State.walkEnd_idle (by rwa [State.countCe_tile]),
    State.countCe_tile]
  rfl

section
variable (room : w.edges < nat (s.tile st t).scu.wout 20 12) {entry : Nat} (slot : nat (s.tile st t).scu.wout 0 17 + 8 * w.edges = entry)
include room slot

theorem State.walkSample_entryOff (dark : (s.countCe st t off 1).tileBankOn st t (bankOf entry) = false)
    (idle : (s.tile st t).busy .scu = false) :
    s.walkSample st t .none = (s.countCe st t off 1).setTile st t { s.tile st t with
      scu := { (s.tile st t).scu with walk := none }, scuR := walkStatus true 4 (w.prof.length + 1) w.edges } := by
  subst slot
  rw [State.walkSample_later walk unfrozen free inside place ok later byte, State.walkEdge_off (by rwa [State.countCe_tile])
    (by rwa [State.countCe_tile]) (by rwa [State.countCe_tile]), State.walkEnd_idle (by rwa [State.countCe_tile]), State.countCe_tile]
  rfl

theorem State.walkSample_entry (on : (s.countCe st t off 1).tileBankOn st t (bankOf entry) = true) (more : w.prof.length + 1 ≠ walkLen w)
    {p : W32} (position : edgePos (w.prof.length - 1) ((w.sampled x).contrastBefore (w.prof.length - 1) 1) ((w.sampled x).diff 1).natAbs
      ((w.sampled x).contrastAfter 1 (some ((w.sampled x).diff 0))) = p) :
    s.walkSample st t .none = ((s.countCe st t off 1).writeData st t entry (leBytes 8
      (edgeEntry (w.prof.length - 1) ((w.sampled x).diff 1) ((w.sampled x).diff 1).natAbs (p - w.prevP)))).setTile st t { s.tile st t with
        scu := { (s.tile st t).scu with walk := some { w with
          prof := x :: w.prof, edges := w.edges + 1, prevP := p
          before := w.before.filter fun e => e.1 < entry ∨ entry + 8 ≤ e.1 } } } := by
  rw [State.walkSample_later walk unfrozen free inside place ok later byte, State.walkEdge_entry (by rwa [State.countCe_tile])
    (by rwa [State.countCe_tile]) (by rwa [State.countCe_tile]) position on, State.walkOn_next (by exact more), State.writeData_tile,
    State.countCe_tile]
  rfl

end
end
end
end
end
end

end Sys2Proof.Machine
end

/-! SUPPORT. A walk in the terms of the spec: its samples, differences and contrasts by position, and what it writes (04 R122 to R125; 08 R231). -/

section
namespace Sys2Proof.Machine

/-! ### Positions -/

theorem walkInside_iff (u : Scu) (p : Int × Int) :
    walkInside u p = true ↔ 0 ≤ p.1 ∧ p.1 < (nat u.wimg 20 12 : Int) ∧ 0 ≤ p.2 ∧ p.2 < (nat u.wimg 32 12 : Int) := by
  simp [walkInside, and_assoc]

section
variable {w : Walk} {x : Byte} {k : Nat}

/-- The difference at position i, with sample k in hand. -/
theorem Walk.sampled_diff {i : Nat} (pos : 0 < i) (le : i ≤ k) :
    (((if i = k then x else w.prof.getD (k - 1 - i) 0).toNat : Nat) : Int) -
      (((if i - 1 = k then x else w.prof.getD (k - 1 - (i - 1)) 0).toNat : Nat) : Int) = (w.sampled x).diff (k - i) := by
  have sample (j : Nat) (hj : j ≤ k) : (if j = k then x else w.prof.getD (k - 1 - j) 0) = (x :: w.prof).getD (k - j) 0 := by
    split
    next latest => rw [latest, Nat.sub_self]; rfl
    next earlier => rw [show k - j = k - 1 - j + 1 by omega]; rfl
  rw [sample i le, sample (i - 1) (by omega), show k - (i - 1) = k - i + 1 by omega]
  rfl

variable {d : Nat → Int} (diffs : ∀ i, 0 < i → i ≤ k → d i = (w.sampled x).diff (k - i))
include diffs

theorem Walk.sampled_before {j i : Nat} (pos : 0 < j) (place : j + i = k) :
    (if j ≤ 1 then 0 else alike (d j) (d (j - 1))) = (w.sampled x).contrastBefore j i := by
  unfold Walk.contrastBefore
  refine if_ctx_congr Iff.rfl (fun _ => rfl) fun second => ?_
  rw [diffs j pos (by omega), diffs (j - 1) (by omega) (by omega), show k - (j - 1) = i + 1 by omega, show k - j = i by omega]

theorem Walk.sampled_peak {j i minc after : Nat} {next : Option Int} (pos : 0 < j) (place : j + i = k)
    (follows : (w.sampled x).contrastAfter i next = after) :
    (0 < (d j).natAbs ∧ minc ≤ (d j).natAbs ∧ (if j ≤ 1 then 0 else alike (d j) (d (j - 1))) ≤ (d j).natAbs ∧ after < (d j).natAbs) ↔
      (w.sampled x).Peak minc j i next := by
  rw [Walk.sampled_before diffs pos place, diffs j pos (by omega), ← follows, show k - j = i by omega]
  rfl

end

/-! ### Reads and writes -/

section
variable {s : State} {st : Stn} {t : TileNo} {meet : Meet}

theorem State.setTile_le (s : State) (st : Stn) (t : TileNo) (T : Tile) (a n : Nat) : (s.setTile st t T).le a n = s.le a n := by
  rw [State.le, State.setTile_bytes, State.le]

theorem State.countCe_wf {off n : Nat} (wf : Memory.wf s = true) : Memory.wf (s.countCe st t off n) = true := by
  rwa [Memory.wf, State.countCe, State.bump_mem]

theorem State.le_writeData {n v off : Nat} (hw : Memory.wf s = true) (fit : v < 256 ^ n) :
    (s.writeData st t off (leBytes n v)).le (tileData st t off) n = v := by
  have bytes : (s.writeData st t off (leBytes n v)).bytes (tileData st t off) n = leBytes n v := by
    refine List.ext_getElem (by simp [State.bytes]) fun i hi _ => ?_
    have hi : i < n := by simpa [State.bytes] using hi
    rw [getElem_leBytes, ← State.byte_writeData_inside (s := s) (st := st) (t := t) (off := off) (v := v) hw hi]
    simp [State.bytes]
  rw [State.le, bytes, leNat_leBytes n v fit]

theorem edgeEntry_lt (k : Nat) (d : Int) (b : Nat) (run : W32) : edgeEntry k d b run < 256 ^ 8 := by
  have := run.isLt
  unfold edgeEntry
  split <;> omega

end

end Sys2Proof.Machine
end

section
open Sys2Proof Sys2Proof.Machine

/-- Settles O6. The set-up commands by the tiles their operations leave; a sample by whether its pixel can be read, and by what the
evaluation of the position before it, and at the end of the last one, comes to. -/
theorem scanWalks : Obligations.ScanWalks := by
  unfold Obligations.ScanWalks
  refine ⟨?_, ?_, ?_⟩
  · intro s st t sg b T f banksOn run unfrozen idle walk
    have fields : f = nat b := funext₂ fun lo w => (nat_eq_toNat b lo w).symm
    rw [fields]
    refine ⟨exec_scu run unfrozen idle rfl (fireVcfg_done walk), fun span => exec_scu run unfrozen idle rfl (fireWimg_done walk span),
      fun span => exec_scu run unfrozen idle rfl (fireWout_done walk span), fun valid => ?_, fun invalid => ?_⟩
    · have fires : fireTrig (Ctx.alone s st t none) (.scu .walk) b s = _ := fireWalk_done walk
      have valid : walkInvalid (s.tile st t).scu ((s.tile st t).begun b) = false := valid
      simp only [valid, Bool.false_eq_true, if_false] at fires
      exact congrArg Host.Outcome.next (State.trigger_quiet run unfrozen (by simp [Trig.unit]) fires (by rw [State.tile_setTile]))
    · refine exec_scu run unfrozen idle rfl (op := .walk) ((fireWalk_done walk).trans ?_)
      have invalid : walkInvalid (s.tile st t).scu ((s.tile st t).begun b) = true := invalid
      simp only [invalid, if_true]
      rfl
  · intro s st t meet w T k p inside off read x walk unfrozen free
    have within : walkInside T.scu p = true ↔ inside := by rw [walkInside_iff, nat_eq_toNat, nat_eq_toNat]
    have place : walkOffset T.scu p = off := by rw [walkOffset, nat_low, nat_eq_toNat]
    have length : walkLen w = w.path.toNat / 2 ^ 32 % 2 ^ 16 := nat_eq_toNat ..
    constructor
    · intro few inside more ok
      refine congrArg Host.Outcome.next ?_
      rw [State.walkSample_first walk unfrozen free (within.2 inside) place ok few (length ▸ more), State.met_read]
      rfl
    · intro few outside idle
      refine congrArg Host.Outcome.next ?_
      rw [State.walkSample_outside walk unfrozen free (by rwa [Bool.eq_false_iff, Ne, within]) idle fun two => absurd few (not_lt.2 two),
        walkStatus_ended, Nat.mod_eq_of_lt (by omega : w.prof.length < 65536), Nat.one_mul]
  · intro s st t w T k p img list
    have fields (b : W64) : (fun lo n => b.toNat / 2 ^ lo % 2 ^ n) = nat b := funext₂ fun lo n => (nat_eq_toNat b lo n).symm
    have image : img = nat T.scu.wimg := fields _
    have entries : list = nat T.scu.wout := fields _
    clear_value img list
    subst image entries
    intro inside off x smp d toward before edge ended status read sample entry last walk unfrozen free idle mem
    have within : walkInside T.scu p = true ↔ inside := walkInside_iff ..
    have place : walkOffset T.scu p = off := rfl
    have length : walkLen w = last := nat_eq_toNat ..
    let v := w.sampled x
    have diffs : ∀ i, 0 < i → i ≤ k → d i = v.diff (k - i) := fun i pos le => Walk.sampled_diff pos le
    have peak {j i after : Nat} {next : Option Int} (pos : 0 < j) (place : j + i = k) (follows : v.contrastAfter i next = after) :
        edge j after ↔ v.Peak (nat T.scu.wout 32 8) j i next := Walk.sampled_peak diffs pos place follows
    have stopped {u : State} {e n : Nat} (h : s.walkSample st t .none = u.setTile st t { T with
        scu := { T.scu with walk := none }, scuR := walkStatus false e n w.edges }) : sample = ended u (status e n) := by
      rw [walkStatus_ended] at h
      exact congrArg Host.Outcome.next h
    have failed {u : State} {e n : Nat} (h : s.walkSample st t .none = u.setTile st t { T with
        scu := { T.scu with walk := none }, scuR := walkStatus true e n w.edges }) : sample = ended u (2 ^ 63 + status e n) := by
      rw [walkStatus_failed] at h
      exact congrArg Host.Outcome.next h
    refine ⟨fun within' dark => ?_, fun two outside flat => ?_, fun two inside' ok => ?_⟩
    · exact failed (State.walkSample_off walk unfrozen free (within.2 within') idle dark)
    · rw [peak (after := 0) (next := none) (by omega) (by omega : k - 1 + 1 = k) rfl] at flat
      exact stopped (State.walkSample_outside walk unfrozen free (by rwa [Bool.eq_false_iff, Ne, within]) idle fun _ => flat)
    · intro j after
      have difference : v.diff 1 = d j := by rw [diffs j (by omega) (by omega), show k - j = 1 by omega]
      have follows : v.contrastAfter 1 (some (v.diff 0)) = after := by
        rw [show v.diff 0 = d k by rw [diffs k (by omega) le_rfl, Nat.sub_self], Walk.contrastAfter, difference]
        rfl
      rw [peak (by omega) (by omega : k - 1 + 1 = k) follows]
      have inside' := within.2 inside'
      refine ⟨fun flat more => ?_, fun flat final last => ?_, fun peak full => ?_, fun peak room dark => ?_, fun peak room on more => ?_⟩
      · exact congrArg Host.Outcome.next (State.walkSample_flat walk unfrozen free inside' place ok two rfl flat (length ▸ more))
      · rw [peak (after := 0) (next := none) (by omega) (by omega : k + 0 = k) rfl] at last
        exact stopped (State.walkSample_final walk unfrozen free inside' place ok two rfl flat (length ▸ final) last idle)
      · exact stopped (State.walkSample_full walk unfrozen free inside' place ok two rfl peak full idle)
      · exact failed (State.walkSample_entryOff walk unfrozen free inside' place ok two rfl peak room rfl dark idle)
      · intro a b c pos
        have preceding : v.contrastBefore j 1 = before j := (Walk.sampled_before diffs (by omega) (by omega)).symm
        have position : edgePos j (v.contrastBefore j 1) (v.diff 1).natAbs (v.contrastAfter 1 (some (v.diff 0))) = pos := by
          rw [preceding, difference, follows]
          rfl
        refine ⟨_, congrArg Host.Outcome.next (State.walkSample_entry walk unfrozen free inside' place ok two rfl peak room rfl on
          (length ▸ more) position), ?_, ?_, fun a away => ?_, fun r => ?_, fun y z other => ?_⟩
        · rw [Int.toNat_natCast, State.setTile_le, ← difference]
          exact State.le_writeData (State.countCe_wf mem) (edgeEntry_lt ..)
        · exact congrArg (·.scu.walk) (State.tile_setTile ..)
        · rw [State.setTile_byte, State.byte_writeData_outside (by simpa using away), State.countCe_byte]
        · rw [State.setTile_reg, State.writeData_reg]
        · rw [State.tile_setTile_of_ne (h := fun same => other (Prod.ext same.1 same.2)), State.writeData_tile]
          exact State.countCe_tile ..

end

/-! SUPPORT. What a tile does at a boundary: a stop, a test request, a report, a decode exception, an interrupt (05 R146, R148, R149). -/

section
namespace Sys2Proof.Machine

variable {s u : State} {st : Stn} {t : TileNo} {i : Insn}

/-! ### Nothing in flight (05 R149) -/

theorem Tile.drain_idle {T : Tile} (idle : T.flights = []) : T.drain = T := by
  rw [Tile.drain, Tile.drainIf, idle]
  show { T with flights := [] } = T
  rw [← idle]

theorem State.drained_quiet (idle : (s.tile st t).flights = []) (report : (s.tile st t).report = none) (f : State → State) :
    s.drained st t f = f s := by
  rw [State.drained, Tile.drain_idle idle]
  simp only [report, setTile_tile]

theorem State.drained_report {r : Report} (idle : (s.tile st t).flights = []) (report : (s.tile st t).report = some r)
    (f : State → State) : s.drained st t f = s.takeReport st t r := by
  rw [State.drained, Tile.drain_idle idle]
  simp only [report, setTile_tile]

theorem State.takeExc_quiet (idle : (s.tile st t).flights = []) (report : (s.tile st t).report = none) (cause : Byte) (efaddr : W64) :
    s.takeExc st t cause efaddr = s.enter st t { cause := cause, efaddr := efaddr } := drained_quiet idle report _

theorem State.takeTest_idle (idle : (s.tile st t).flights = []) : s.takeTest st t = s.enterTest st t := by
  unfold State.takeTest
  split
  · rw [modTile_def, Tile.drain_idle idle, setTile_tile]
  next report => exact drained_quiet idle (by simpa using report) _

/-! ### The boundary (05 R148) -/

/-- A running tile at a boundary, with no operation in flight. -/
structure State.AtBoundary (s : State) (st : Stn) (t : TileNo) : Prop where
  run : (s.tile st t).run = .running
  unfrozen : s.haltFrozen st = false
  idle : (s.tile st t).flights = []

section
variable (here : s.AtBoundary st t)
include here

theorem State.AtBoundary.going : ¬((s.tile st t).run ≠ .running ∨ s.haltFrozen st = true) := by simp [here.run, here.unfrozen]

theorem State.AtBoundary.young : s.forceOld st t = s := forceOld_young (by simp [here.idle])

theorem State.boundary_stop (stopReq : (s.tile st t).stopReq = true) : s.boundary st t = s.takeStop st t := by
  unfold State.boundary
  rw [if_neg here.going]
  simp only [here.young, stopReq, if_true]

variable (stopReq : (s.tile st t).stopReq = false)
include stopReq

theorem State.boundary_test (testReq : (s.tile st t).testReq = true) : s.boundary st t = s.enterTest st t := by
  unfold State.boundary
  rw [if_neg here.going]
  simp only [here.young, stopReq, testReq, if_true, takeTest_idle here.idle]
  rfl

variable (testReq : (s.tile st t).testReq = false)
include testReq

theorem State.boundary_report {r : Report} (report : (s.tile st t).report = some r) : s.boundary st t = s.takeReport st t r := by
  unfold State.boundary
  rw [if_neg here.going]
  simp only [here.young, stopReq, testReq, report, drained_report here.idle report]
  rfl

variable (report : (s.tile st t).report = none) (slot : (s.tile st t).slot = 0) (pkind : (s.tile st t).pkind = .none)
include report slot pkind

theorem State.boundary_bad {c : Byte} {e : W64} (decoded : decodeInsn (s.fetchByte st t) (s.tile st t).pc.toNat = .bad c e) :
    s.boundary st t = (s.loadCount st t).takeExc st t c e := by
  unfold State.boundary
  rw [if_neg here.going]
  simp [here.young, stopReq, testReq, report, Tile.held, here.idle, slot, pkind, decoded]

/-- An interrupt abandons an instruction that waits for a line fill (log entry 26). -/
theorem State.boundary_need {l : Byte} {k : Nat} (decoded : decodeInsn (s.fetchByte st t) (s.tile st t).pc.toNat = .need l)
    (waiting : (s.tile st t).waiting = false) (irq : (s.tile st t).irq = some k) :
    s.boundary st t = s.takeExc st t (BitVec.ofNat 8 (0x10 + k)) 0 := by
  unfold State.boundary
  rw [if_neg here.going]
  simp [here.young, stopReq, testReq, report, Tile.held, here.idle, slot, pkind, decoded, waiting, irq]

variable (decoded : decodeInsn (s.fetchByte st t) (s.tile st t).pc.toNat = .ok i) (rep : i.pre.rep = none)
  (exec : (s.loadCount st t).execute st t i = .done u)
include decoded rep exec

/-- An instruction that would complete is abandoned for an interrupt that qualifies (05 R146). -/
theorem State.boundary_irq {k : Nat} (waiting : (s.tile st t).waiting = false) (irq : (s.tile st t).irq = some k) :
    s.boundary st t = (s.loadCount st t).takeExc st t (BitVec.ofNat 8 (0x10 + k)) 0 := by
  have safe : (if (s.tile st t).rip then none else i.hazard) = none := by simp [Insn.hazard, rep]
  unfold State.boundary
  rw [if_neg here.going]
  simp [here.young, stopReq, testReq, report, Tile.held, here.idle, slot, pkind, decoded, waiting, irq, safe, exec]

/-- The instruction that a tile waits in completes before an interrupt (05 R146; log entry 26). -/
theorem State.boundary_waited (waiting : (s.tile st t).waiting = true) : s.boundary st t = u := by
  have safe : (if (s.tile st t).rip then none else i.hazard) = none := by simp [Insn.hazard, rep]
  unfold State.boundary
  rw [if_neg here.going]
  simp [here.young, stopReq, testReq, report, Tile.held, here.idle, slot, pkind, decoded, waiting, safe, exec]

end

/-- Where no repeat begins, nothing is loaded. -/
theorem State.loadCount_none (decoded : decodeInsn (s.fetchByte st t) (s.tile st t).pc.toNat = .ok i) (rep : i.pre.rep = none) :
    s.loadCount st t = s := by
  obtain ⟨c, load, same⟩ := loadCount_decoded decoded
  rw [load, same (.inr rep)]
  exact modTile_id t

end Sys2Proof.Machine
end

/-! SUPPORT. Entries through the Attic; stops, test requests, software interrupts and failures of pipes, as commands (01 R474; 05 R148, R161,
R162, R164, R168, R169). -/

section
namespace Sys2Proof.Machine

variable {s : State} {st : Stn} {t : TileNo}

/-! ### Entries (05 R150, R161) -/

/-- An entry through an Attic set that is free saves the frame there and goes on at the vector. -/
theorem State.atticEntry_free {k : Fin 3} {f : Vector W64 16} {lvl vecOff : Nat} {cause : Byte}
    (free : (s.tile st t).attic[k].inUse = false) :
    s.atticEntry st t k f lvl vecOff cause = s.setTile st t
      { (s.tile st t).handler f lvl ((s.reg (tileReg st t vecOff)).setWidth 16) with
        attic := (s.tile st t).attic.set k ⟨true, f⟩, atticCur := k } := by
  unfold State.atticEntry
  simp only [free, Bool.false_eq_true, if_false]
  rfl

/-- A handler runs at its level. -/
theorem pswLvl_handler (p : W64) {lvl : Nat} (h : lvl < 4) : pswLvl (put (put p 0 2 lvl) 5 1 0) = lvl := by
  rw [pswLvl, nat_put_of_disjoint _ _ _ _ (by omega), nat_put_same _ _ _ _ (by omega)]
  exact Nat.mod_eq_of_lt h

/-- A handler runs with its interrupts off. -/
theorem pswIe_handler (p : W64) (lvl : Nat) : pswIe (put (put p 0 2 lvl) 5 1 0) = false := by
  rw [pswIe, bit, getLsbD_put, if_pos (by omega)]
  rfl

/-- Tiles other than the one that an update names stay as they are. -/
theorem State.setTile_others (s : State) (st : Stn) (t : TileNo) (T : Tile) (x : Stn) (y : TileNo) (h : (x, y) ≠ (st, t)) :
    (s.setTile st t T).tile x y = s.tile x y :=
  s.tile_setTile_of_ne st x t y T fun same => h (Prod.ext same.1 same.2)

/-! ### Stops (05 R148, R165, R168) -/

theorem exec_tileStopRequest : exec (.tileStopRequest st t) s = .next (s.setTile st t (s.tile st t).asked) :=
  congrArg Host.Outcome.next (s.tileStopRequest_eq st t)

theorem exec_tileStopTaken (here : s.AtBoundary st t) (stopReq : (s.tile st t).stopReq = true) :
    exec (.tileStopTaken st t) s = .next (s.takeStop st t) := by
  show Host.Outcome.next (s.tileStopTaken st t) = _
  rw [State.tileStopTaken, if_pos stopReq, State.boundary_stop here stopReq]

/-! ### Test requests (05 R162) -/

theorem exec_tileTestRequest (run : (s.tile st t).run = .running) (level : pswLvl (s.tile st t).psw ≠ 3) :
    exec (.tileTestRequest st t) s = .next (s.setTile st t { s.tile st t with testReq := true }) :=
  congrArg Host.Outcome.next (if_pos ⟨run, level⟩)

theorem exec_tileTestRequest_ignored (h : (s.tile st t).run ≠ .running ∨ pswLvl (s.tile st t).psw = 3) :
    exec (.tileTestRequest st t) s = .next s :=
  congrArg Host.Outcome.next (if_neg fun ⟨run, level⟩ => h.elim (· run) level)

/-- The frame of a test request has CAUSE 0. -/
def Tile.testFrame (T : Tile) : Vector W64 16 := T.frame ⟨0, 0, 0, false, false, 0, 0⟩ 0 0 0

theorem ecauseWord_test : ecauseWord ⟨0, 0, 0, false, false, 0, 0⟩ 0 0 = 0 := by decide

/-- The tile at the handler of its test request. -/
def Tile.tested (T : Tile) (pc : W16) : Tile :=
  { T.handler T.testFrame 3 pc with attic := T.attic.set 1 ⟨true, T.testFrame⟩, atticCur := 1, testReq := false }

theorem Tile.tested_attic (T : Tile) (pc : W16) : (T.tested pc).attic[(1 : Fin 3)] = ⟨true, T.testFrame⟩ := by simp [Tile.tested]

theorem State.enterTest_free (free : (s.tile st t).attic[(1 : Fin 3)].inUse = false) :
    s.enterTest st t = s.setTile st t ((s.tile st t).tested ((s.reg (tileReg st t 0x10)).setWidth 16)) := by
  unfold State.enterTest
  dsimp only
  rw [State.atticEntry_free free, State.modTile_def, State.tile_setTile, State.setTile_setTile]
  rfl

theorem exec_testEntry (here : s.AtBoundary st t) (stopReq : (s.tile st t).stopReq = false) (testReq : (s.tile st t).testReq = true)
    (free : (s.tile st t).attic[(1 : Fin 3)].inUse = false) :
    exec (.testEntry st t) s = .next (s.setTile st t ((s.tile st t).tested ((s.reg (tileReg st t 0x10)).setWidth 16))) := by
  show Host.Outcome.next (s.testEntry st t) = _
  rw [State.testEntry, if_pos testReq, State.boundary_test here stopReq testReq, State.enterTest_free free]

/-! ### Software interrupts (05 R168, R169) -/

/-- A word without the bits of a mask is what the other bits make of it. -/
theorem and_compl_of_clear {n : Nat} {v m : BitVec n} (clear : v &&& m = 0) : v &&& ~~~m = v := by
  refine BitVec.eq_of_getLsbD_eq fun i hi => ?_
  have none : (v &&& m).getLsbD i = (0#n).getLsbD i := congrArg (BitVec.getLsbD · i) clear
  rw [BitVec.getLsbD_and, BitVec.getLsbD_zero, Bool.and_eq_false_iff] at none
  rw [BitVec.getLsbD_and, BitVec.getLsbD_not]
  rcases none with off | off
  · rw [off, Bool.false_and]
  · simp only [off, hi, decide_true, Bool.not_false, Bool.and_true]

theorem rsv_tileSwi : ∀ (st : Stn) (t : TileNo), ((regInfo (tileReg st t 0x1C)).map RegInfo.rsv).getD 0 = 0xFFFF007F := by
  decide

section
variable {v : W32} (clear : v &&& 0xFFFF007F = 0) {hall : Bool}
include clear

theorem exec_tileSwi : exec (.tileSwi st t hall v) s = (s.noted.tileSwi st t hall v).out := by
  have quiet : s.noted.reserved (tileReg st t 0x1C) v = s.noted := by
    rw [State.reserved, rsv_tileSwi, clear]
    rfl
  show ((s.noted.reserved (tileReg st t 0x1C) v).tileSwi st t hall v).out = _
  rw [quiet]

/-- Lines 7 to 15 are all that a value without reserved bits names. -/
theorem swi_lines : bits v 0 16 &&& 0xFF80 = v.setWidth 16 := by
  have low : v &&& 0xFF80#32 = v := and_compl_of_clear clear
  have same : bits v 0 16 = v.setWidth 16 := rfl
  calc bits v 0 16 &&& 0xFF80 = v.setWidth 16 &&& (0xFF80#32).setWidth 16 := by rw [same]; rfl
    _ = v.setWidth 16 := by rw [← BitVec.setWidth_and, low]

theorem exec_tileSwi_set (allowed : hall = true ∨ v.getLsbD 7 = false) (fitted : s.fitted st = true) :
    exec (.tileSwi st t hall v) s = .next (s.noted.setTile st t { s.tile st t with ipend := (s.tile st t).ipend ||| v.setWidth 16 }) := by
  have taken : ¬(!s.noted.fitted st || (!hall && bit v 7)) = true := by
    have fitted : s.noted.fitted st = true := fitted
    rcases allowed with rfl | low
    · simp [fitted]
    · rw [fitted, bit, low]
      simp
  rw [exec_tileSwi clear, State.tileSwi, if_neg taken, swi_lines clear]
  rfl

theorem exec_tileSwi_ignored (refused : hall = false ∧ v.getLsbD 7 = true ∨ s.fitted st = false) :
    exec (.tileSwi st t hall v) s = .next s.noted := by
  have ignored : (!s.noted.fitted st || (!hall && bit v 7)) = true := by
    rcases refused with ⟨rfl, high⟩ | unfitted
    · rw [bit, high]
      simp
    · have unfitted : s.noted.fitted st = false := unfitted
      simp [unfitted]
  rw [exec_tileSwi clear, State.tileSwi, if_pos ignored]
  rfl

end

/-! ### Failures of pipes (01 R474; 05 R164) -/

section
variable {p : Phys} {kind : PipeKind}

/-- The station once the failure is counted. -/
def Station.pipeFailed (S : Station) (p : Phys) (kind : PipeKind) : Station := { S with phys := S.phys.set p (S.phys[p].failPipe kind) }

theorem exec_pipeFailure_unserved (served : s.servedBy st p = none) :
    exec (.pipeFailure st p kind) s = .next (s.setStn st ((s.stn st).pipeFailed p kind)) := by
  have served : (s.setStn st ((s.stn st).pipeFailed p kind)).servedBy st p = none := served
  show Host.Outcome.next (s.pipeFailure st p kind) = _
  unfold State.pipeFailure
  change Host.Outcome.next (match (s.setStn st ((s.stn st).pipeFailed p kind)).servedBy st p with | none => _ | some t => _) = _
  simp only [served]
  rfl

theorem exec_pipeFailure_served (served : s.servedBy st p = some t) :
    exec (.pipeFailure st p kind) s = .next (if (s.tile st t).run = .running
      then (s.setStn st ((s.stn st).pipeFailed p kind)).tileStopped st t 0x0E (s.tile st t).pc
      else s.setStn st ((s.stn st).pipeFailed p kind)) := by
  have served : (s.setStn st ((s.stn st).pipeFailed p kind)).servedBy st p = some t := served
  show Host.Outcome.next (s.pipeFailure st p kind) = _
  unfold State.pipeFailure
  change Host.Outcome.next (match (s.setStn st ((s.stn st).pipeFailed p kind)).servedBy st p with | none => _ | some t => _) = _
  simp only [served]
  rfl

end

end Sys2Proof.Machine
end

section
open Sys2Proof Sys2Proof.Machine

/-- Settles O22. Requests by the tile they leave, a test entry by the tile at its handler, a failure by the tile that its position serves. -/
theorem tileStopsAndTests : Obligations.TileStopsAndTests := by
  unfold Obligations.TileStopsAndTests
  refine ⟨fun s st t hall v => ?_, fun s st p kind => ?_⟩
  · intro T
    refine ⟨fun run => ?_, fun run => ?_, fun run test => ?_, fun run unfrozen stopReq idle => ?_, exec_tileTestRequest,
      exec_tileTestRequest_ignored, fun run unfrozen stopReq testReq idle free => ?_, fun clear => exec_tileSwi_set clear,
      fun clear => exec_tileSwi_ignored clear⟩
    · rw [exec_tileStopRequest, Tile.asked, run]
    · rw [exec_tileStopRequest, Tile.asked, run]
    · rw [exec_tileStopRequest, Tile.asked_of_still run test, State.setTile_tile]
    · exact exec_tileStopTaken ⟨run, unfrozen, idle⟩ stopReq
    · refine ⟨_, exec_testEntry ⟨run, unfrozen, idle⟩ stopReq testReq free, ?_⟩
      rw [State.tile_setTile]
      intro U
      have saved : U.attic[(1 : Fin 3)] = ⟨true, T.testFrame⟩ := T.tested_attic _
      rw [saved]
      exact ⟨rfl, rfl, rfl, rfl, ecauseWord_test, pswLvl_handler _ (by decide), pswIe_handler _ _, rfl, rfl, rfl, rfl, s.setTile_others st t _⟩
  · intro S P P' u
    have failed : P.failPipe kind = P' := by cases kind <;> rfl
    have station : s.setStn st ((s.stn st).pipeFailed p kind) = u := by rw [Station.pipeFailed, failed]
    refine ⟨fun t served => ⟨fun run => ?_, fun run => ?_⟩, fun unserved => ?_⟩
    · rw [exec_pipeFailure_served served, if_pos run, station]
      rfl
    · rw [exec_pipeFailure_served served, if_neg run, station]
    · rw [exec_pipeFailure_unserved unserved, station]

end

/-! SUPPORT. The deferral window, and `idle` as a command and as an instruction (05 R130, R146, R147). -/

section
namespace Sys2Proof.Machine

variable {s u : State} {st : Stn} {t : TileNo} {b : W64} {T : Tile} {i : Insn} {m : Move}

/-! ### The deferral window (05 R147) -/

/-- The window that a `shield` of n cycles leaves: it opens one under the cap, or shortens the one that is open under its own. -/
def Tile.shielded (T : Tile) (cap n : Nat) : Option Window :=
  if n = 0 then none
  else T.window.elim (Window.start cap n false) fun w => Window.start w.capLeft n w.byRepu

/-- The cycles that are left of a window. -/
def windowLeft (w : Option Window) : Nat := w.elim 0 Window.left

theorem Window.start_open {cap n : Nat} (hcap : 0 < cap) (hn : 0 < n) (byRepu : Bool) :
    Window.start cap n byRepu = some ⟨cap, min cap n, byRepu⟩ := if_neg (by omega)

theorem Tile.shielded_closes (cap : Nat) : T.shielded cap 0 = none := rfl

theorem Tile.shielded_opens {cap n : Nat} (closed : T.window = none) (hcap : 0 < cap) (hn : 0 < n) :
    T.shielded cap n = some ⟨cap, min cap n, false⟩ := by
  rw [Tile.shielded, if_neg (by omega), closed]
  exact Window.start_open hcap hn false

theorem Tile.shielded_shortens {cap n : Nat} {w : Window} (opened : T.window = some w) (hcap : 0 < w.capLeft) (hn : 0 < n) :
    T.shielded cap n = some ⟨w.capLeft, min w.capLeft n, w.byRepu⟩ := by
  rw [Tile.shielded, if_neg (by omega), opened]
  exact Window.start_open hcap hn w.byRepu

theorem fireShield_eq : fireShield (Ctx.alone s st t none) b s =
    let w := (s.tile st t).shielded (s.shcap st t) (nat b 0 32)
    .done (s.setTile st t { s.tile st t with window := w, cuR := BitVec.ofNat 64 (windowLeft w) }) := by
  cases opened : (s.tile st t).window with
  | none =>
    simp only [fireShield, Ctx.alone, State.modTile_def, Tile.shielded, opened, Option.elim_none]
    generalize (if nat b 0 32 = 0 then none else Window.start (s.shcap st t) (nat b 0 32) false) = left
    cases left <;> rfl
  | some w =>
    simp only [fireShield, Ctx.alone, State.modTile_def, Tile.shielded, opened, Option.elim_some]
    generalize (if nat b 0 32 = 0 then none else Window.start w.capLeft (nat b 0 32) w.byRepu) = left
    cases left <;> rfl

section
variable (run : (s.tile st t).run = .running) (unfrozen : s.haltFrozen st = false)
include run unfrozen

/-- `shield` sets the window and shows what is left of it. -/
theorem exec_shield {w : Option Window} (window : (s.tile st t).shielded (s.shcap st t) (nat b 0 32) = w) :
    exec (.shield st t b) s = .next (s.setTile st t { s.tile st t with window := w, cuR := BitVec.ofNat 64 (windowLeft w) }) := by
  subst window
  exact congrArg Host.Outcome.next (State.trigger_quiet run unfrozen (by simp [Trig.unit]) fireShield_eq (by rw [State.tile_setTile]))

omit run in
theorem exec_deferralWindowEnd : exec (.deferralWindowEnd st t) s = .next (s.setTile st t { s.tile st t with window := none }) := by
  show Host.Outcome.next (s.windowEnd st t) = _
  rw [State.windowEnd, unfrozen]
  rfl

/-! ### `idle` as a command (05 R146) -/

theorem exec_idle (lines : (s.tile st t).idleLines ≠ 0) : exec (.idle st t) s =
    .next (s.setTile st t { s.tile st t with cuR := (s.tile st t).idleLines.setWidth 64, waiting := false }) := by
  have fires : fireTrig (Ctx.alone s st t none) .idle 0 s =
      .done (s.setTile st t { s.tile st t with cuR := (s.tile st t).idleLines.setWidth 64, waiting := false }) := if_neg lines
  show Host.Outcome.next (s.idleTrigger st t) = _
  rw [State.idleTrigger, if_neg fun stalls => lines stalls.2.2,
    State.trigger_quiet run unfrozen (by simp [Trig.unit]) fires (by rw [State.tile_setTile])]

theorem exec_idle_stalls (lines : (s.tile st t).idleLines = 0) (closed : (s.tile st t).window = none) : exec (.idle st t) s =
    .next ((s.bump (tileReg st t 0x204) 1).setTile st t { s.tile st t with waiting := true }) := by
  have still : { s.tile st t with window := windowTick (s.tile st t).window 1, waiting := true } =
      { s.tile st t with waiting := true } := by
    rw [closed]
    show { s.tile st t with window := none, waiting := true } = _
    rw [← closed]
  show Host.Outcome.next (s.idleTrigger st t) = _
  rw [State.idleTrigger, if_pos ⟨run, by simp [unfrozen], lines⟩, State.modTile_def, State.stalled_tile, still, State.stalled,
    State.modTile_def, State.setTile_setTile]

end

/-! ### `idle` as an instruction (05 R130, R146) -/

/-- An instruction of one move: an immediate to the trigger of `idle`. -/
structure Insn.Idles (i : Insn) (m : Move) : Prop where
  moves : i.moves = [m]
  src : m.src = .imm
  dst : m.dst = .trig .idle
  guard : m.guard = none
  cond : i.pre.cond = none
  rep : i.pre.rep = none

/-- An instruction issued in one cycle is counted once. -/
theorem State.counted_short (short : i.overPort = none) : s.counted st t i = s.bump (tileReg st t 0x200) 1 := by
  unfold State.counted
  exact if_neg (by simp [Insn.cycles, short])

section
variable (idles : i.Idles m)
include idles

theorem Insn.Idles.enabled (T : Tile) : i.enabled T = [m] := by
  simp [Insn.enabled, idles.cond, idles.moves, Move.enabled, idles.guard]

theorem Insn.Idles.overPort : i.overPort = none := Insn.overPort_none (by simp [idles.moves])

theorem Insn.Idles.runMoves (lines : (s.tile st t).idleLines ≠ 0) : s.runMoves st t i [m] = .done (s.setTile st t
    { (s.tile st t).turn i.cycles with cuR := (s.tile st t).idleLines.setWidth 64, waiting := false }) := by
  have read : readMoves s st t [m] [] s = .vals [] s := by simp [readMoves, idles.src]
  have noTail : tailWaits (s.tile st t) [m] = false := tailWaits_none _ (by simp [idles.dst])
  unfold State.runMoves
  simp only [read, noTail]
  rw [fireAll_early _ (by simp [Move.late, idles.dst])]
  simp only [fireMoves, idles.dst, fireTrig, fireIdle, Ctx.T0, if_neg lines, TOut.bind, Tile.writeAll, List.foldl_cons, List.foldl_nil,
    Tile.write, State.modTile_def, State.tile_setTile, State.setTile_setTile]
  rfl

/-- The `idle` completes: `cu.r` shows the lines, the offset moves past it, and the tile no longer waits. -/
theorem Insn.Idles.execute (lines : (s.tile st t).idleLines ≠ 0) (rip : (s.tile st t).rip = false) (slot : (s.tile st t).slot = 0)
    (pkind : (s.tile st t).pkind = .none) (conflict : (s.tile st t).conflict = none)
    (fetch : s.segCheck st (s.tile st t) 6 .fetch false false true anyAlign [((0x20000 + (s.tile st t).pc.toNat : Int), i.len)] = none) :
    ∃ U, s.execute st t i = .done ((s.bump (tileReg st t 0x200) 1).setTile st t U) ∧
      U.cuR = (s.tile st t).idleLines.setWidth 64 ∧ U.pc = (s.tile st t).pc + BitVec.ofNat 16 i.len ∧ U.waiting = false ∧
      U.q = (s.tile st t).q ∧ U.ipend = (s.tile st t).ipend := by
  have once : (s.tile st t).repeating i = none := by simp [Tile.repeating, rip, idles.rep]
  have due : s.execFault st t i [m] = none :=
    State.execFault_none fetch conflict (.inr idles.overPort) (by simp [Move.usesQu, idles.src, idles.dst, Trig.unit])
  have dup : duplicate [m] = none := duplicate_none (List.pairwise_singleton ..)
  have exec := State.execute_once once (by rw [idles.enabled]; exact dup) (by rw [idles.enabled]; exact due)
    (by rw [idles.enabled]; exact idles.runMoves lines)
  set X : Tile := { (s.tile st t).turn i.cycles with cuR := (s.tile st t).idleLines.setWidth 64, waiting := false }
  obtain ⟨U, finish, only, -⟩ := (s.setTile st t X).finish_moves_on st t (old := s.tile st t) (rep := none) i (by simp) (by simp [slot])
  rw [State.tile_setTile, Tile.advance_slot0 (T := X) slot pkind] at only
  rw [State.counted_setTile, State.setTile_setTile, State.counted_short idles.overPort] at finish
  unfold OnlyCounts at only
  refine ⟨U, exec.trans (congrArg TOut.done finish), ?_⟩
  rw [only]
  exact ⟨rfl, rfl, rfl, rfl, rfl⟩

end

theorem exec_idleWake (waiting : (s.tile st t).waiting = true) (lines : (s.tile st t).idleLines ≠ 0)
    (boundary : s.noted.boundary st t = u) (undef : u.undef = false) : exec (.idleWake st t) s = .next u := by
  have wakes : s.noted.idleWake st t = u := (if_pos ⟨waiting, lines⟩).trans boundary
  show (s.noted.idleWake st t).out = _
  rw [wakes, State.out, undef]
  rfl

end Sys2Proof.Machine
end

section
open Sys2Proof Sys2Proof.Machine

/-- Settles O14. `shield` by the window that it leaves, `idle` by the lines that are pending, as a command and as the instruction in which
the tile waits. -/
theorem shieldAndIdle : Obligations.ShieldAndIdle := by
  unfold Obligations.ShieldAndIdle
  constructor
  · intro s st t b T n cap lines run unfrozen
    have length : nat b 0 32 = n := nat_low b 32
    have capped : s.shcap st t = cap := s.shcap_eq st t
    refine ⟨fun zero => ?_, fun pos closed hcap => ?_, fun w pos opened hcap => ?_, exec_deferralWindowEnd unfrozen,
      exec_idle run unfrozen, exec_idle_stalls run unfrozen⟩
    · exact exec_shield run unfrozen (by rw [length, zero, Tile.shielded_closes])
    · exact exec_shield run unfrozen (by rw [length, capped, Tile.shielded_opens closed hcap pos])
    · exact exec_shield run unfrozen (by rw [length, Tile.shielded_shortens opened hcap pos])
  · intro s st t i m T lines run unfrozen idle stopReq testReq report slot pkind rip conflict waiting pending decoded moves src dst guard rep
      cond fetch
    have here : s.noted.AtBoundary st t := ⟨run, unfrozen, idle⟩
    obtain ⟨U, execute, cuR, pc, awake, q, ipend⟩ :=
      Insn.Idles.execute (s := s.noted) ⟨moves, src, dst, guard, cond, rep⟩ pending rip slot pkind conflict fetch
    have decoded : decodeInsn (s.noted.fetchByte st t) (s.noted.tile st t).pc.toNat = .ok i := decoded
    have boundary := State.boundary_waited here stopReq testReq report slot pkind decoded rep
      (by rw [State.loadCount_none decoded rep]; exact execute) waiting
    refine ⟨_, exec_idleWake waiting pending boundary rfl, ?_⟩
    rw [State.tile_setTile]
    exact ⟨cuR, pc, awake, q, ipend, fun a ha => State.reg_bump_of_ne _ _ _ _ ha, fun a => rfl, fun x y h => State.setTile_others _ st t U x y h⟩

end

/-! SUPPORT. Exceptions that a trigger raises by itself (05 R149), and the control registers by number (05 R131 to R134). -/

section
namespace Sys2Proof.Machine

variable {s s1 : State} {st : Stn} {t : TileNo} {T : Tile} {b v : W64} {c : Byte} {e : W64}

/-! ### Exceptions of a trigger (05 R149) -/

theorem State.takeExc_none (report : (s.tile st t).drain.report = none) (c : Byte) (e : W64) :
    s.takeExc st t c e = (s.setTile st t (s.tile st t).drain).enter st t { cause := c, efaddr := e } := by
  rw [State.takeExc, State.drained]
  simp only [report]

theorem State.takeExc_some {r : Report} (report : (s.tile st t).drain.report = some r) (c : Byte) (e : W64) :
    s.takeExc st t c e = (s.setTile st t (s.tile st t).drain).takeReport st t r := by
  rw [State.takeExc, State.drained]
  simp only [report]

theorem State.takeFault_self (s : State) (st : Stn) (t : TileNo) (c : Byte) (e : W64) : s.takeFault s st t c e = s.takeExc st t c e := by
  unfold State.takeFault
  cases report : (s.tile st t).drain.report with
  | none => rfl
  | some r =>
    rw [State.takeExc_some report, State.drained]
    simp only [report, Option.isSome_some, if_true]

/-- A trigger that raises an exception leaves everything else as it was. -/
theorem State.trigger_fault {seg : Option (Fin 8)} {x : Trig} (run : (s.tile st t).run = .running) (unfrozen : s.haltFrozen st = false)
    (unit : x.unit ≠ 7) (fires : fireTrig (Ctx.alone s st t seg) x b s = .fault s c e) :
    s.trigger st t seg x b = s.takeExc st t c e := by
  have going : ¬((s.tile st t).run ≠ .running ∨ s.haltFrozen st = true) := by simp [run, unfrozen]
  unfold State.trigger
  rw [if_neg going, if_neg unit]
  simp only [fires, State.takeFault_self]

/-! ### The four ways of an entry (05 R150, R161, R164) -/

theorem State.enter_high {x : Exc} (high : 2 ≤ pswLvl (s.tile st t).psw) :
    s.enter st t x = s.tileStopped st t x.cause (s.tile st t).pc := if_pos high

section
variable {x : Exc} (low : pswLvl (s.tile st t).psw < 2)
include low

theorem State.enter_untrusted (tv : pswTv (s.tile st t).psw = false) :
    s.enter st t x = s.atticEntry st t 0 ((s.tile st t).frame x x.cause 0 x.efaddr) 2 0x0C x.cause :=
  (if_neg (by omega)).trans (if_pos (by simp [tv]))

theorem State.enter_unsaved (tv : pswTv (s.tile st t).psw = true)
    (lost : (s.tile st t).tsbp.toNat < 128 ∨ s.frameFails st t (s.tile st t) ((s.tile st t).tsbp - 128) true = true) :
    s.enter st t x = s.atticEntry st t 2 ((s.tile st t).frame x 0x0C x.cause (s.tile st t).tsbp) 2 0x0C 0x0C :=
  (if_neg (by omega)).trans ((if_neg (by simp [tv])).trans (if_pos (by simpa using lost)))

theorem State.enter_saved (tv : pswTv (s.tile st t).psw = true) (room : 128 ≤ (s.tile st t).tsbp.toNat)
    (kept : s.frameFails st t (s.tile st t) ((s.tile st t).tsbp - 128) true = false) :
    s.enter st t x = (s.writeData st t ((s.tile st t).tsbp.toNat - 128)
      (frameBytes ((s.tile st t).frame x x.cause 0 x.efaddr))).setTile st t
      { (s.tile st t).handler ((s.tile st t).frame x x.cause 0 x.efaddr) 1 (s.tile st t).evec with tsbp := (s.tile st t).tsbp - 128 } :=
  (if_neg (by omega)).trans ((if_neg (by simp [tv])).trans (if_neg (by rw [kept]; simpa using room)))

end

/-! ### Entries note no write of a reserved bit -/

@[simp] theorem State.tileStopped_undef (s : State) (st : Stn) (t : TileNo) (cause : Byte) (at_ : W16) :
    (s.tileStopped st t cause at_).undef = s.undef := by
  rw [State.tileStopped, State.notify_undef, State.setReg_undef, State.modTile_undef]

@[simp] theorem State.atticEntry_undef (s : State) (st : Stn) (t : TileNo) (k : Fin 3) (f : Vector W64 16) (lvl vecOff : Nat) (cause : Byte) :
    (s.atticEntry st t k f lvl vecOff cause).undef = s.undef := by
  by_cases busy : (s.tile st t).attic[k].inUse = true
  · rw [show s.atticEntry st t k f lvl vecOff cause = s.tileStopped st t cause (s.tile st t).pc from if_pos busy, State.tileStopped_undef]
  · rw [State.atticEntry_free (by simpa using busy), State.setTile_undef]

@[simp] theorem State.writeData_undef (s : State) (st : Stn) (t : TileNo) (off : Nat) (bs : List Byte) :
    (s.writeData st t off bs).undef = s.undef := by
  rw [State.writeData_only]

@[simp] theorem State.enter_undef (s : State) (st : Stn) (t : TileNo) (x : Exc) : (s.enter st t x).undef = s.undef := by
  by_cases high : 2 ≤ pswLvl (s.tile st t).psw
  · rw [State.enter_high high, State.tileStopped_undef]
  have low : pswLvl (s.tile st t).psw < 2 := by omega
  by_cases tv : pswTv (s.tile st t).psw = true
  · by_cases lost : (s.tile st t).tsbp.toNat < 128 ∨ s.frameFails st t (s.tile st t) ((s.tile st t).tsbp - 128) true = true
    · rw [State.enter_unsaved low tv lost, State.atticEntry_undef]
    · rw [not_or, Bool.not_eq_true] at lost
      rw [State.enter_saved low tv (by omega) lost.2, State.setTile_undef, State.writeData_undef]
  · rw [State.enter_untrusted low (by simpa using tv), State.atticEntry_undef]

@[simp] theorem State.takeExc_undef (s : State) (st : Stn) (t : TileNo) (c : Byte) (e : W64) : (s.takeExc st t c e).undef = s.undef := by
  cases report : (s.tile st t).drain.report with
  | none => rw [State.takeExc_none report, State.enter_undef, State.setTile_undef]
  | some r => rw [State.takeExc_some report, State.takeReport, State.enter_undef, State.modTile_undef, State.setTile_undef]

/-! ### Words with reserved bits -/

/-- A word below 2^k has none of the bits from k on. -/
theorem and_high_of_lt {k : Nat} {v : W64} (fits : v.toNat < 2 ^ k) : v &&& (BitVec.allOnes 64 <<< k) = 0 := by
  refine BitVec.eq_of_getLsbD_eq fun i hi => ?_
  rw [BitVec.getLsbD_and, BitVec.getLsbD_shiftLeft]
  by_cases low : i < k
  · simp [low]
  · have zero : v.getLsbD i = false := Nat.testBit_lt_two_pow (fits.trans_le (Nat.pow_le_pow_right (by decide) (by omega)))
    simp [zero]

/-- A word without the bits of a mask has none of those of a part of it. -/
theorem and_of_clear {n : Nat} {v m m' : BitVec n} (clear : v &&& m = 0) (part : m &&& m' = m') : v &&& m' = 0 := by
  rw [← part, ← BitVec.and_assoc, clear]
  exact BitVec.zero_and

/-! ### `rdcr` and `wrcr` (05 R130, R131) -/

theorem crNumber {n : Nat} (small : n < 4096) : nat (BitVec.ofNat 64 n) 0 12 = n := by
  rw [nat_low, BitVec.toNat_ofNat]
  omega

theorem flights_ite {p : Prop} [Decidable p] {T U V : Tile} (h : U.flights = T.flights) (k : V.flights = T.flights) :
    (if p then U else V).flights = T.flights := by
  split
  · exact h
  · exact k

theorem crWrite_flights (T : Tile) (psw : W64) (ovs : Bool) (n : Nat) (v : W64) : (crWrite T psw ovs n v).flights = T.flights := by
  unfold crWrite
  iterate 11 refine flights_ite rfl ?_
  exact flights_ite (flights_ite rfl rfl) (flights_ite rfl rfl)

theorem refused_of {p : Bool} (h : p = false) : (!p) = true := by simp [h]

theorem not_refused {p : Bool} (h : p = true) : ¬(!p) = true := by simp [h]

/-- The tile once `wrcr` has written register n: `cu.r` shows the value before. -/
def State.crWritten (s : State) (st : Stn) (t : TileNo) (n : Nat) : Tile :=
  { crWrite (s.tile st t) (s.tile st t).psw false n (s.tile st t).opnd[7] with cuR := crRead s st t (s.tile st t) n }

theorem fireWrcr_done (assigned : crAssigned (nat b 0 12) = true) (writable : crWritable (nat b 0 12) (pswLvl (s.tile st t).psw) = true)
    (level : nat b 0 12 = 0 → pswLvl (s.tile st t).opnd[7] < 2) (clear : (s.tile st t).opnd[7] &&& crReserved (nat b 0 12) = 0)
    (undef : s.undef = false) :
    fireWrcr (Ctx.alone s st t none) b s = .done (s.setTile st t (s.crWritten st t (nat b 0 12))) := by
  have below : ¬(nat b 0 12 = 0 ∧ 2 ≤ pswLvl (s.tile st t).opnd[7]) := fun ⟨zero, high⟩ => absurd (level zero) (by omega)
  have unset : (s.undef || (s.tile st t).opnd[7] &&& crReserved (nat b 0 12) != 0) = s.undef := by
    rw [clear, undef]
    rfl
  have ovs (T : Tile) : (false || (bit T.fxm 16 && !bit T.fxm 16)) = false := by simp
  refine (if_neg (not_refused assigned)).trans ((if_neg (not_refused writable)).trans ((if_neg below).trans ?_))
  show TOut.done (State.modTile { s with undef := s.undef || (s.tile st t).opnd[7] &&& crReserved (nat b 0 12) != 0 } st t
    fun T => { crWrite T (s.tile st t).psw (false || (bit T.fxm 16 && !bit (s.tile st t).fxm 16))
    (nat b 0 12) (s.tile st t).opnd[7] with cuR := crRead s st t (s.tile st t) (nat b 0 12) }) = _
  rw [unset, State.modTile_def, ovs]
  rfl

section
variable (run : (s.tile st t).run = .running) (unfrozen : s.haltFrozen st = false)
include run unfrozen

theorem exec_rdcr_fault (fires : fireRdcr (Ctx.alone s st t none) b s = .fault s c e) :
    exec (.rdcr st t b) s = .next (s.takeExc st t c e) :=
  congrArg Host.Outcome.next (State.trigger_fault run unfrozen (by simp [Trig.unit]) fires)

theorem exec_wrcr_fault (fires : fireWrcr (Ctx.alone s.noted st t none) b s.noted = .fault s.noted c e) :
    exec (.wrcr st t b) s = .next (s.noted.takeExc st t c e) := by
  show (s.noted.trigger st t none .wrcr b).out = _
  rw [State.trigger_fault (s := s.noted) (x := .wrcr) run unfrozen (by simp [Trig.unit]) fires, State.out, State.takeExc_undef]
  rfl

variable {n : Nat} (small : n < 4096)
include small

/-- A permitted read shows the register. -/
theorem exec_rdcr {value : W64} (assigned : crAssigned n = true) (readable : crReadable n (pswLvl (s.tile st t).psw) = true)
    (shows : crRead s st t (s.tile st t) n = value) :
    exec (.rdcr st t (BitVec.ofNat 64 n)) s = .next (s.setTile st t { s.tile st t with cuR := value }) := by
  have number := crNumber small
  generalize BitVec.ofNat 64 n = b at number
  subst number shows
  have fires : fireRdcr (Ctx.alone s st t none) b s =
      .done (s.setTile st t { s.tile st t with cuR := crRead s st t (s.tile st t) (nat b 0 12) }) :=
    (if_neg (not_refused assigned)).trans (if_neg (not_refused readable))
  exact congrArg Host.Outcome.next (State.trigger_quiet (x := .rdcr) run unfrozen (by simp [Trig.unit]) fires (by rw [State.tile_setTile]))

/-- A permitted write shows the register as it was and writes it. -/
theorem exec_wrcr {value : W64} {U : Tile} (assigned : crAssigned n = true) (writable : crWritable n (pswLvl (s.tile st t).psw) = true)
    (level : n = 0 → pswLvl (s.tile st t).opnd[7] < 2) (clear : (s.tile st t).opnd[7] &&& crReserved n = 0)
    (shows : crRead s st t (s.tile st t) n = value) (writes : crWrite (s.tile st t) (s.tile st t).psw false n (s.tile st t).opnd[7] = U) :
    exec (.wrcr st t (BitVec.ofNat 64 n)) s = .next (s.noted.setTile st t { U with cuR := value }) := by
  have number := crNumber small
  generalize BitVec.ofNat 64 n = b at number
  subst number shows writes
  have flights : (s.crWritten st t (nat b 0 12)).flights = (s.tile st t).flights := crWrite_flights ..
  show (s.noted.trigger st t none .wrcr b).out = _
  rw [State.trigger_quiet (s := s.noted) (x := .wrcr) run unfrozen (by simp [Trig.unit])
    (fireWrcr_done (s := s.noted) assigned writable level clear rfl) (by rw [State.tile_setTile]; exact flights)]
  rfl

theorem exec_rdcr_unassigned (unassigned : crAssigned n = false) :
    exec (.rdcr st t (BitVec.ofNat 64 n)) s = .next (s.takeExc st t 0x02 (BitVec.ofNat 64 n)) :=
  exec_rdcr_fault run unfrozen (by rw [fireRdcr, crNumber small]; exact if_pos (by simp [unassigned]))

theorem exec_wrcr_unassigned (unassigned : crAssigned n = false) :
    exec (.wrcr st t (BitVec.ofNat 64 n)) s = .next (s.noted.takeExc st t 0x02 (BitVec.ofNat 64 n)) :=
  exec_wrcr_fault run unfrozen (by rw [fireWrcr, crNumber small]; exact if_pos (by simp [unassigned]))

theorem exec_rdcr_refused (assigned : crAssigned n = true) (refused : crReadable n (pswLvl (s.tile st t).psw) = false) :
    exec (.rdcr st t (BitVec.ofNat 64 n)) s = .next (s.takeExc st t 0x0D ((s.tile st t).pc.setWidth 64)) :=
  exec_rdcr_fault run unfrozen (by
    rw [fireRdcr, crNumber small]
    exact (if_neg (not_refused assigned)).trans (if_pos (refused_of refused)))

theorem exec_wrcr_refused (assigned : crAssigned n = true)
    (refused : crWritable n (pswLvl (s.tile st t).psw) = false ∨ n = 0 ∧ 2 ≤ pswLvl (s.tile st t).opnd[7]) :
    exec (.wrcr st t (BitVec.ofNat 64 n)) s = .next (s.noted.takeExc st t 0x0D ((s.tile st t).pc.setWidth 64)) := by
  refine exec_wrcr_fault run unfrozen ?_
  rw [fireWrcr, crNumber small]
  refine (if_neg (not_refused assigned)).trans ?_
  by_cases writable : crWritable n (pswLvl (s.tile st t).psw) = true
  · exact (if_neg (not_refused writable)).trans (if_pos (refused.resolve_left (by simp [writable])))
  · exact if_pos (refused_of (Bool.eq_false_of_not_eq_true writable))

end

end Sys2Proof.Machine
end

/-! SUPPORT. Each control register by its number: who may use it, what it shows and what a write makes of it (05 R131 to R134, R139). -/

section
namespace Sys2Proof.Machine

variable {s : State} {st : Stn} {t : TileNo} {T : Tile} {psw v : W64} {n lvl : Nat}

/-! ### The numbers, and who may use them (05 R131) -/

theorem crAssigned_iff : crAssigned n = true ↔
    n ≤ 0xA ∨ (0x10 ≤ n ∧ n ≤ 0x13) ∨ (0x20 ≤ n ∧ n ≤ 0x2F) ∨ (0x40 ≤ n ∧ n ≤ 0x4F) ∨ (0x80 ≤ n ∧ n ≤ 0x8F) := by
  simp only [crAssigned, Bool.or_eq_true, Bool.and_eq_true, decide_eq_true_eq, or_assoc]

theorem crAssigned_small (assigned : crAssigned n = true) : n < 4096 := by
  have ranges := crAssigned_iff.mp assigned
  omega

theorem crAssigned_sgA (k : Fin 8) : crAssigned (0x20 + 2 * k.val) = true := crAssigned_iff.mpr (by omega)

theorem crAssigned_sgB (k : Fin 8) : crAssigned (0x21 + 2 * k.val) = true := crAssigned_iff.mpr (by omega)

theorem crAssigned_stack (j : Fin 16) : crAssigned (0x40 + j.val) = true := crAssigned_iff.mpr (by omega)

theorem crAssigned_attic (j : Fin 16) : crAssigned (0x80 + j.val) = true := crAssigned_iff.mpr (by omega)

theorem crReadable_descriptor (low : 0x10 ≤ n) (high : n < 0x40) : crReadable n lvl = true := by
  unfold crReadable
  rw [if_neg (by omega), if_neg (by omega)]

theorem crReadable_supervisor (number : n < 0x80) (level : lvl ≠ 0) : crReadable n lvl = true := by
  unfold crReadable
  rw [if_neg (by omega)]
  split
  · exact decide_eq_true (by omega)
  · rfl

theorem crWritable_supervisor (number : n < 0x80) (other : n ≠ 8) (level : lvl ≠ 0) : crWritable n lvl = true := by
  unfold crWritable
  rw [if_neg (by omega), if_neg other]
  split
  · rfl
  · exact decide_eq_true (by omega)

theorem crReadable_attic (number : 0x80 ≤ n) : crReadable n lvl = decide (2 ≤ lvl) := if_pos number

theorem crWritable_attic (number : 0x80 ≤ n) : crWritable n lvl = decide (2 ≤ lvl) := if_pos number

theorem crReadable_user (number : 1 ≤ n ∧ n ≤ 7 ∨ 0x40 ≤ n) : crReadable n 0 = false := by
  by_cases attic : 0x80 ≤ n
  · exact if_pos attic
  · exact (if_neg attic).trans (if_pos number)

theorem crWritable_user (number : n ≤ 7 ∨ 0x20 ≤ n) : crWritable n 0 = false := by
  unfold crWritable
  split
  · rfl
  split
  · rfl
  · rw [if_neg (by omega)]
    rfl

/-! ### The descriptors, the return stack and the Attic doublewords -/

theorem crRead_descriptor (low : 0x20 ≤ n) (high : n < 0x30) : crRead s st t T n =
    if n % 2 = 0 then T.sgA[n / 2 % 8]'(Nat.mod_lt _ (by decide)) else T.sgB[n / 2 % 8]'(Nat.mod_lt _ (by decide)) := by
  unfold crRead
  iterate 14 rw [if_neg (by omega)]
  rw [if_pos high]

theorem crWrite_descriptor (low : 0x20 ≤ n) (high : n < 0x30) : crWrite T psw false n v =
    if n % 2 = 0 then { T with sgA := T.sgA.set (n / 2 % 8) (v &&& 0xFF8000FFFFFFFFFF) (Nat.mod_lt _ (by decide)) }
    else { T with sgB := T.sgB.set (n / 2 % 8) (v &&& 0xFFFFFFFFFF) (Nat.mod_lt _ (by decide)) } := by
  unfold crWrite
  iterate 11 rw [if_neg (by omega)]
  rw [if_pos high]

theorem crRead_sgA (k : Fin 8) : crRead s st t T (0x20 + 2 * k.val) = T.sgA[k] := by
  rw [crRead_descriptor (by omega) (by omega), if_pos (by omega)]
  simp only [show (0x20 + 2 * k.val) / 2 % 8 = k.val by omega]
  rfl

theorem crRead_sgB (k : Fin 8) : crRead s st t T (0x21 + 2 * k.val) = T.sgB[k] := by
  rw [crRead_descriptor (by omega) (by omega), if_neg (by omega)]
  simp only [show (0x21 + 2 * k.val) / 2 % 8 = k.val by omega]
  rfl

theorem crWrite_sgA (k : Fin 8) :
    crWrite T psw false (0x20 + 2 * k.val) v = { T with sgA := T.sgA.set k (v &&& 0xFF8000FFFFFFFFFF) } := by
  rw [crWrite_descriptor (by omega) (by omega), if_pos (by omega)]
  simp only [show (0x20 + 2 * k.val) / 2 % 8 = k.val by omega]

theorem crWrite_sgB (k : Fin 8) :
    crWrite T psw false (0x21 + 2 * k.val) v = { T with sgB := T.sgB.set k (v &&& 0xFFFFFFFFFF) } := by
  rw [crWrite_descriptor (by omega) (by omega), if_neg (by omega)]
  simp only [show (0x21 + 2 * k.val) / 2 % 8 = k.val by omega]

theorem crRead_stack (j : Fin 16) : crRead s st t T (0x40 + j.val) = (T.rs[j]).setWidth 64 := by
  unfold crRead
  iterate 15 rw [if_neg (by omega)]
  rw [if_pos (by omega)]
  simp only [show (0x40 + j.val) % 16 = j.val by omega]
  rfl

theorem crWrite_stack (j : Fin 16) : crWrite T psw false (0x40 + j.val) v = { T with rs := T.rs.set j (v.extractLsb' 0 16) } := by
  unfold crWrite
  iterate 12 rw [if_neg (by omega)]
  rw [if_pos (by omega)]
  simp only [show (0x40 + j.val) % 16 = j.val by omega]
  rfl

theorem crRead_attic (j : Fin 16) : crRead s st t T (0x80 + j.val) = T.attic[T.atticCur].words[j] := by
  unfold crRead
  iterate 16 rw [if_neg (by omega)]
  simp only [show (0x80 + j.val) % 16 = j.val by omega]
  rfl

theorem crWrite_attic (j : Fin 16) : crWrite T psw false (0x80 + j.val) v =
    { T with attic := T.attic.set T.atticCur { T.attic[T.atticCur] with words := T.attic[T.atticCur].words.set j v } } := by
  unfold crWrite
  iterate 13 rw [if_neg (by omega)]
  simp only [show (0x80 + j.val) % 16 = j.val by omega]

theorem and_reserved_none (number : n = 3 ∨ n = 4 ∨ 0x10 ≤ n) : v &&& crReserved n = 0 := by
  unfold crReserved
  iterate 5 rw [if_neg (by omega)]
  exact BitVec.and_zero

/-! ### The other registers that a write changes (05 R133, R134, R139; 04 R110) -/

/-- A psw value without the bits that no level may write has neither LVL 0b10 nor 0b11, and gives the waiting psw all its other bits. -/
theorem pswOf_clear {old : W64} (clear : v &&& 0xFFFFFFFF0000E20E = 0) : pswOf old v = (v &&& 0xFFFF1DE1) ||| (old &&& 0x10) := by
  have high : v &&& 2 = 0 := and_of_clear clear (by decide)
  have parts : v &&& 0xFFFF1DE3 = v &&& 0xFFFF1DE1 := by
    rw [show (0xFFFF1DE3 : W64) = 0xFFFF1DE1 ||| 2 by decide, BitVec.and_or_distrib_left, high]
    exact BitVec.or_zero
  rw [pswOf, pswMask, parts]

theorem pswLvl_clear (clear : v &&& 0xFFFFFFFF0000E20E = 0) : pswLvl v < 2 := by
  have high : v &&& 2 = 0 := and_of_clear clear (by decide)
  have low : v.toNat / 2 % 2 ≠ 1 := by
    have bit : v.toNat.testBit 1 = false := by
      have zero : (v &&& 2).getLsbD 1 = (0 : W64).getLsbD 1 := congrArg (BitVec.getLsbD · 1) high
      rw [BitVec.getLsbD_and, show (2 : W64).getLsbD 1 = true from rfl, Bool.and_true] at zero
      exact zero
    simpa [Nat.testBit_eq_decide_div_mod_eq] using bit
  rw [pswLvl, nat_low]
  omega

theorem rspCntOf_small (fits : v.toNat < 512) : rspCntOf v = BitVec.ofNat 5 (min 16 (v.toNat / 16)) := by
  have count : nat v 4 5 = v.toNat / 16 := by
    rw [nat_eq_toNat]
    omega
  unfold rspCntOf
  split
  · rw [show min 16 (v.toNat / 16) = 16 by omega]
    rfl
  · rw [show min 16 (v.toNat / 16) = v.toNat / 16 by omega, ← count]
    exact ((BitVec.ofNat_toNat ..).trans (BitVec.setWidth_eq _)).symm

theorem crWrite_ecause (fits : v.toNat < 2 ^ 27) : crWrite T psw false 2 v = { T with ecause := v } := by
  have kept : v &&& 0x7FFFFFF = v := and_compl_of_clear (m := 0xFFFFFFFFF8000000) (and_high_of_lt fits)
  show { T with ecause := v &&& 0x7FFFFFF } = _
  rw [kept]

theorem fxm_keeps_ovs (T : Tile) (v : W64) :
    (if bit T.fxm 16 && (false || !bit v 16) then (0x10000 : W64) else 0) =
      if T.fxm.getLsbD 16 ∧ v.getLsbD 16 = false then 0x10000 else 0 := by
  simp [bit]

end Sys2Proof.Machine
end

section
open Sys2Proof Sys2Proof.Machine

/-- Settles O13. Each number by who may use it, what it shows and what a write makes of it; a refusal by its cause. -/
theorem controlRegisters : Obligations.ControlRegisters := by
  unfold Obligations.ControlRegisters
  constructor
  · intro s st t k j T v w16 fits rd wr rw' grade A run unfrozen
    have code : feat3 s.grade st t = BitVec.ofNat 64 (grade * 2 ^ 22 + st.val * 2 ^ 12 + t.val) := by
      simp only [feat3, grade]
      cases s.grade <;> rfl
    have rsp : T.rsp = BitVec.ofNat 64 (16 * T.rspCnt.toNat + T.rspPtr.toNat) := by rw [Tile.rsp, Nat.mul_comm]
    have high (short : fits) : v &&& 0xFFFFFFFFFFFF0000 = 0 := and_high_of_lt (k := 16) short
    have read {n : Nat} {value : W64} (assigned : crAssigned n = true) (readable : crReadable n (pswLvl T.psw) = true)
        (shows : crRead s st t T n = value) : rd n value :=
      exec_rdcr run unfrozen (crAssigned_small assigned) assigned readable shows
    have write {n : Nat} {value : W64} {U : Tile} (assigned : crAssigned n = true) (nonzero : n ≠ 0)
        (writable : crWritable n (pswLvl T.psw) = true) (shows : crRead s st t T n = value) (writes : crWrite T T.psw false n v = U)
        (clear : v &&& crReserved n = 0) : exec (.wrcr st t (BitVec.ofNat 64 n)) s = .next (s.noted.setTile st t { U with cuR := value }) :=
      exec_wrcr run unfrozen (crAssigned_small assigned) assigned writable (absurd · nonzero) clear shows writes
    refine ⟨⟨read rfl rfl rfl, read rfl rfl rfl, ⟨read rfl rfl rfl, fun short => write rfl nofun rfl rfl rfl (high short)⟩,
      ⟨read rfl rfl rfl, fun clear => write rfl nofun rfl rfl (by rw [← fxm_keeps_ovs]; rfl) clear⟩,
      ⟨read rfl rfl rfl, fun _ => write rfl nofun rfl rfl rfl (and_reserved_none (by decide))⟩,
      ⟨read rfl rfl rfl, fun _ => write rfl nofun rfl rfl rfl (and_reserved_none (by decide))⟩,
      ⟨read rfl rfl rfl, fun _ => write rfl nofun rfl rfl rfl (and_reserved_none (by decide))⟩,
      ⟨read rfl rfl code, fun _ => write rfl nofun rfl code rfl (and_reserved_none (by decide))⟩,
      read (crAssigned_sgA k) (crReadable_descriptor (by omega) (by omega)) (crRead_sgA k),
      read (crAssigned_sgB k) (crReadable_descriptor (by omega) (by omega)) (crRead_sgB k)⟩, fun attic => ?_, fun supervisor => ?_⟩
    · have permitted : decide (2 ≤ pswLvl T.psw) = true := decide_eq_true attic
      exact ⟨read (crAssigned_attic j) ((crReadable_attic (by omega)).trans permitted) (crRead_attic j),
        fun _ => write (crAssigned_attic j) (by omega) ((crWritable_attic (by omega)).trans permitted) (crRead_attic j) (crWrite_attic j)
          (and_reserved_none (by omega))⟩
    · have readable {n : Nat} (number : n < 0x80) := crReadable_supervisor number supervisor
      have writable {n : Nat} (number : n < 0x80) (other : n ≠ 8) := crWritable_supervisor number other supervisor
      refine ⟨fun clear => ?_,
        ⟨read rfl (readable (by decide)) rfl, fun short => write rfl nofun (writable (by decide) nofun) rfl rfl (high short)⟩,
        ⟨read rfl (readable (by decide)) rfl, fun short => write rfl nofun (writable (by decide) nofun) rfl
          (crWrite_ecause short) (and_high_of_lt short)⟩,
        ⟨read rfl (readable (by decide)) rfl, fun _ => write rfl nofun (writable (by decide) nofun) rfl rfl (and_reserved_none (by decide))⟩,
        ⟨read rfl (readable (by decide)) rfl, fun _ => write rfl nofun (writable (by decide) nofun) rfl rfl (and_reserved_none (by decide))⟩,
        ⟨read rfl (readable (by decide)) rfl, fun short => write rfl nofun (writable (by decide) nofun) rfl rfl (high short)⟩,
        ⟨read rfl (readable (by decide)) rsp, fun short => write rfl nofun (writable (by decide) nofun) rsp
          (by rw [← rspCntOf_small short]; rfl) (and_high_of_lt (k := 9) short)⟩,
        ⟨read rfl (readable (by decide)) rfl, fun short => write rfl nofun (writable (by decide) nofun) rfl rfl (high short)⟩,
        fun _ => write (crAssigned_sgA k) (by omega) (writable (by omega) (by omega)) (crRead_sgA k) (crWrite_sgA k) (and_reserved_none (by omega)),
        fun _ => write (crAssigned_sgB k) (by omega) (writable (by omega) (by omega)) (crRead_sgB k) (crWrite_sgB k) (and_reserved_none (by omega)),
        ⟨read (crAssigned_stack j) (readable (by omega)) (crRead_stack j), fun _ => write (crAssigned_stack j) (by omega)
          (writable (by omega) (by omega)) (crRead_stack j) (crWrite_stack j) (and_reserved_none (by omega))⟩⟩
      exact exec_wrcr (n := 0) run unfrozen (by decide) rfl (writable (by decide) nofun) (fun _ => pswLvl_clear clear)
        (and_of_clear clear (by decide)) rfl (by rw [← pswOf_clear clear]; rfl)
  · intro s st t n T b trap run unfrozen
    have trapped (u : State) (same : u.tile st t = T) (c : Byte) (e : W64) : u.takeExc st t c e = trap u c e := by
      subst T
      dsimp only [trap]
      rw [← same]
      split
      next report => exact State.takeExc_none report c e
      next report => exact State.takeExc_some report c e
    have assigned (number : n ≤ 8 ∨ 0x20 ≤ n ∧ n ≤ 0x2F ∨ 0x40 ≤ n ∧ n ≤ 0x4F ∨ 0x80 ≤ n ∧ n ≤ 0x8F) :
        crAssigned n = true :=
      crAssigned_iff.mpr (by omega)
    refine ⟨fun user number => ?_, fun user number => ?_, fun number => ?_, fun small number => ?_⟩
    · rw [← trapped s rfl]
      exact exec_rdcr_refused run unfrozen (by omega) (assigned (by omega)) (user ▸ crReadable_user (by omega))
    · rw [← trapped s.noted rfl]
      exact exec_wrcr_refused run unfrozen (by omega) (assigned (by omega)) (.inl (user ▸ crWritable_user (by omega)))
    · rw [← trapped s.noted rfl]
      refine exec_wrcr_refused run unfrozen (by omega) (assigned (by omega)) ?_
      rcases number with rfl | ⟨low, -, level⟩ | value
      · exact .inl rfl
      · exact .inl ((crWritable_attic low).trans (decide_eq_false (Nat.not_le_of_lt (Nat.lt_succ_of_le level))))
      · exact .inr value
    · have unassigned : crAssigned n = false := Bool.eq_false_of_not_eq_true fun h => absurd (crAssigned_iff.mp h) (by omega)
      rw [← trapped s rfl, ← trapped s.noted rfl]
      exact ⟨exec_rdcr_unassigned run unfrozen small unassigned, exec_wrcr_unassigned run unfrozen small unassigned⟩

end

/-! SUPPORT. Control transfers as commands, and the return of an `eret` (05 R135 to R138, R155, R156, R163). -/

section
namespace Sys2Proof.Machine

variable {s : State} {st : Stn} {t : TileNo} {b : W64} {T U : Tile} {i : Insn} {x : Trig}

/-! ### The line of a target (03 R93) -/

theorem lineOf_target (v : W64) : BitVec.ofNat 8 (nat v 0 16 / 256) = v.extractLsb' 8 8 := by
  refine BitVec.eq_of_toNat_eq ?_
  rw [nat_low, BitVec.toNat_ofNat, BitVec.extractLsb'_toNat, Nat.shiftRight_eq_div_pow]
  omega

theorem target_line (v : W64) (f : Byte) (h : nat v 0 16 / 256 = f.toNat) : v.extractLsb' 8 8 = f := by
  rw [← lineOf_target, h, BitVec.ofNat_toNat, BitVec.setWidth_eq]

theorem Tile.wantLine_there {l : Byte} (there : (T.buf.any (·.line == l)) = true) (needed : Bool) : T.wantLine l needed = T := if_pos there

section
variable {l : Byte} (missing : ¬(T.buf.any (·.line == l)) = true)
include missing

theorem Tile.wantLine_first (fills : T.fills = []) : T.wantLine l true = { T with fills := [l] } := by
  unfold Tile.wantLine
  rw [if_neg missing]
  simp only [fills]

theorem Tile.wantLine_filling {rest : List Byte} (fills : T.fills = l :: rest) : T.wantLine l true = T := by
  unfold Tile.wantLine
  rw [if_neg missing]
  simp only [fills, if_true]

/-- A line that is needed comes next after the fill in progress, unless a delay slot needs it before a line of the target. -/
theorem Tile.wantLine_next {f : Byte} {rest : List Byte} (fills : T.fills = f :: rest) (other : f ≠ l)
    (order : ¬(T.slot ≠ 0 ∧ T.target.map (· / 256) = some f.toNat)) : T.wantLine l true = { T with fills := f :: l :: rest.erase l } := by
  unfold Tile.wantLine
  rw [if_neg missing]
  simp only [fills, if_neg other, if_true, if_neg order]

end

/-- The tile at delay slot 1. -/
def Tile.delayed (T : Tile) : Tile := { T with slot := 1 }

/-- The line of the target is wanted next, whether or not the tile already stands at delay slot 1. -/
theorem Tile.wantTarget_delayed (known : U.target = some (nat U.pendVal 0 16)) (slot : U.slot = 0) :
    U.wantTarget.delayed = U.delayed.wantLine (U.pendVal.extractLsb' 8 8) true := by
  have want : U.wantTarget = U.wantLine (U.pendVal.extractLsb' 8 8) true := by
    unfold Tile.wantTarget
    simp only [known, lineOf_target]
  rw [want]
  by_cases there : (U.buf.any (·.line == U.pendVal.extractLsb' 8 8)) = true
  · rw [Tile.wantLine_there there, Tile.wantLine_there (T := U.delayed) there]
  cases fills : U.fills with
  | nil =>
    rw [Tile.wantLine_first there fills, Tile.wantLine_first (T := U.delayed) there fills]
    rfl
  | cons f rest =>
    by_cases same : f = U.pendVal.extractLsb' 8 8
    · subst same
      rw [Tile.wantLine_filling there fills, Tile.wantLine_filling (T := U.delayed) there fills]
    · have order : ¬U.target.map (· / 256) = some f.toNat := by
        rw [known, Option.map_some, Option.some.injEq]
        exact fun h => same (target_line _ _ h).symm
      rw [Tile.wantLine_next there fills same fun h => h.1 slot, Tile.wantLine_next (T := U.delayed) there fills same fun h => order h.2]
      rfl

/-! ### A transfer that is latched, and one that traps (05 R135, R137) -/

section
variable (run : (s.tile st t).run = .running) (unfrozen : s.haltFrozen st = false) (unit : x.unit ≠ 7)
include run unfrozen unit

/-- A transfer latched at its trigger is followed by delay slot 1. -/
theorem State.transfer_latched (free : (s.tile st t).pkind = .none)
    (fires : fireTrig (Ctx.alone s st t none) x b s = .done (s.setTile st t U)) (flights : U.flights = (s.tile st t).flights)
    (slot : U.slot = 0) (kind : U.pkind ≠ .none) : s.transfer st t x b = s.setTile st t U.wantTarget.delayed := by
  unfold State.transfer
  rw [State.trigger_quiet run unfrozen unit fires (by rw [State.tile_setTile, flights]), State.modTile_def, State.tile_setTile,
    if_pos ⟨slot, kind, free⟩, State.setTile_setTile, Tile.delayed]

/-- A transfer that traps leaves what the entry makes of the tile. -/
theorem State.transfer_fault {c : Byte} {e : W64} (fires : fireTrig (Ctx.alone s st t none) x b s = .fault s c e)
    (kept : (s.tile st t).pkind = .none → ((s.takeExc st t c e).tile st t).pkind = .none) : s.transfer st t x b = s.takeExc st t c e := by
  unfold State.transfer
  rw [State.trigger_fault run unfrozen unit fires, State.modTile_def, if_neg fun ⟨_, latched, free⟩ => latched (kept free), State.setTile_tile]

end

/-! ### An entry latches no transfer (05 R150, R164) -/

theorem State.tileStopped_pkind (s : State) (st : Stn) (t : TileNo) (cause : Byte) (at_ : W16) :
    ((s.tileStopped st t cause at_).tile st t).pkind = (s.tile st t).pkind := by
  rw [State.tileStopped, State.notify_tile, State.setReg_tile, State.modTile_def, State.tile_setTile]

theorem State.atticEntry_pkind {k : Fin 3} {f : Vector W64 16} {lvl vecOff : Nat} {cause : Byte} (free : (s.tile st t).pkind = .none) :
    ((s.atticEntry st t k f lvl vecOff cause).tile st t).pkind = .none := by
  by_cases busy : (s.tile st t).attic[k].inUse = true
  · rw [show s.atticEntry st t k f lvl vecOff cause = s.tileStopped st t cause (s.tile st t).pc from if_pos busy,
      State.tileStopped_pkind, free]
  · rw [State.atticEntry_free (by simpa using busy), State.tile_setTile]
    rfl

theorem State.enter_pkind {e : Exc} (free : (s.tile st t).pkind = .none) : ((s.enter st t e).tile st t).pkind = .none := by
  by_cases high : 2 ≤ pswLvl (s.tile st t).psw
  · rw [State.enter_high high, State.tileStopped_pkind, free]
  have low : pswLvl (s.tile st t).psw < 2 := by omega
  by_cases tv : pswTv (s.tile st t).psw = true
  · by_cases lost : (s.tile st t).tsbp.toNat < 128 ∨ s.frameFails st t (s.tile st t) ((s.tile st t).tsbp - 128) true = true
    · rw [State.enter_unsaved low tv lost, State.atticEntry_pkind free]
    · rw [not_or, Bool.not_eq_true] at lost
      rw [State.enter_saved low tv (by omega) lost.2, State.tile_setTile]
      rfl
  · rw [State.enter_untrusted low (by simpa using tv), State.atticEntry_pkind free]

theorem Tile.raiseReport_pkind (T : Tile) (f : Flight) (idet : W64) : (T.raiseReport f idet).pkind = T.pkind := by
  unfold Tile.raiseReport
  split <;> rfl

theorem Tile.deliver_pkind (T : Tile) (f : Flight) : (T.deliver f).pkind = T.pkind := by
  obtain ⟨unit, op⟩ := f
  cases op with
  | value v ovf =>
    cases ovf with
    | false => cases unit <;> rfl
    | true => cases unit <;> exact Tile.raiseReport_pkind ..
  | mac mode accum k a b fxm =>
    cases unit
    case mac n =>
      simp only [Tile.deliver]
      split
      · rfl
      · exact Tile.raiseReport_pkind ..
    all_goals rfl

theorem Tile.drain_pkind (T : Tile) : T.drain.pkind = T.pkind :=
  List.foldlRecOn (motive := fun U => Tile.pkind U = T.pkind) _ _ rfl fun U h f _ => (U.deliver_pkind f).trans h

theorem State.takeExc_pkind {c : Byte} {e : W64} (free : (s.tile st t).pkind = .none) : ((s.takeExc st t c e).tile st t).pkind = .none := by
  have drained : (s.tile st t).drain.pkind = .none := (Tile.drain_pkind _).trans free
  cases report : (s.tile st t).drain.report with
  | none =>
    rw [State.takeExc_none report]
    exact State.enter_pkind (by rw [State.tile_setTile, drained])
  | some r =>
    rw [State.takeExc_some report, State.takeReport]
    exact State.enter_pkind (by rw [State.modTile_def, State.tile_setTile, State.tile_setTile, drained])

/-! ### The transfers (05 R130, R136 to R138, R155) -/

theorem bits_target (b : W64) : (bits b 0 16).setWidth 64 = BitVec.ofNat 64 (b.toNat % 65536) := by
  refine BitVec.eq_of_toNat_eq ?_
  rw [bits, BitVec.toNat_setWidth, BitVec.extractLsb'_toNat, Nat.shiftRight_zero, BitVec.toNat_ofNat]

/-- The tile with a transfer latched. -/
def Tile.latched (T : Tile) (k : PKind) (pend result : W64) : Tile := { T with pkind := k, pendVal := pend, cuR := result }

/-- The tile at delay slot 1 of a transfer to a known target, whose line comes next. -/
def Tile.toTarget (T : Tile) (k : PKind) (v : W64) : Tile := (T.latched k v v).delayed.wantLine (v.extractLsb' 8 8) true

/-- The tile once `ret` has popped the return stack. -/
def Tile.popped (T : Tile) : Tile := { T with rspPtr := T.rspPtr - 1, rspCnt := if T.rspCnt = 0 then 0 else T.rspCnt - 1 }

section
variable (run : (s.tile st t).run = .running) (unfrozen : s.haltFrozen st = false)
include run unfrozen

section
variable (slot : (s.tile st t).slot = 0)
include slot

omit run unfrozen in
theorem fireTransfer_latches {u : State} (k : PKind) (pend result : W64) :
    fireTransfer (Ctx.alone s st t none) k pend result u = .done (u.setTile st t ((u.tile st t).latched k pend result)) :=
  if_neg (not_not_intro slot)

variable (free : (s.tile st t).pkind = .none)
include free

/-- A transfer to a target known at its trigger. -/
theorem State.transfer_known {k : PKind} {v : W64} (unit : x.unit ≠ 7) (same : T.slot = (s.tile st t).slot)
    (fires : fireTrig (Ctx.alone s st t none) x b s = .done (s.setTile st t (T.latched k v v))) (flights : T.flights = (s.tile st t).flights)
    (known : (T.latched k v v).target = some (nat v 0 16)) (kind : k ≠ .none) :
    s.transfer st t x b = s.setTile st t (T.toTarget k v) := by
  rw [State.transfer_latched run unfrozen unit free fires flights (same.trans slot) kind,
    Tile.wantTarget_delayed (U := T.latched k v v) known (same.trans slot)]
  rfl

theorem exec_jmp : exec (.jmp st t b) s = .next (s.setTile st t ((s.tile st t).toTarget .jmp ((bits b 0 16).setWidth 64))) :=
  congrArg Host.Outcome.next
    (State.transfer_known run unfrozen slot free (by simp [Trig.unit]) rfl (fireTransfer_latches slot ..) rfl rfl nofun)

theorem exec_sys : exec (.sys st t b) s =
    .next (s.setTile st t ((s.tile st t).latched .sys ((bits b 0 16).setWidth 64) 0).delayed) :=
  congrArg Host.Outcome.next
    (State.transfer_latched (U := (s.tile st t).latched .sys ((bits b 0 16).setWidth 64) 0) run unfrozen (by simp [Trig.unit]) free
      (fireTransfer_latches slot ..) rfl slot nofun)

theorem exec_call (room : ¬((s.tile st t).rspCnt = 16 ∧ pswRsov (s.tile st t).psw = true)) : exec (.call st t b) s =
    .next (s.setTile st t ((s.tile st t).toTarget .call ((bits b 0 16).setWidth 64))) :=
  congrArg Host.Outcome.next (State.transfer_known run unfrozen slot free (by simp [Trig.unit]) rfl
    ((if_neg (not_not_intro slot)).trans ((if_neg room).trans (fireTransfer_latches slot ..))) rfl rfl nofun)

theorem exec_ret (held : ¬((s.tile st t).rspCnt = 0 ∧ pswRsov (s.tile st t).psw = true)) : exec (.ret st t) s =
    .next (s.setTile st t ((s.tile st t).popped.toTarget .ret (((s.tile st t).rs[((s.tile st t).rspPtr - 1).toNat]).setWidth 64))) := by
  have fires : fireTrig (Ctx.alone s st t none) .ret 0 s = .done (s.setTile st t
      ((s.tile st t).popped.latched .ret (((s.tile st t).rs[((s.tile st t).rspPtr - 1).toNat]).setWidth 64)
        (((s.tile st t).rs[((s.tile st t).rspPtr - 1).toNat]).setWidth 64))) := by
    refine (if_neg (not_not_intro slot)).trans ((if_neg held).trans
      ((fireTransfer_latches (u := s.setTile st t (s.tile st t).popped) slot ..).trans ?_))
    rw [State.tile_setTile, State.setTile_setTile]
    rfl
  exact congrArg Host.Outcome.next
    (State.transfer_known (T := (s.tile st t).popped) run unfrozen slot free (by simp [Trig.unit]) rfl fires rfl rfl nofun)

theorem exec_eret (rights : pswLvl (s.tile st t).psw ≠ 0)
    (framed : ¬(pswLvl (s.tile st t).psw = 1 ∧
      ((!pswTv (s.tile st t).psw) = true ∨ s.frameFails st t (s.tile st t) (s.tile st t).tsbp false = true))) :
    exec (.eret st t) s = .next (s.setTile st t
      { ((s.tile st t).latched .eret (s.tile st t).tsbp 0).delayed with eretAttic := decide (2 ≤ pswLvl (s.tile st t).psw) }) :=
  congrArg Host.Outcome.next (State.transfer_latched
    (U := { (s.tile st t).latched .eret (s.tile st t).tsbp 0 with eretAttic := decide (2 ≤ pswLvl (s.tile st t).psw) })
    run unfrozen (by simp [Trig.unit]) free ((if_neg (not_not_intro slot)).trans ((if_neg rights).trans (if_neg framed))) rfl slot nofun)

end

/-- A transfer in a delay slot raises cause 0x01. -/
theorem exec_transfer_delayed (slot : (s.tile st t).slot ≠ 0) :
    ∀ c ∈ [Instr.jmp st t b, .call st t b, .ret st t, .sys st t b, .eret st t],
      exec c s = .next (s.takeExc st t 0x01 ((s.tile st t).pc.setWidth 64)) := by
  have traps {x : Trig} {b : W64} (unit : x.unit ≠ 7)
      (fires : fireTrig (Ctx.alone s st t none) x b s = .fault s 0x01 ((s.tile st t).pc.setWidth 64)) :
      s.transfer st t x b = s.takeExc st t 0x01 ((s.tile st t).pc.setWidth 64) :=
    State.transfer_fault run unfrozen unit fires State.takeExc_pkind
  simp only [List.forall_mem_cons]
  exact ⟨congrArg Host.Outcome.next (traps (x := .jmp) (by simp [Trig.unit]) (if_pos slot)),
    congrArg Host.Outcome.next (traps (x := .call) (by simp [Trig.unit]) (if_pos slot)),
    congrArg Host.Outcome.next (traps (x := .ret) (by simp [Trig.unit]) (if_pos slot)),
    congrArg Host.Outcome.next (traps (x := .sys) (by simp [Trig.unit]) (if_pos slot)),
    congrArg Host.Outcome.next (traps (x := .eret) (by simp [Trig.unit]) (if_pos slot)), nofun⟩

theorem exec_call_full (slot : (s.tile st t).slot = 0) (full : (s.tile st t).rspCnt = 16 ∧ pswRsov (s.tile st t).psw = true) :
    exec (.call st t b) s = .next (s.takeExc st t 0x0A 0) :=
  congrArg Host.Outcome.next (State.transfer_fault run unfrozen (by simp [Trig.unit]) ((if_neg (not_not_intro slot)).trans (if_pos full))
    State.takeExc_pkind)

theorem exec_ret_empty (slot : (s.tile st t).slot = 0) (empty : (s.tile st t).rspCnt = 0 ∧ pswRsov (s.tile st t).psw = true) :
    exec (.ret st t) s = .next (s.takeExc st t 0x0A 1) :=
  congrArg Host.Outcome.next (State.transfer_fault run unfrozen (by simp [Trig.unit]) ((if_neg (not_not_intro slot)).trans (if_pos empty))
    State.takeExc_pkind)

end

end Sys2Proof.Machine
end

/-! SUPPORT. What an `eret` restores once its slot 2 has completed (05 R155, R156, R163). -/

section
namespace Sys2Proof.Machine

variable {s : State} {st : Stn} {t : TileNo} {T old : Tile} {i : Insn} {off : Nat}

/-! ### The words of a frame -/

theorem slice_bytes (s : State) (a : Nat) {i n m : Nat} (inside : i + n ≤ m) : slice (s.bytes a m) i n = s.bytes (a + i) n := by
  unfold slice State.bytes
  refine List.map_congr_left fun j hj => ?_
  have hj := List.mem_range.1 hj
  simp [show i + j < m by omega, Nat.add_assoc]

theorem frameOf_readData (s : State) (st : Stn) (t : TileNo) (off : Nat) {j : Nat} (hj : j < 16) :
    (frameOf (s.readData st t off 128))[j] = BitVec.ofNat 64 (s.le (tileData st t (off + 8 * j)) 8) := by
  rw [frameOf, Vector.getElem_ofFn, State.readData, slice_bytes s _ (by simp; omega), leBv, State.le, tileData, tileData, Nat.add_assoc]

/-! ### What is restored (05 R156) -/

/-- A psw of a frame as it is restored: never of recovery or test level. -/
def restoredPsw (old v : W64) : W64 :=
  let p := (v &&& 0xFFFF1DE3) ||| (old &&& 0x10)
  if p.getLsbD 1 then (p &&& 0xFFFFFFFFFFFFFFFC) ||| 1 else p

theorem pswLvl_high (p : W64) : 2 ≤ pswLvl p ↔ p.getLsbD 1 = true := by
  have bit : p.getLsbD 1 = decide (p.toNat / 2 % 2 = 1) := Nat.testBit_eq_decide_div_mod_eq
  rw [pswLvl, nat_low, bit, decide_eq_true_iff]
  omega

theorem put_supervisor (p : W64) : put p 0 2 1 = (p &&& 0xFFFFFFFFFFFFFFFC) ||| 1 := rfl

theorem restoredPsw_eq (old v : W64) :
    (if 2 ≤ pswLvl (pswOf old v) then put (pswOf old v) 0 2 1 else pswOf old v) = restoredPsw old v := by
  rw [put_supervisor, restoredPsw]
  exact if_congr (pswLvl_high _) rfl rfl

theorem pkindOf_eq (n : Nat) : pkindOf (n % 8) = [PKind.none, .jmp, .call, .ret, .sys, .eret, .none, .none].getD (n % 8) .none := by
  have table : ∀ k < 8, pkindOf k = [PKind.none, .jmp, .call, .ret, .sys, .eret, .none, .none].getD k .none := by decide
  exact table _ (Nat.mod_lt _ (by decide))

theorem rspCntOf_toNat (v : W64) : (rspCntOf (v >>> 16)).toNat = min 16 (v.toNat / 2 ^ 20 % 32) := by
  have count : nat (v >>> 16) 4 5 = v.toNat / 2 ^ 20 % 32 := by
    rw [nat_eq_toNat, BitVec.toNat_ushiftRight, Nat.shiftRight_eq_div_pow, Nat.div_div_eq_div_mul]
    rfl
  unfold rspCntOf
  split
  · rw [show min 16 (v.toNat / 2 ^ 20 % 32) = 16 by omega]
    rfl
  · rw [show min 16 (v.toNat / 2 ^ 20 % 32) = v.toNat / 2 ^ 20 % 32 by omega, ← count]
    rfl

/-- The kind of transfer that the XSTATE of a frame names. -/
def frameKind (x : W64) : PKind := [PKind.none, .jmp, .call, .ret, .sys, .eret, .none, .none].getD (x.toNat / 4 % 8) .none

/-- The fields of a tile that the words of a frame give, where the psw was P. -/
def Tile.Restored (U : Tile) (P : W64) (f : Nat → W64) : Prop :=
  let x := f 4
  U.pc = (f 0).extractLsb' 0 16 ∧ U.psw = restoredPsw P (f 1) ∧
  U.pswNext = (if x.getLsbD 5 then some (restoredPsw P (f 6)) else none) ∧
  (x.toNat % 4 ≠ 3 → U.slot.val = x.toNat % 4) ∧ (0 < x.toNat % 4 → x.toNat % 4 < 3 → U.pkind = frameKind x) ∧
  U.pendVal = (if frameKind x = .eret then f 5 else ((f 5).extractLsb' 0 16).setWidth 64) ∧
  U.rip = x.getLsbD 6 ∧ U.repu = x.getLsbD 7 ∧ U.rc = (f 7).extractLsb' 0 16 ∧ U.preds = (f 8).extractLsb' 0 16 ||| 1 ∧
  U.rspPtr = (f 8).extractLsb' 16 4 ∧ U.rspCnt.toNat = min 16 ((f 8).toNat / 2 ^ 20 % 32) ∧ U.lsuR = f 9 ∧
  U.ld1 = (if x.getLsbD 8 then some (f 10) else none) ∧ U.ld2 = (if x.getLsbD 9 then some (f 11) else none) ∧
  U.ld3 = (if x.getLsbD 10 then some (f 12) else none) ∧ U.cuR = f 15

/-- The slot that an XSTATE gives; 0b11 reads as 0. -/
def frameSlot (x : W64) : Fin 3 := if nat x 0 2 = 3 then 0 else Fin.ofNat 3 (nat x 0 2)

theorem frameSlot_val {x : W64} (h : x.toNat % 4 ≠ 3) : (frameSlot x).val = x.toNat % 4 := by
  have low : nat x 0 2 = x.toNat % 4 := nat_low x 2
  rw [frameSlot, low, if_neg h, Fin.val_ofNat]
  omega

/-- What a frame restores does not depend on what becomes of `tsbp` and of the Attic. -/
theorem Tile.restore_restored (T : Tile) (tsbp : W64) (attic : Vector AtticSet 3) {v : Vector W64 16} {f : Nat → W64}
    (words : ∀ j (h : j < 16), v[j] = f j) : ({ T.restore v with tsbp := tsbp, attic := attic } : Tile).Restored T.psw f := by
  have kind : pkindOf (nat (f 4) 2 3) = frameKind (f 4) := by
    rw [nat_eq_toNat]
    exact pkindOf_eq _
  unfold Tile.restore
  simp only [words, kind, restoredPsw_eq]
  refine ⟨rfl, rfl, rfl, fun slot => ?_, fun low high => ?_, rfl, rfl, rfl, rfl, rfl, rfl, rspCntOf_toNat _, rfl, rfl, rfl, rfl, rfl⟩
  · exact frameSlot_val slot
  · have slot : (frameSlot (f 4)).val ≠ 0 := by
      rw [frameSlot_val (by omega)]
      omega
    exact if_neg fun h => slot (congrArg Fin.val h.1)

end Sys2Proof.Machine
end

/-! SUPPORT. The instruction in slot 2 of an `eret`, and the return after it (05 R135, R155, R163). -/

section
namespace Sys2Proof.Machine

variable {s u : State} {st : Stn} {t : TileNo} {T V old : Tile} {i : Insn} {off : Nat}

/-! ### The return (05 R155, R163) -/

/-- The state of a bank of data memory is its power register's and its change's, that of a word its check bits'. -/
theorem State.dataState_congr (reg : u.reg (tileReg st t 0x21C) = s.reg (tileReg st t 0x21C)) (bank : u.bankChange = s.bankChange)
    (ecc : ∀ a, u.upset a = s.upset a) (off n : Nat) : u.dataState st t off n = s.dataState st t off n := by
  have on : u.tileBankOn st t = s.tileBankOn st t := by
    funext k
    simp only [State.tileBankOn, State.fld, State.rbit, reg, bank]
  have upset : u.upset = s.upset := funext ecc
  unfold State.dataState
  rw [on, upset]

/-- The tile restored from the Attic set in use, which it releases. -/
def Tile.fromAttic (T : Tile) : Tile :=
  { T.restore T.attic[T.atticCur].words with attic := T.attic.set T.atticCur { T.attic[T.atticCur] with inUse := false } }

/-- The tile restored from the bytes of the frame at the latched `tsbp`. -/
def Tile.fromFrame (T : Tile) (bs : List Byte) : Tile := { T.restore (frameOf bs) with tsbp := T.pendVal + 128 }

theorem State.eretReturn_attic {at_ : W16} (attic : (s.tile st t).eretAttic = true) :
    s.eretReturn st t at_ = s.setTile st t (s.tile st t).fromAttic := if_pos attic

theorem State.eretReturn_frame {at_ : W16} (attic : (s.tile st t).eretAttic = false)
    (ok : s.dataState st t (s.tile st t).pendVal.toNat 128 = .ok) : s.eretReturn st t at_ =
    (s.countCe st t (s.tile st t).pendVal.toNat 128).setTile st t
      ((s.tile st t).fromFrame (s.readData st t (s.tile st t).pendVal.toNat 128)) := by
  unfold State.eretReturn
  dsimp only
  rw [if_neg (by simp [attic]), ok]
  rfl

theorem Tile.fromAttic_restored (T : Tile) : T.fromAttic.Restored T.psw fun j => T.attic[T.atticCur].words.toList.getD j 0 :=
  T.restore_restored T.tsbp _ fun j h => by simp [h]

theorem Tile.fromFrame_restored (T : Tile) {bs : List Byte} {f : Nat → W64} (words : ∀ j (h : j < 16), (frameOf bs)[j] = f j) :
    (T.fromFrame bs).Restored T.psw f :=
  T.restore_restored (T.pendVal + 128) T.attic words

/-! ### The instruction in slot 2 (05 R135) -/

/-- Only the lines, the operations in flight and the transfer are not those that the instruction left. -/
def Tile.OnlyReturns (T V : Tile) : Prop :=
  V = { T with buf := V.buf, fills := V.fills, flights := V.flights, slot := 0, pkind := .none, prevLine := none }

theorem Tile.OnlyReturns.of_ended {E : Tile} (h : E = { T with buf := E.buf, fills := E.fills, flights := E.flights }) :
    T.OnlyReturns { E with slot := 0, pkind := .none, prevLine := none } := by
  unfold Tile.OnlyReturns
  rw [h]

/-- What a return restores the tile from and leaves as it is. -/
structure Tile.ReturnsFrom (V T : Tile) : Prop where
  psw : V.psw = T.pswNext.getD T.psw
  eretAttic : V.eretAttic = T.eretAttic
  pendVal : V.pendVal = T.pendVal
  tsbp : V.tsbp = T.tsbp
  attic : V.attic = T.attic
  atticCur : V.atticCur = T.atticCur
  q : V.q = T.q
  acc : V.acc = T.acc
  fxm : V.fxm = T.fxm
  ipend : V.ipend = T.ipend
  epc : V.epc = T.epc
  rs : V.rs = T.rs

theorem Tile.OnlyReturns.kept {n : Nat} (only : (T.turn n).OnlyReturns V) : V.ReturnsFrom T := by
  unfold Tile.OnlyReturns at only
  rw [only]
  exact ⟨rfl, rfl, rfl, rfl, rfl, rfl, rfl, rfl, rfl, rfl, rfl, rfl⟩

theorem State.finish_eret (s : State) (st : Stn) (t : TileNo) (i : Insn) (slot : old.slot = 2) (kind : (s.tile st t).pkind = .eret) :
    ∃ V, s.finish st t old i none = ((s.counted st t i).setTile st t V).eretReturn st t old.pc ∧ (s.tile st t).OnlyReturns V := by
  have ended := s.ended_eq st t old i
  have pkind : (s.ended st t old i).pkind = .eret := (congrArg Tile.pkind ended).trans kind
  have back : (decide (old.slot = 2) && (s.ended st t old i).pkind == .eret) = true := by simp [slot, pkind]
  have moved : (s.ended st t old i).advance old (old.pc + BitVec.ofNat 16 i.len) = { s.ended st t old i with slot := 0, pkind := .none } := by
    simp [Tile.advance, slot, pkind]
  have next : { s.nextTile st t old i none with pendVal := (s.ended st t old i).pendVal } =
      { s.ended st t old i with slot := 0, pkind := .none, prevLine := none } := by
    show { (s.ended st t old i).advance old (old.pc + BitVec.ofNat 16 i.len) with
      prevLine := if old.slot = 2 ∧ (s.ended st t old i).pkind ≠ PKind.none then none else some (bits old.pc 8 8)
      pendVal := (s.ended st t old i).pendVal } = _
    rw [moved, if_pos ⟨slot, by simp [pkind]⟩]
  refine ⟨_, ((s.finish_last st t old i (rep := none) (by simp)).trans (if_pos back)).trans
    (congrArg (fun V => ((s.counted st t i).setTile st t V).eretReturn st t old.pc) next), ?_⟩
  refine Tile.OnlyReturns.of_ended (ended.trans ?_)
  rw [show (s.ended st t old i).flights = (s.tile st t).flightsAfter old i from congrArg Tile.flights ended]

/-- What is outside the tile after a return: an instruction is counted, and the corrections in the frame that was read. -/
theorem State.returned_outside (hw : Registers.wf s = true) (n : Nat) (U : Tile) :
    let u := ((s.noted.bump (tileReg st t 0x200) 1).bump (tileReg st t 0x210) n).setTile st t U
    u.tile st t = U ∧ u.reg (tileReg st t 0x200) = s.reg (tileReg st t 0x200) + 1 ∧
      (∀ a, a ≠ tileReg st t 0x200 → a ≠ tileReg st t 0x210 → u.reg a = s.reg a) ∧ (∀ a, u.byte a = s.byte a) ∧
      ∀ x y, (x, y) ≠ (st, t) → u.tile x y = s.tile x y := by
  refine ⟨State.tile_setTile .., ?_, fun a instructions corrections => ?_, fun a => ?_, fun x y h => State.setTile_others _ st t U x y h⟩
  · rw [State.setTile_reg, State.reg_bump_of_ne _ _ _ _ (by simp), State.reg_bump_same (s := s.noted) hw, State.noted_reg]
    rfl
  · rw [State.setTile_reg, State.reg_bump_of_ne _ _ _ _ corrections, State.reg_bump_of_ne _ _ _ _ instructions, State.noted_reg]
  · rw [State.setTile_byte, State.bump_byte, State.bump_byte, State.noted_byte]

section
variable {meet : Meet} (ready : s.Ready st t i) (slot : (s.tile st t).slot = 2) (pkind : (s.tile st t).pkind = .eret)
  (rip : (s.tile st t).rip = false) (conflict : (s.tile st t).conflict = none) (moves : i.moves = []) (rep : i.pre.rep = none)
  (fetch : s.segCheck st (s.tile st t) 6 .fetch false false true anyAlign [((0x20000 + (s.tile st t).pc.toNat : Int), i.len)] = none)
include ready slot pkind rip conflict moves rep fetch

/-- The instruction in slot 2, without moves, leaves its counts and the return. -/
theorem exec_eretReturn : ∃ V : Tile, V.ReturnsFrom (s.tile st t) ∧
    ∀ u, ((s.noted.bump (tileReg st t 0x200) 1).setTile st t V).eretReturn st t (s.tile st t).pc = u → u.undef = false →
      exec (.instruction st t meet) s = .next u := by
  have counted : s.noted.counted st t i = s.noted.bump (tileReg st t 0x200) 1 := State.counted_short (Insn.overPort_none (by simp [moves]))
  have enabled : i.enabled (s.tile st t) = [] := by simp [Insn.enabled_eq, moves]
  have once : (s.tile st t).repeating i = none := by simp [Tile.repeating, rip, rep]
  have due : s.noted.execFault st t i [] = none := State.execFault_none fetch conflict (.inr (Insn.overPort_none (by simp [moves]))) (by simp)
  obtain ⟨vs, runs, -⟩ := State.runMoves_plain (s := s.noted) (st := st) (t := t) (i := i) (ms := []) ready.idle (by simp) (by simp) (by simp)
  have execute := State.execute_once (s := s.noted) once
    (by rw [State.noted_tile, enabled]; exact duplicate_none .nil) (by rw [State.noted_tile, enabled]; exact due)
    (by rw [State.noted_tile, enabled]; exact runs)
  obtain ⟨V, finish, only⟩ := (s.noted.setTile st t ((s.tile st t).turn i.cycles)).finish_eret st t (old := s.tile st t) i slot
    (by rw [State.tile_setTile]; exact pkind)
  rw [State.tile_setTile] at only
  rw [State.counted_setTile, State.setTile_setTile, counted] at finish
  refine ⟨V, Tile.OnlyReturns.kept only, fun u returns undef => exec_instruction_done ready (.inr ?_) (by simp [moves]) ?_ undef⟩
  · simp [Insn.hazard, rep]
  · rw [State.loadCount_none (s := s.noted) ready.decoded rep]
    exact execute.trans (congrArg TOut.done (finish.trans returns))

theorem exec_eretReturn_attic (wf : Registers.wf s = true) (attic : (s.tile st t).eretAttic = true) :
    ∃ V : Tile, V.ReturnsFrom (s.tile st t) ∧ exec (.instruction st t meet) s =
      .next (((s.noted.bump (tileReg st t 0x200) 1).bump (tileReg st t 0x210) 0).setTile st t V.fromAttic) := by
  obtain ⟨V, kept, returns⟩ := exec_eretReturn (meet := meet) ready slot pkind rip conflict moves rep fetch
  refine ⟨V, kept, returns _ ?_ rfl⟩
  have here : ((s.noted.bump (tileReg st t 0x200) 1).setTile st t V).tile st t = V := State.tile_setTile ..
  rw [State.eretReturn_attic (by rw [here]; exact kept.eretAttic.trans attic), here, State.setTile_setTile,
    State.bump_zero (bump_wf (s := s.noted) _ _ wf)]

/-- The return from memory counts the corrections in the words of the frame. -/
theorem exec_eretReturn_frame (attic : (s.tile st t).eretAttic = false)
    (ok : s.dataState st t (s.tile st t).pendVal.toNat 128 = .ok) :
    ∃ (V : Tile) (n : Nat), V.ReturnsFrom (s.tile st t) ∧ exec (.instruction st t meet) s =
      .next (((s.noted.bump (tileReg st t 0x200) 1).bump (tileReg st t 0x210) n).setTile st t
        (V.fromFrame (s.readData st t (s.tile st t).pendVal.toNat 128))) := by
  obtain ⟨V, kept, returns⟩ := exec_eretReturn (meet := meet) ready slot pkind rip conflict moves rep fetch
  set X := (s.noted.bump (tileReg st t 0x200) 1).setTile st t V
  have here : X.tile st t = V := State.tile_setTile ..
  have power : X.reg (tileReg st t 0x21C) = s.reg (tileReg st t 0x21C) := State.reg_bump_of_ne _ _ _ _ (by simp)
  have data : X.readData st t (s.tile st t).pendVal.toNat 128 = s.readData st t (s.tile st t).pendVal.toNat 128 := by
    rw [State.readData, State.setTile_bytes, State.bump_bytes, State.noted_bytes, State.readData]
  refine ⟨V, (wordsOf (s.tile st t).pendVal.toNat 128).countP fun w => X.upset (tileData st t w) == .single, kept, returns _ ?_ rfl⟩
  rw [State.eretReturn_frame (by rw [here]; exact kept.eretAttic.trans attic)
    (by rw [here, kept.pendVal, State.dataState_congr power rfl fun _ => rfl]; exact ok), here, kept.pendVal, data, State.countCe,
    State.bump_setTile, State.setTile_setTile]

end

end Sys2Proof.Machine
end

section
open Sys2Proof Sys2Proof.Machine

/-- Settles O12. A transfer by the tile that its trigger latches, a trap by its cause, and an `eret` by what its return restores. -/
theorem controlTransfers : Obligations.ControlTransfers := by
  unfold Obligations.ControlTransfers
  refine ⟨?_, ?_, ?_⟩
  · intro s st t b T target p popped latched toLine run unfrozen slot free
    have known : (bits b 0 16).setWidth 64 = target := bits_target b
    refine ⟨?_, ?_, fun room => ?_, fun held => exec_ret run unfrozen slot free held,
      fun rights framed => exec_eret run unfrozen slot free rights ?_⟩
    · rw [exec_jmp run unfrozen slot free, known]
      rfl
    · rw [exec_sys run unfrozen slot free, known]
      rfl
    · rw [exec_call run unfrozen slot free room, known]
      rfl
    · rintro ⟨level, fails⟩
      obtain ⟨tv, reads⟩ := framed level
      rcases fails with off | fails
      · simp [T, tv] at off
      · exact absurd (reads.symm.trans fails) (by decide)
  · intro s st t b T trap run unfrozen
    have trapped (c : Byte) (e : W64) : s.takeExc st t c e = trap c e := by
      dsimp only [trap]
      split
      next report => exact State.takeExc_none report c e
      next report => exact State.takeExc_some report c e
    refine ⟨fun slot => ?_, fun slot rsov count => ?_, fun slot rsov count => ?_⟩
    · rw [← trapped]
      exact exec_transfer_delayed run unfrozen slot
    · rw [← trapped]
      exact exec_call_full run unfrozen slot ⟨count, rsov⟩
    · rw [← trapped]
      exact exec_ret_empty run unfrozen slot ⟨count, rsov⟩
  · intro s st t meet i T P restored off run unfrozen idle stopReq testReq report slot pkind rip conflict irq decoded moves rep fetch wf source
    have ready : s.Ready st t i := ⟨run, unfrozen, idle, stopReq, testReq, report, by simp [T, slot], irq, decoded⟩
    by_cases attic : T.eretAttic = true
    · obtain ⟨V, kept, returns⟩ := exec_eretReturn_attic (meet := meet) ready slot pkind rip conflict moves rep fetch wf attic
      obtain ⟨tile, outside⟩ := State.returned_outside (st := st) (t := t) wf 0 V.fromAttic
      refine ⟨_, returns, ?_⟩
      rw [tile]
      have image := V.fromAttic_restored
      have released : V.fromAttic.attic[V.atticCur].inUse = false := by simp [Tile.fromAttic]
      simp only [kept.psw, kept.attic, kept.atticCur] at image released
      exact ⟨fun _ => ⟨image, kept.tsbp, released⟩, fun other => absurd (attic.symm.trans other) (by decide), kept.q, kept.acc,
        kept.fxm, kept.ipend, kept.epc, kept.rs, outside⟩
    · have attic : T.eretAttic = false := by simpa using attic
      obtain ⟨V, n, kept, returns⟩ := exec_eretReturn_frame (meet := meet) ready slot pkind rip conflict moves rep fetch attic
        (source.resolve_left (by simp [attic]))
      obtain ⟨tile, outside⟩ := State.returned_outside (st := st) (t := t) wf n (V.fromFrame (s.readData st t off 128))
      refine ⟨_, returns, ?_⟩
      rw [tile]
      have frame := V.fromFrame_restored fun j hj => frameOf_readData s st t off hj
      rw [kept.psw] at frame
      exact ⟨fun other => absurd (attic.symm.trans other) (by decide), fun _ => ⟨frame, congrArg (· + 128) kept.pendVal, kept.attic⟩, kept.q,
        kept.acc, kept.fxm, kept.ipend, kept.epc, kept.rs, outside⟩

end

/-! SUPPORT. Entries that push a frame, and the bytes at which an instruction cannot be decoded (03 R73, R78, R88; 05 R150 to R153). -/

section
namespace Sys2Proof.Machine

variable {s u : State} {st : Stn} {t : TileNo} {T : Tile} {i : Insn} {off : Nat}

/-! ### The frame in memory (05 R151) -/

theorem slice_append_left {bs cs : List Byte} {n : Nat} (h : bs.length = n) : slice (bs ++ cs) 0 n = bs := by
  refine List.ext_getElem (by simp [slice, h]) fun j hj hb => ?_
  simp [slice, List.getElem?_append_left hb, hb]

theorem slice_append_right (bs cs : List Byte) (i n : Nat) : slice (bs ++ cs) (bs.length + i) n = slice cs i n := by
  unfold slice
  refine List.map_congr_left fun j _ => ?_
  rw [List.getD_append_right _ _ _ _ (by omega), show bs.length + i + j - bs.length = i + j by omega]

/-- Word j of doublewords written one after the other. -/
theorem slice_words : ∀ (ws : List W64) (j : Nat) (h : j < ws.length),
    slice (ws.flatMap fun w => leBytes 8 w.toNat) (8 * j) 8 = leBytes 8 ws[j].toNat
  | w :: ws, 0, _ => slice_append_left (leBytes_length ..)
  | w :: ws, j + 1, h => by
    have step : 8 * (j + 1) = (leBytes 8 w.toNat).length + 8 * j := by
      rw [leBytes_length]
      omega
    rw [List.flatMap_cons, step, slice_append_right, slice_words ws j (by simpa using h)]
    rfl

theorem frameBytes_length (f : Vector W64 16) : (frameBytes f).length = 128 := by
  have words : ((f.toList.map fun w => (leBytes 8 w.toNat).length)).sum = 128 := by
    simp [leBytes_length]
  rw [frameBytes, List.length_flatMap, words]

theorem State.bytes_writeData {bs : List Byte} {i n : Nat} (hw : Memory.wf s = true) (inside : i + n ≤ bs.length) :
    (s.writeData st t off bs).bytes (tileData st t off + i) n = slice bs i n := by
  unfold State.bytes slice
  refine List.map_congr_left fun j hj => ?_
  have hj := List.mem_range.1 hj
  rw [Nat.add_assoc, State.byte_writeData, State.byte_setBytes_inside _ _ _ _ hw (by omega), List.getD_eq_getElem]

/-- A frame that has been written reads back. -/
theorem State.le_frame {f : Vector W64 16} {j : Nat} (hw : Memory.wf s = true) (hj : j < 16) :
    (s.writeData st t off (frameBytes f)).le (tileData st t (off + 8 * j)) 8 = f[j].toNat := by
  have place : tileData st t (off + 8 * j) = tileData st t off + 8 * j := by rw [tileData, tileData, Nat.add_assoc]
  rw [State.le, place, State.bytes_writeData hw (by rw [frameBytes_length]; omega), frameBytes, slice_words _ _ (by simpa using hj),
    leNat_leBytes 8 _ (BitVec.isLt _)]
  simp

/-! ### The entry (05 R150 to R153) -/

/-- The tile's handler is entered with a frame of the tile T pushed: what it finds, the words of the frame, and all else as before. -/
def State.Pushed (s : State) (st : Stn) (t : TileNo) (T : Tile) (ecause efaddr idet : W64) (u : State) : Prop :=
  let at_ := T.tsbp - 128
  let word := fun (j : Nat) => u.le (tileData st t (at_.toNat + 8 * j)) 8
  let U := u.tile st t
  U.pc = T.evec ∧ U.epc = T.pc ∧ U.ecause = ecause ∧ U.efaddr = efaddr ∧ U.tsbp = at_ ∧
  pswLvl U.psw = 1 ∧ pswIe U.psw = false ∧ (∀ i < 64, i ≠ 0 → i ≠ 1 → i ≠ 5 → U.psw.getLsbD i = T.psw.getLsbD i) ∧
  U.ipend = T.ipend ∧ U.q = T.q ∧ U.preds = T.preds ∧ U.acc = T.acc ∧ U.window = none ∧ U.lsuR = 0 ∧ U.report = none ∧
  word 0 = T.pc.toNat ∧ word 1 = T.psw.toNat ∧ word 2 = ecause.toNat ∧ word 3 = efaddr.toNat ∧ word 7 = T.rc.toNat ∧
  word 9 = T.lsuR.toNat ∧ word 13 = T.tsbp.toNat ∧ word 14 = idet.toNat ∧ word 15 = T.cuR.toNat ∧
  (∀ x, x < tileData st t at_.toNat ∨ tileData st t at_.toNat + 128 ≤ x → u.byte x = s.byte x) ∧
  (∀ a, u.reg a = s.reg a) ∧ ∀ x y, (x, y) ≠ (st, t) → u.tile x y = s.tile x y

/-- The handler's psw differs from the interrupted one in LVL and IE alone. -/
theorem handler_psw_bit (p : W64) {lvl i : Nat} (h0 : i ≠ 0) (h1 : i ≠ 1) (h5 : i ≠ 5) :
    (put (put p 0 2 lvl) 5 1 0).getLsbD i = p.getLsbD i := by
  rw [getLsbD_put, if_neg (by omega), getLsbD_put, if_neg (by omega)]

theorem bits_zext (x : W16) : bits (zext 64 x) 0 16 = x := by
  refine BitVec.eq_of_toNat_eq ?_
  rw [bits, zext, BitVec.extractLsb'_toNat, BitVec.toNat_setWidth, Nat.shiftRight_zero]
  omega

theorem toNat_zext (x : W16) : (zext 64 x).toNat = x.toNat := by
  rw [zext, BitVec.toNat_setWidth]
  omega

section
variable (low : pswLvl (s.tile st t).psw < 2) (tv : pswTv (s.tile st t).psw = true) (room : 128 ≤ (s.tile st t).tsbp.toNat)
  (kept : s.frameFails st t (s.tile st t) ((s.tile st t).tsbp - 128) true = false) (hw : Memory.wf s = true)
include low tv room kept hw

/-- An entry at user or supervisor level with TV set and room for the frame pushes it, whether or not a report was pending. -/
theorem State.enter_pushed (x : Exc) : s.Pushed st t (s.tile st t) (ecauseWord x x.cause 0) x.efaddr x.idet
    ((s.setTile st t { s.tile st t with report := none }).enter st t x) := by
  set T : Tile := { s.tile st t with report := none }
  have place : T.tsbp.toNat - 128 = (T.tsbp - 128).toNat := (BitVec.toNat_sub_of_le (y := 128#64) room).symm
  have here : (s.setTile st t T).tile st t = T := State.tile_setTile ..
  set f := T.frame x x.cause 0 x.efaddr
  have entry : (s.setTile st t T).enter st t x = ((s.setTile st t T).writeData st t (T.tsbp - 128).toNat (frameBytes f)).setTile st t
      { T.handler f 1 T.evec with tsbp := T.tsbp - 128 } := by
    rw [State.enter_saved (by rw [here]; exact low) (by rw [here]; exact tv) (by rw [here]; exact room) (by rw [here]; exact kept), here, place]
  have word {j : Nat} (hj : j < 16) : ((s.setTile st t T).enter st t x).le (tileData st t ((T.tsbp - 128).toNat + 8 * j)) 8 = f[j].toNat := by
    rw [entry, State.setTile_le, State.le_frame (s := s.setTile st t T) hw hj]
  unfold State.Pushed
  dsimp only
  rw [show ((s.setTile st t T).enter st t x).tile st t = { T.handler f 1 T.evec with tsbp := T.tsbp - 128 } by rw [entry, State.tile_setTile]]
  refine ⟨rfl, bits_zext _, rfl, rfl, rfl, pswLvl_handler _ (by decide), pswIe_handler _ _, fun i _ h0 h1 h5 => handler_psw_bit _ h0 h1 h5,
    rfl, rfl, rfl, rfl, rfl, rfl, rfl, (word (by decide)).trans (toNat_zext _), word (by decide), word (by decide), word (by decide),
    (word (by decide)).trans (toNat_zext _), word (by decide), word (by decide), word (by decide), word (by decide), fun a outside => ?_,
    fun a => ?_, fun x y h => ?_⟩
  · rw [entry, State.setTile_byte, State.byte_writeData_outside (by rwa [frameBytes_length]), State.setTile_byte]
  · rw [entry, State.setTile_reg, State.writeData_reg, State.setTile_reg]
  · rw [entry, State.setTile_others _ _ _ _ _ _ h, State.writeData_tile, State.setTile_others _ _ _ _ _ _ h]

theorem State.takeReport_pushed (r : Report) :
    s.Pushed st t (s.tile st t) (ecauseWord ⟨0x09, zext 64 r.trig, r.unit, r.imp, r.ilost, r.late, r.idet⟩ 0x09 0) (zext 64 r.trig) r.idet
      (s.takeReport st t r) :=
  State.enter_pushed low tv room kept hw ⟨0x09, zext 64 r.trig, r.unit, r.imp, r.ilost, r.late, r.idet⟩

theorem State.takeExc_pushed (idle : (s.tile st t).flights = []) (report : (s.tile st t).report = none) (c : Byte) (e : W64) :
    s.Pushed st t (s.tile st t) (ecauseWord { cause := c, efaddr := e } c 0) e 0 (s.takeExc st t c e) := by
  have same : { s.tile st t with report := none } = s.tile st t := by rw [← report]
  have pushed := State.enter_pushed low tv room kept hw { cause := c, efaddr := e }
  rw [same, State.setTile_tile] at pushed
  rwa [State.takeExc_quiet idle report]

omit hw in
theorem State.takeExc_saved_reg (idle : (s.tile st t).flights = []) (report : (s.tile st t).report = none) (c : Byte) (e : W64) (a : Nat) :
    (s.takeExc st t c e).reg a = s.reg a := by
  rw [State.takeExc_quiet idle report, State.enter_saved low tv room kept, State.setTile_reg, State.writeData_reg]

end

/-- The frame image of a pending report. -/
def Tile.reportFrame (T : Tile) (r : Report) : Vector W64 16 :=
  T.frame ⟨0x09, zext 64 r.trig, r.unit, r.imp, r.ilost, r.late, r.idet⟩ 0x09 0 (zext 64 r.trig)

/-- With TV clear a report enters recovery level through Attic set 0. -/
theorem State.takeReport_untrusted {r : Report} (low : pswLvl (s.tile st t).psw < 2) (tv : pswTv (s.tile st t).psw = false)
    (free : (s.tile st t).attic[(0 : Fin 3)].inUse = false) : s.takeReport st t r = s.setTile st t
      { ({ s.tile st t with report := none } : Tile).handler ((s.tile st t).reportFrame r) 2 ((s.reg (tileReg st t 0x0C)).setWidth 16) with
        attic := (s.tile st t).attic.set (0 : Fin 3) ⟨true, (s.tile st t).reportFrame r⟩, atticCur := 0 } := by
  have here : (s.setTile st t { s.tile st t with report := none }).tile st t = { s.tile st t with report := none } := State.tile_setTile ..
  rw [State.takeReport, State.modTile_def, State.enter_untrusted (by rw [here]; exact low) (by rw [here]; exact tv),
    State.atticEntry_free (by rw [here]; exact free), here, State.setTile_setTile]
  rfl

/-! ### What cannot be decoded (03 R73, R78, R88) -/

section
variable {fetch : Nat → DRes Byte} {a : Nat} {b c : Byte}

/-- A byte that can begin no instruction. -/
theorem decodeInsn_unassigned (first : fetch a = .ok b) (byte : 0xF6 ≤ b.toNat ∨ (b.toNat < 0xE0 ∧ (0x20 ≤ b.toNat ∨ 8 < b.toNat % 16))) :
    decodeInsn fetch a = .bad 0x02 (BitVec.ofNat 64 a) := by
  have field : nat b 0 4 = b.toNat % 16 := nat_low b 4
  rcases byte with high | ⟨low, head⟩
  · have prefixes : decPrefixes fetch 5 0 {} a = .bad 0x02 (BitVec.ofNat 64 a) := by
      rw [decPrefixes, first]
      exact (if_neg (by omega)).trans (if_pos high)
    rw [decodeInsn, prefixes]
    rfl
  · have prefixes : decPrefixes fetch 5 0 {} a = .ok ({}, a, b) := by
      rw [decPrefixes, first]
      exact if_pos low
    rw [decodeInsn, prefixes]
    exact if_pos (by rw [field]; exact head)

/-- Two prefixes of a condition. -/
theorem decodeInsn_conditions (first : fetch a = .ok b) (second : fetch (a + 1) = .ok c) (hb : 0xE0 ≤ b.toNat ∧ b.toNat < 0xF0)
    (hc : 0xE0 ≤ c.toNat ∧ c.toNat < 0xF0) : decodeInsn fetch a = .bad 0x01 (BitVec.ofNat 64 (a + 1)) := by
  have again (pre : Prefixes) : decPrefixes fetch 4 1 pre (a + 1) = .bad 0x01 (BitVec.ofNat 64 (a + 1)) := by
    rw [decPrefixes, second]
    refine (if_neg (by omega)).trans ((if_neg (by omega)).trans (if_pos ?_))
    rw [if_pos hc.2]
  have prefixes : decPrefixes fetch 5 0 {} a = .bad 0x01 (BitVec.ofNat 64 (a + 1)) := by
    rw [decPrefixes, first]
    refine (if_neg (by omega)).trans ((if_neg (by omega)).trans ?_)
    simp only [if_pos hb.2]
    exact again _
  rw [decodeInsn, prefixes]
  rfl

theorem repAt_other (first : fetch a = .ok b) (byte : b.toNat < 0xF0 ∨ 0xF4 ≤ b.toNat) : repAt fetch a = none := by
  unfold repAt
  rw [first]
  cases fetch (a + 1) <;> simp [byte]

/-- Such a byte begins no repeat. -/
theorem decodedRep_unassigned (first : fetch a = .ok b) (byte : b.toNat < 0xE0 ∨ 0xF6 ≤ b.toNat) : decodedRep fetch a = none := by
  rw [decodedRep, first]
  dsimp only
  rw [if_neg (by omega)]
  exact repAt_other first (by omega)

theorem decodedRep_conditions (first : fetch a = .ok b) (second : fetch (a + 1) = .ok c) (hb : 0xE0 ≤ b.toNat ∧ b.toNat < 0xF0)
    (hc : c.toNat < 0xF0) : decodedRep fetch a = none := by
  rw [decodedRep, first]
  dsimp only
  rw [if_pos hb]
  exact repAt_other second (.inl hc)

end

theorem State.loadCount_of_decodedRep (rep : decodedRep (s.fetchByte st t) (s.tile st t).pc.toNat = none) : s.loadCount st t = s := by
  unfold State.loadCount
  dsimp only
  rw [rep, ite_self]

/-! ### The words of `ecause` (05 R152) -/

/-- An exception other than a report has its cause alone. -/
theorem ecauseWord_cause (c : Byte) (e : W64) : ecauseWord { cause := c, efaddr := e } c 0 = BitVec.ofNat 64 c.toNat := by
  simp [ecauseWord]

theorem irqCause_toNat {k : Nat} (hk : k < 16) : (BitVec.ofNat 8 (0x10 + k)).toNat = 0x10 + k := by
  rw [BitVec.toNat_ofNat]
  omega

theorem Tile.irq_lt {k : Nat} (irq : T.irq = some k) : k < 16 := by
  unfold Tile.irq at irq
  split at irq
  · exact List.mem_range.1 (List.mem_of_find?_eq_some irq)
  · cases irq

theorem ecauseWord_report (r : Report) : ecauseWord ⟨0x09, zext 64 r.trig, r.unit, r.imp, r.ilost, r.late, r.idet⟩ 0x09 0 =
    BitVec.ofNat 64 (r.late % 32 * 2 ^ 22 + r.ilost.toNat * 2 ^ 21 + r.imp.toNat * 2 ^ 20 + r.unit.toNat * 2 ^ 16 + 9) := by
  simp [ecauseWord]

/-! ### The entries as commands -/

theorem exec_interruptEntry (irq : (s.tile st t).irq.isSome = true) (boundary : s.noted.boundary st t = u) (undef : u.undef = false) :
    exec (.interruptEntry st t) s = .next u := by
  have entry : s.noted.irqEntry st t = u := (if_pos irq).trans boundary
  show (s.noted.irqEntry st t).out = _
  rw [entry, State.out, undef]
  rfl

theorem exec_arithReport {r : Report} (here : s.AtBoundary st t) (stopReq : (s.tile st t).stopReq = false)
    (testReq : (s.tile st t).testReq = false) (report : (s.tile st t).report = some r) :
    exec (.arithReport st t) s = .next (s.takeReport st t r) :=
  congrArg Host.Outcome.next ((if_pos (by rw [report]; rfl)).trans (State.boundary_report here stopReq testReq report))

section
variable (here : s.AtBoundary st t) (stopReq : (s.tile st t).stopReq = false) (testReq : (s.tile st t).testReq = false)
  (report : (s.tile st t).report = none) (slot : (s.tile st t).slot = 0) (pkind : (s.tile st t).pkind = .none)
include here stopReq testReq report slot pkind

/-- An instruction that cannot be decoded is not counted, so the outside port meets none of it. -/
theorem exec_instruction_bad {meet : Meet} {c : Byte} {e : W64}
    (decoded : decodeInsn (s.fetchByte st t) (s.tile st t).pc.toNat = .bad c e)
    (rep : decodedRep (s.fetchByte st t) (s.tile st t).pc.toNat = none)
    (regs : ∀ a, (s.noted.takeExc st t c e).reg a = s.reg a) : exec (.instruction st t meet) s = .next (s.noted.takeExc st t c e) := by
  have boundary : s.noted.boundary st t = s.noted.takeExc st t c e := by
    rw [State.boundary_bad (s := s.noted) ⟨here.run, here.unfrozen, here.idle⟩ stopReq testReq report slot pkind decoded,
      State.loadCount_of_decodedRep (s := s.noted) rep]
  show (s.noted.issue st t meet).out = _
  rw [State.issue_uncounted (by rw [boundary, regs]; rfl), boundary, State.out, State.takeExc_undef]
  rfl

variable {k : Nat} (waiting : (s.tile st t).waiting = false) (irq : (s.tile st t).irq = some k)
include waiting irq

theorem exec_interruptEntry_need {l : Byte} (decoded : decodeInsn (s.fetchByte st t) (s.tile st t).pc.toNat = .need l) :
    exec (.interruptEntry st t) s = .next (s.noted.takeExc st t (BitVec.ofNat 8 (0x10 + k)) 0) :=
  exec_interruptEntry (by rw [irq]; rfl)
    (State.boundary_need (s := s.noted) ⟨here.run, here.unfrozen, here.idle⟩ stopReq testReq report slot pkind decoded waiting irq)
    (State.takeExc_undef ..)

/-- An instruction that would complete is abandoned. -/
theorem exec_interruptEntry_ok (plain : s.noted.Plain st t i) (decoded : decodeInsn (s.fetchByte st t) (s.tile st t).pc.toNat = .ok i)
    (rep : i.pre.rep = none) (rip : (s.tile st t).rip = false) :
    exec (.interruptEntry st t) s = .next (s.noted.takeExc st t (BitVec.ofNat 8 (0x10 + k)) 0) := by
  have once : (s.noted.tile st t).repeating i = none := by simp [Tile.repeating, rip, rep]
  have load : s.noted.loadCount st t = s.noted := State.loadCount_none (s := s.noted) decoded rep
  obtain ⟨vs, U, execute, -⟩ := plain.movesOn (count := none) (by rw [once]; rfl) (by simp) (by simp [slot])
  have boundary := State.boundary_irq (s := s.noted) ⟨here.run, here.unfrozen, here.idle⟩ stopReq testReq report slot pkind decoded rep
    (by rw [load]; exact execute) waiting irq
  rw [load] at boundary
  exact exec_interruptEntry (by rw [irq]; rfl) boundary (State.takeExc_undef ..)

end

end Sys2Proof.Machine
end

section
open Sys2Proof Sys2Proof.Machine

/-- Settles O16. Each entry by the exception that the boundary takes, and the frame that it pushes or the Attic set that it fills. -/
theorem boundaryEntries : Obligations.BoundaryEntries := by
  unfold Obligations.BoundaryEntries
  constructor
  · intro s st t T at_ word pushed run unfrozen idle stopReq testReq low tv room kept mem regs
    have here : s.AtBoundary st t := ⟨run, unfrozen, idle⟩
    have saved := State.takeExc_saved_reg (s := s.noted) low tv room kept idle
    refine ⟨fun report slot pkind => ⟨fun k waiting irq => ⟨fun l need => ?_, fun i m r decoded moves src dst rep rip conflict fetch => ?_⟩,
      fun meet b c first => ⟨fun byte => ?_, fun lowB highB second lowC highC => ?_⟩⟩, fun r report => ?_⟩
    · have entry := State.takeExc_pushed (s := s.noted) low tv room kept mem idle report (BitVec.ofNat 8 (0x10 + k)) 0
      rw [ecauseWord_cause, irqCause_toNat (Tile.irq_lt irq)] at entry
      exact ⟨_, exec_interruptEntry_need here stopReq testReq report slot pkind waiting irq need, entry⟩
    · have entry := State.takeExc_pushed (s := s.noted) low tv room kept mem idle report (BitVec.ofNat 8 (0x10 + k)) 0
      rw [ecauseWord_cause, irqCause_toNat (Tile.irq_lt irq)] at entry
      have plain : s.noted.Plain st t i :=
        State.Plain.of_moves (s := s.noted) idle conflict (.inr (Insn.overPort_none (by simp [moves]))) fetch decoded
          (by simp [moves, Move.plain_iff, src, dst, Source.plain, Dest.plain])
          (by
            rw [moves]
            exact (List.pairwise_singleton ..).filter _)
      exact ⟨_, exec_interruptEntry_ok here stopReq testReq report slot pkind waiting irq plain decoded rep rip, entry⟩
    · have entry := State.takeExc_pushed (s := s.noted) low tv room kept mem idle report 0x02 (BitVec.ofNat 64 T.pc.toNat)
      have pc : BitVec.ofNat 64 T.pc.toNat = T.pc.setWidth 64 := BitVec.ofNat_toNat ..
      have decoded := decodeInsn_unassigned first byte
      have none := decodedRep_unassigned first (by omega)
      rw [ecauseWord_cause, pc] at entry
      rw [pc] at decoded
      exact ⟨_, exec_instruction_bad here stopReq testReq report slot pkind decoded none (saved report _ _), entry⟩
    · have entry := State.takeExc_pushed (s := s.noted) low tv room kept mem idle report 0x01 (BitVec.ofNat 64 (T.pc.toNat + 1))
      rw [ecauseWord_cause] at entry
      exact ⟨_, exec_instruction_bad here stopReq testReq report slot pkind (decodeInsn_conditions first second ⟨lowB, highB⟩ ⟨lowC, highC⟩)
        (decodedRep_conditions first second ⟨lowB, highB⟩ highC) (saved report _ _), entry⟩
    · have entry := State.takeReport_pushed low tv room kept mem r
      rw [ecauseWord_report] at entry
      exact ⟨_, exec_arithReport here stopReq testReq report, entry⟩
  · intro s st t r T run unfrozen idle stopReq testReq report low tv free
    refine ⟨_, exec_arithReport ⟨run, unfrozen, idle⟩ stopReq testReq report, ?_⟩
    rw [State.takeReport_untrusted low tv free, State.tile_setTile]
    exact ⟨rfl, rfl, bits_zext _, pswLvl_handler _ (by decide), pswIe_handler _ _, ecauseWord_report r, rfl, by simp, rfl, rfl, rfl, rfl,
      fun x y h => State.setTile_others _ st t _ x y h⟩

end

/-! SUPPORT. A tile's start: the request, the self-test's end and what follows from it, and the state in which a tile starts
(01 R13, R18, R19; 05 R165, R166; 07 R213). -/

section
namespace Sys2Proof.Machine

variable {s : State} {st : Stn} {t : TileNo}

/-! ### The request (05 R165) -/

theorem exec_tileStart (stopped : (s.tile st t).run ≠ .running) (untested : (s.tile st t).run ≠ .selfTest) (fitted : s.fitted st = true) :
    exec (.tileStart st t) s = .next (s.setTile st t { s.tile st t with run := .selfTest }) :=
  congrArg Host.Outcome.next (if_pos ⟨fitted, by simp [Tile.isStopped, stopped, untested]⟩)

theorem exec_tileStart_ignored (h : (s.tile st t).run = .running ∨ (s.tile st t).run = .selfTest ∨ s.fitted st = false) :
    exec (.tileStart st t) s = .next s := by
  refine congrArg Host.Outcome.next (if_neg ?_)
  rintro ⟨fitted, stopped⟩
  rcases h with running | testing | unfitted
  · simp [Tile.isStopped, running] at stopped
  · simp [Tile.isStopped, testing] at stopped
  · exact absurd (unfitted.symm.trans fitted) (by decide)

/-! ### The results of a self-test (01 R13, R31, R32) -/

theorem toNat_decide (p : Prop) [Decidable p] : (decide p).toNat = if p then 1 else 0 := by
  by_cases h : p <;> simp [h]

theorem State.recordTest_of_passes {c k : Nat} {b : Bool} (h : (s.physAt st c k).passes = b) : s.recordTest st c k true =
    ((s.setFld (aCol st c) k 1 b.toNat).setFld (aCol st c) (12 + k) 1 (if (s.physAt st c k).alu = 1 then 1 else 0)).setFld
      (aCol st c) (6 + k) 1 (if (s.physAt st c k).mac = 1 then 1 else 0) := by
  rw [State.recordTest, h, Bool.and_true, toNat_decide, toNat_decide]

theorem State.reg_recordTest_of_ne (c k : Nat) (serves : Bool) {a : Nat} (h : a ≠ aCol st c) : (s.recordTest st c k serves).reg a = s.reg a := by
  rw [State.recordTest, State.reg_setFld_of_ne _ _ _ _ _ _ h, State.reg_setFld_of_ne _ _ _ _ _ _ h, State.reg_setFld_of_ne _ _ _ _ _ _ h]

@[simp] theorem State.recordTest_stn (s : State) (st : Stn) (c k : Nat) (serves : Bool) (x : Stn) :
    (s.recordTest st c k serves).stn x = s.stn x := by
  rw [State.recordTest, State.setFld_stn, State.setFld_stn, State.setFld_stn]

@[simp] theorem State.recordTest_tile (s : State) (st : Stn) (c k : Nat) (serves : Bool) (x : Stn) (y : TileNo) :
    (s.recordTest st c k serves).tile x y = s.tile x y := by
  rw [State.recordTest, State.setFld_tile, State.setFld_tile, State.setFld_tile]

theorem aNetStat_ne_aCol {c : Nat} (h : c < 8) : aNetStat st ≠ aCol st c := by
  rw [aNetStat, aCol, Ne, stnReg_inj]
  omega

/-- Outside a freeze no repair begins. -/
theorem State.beginRepair_thawed (h : (s.stn st).frozen = false) : s.beginRepair st = s := by
  simp [State.beginRepair, h]

/-! ### The end of the self-test (01 R13, R18; 05 R165) -/

/-- The self-test's end recorded in the column map. -/
def State.tested (s : State) (st : Stn) (t : TileNo) : State := s.recordTest st (t.val / 5) (s.position st t) true

@[simp] theorem State.tested_tile (s : State) (st : Stn) (t : TileNo) (x : Stn) (y : TileNo) : (s.tested st t).tile x y = s.tile x y :=
  State.recordTest_tile ..

@[simp] theorem State.tested_stn (s : State) (st : Stn) (t : TileNo) (x : Stn) : (s.tested st t).stn x = s.stn x := State.recordTest_stn ..

theorem State.reg_tested_of_ne {a : Nat} (h : a ≠ aCol st (t.val / 5)) : (s.tested st t).reg a = s.reg a := State.reg_recordTest_of_ne _ _ _ h

/-- WHY does not change with the column map. -/
theorem State.why_tested (s : State) (st : Stn) (t : TileNo) : (s.tested st t).reg (aNetStat st) = s.reg (aNetStat st) :=
  State.reg_tested_of_ne (aNetStat_ne_aCol (by omega))

/-- The position that serves a tile, as a repair names it. -/
def State.repairOf (s : State) (st : Stn) (t : TileNo) : Fin 8 × Fin 6 := (Fin.ofNat 8 (t.val / 5), Fin.ofNat 6 (s.position st t))

/-- A tile whose self-test failed, with its notice. -/
def State.testFailed (s : State) (st : Stn) (t : TileNo) : State :=
  ((s.tested st t).setTile st t { s.tile st t with run := .selfTestFailed }).notify (.selfTestFailed st t)

@[simp] theorem State.testFailed_stn (s : State) (st : Stn) (t : TileNo) (x : Stn) : (s.testFailed st t).stn x = s.stn x := by
  rw [State.testFailed, State.notify_stn, State.setTile_stn, State.tested_stn]

theorem State.why_testFailed (s : State) (st : Stn) (t : TileNo) : (s.testFailed st t).reg (aNetStat st) = s.reg (aNetStat st) := by
  rw [State.testFailed, State.notify_reg, State.setTile_reg, State.why_tested]

section
variable (run : (s.tile st t).run = .selfTest)
include run

section
variable (fails : (s.physAt st (t.val / 5) (s.position st t)).passes = false)
include fails

theorem State.tileSelfTestEnd_failed : s.tileSelfTestEnd st t =
    if (s.stn st).run = .running then (s.testFailed st t).askRepair st (s.repairOf st t) else s.testFailed st t := by
  unfold State.tileSelfTestEnd
  rw [if_neg (not_not_intro run)]
  dsimp only
  rw [if_pos (refused_of fails), ← State.tested, State.modTile_def, State.tested_tile, ← State.testFailed, State.testFailed_stn,
    ← State.repairOf]

theorem exec_selfTestEnd_idle (stopped : (s.stn st).run ≠ .running) :
    exec (.tileSelfTestEnd st t) s = .next ((s.testFailed st t).hallReact s) := by
  show Host.Outcome.next ((s.tileSelfTestEnd st t).hallReact s) = _
  rw [State.tileSelfTestEnd_failed run fails, if_neg stopped]

section
variable (running : (s.stn st).run = .running) (free : (s.stn st).repairNow = none)
include running free

/-- In a running station the repair becomes due, and begins where a freeze allows it. -/
theorem State.tileSelfTestEnd_due : s.tileSelfTestEnd st t = ((s.testFailed st t).setStn st
    { s.stn st with repairs := addRepair (s.repairOf st t) (s.stn st).repairs }).beginRepair st := by
  rw [State.tileSelfTestEnd_failed run fails, if_pos running]
  unfold State.askRepair
  rw [if_neg (by rw [State.testFailed_stn, free]; simp), State.modStn, State.testFailed_stn]

theorem exec_selfTestEnd_due (waits : (s.stn st).frozen = false ∨ (s.reg (aNetStat st)).getLsbD 29 = true) :
    exec (.tileSelfTestEnd st t) s = .next (((s.testFailed st t).setStn st
      { s.stn st with repairs := addRepair (s.repairOf st t) (s.stn st).repairs }).hallReact s) := by
  show Host.Outcome.next ((s.tileSelfTestEnd st t).hallReact s) = _
  rw [State.tileSelfTestEnd_due run fails running free]
  rcases waits with thawed | begun
  · rw [State.beginRepair_thawed (by rw [State.stn_setStn]; exact thawed)]
  · rw [State.beginRepair_begun (by rw [State.rbit, State.setStn_reg, State.why_testFailed]; exact begun)]

/-- A freeze that has had no repair carries it out at once (log entry 33). -/
theorem exec_selfTestEnd_begins (first : (s.stn st).repairs = []) (frozen : (s.stn st).frozen = true)
    (unbegun : (s.reg (aNetStat st)).getLsbD 29 = false) : exec (.tileSelfTestEnd st t) s = .next ((((s.testFailed st t).setStn st
      { s.stn st with repairNow := some (s.repairOf st t), closed := (s.repairOf st t).1 :: (s.stn st).closed }).setFld
        (aNetStat st) 29 1 1).hallReact s) := by
  have why : ((s.testFailed st t).setStn st { s.stn st with repairs := addRepair (s.repairOf st t) (s.stn st).repairs }).rbit
      (aNetStat st) 29 = false := by
    rw [State.rbit, State.setStn_reg, State.why_testFailed]
    exact unbegun
  show Host.Outcome.next ((s.tileSelfTestEnd st t).hallReact s) = _
  rw [State.tileSelfTestEnd_due run fails running free, State.beginRepair_first (rest := []) (by rw [State.stn_setStn]; exact frozen) why
    (by rw [State.stn_setStn, first]; rfl), State.stn_setStn, State.setStn_setStn, ← first]
  rfl

end

end

section
variable (passes : (s.physAt st (t.val / 5) (s.position st t)).passes = true)
include passes

theorem State.tileSelfTestEnd_passed : s.tileSelfTestEnd st t = if !(s.tested st t).imageOk st t then
    ((s.tested st t).modTile st t fun T => { T with run := .imageFailed }).notify (.imageFailed st t)
    else (s.tested st t).startTile st t := by
  unfold State.tileSelfTestEnd
  rw [if_neg (not_not_intro run)]
  dsimp only
  rw [if_neg (not_refused passes), ← State.tested]

theorem exec_selfTestEnd_badImage (image : (s.tested st t).imageOk st t = false) : exec (.tileSelfTestEnd st t) s =
    .next ((((s.tested st t).setTile st t { s.tile st t with run := .imageFailed }).notify (.imageFailed st t)).hallReact s) := by
  have ends : s.tileSelfTestEnd st t =
      ((s.tested st t).setTile st t { s.tile st t with run := .imageFailed }).notify (.imageFailed st t) := by
    rw [State.tileSelfTestEnd_passed run passes, image, State.modTile_def, State.tested_tile]
    rfl
  show Host.Outcome.next ((s.tileSelfTestEnd st t).hallReact s) = _
  rw [ends]

theorem exec_selfTestEnd_starts (image : (s.tested st t).imageOk st t = true) :
    exec (.tileSelfTestEnd st t) s = .next (((s.tested st t).startTile st t).hallReact s) := by
  have ends : s.tileSelfTestEnd st t = (s.tested st t).startTile st t := by
    rw [State.tileSelfTestEnd_passed run passes, image]
    rfl
  show Host.Outcome.next ((s.tileSelfTestEnd st t).hallReact s) = _
  rw [ends]

end

end

end Sys2Proof.Machine
end

/-! SUPPORT. The counters and the tile at a start (02 R68; 05 R166; 08 R252). -/

section
namespace Sys2Proof.Machine

variable {s : State} {st : Stn} {t : TileNo}

theorem PhysTile.passes_iff {p : PhysTile} : p.passes = true ↔ p.alu < 2 ∧ p.mac < 2 ∧ p.unspared = false := by
  simp only [PhysTile.passes, Bool.and_eq_true, decide_eq_true_eq, Bool.not_eq_true', and_assoc]

theorem tileReg_ne_aCol (o c : Nat) (ho : o < 0x10000) : tileReg st t o ≠ aCol st c := by
  have := t.isLt
  unfold tileReg tileBase aCol stnReg
  omega

/-- The counters that a start clears. -/
def startCounters : List Nat := [0x200, 0x204, 0x208, 0x20C, 0x210, 0x214]

theorem State.reg_zeroed (hw : Registers.wf s = true) (l : List Nat) {o : Nat} (ho : o ∈ l) :
    (l.foldl (fun s o => s.setReg (tileReg st t o) 0) s).reg (tileReg st t o) = 0 := by
  induction l using List.reverseRecOn with
  | nil => cases ho
  | append_singleton l x ih =>
    have wf : Registers.wf (l.foldl (fun s o => s.setReg (tileReg st t o) 0) s) = true :=
      List.foldlRecOn (motive := fun u => Registers.wf u = true) _ _ hw fun _ h _ _ => setReg_wf _ _ _ h
    rw [List.foldl_append, List.foldl_cons, List.foldl_nil]
    by_cases same : o = x
    · rw [same, State.reg_setReg_same _ _ _ wf]
    · rw [State.reg_setReg_of_ne _ _ _ _ (by simpa using same)]
      exact ih (by simpa [same] using ho)

theorem State.reg_clearCounters_of_ne {a : Nat} (h : ∀ o ∈ startCounters, a ≠ tileReg st t o) :
    (s.clearCounters st t).reg a = s.reg a :=
  List.foldlRecOn (motive := fun u => State.reg u a = s.reg a) _ _ rfl fun _ k o ho =>
    (State.reg_setReg_of_ne _ _ _ _ (h o ho)).trans k

theorem State.zeroed_only (l : List Nat) (s : State) : l.foldl (fun s o => s.setReg (tileReg st t o) 0) s =
    { s with regs := (l.foldl (fun s o => s.setReg (tileReg st t o) 0) s).regs } := by
  induction l generalizing s with
  | nil => rfl
  | cons o l ih =>
    rw [List.foldl_cons]
    exact onlyRegs_trans (ih _) rfl

/-- Clearing the counters changes registers alone. -/
theorem State.clearCounters_only (s : State) (st : Stn) (t : TileNo) : s.clearCounters st t = { s with regs := (s.clearCounters st t).regs } :=
  State.zeroed_only startCounters s

theorem State.tested_byte (s : State) (st : Stn) (t : TileNo) (a : Nat) : (s.tested st t).byte a = s.byte a := by
  rw [State.tested, State.recordTest, State.setFld_byte, State.setFld_byte, State.setFld_byte]

theorem State.tested_stns (s : State) (st : Stn) (t : TileNo) : (s.tested st t).stns = s.stns := by
  rw [State.tested, State.recordTest, State.setFld_stns, State.setFld_stns, State.setFld_stns]

theorem State.worldBit_tested (s : State) (st : Stn) (t : TileNo) : (s.tested st t).worldBit st t = s.worldBit st t := by
  have apart : stnReg st (if t.val < 32 then 0x140 else 0x144) ≠ aCol st (t.val / 5) := by
    rw [aCol, Ne, stnReg_inj]
    split <;> omega
  rw [State.worldBit, State.worldBit, State.rbit, State.rbit, State.reg_tested_of_ne apart]

/-- The tile as it starts: fresh, with its network unit restarted. -/
def State.startedTile (s : State) (st : Stn) (t : TileNo) : Tile :=
  { s.freshTile st t with nu := (s.freshTile st t).nu.restart (s.stn st).cycle }

theorem State.startedTile_lastCause (s : State) (st : Stn) (t : TileNo) : (s.startedTile st t).lastCause = (s.tile st t).lastCause := by
  simp only [State.startedTile, State.freshTile]

theorem State.startedTile_runs (s : State) (st : Stn) (t : TileNo) : (s.startedTile st t).runs = (s.tile st t).runs + 1 := by
  simp only [State.startedTile, State.freshTile]

theorem State.startedTile_attic (n : Fin 3) : (s.startedTile st t).attic[n].inUse = false := by
  simp [State.startedTile, State.freshTile]

section
variable {w : Bool} (world : s.worldBit st t = w)
include world

theorem State.startedTile_psw : (s.startedTile st t).psw = if w then 0x1C11 else 0x1C01 := by
  rw [← world]
  rfl

/-- Segment 0 holds data memory, in the tile's world. -/
theorem State.startedTile_data : (s.startedTile st t).sgA[(0 : Fin 8)] = if w then 0x9580000000000000 else 0x8580000000000000 := by
  subst world
  show (0x8580000000000000 : W64) ||| (if s.worldBit st t then (0x1000000000000000 : W64) else 0) = _
  split <;> rfl

/-- Segment 6 holds instruction memory, in the tile's world. -/
theorem State.startedTile_code : (s.startedTile st t).sgA[(6 : Fin 8)] = if w then 0x9600000000020000 else 0x8600000000020000 := by
  subst world
  show (0x8600000000020000 : W64) ||| (if s.worldBit st t then (0x1000000000000000 : W64) else 0) = _
  split <;> rfl

end

/-- The other segments are empty. -/
theorem State.startedTile_unused : ∀ n : Fin 8, n ≠ 0 → n ≠ 6 → (s.startedTile st t).sgA[n] = 0 ∧ (s.startedTile st t).sgB[n] = 0
  | 0, zero, _ => absurd rfl zero
  | 6, _, six => absurd rfl six
  | 1, _, _ => ⟨rfl, rfl⟩
  | 2, _, _ => ⟨rfl, rfl⟩
  | 3, _, _ => ⟨rfl, rfl⟩
  | 4, _, _ => ⟨rfl, rfl⟩
  | 5, _, _ => ⟨rfl, rfl⟩
  | 7, _, _ => ⟨rfl, rfl⟩

/-- What a start leaves outside the tile: its counters at zero. -/
theorem State.startTile_outside (hw : Registers.wf s = true) :
    let u := s.startTile st t
    u.tile st t = s.startedTile st t ∧ (∀ o ∈ startCounters, u.reg (tileReg st t o) = 0) ∧
      (∀ a, (∀ o ∈ startCounters, a ≠ tileReg st t o) → u.reg a = s.reg a) ∧ (∀ a, u.byte a = s.byte a) ∧ u.stns = s.stns ∧
      ∀ x y, (x, y) ≠ (st, t) → u.tile x y = s.tile x y := by
  have only := (s.setTile st t (s.startedTile st t)).clearCounters_only st t
  have start : s.startTile st t = ((s.setTile st t (s.startedTile st t)).clearCounters st t).useFree 128 := rfl
  have tiles (x : Stn) (y : TileNo) : (s.startTile st t).tile x y = (s.setTile st t (s.startedTile st t)).tile x y := by
    rw [start, only]
    rfl
  refine ⟨(tiles st t).trans (State.tile_setTile ..), fun o ho => ?_, fun a ha => ?_, fun a => ?_, ?_, fun x y h => ?_⟩
  · rw [start, State.useFree_reg]
    exact State.reg_zeroed (s := s.setTile st t (s.startedTile st t)) hw _ ho
  · rw [start, State.useFree_reg, State.reg_clearCounters_of_ne ha, State.setTile_reg]
  · rw [start, only]
    rfl
  · rw [start, only]
    rfl
  · rw [tiles, State.setTile_others _ _ _ _ _ _ h]

end Sys2Proof.Machine
end

section
open Sys2Proof Sys2Proof.Machine

/-- Settles O21. The request; the self-test's end by its results, the station and the image; and the fresh tile field by field. -/
theorem tileStarts : Obligations.TileStarts := by
  unfold Obligations.TileStarts
  constructor
  · intro s st t T S c k p col passes noted failed due
    have recorded {b : Bool} {n : Nat} (h : p.passes = b) (number : b.toNat = n) : s.tested st t = noted n := by
      subst number
      exact State.recordTest_of_passes h
    have failure (fails : ¬passes) : p.passes = false := Bool.eq_false_of_not_eq_true (mt PhysTile.passes_iff.mp fails)
    have ends (fails : ¬passes) : s.testFailed st t = failed := by
      rw [State.testFailed, recorded (failure fails) rfl]
      rfl
    refine ⟨exec_tileStart, exec_tileStart_ignored, fun run fails => ⟨fun stopped => ?_, fun running free waits => ?_,
      fun running free first frozen unbegun => ?_⟩, fun run passes image => ?_⟩
    · rw [exec_selfTestEnd_idle run (failure fails) stopped, ends fails]
    · rw [exec_selfTestEnd_due run (failure fails) running free waits, ends fails]
      rfl
    · rw [exec_selfTestEnd_begins run (failure fails) running free first frozen unbegun, ends fails]
      rfl
    · have success : p.passes = true := PhysTile.passes_iff.mpr passes
      have results : s.tested st t = noted 1 := recorded success rfl
      rw [exec_selfTestEnd_badImage run success (by rw [results]; exact image), results]
  · intro s st t T c k w run passes image hw
    obtain ⟨-, wf, -⟩ := State.recordTest_spec (st := st) (c := c) hw k true
    obtain ⟨tile, counters, regs, bytes, stns, tiles⟩ := State.startTile_outside (s := s.tested st t) (st := st) (t := t) wf
    have world : (s.tested st t).worldBit st t = w := State.worldBit_tested s st t
    have start : (s.tested st t).reg (tileReg st t 0x08) = s.reg (tileReg st t 0x08) := State.reg_tested_of_ne (tileReg_ne_aCol _ _ (by decide))
    refine ⟨_, exec_selfTestEnd_starts run passes image, ?_⟩
    rw [tile]
    refine ⟨rfl, congrArg (bits · 0 16) start, State.startedTile_psw world, rfl, rfl, rfl, rfl, rfl, rfl, rfl, rfl, rfl, rfl, rfl,
      rfl, rfl, rfl, rfl, rfl, rfl, rfl, rfl, rfl, rfl, rfl, rfl, rfl, rfl, rfl, rfl, rfl, rfl, State.startedTile_attic,
      ?_, ?_,
      State.startedTile_data world, rfl, State.startedTile_code world, rfl, State.startedTile_unused, rfl, rfl, counters,
      fun a others column => (regs a others).trans (State.reg_tested_of_ne column), fun a => ?_, ?_, fun x y h => ?_⟩
    · rw [State.startedTile_lastCause, State.tested_tile]
    · rw [State.startedTile_runs, State.tested_tile]
    · rw [bytes, State.tested_byte]
    · rw [stns, State.tested_stns]
    · rw [tiles x y h, State.tested_tile]

end
